-- ==== Sys2Proof/Word.lean ====
section
/-! DEFINITION. The word types of the model: bytes, and the register and memory words the manual names
(00_scope R9: little-endian; every width is the manual's own). -/
namespace Sys2Proof

/-- One byte. -/
abbrev Byte := BitVec 8
/-- A 16-bit word. -/
abbrev W16 := BitVec 16
/-- A 32-bit word. -/
abbrev W32 := BitVec 32
/-- A 64-bit register or memory word. -/
abbrev W64 := BitVec 64
/-- A 64-byte line, a queue entry, a descriptor or a vector register (512 bits; byte 0 in bits [7:0]). -/
abbrev W512 := BitVec 512
/-- An 8-bit status code of R15 (a received code may be a reserved one, so it stays a byte). -/
abbrev Status := BitVec 8
/-- A sparse table: key and value pairs with strictly rising keys; what an unlisted key reads as is said where the table
is read. -/
abbrev NatMap (α : Type) := List (Nat × α)

end Sys2Proof
end

