-- ==== Sys2Proof/Syntax.lean ====
section
/-! DEFINITION. The commands of the block: one constructor of `Instr` per row of spec/opcode_table.json, with the
row's operands. The block takes commands from outside (register accesses, packets and messages on its ports, queue
entries its queues have fetched, wick instructions its wicks reach, events of its links, timers and pins). -/
namespace Sys2Proof

/-- Who issues a register access (17 R473, R474): the physical function, virtual function `n`, or the Lamplighter
with one of its ten banks (0 its firmware, 1 the serial session, 2 to 9 the Ethernet sessions). -/
inductive RegSrc where
  | pf
  | vf (n : Nat)
  | lmp (bank : Nat)
deriving DecidableEq, Repr

/-- A data packet: the header fields of 05 R126 and the payload bytes. `rsvd` says that a reserved bit is not 0. -/
structure Packet where
  opc     : BitVec 4
  cls     : BitVec 3
  dl      : Bool
  dst     : BitVec 10
  src     : BitVec 10
  part    : BitVec 6
  epoch   : BitVec 8
  len     : BitVec 8
  ekind   : BitVec 2
  eidx    : BitVec 12
  seq     : W32
  ctx     : BitVec 20
  status  : Status
  xl      : Bool
  nocomb  : Bool
  jc      : Bool
  addr    : BitVec 57
  coh     : Bool
  mir     : Bool
  key     : BitVec 12
  cen     : Bool
  cunit   : Bool
  counter : BitVec 17
  arg     : W32
  rsvd    : Bool
  payload : List Byte
deriving DecidableEq, Repr

/-- A control message (05 R131): the header, and bytes 8 to 31 as one 192-bit word (byte 8 in bits [7:0]). -/
structure CtlMsg where
  ctype : BitVec 4
  tag   : BitVec 8
  dst   : BitVec 10
  src   : BitVec 10
  part  : BitVec 6
  epoch : BitVec 8
  cseq  : W16
  rsvd  : Bool
  body  : BitVec 192
deriving DecidableEq, Repr

/-- How the host answers the controller's accesses to host memory in a command (03 R90). -/
inductive HostCpl where
  | ok | denied | abort | poisoned
deriving DecidableEq, Repr

/-- An engine of this controller (05 R126, R167): a wick, a channel of a sconce mover, a copy engine, the work
engine, or a whole sconce where a rule names one. -/
inductive Engine where
  | wick (w : Nat)
  | mover (sc : Nat) (ch : Nat)
  | copy (n : Nat)
  | work
  | sconce (sc : Nat)
deriving DecidableEq, Repr

/-- Who waits on a counter (06 R172): a wick's CWAIT, a plan's gate, a queue's COUNTER_WAIT. -/
inductive Waiter where
  | wick (w : Nat)
  | gate (h : Nat)
  | queue (q : Nat) (tag : W32)
deriving DecidableEq, Repr

/-- A memory target (05 R149): a sconce's stacked-DRAM controller, a capacity group or a flash group. -/
inductive Target where
  | sconce (sc : Nat)
  | cap (g : Nat)
  | flash (g : Nat)
deriving DecidableEq, Repr

/-- What a lane's FEC decoder makes of one codeword (04 R98, R99): corrected with its 20-bit lane header, the
symbols corrected and the payload cells taken, or discarded whole with the cells lost per sub-class. -/
inductive Codeword where
  | good (header : BitVec 20) (symbols : Nat) (cells : List W16)
  | bad
deriving DecidableEq, Repr

/-- Why a channel or die is due for retraining (16 R454, R455). -/
inductive RetrainWhy where
  | temperature (now : W16)
  | corrections (symbols : Nat)
deriving DecidableEq, Repr

/-- What a cold boot finds in the parts outside the model's control (16 R444, R445, R448): which firmware slots
verify, whether the factory blob verifies, capacity training and flash metadata, dies that fail training, physical
wicks the screen fails, and the flash scan's free blocks and wear. -/
structure BootScan where
  slotAOk    : Bool
  slotBOk    : Bool
  blobOk     : Bool
  capOk      : Bool
  flashBad   : BitVec 32
  badDies    : BitVec 8
  screenFail : List (Nat × Nat)
  flashFree  : W32
  flashWear  : Byte
  durationMs : W32
deriving DecidableEq, Repr

/-- A Lerter session (18 R504, 19 R527): the serial line, or slot `i` (0 to 3) of Ethernet port `port`. -/
inductive MonSess where
  | serial
  | eth (port : Nat) (i : Nat)
deriving DecidableEq, Repr

/-- A Lerter command line (18 R507). -/
inductive MonCmd where
  | help | stat | fblob | emberList | lock
  | rd (off : Nat) (n : Nat)
  | wr (off : Nat) (v : W64)
  | ering (seq : W32) (n : Nat)
  | reset (level : Nat) (target : Nat)
  | emberRead (slot : Nat) (off : Nat) (n : Nat)
  | emberErase (slot : Nat)
  | spird (off : Nat) (n : Nat)
  | sard (sa : W64) (n : Nat)
  | chal (level : Nat)
  | ans (i : Nat) (h : W512)
deriving DecidableEq, Repr

/-- A DOE mailbox request (13 R359): SPDM 1.3 attestation over a challenge, or IDE_KM key programming of an IDE
stream (stream 0 is the link stream, 1 to 8 the selective streams). -/
inductive DoeReq where
  | spdm (challenge : List Byte)
  | ideKeyProg (stream : Nat) (key : BitVec 256)
  | ideKeyGo (stream : Nat)
  | ideKeyStop (stream : Nat)
deriving DecidableEq, Repr

/-- The commands, one constructor per row of spec/opcode_table.json. A queue command carries its queue and the 64 B
submission entry (14 R397); a wick instruction carries its wick and the instruction word (08 R223). -/
inductive Instr where
  /-- REGISTER_WRITE (R12): A BAR0 or management write to a register that has no behaviour row of its own is applied, refused or dropped per its access code and range checks. -/
  | registerWrite (src : RegSrc) (off : Nat) (size : Nat) (v : W64)
  /-- RC_READ (R471): An 8 B read of an RC register returns its value and clears it in the same access. -/
  | rcRead (src : RegSrc) (off : Nat)
  /-- ERR_STAT_CLEAR (R477): A W1C write to a page's ERR_STAT clears bits, and when it reads 0 again ERR_FIRST is re-armed. -/
  | errStatClear (src : RegSrc) (page : Nat) (v : W64)
  /-- HUB_COUNTER_WRITE (R482): An 8 B BAR0 write to a hub counter entry adds its value to the counter for the writer's partition. -/
  | hubCounterWrite (src : RegSrc) (k : Nat) (size : Nat) (v : W64)
  /-- LOCAL_COUNTER_WRITE (R483): An 8 B BAR0 write to a sconce local counter adds its value, checked against the sconce owner. -/
  | localCounterWrite (src : RegSrc) (sc : Nat) (n : Nat) (size : Nat) (v : W64)
  /-- SEMAPHORE_READ (R484): A BAR0 read of a semaphore entry performs a semaphore READ. -/
  | semaphoreRead (src : RegSrc) (k : Nat)
  /-- SEMAPHORE_WRITE (R484): An 8 B BAR0 write to a semaphore entry performs SIGNAL with the written value, without a release wait. -/
  | semaphoreWrite (src : RegSrc) (k : Nat) (size : Nat) (v : W64)
  /-- DOORBELL (R395): An 8 B write to a queue doorbell in BAR2 sets the new tail and the controller reads submission entries from head to tail. -/
  | doorbell (src : RegSrc) (q : Nat) (size : Nat) (v : W64) (hc : HostCpl)
  /-- Q_ENABLE (R394): A write of WORK.Q_CFG.ENABLE enables or disables a queue after checking its context and composition ownership. -/
  | qEnable (src : RegSrc) (v : W64)
  /-- COPY (R398): Queue command that copies a range between store and Reservoir in 64 KiB tiles, ending at the first failed tile. -/
  | copy (q : Nat) (e : W512)
  /-- TILE_STREAM (R398): Queue command that issues a list of tile descriptors as a stream with up to 8 tiles in flight. -/
  | tileStream (q : Nat) (e : W512)
  /-- FENCE (R398): Queue command that waits for every earlier command of its queue and, with RELEASE, then sends a CNT_ADD. -/
  | fence (q : Nat) (e : W512)
  /-- COUNTER_WAIT (R399): Queue command that holds its queue until a hub counter reaches a target or its bound passes. -/
  | counterWait (q : Nat) (e : W512)
  /-- COUNTER_WAIT_BOUND (R399): The bound of a COUNTER_WAIT passes first and the command completes OK with result bit 0 clear, without acquire. -/
  | counterWaitBound (q : Nat) (tag : W32)
  /-- COUNTER_TARGET_REACHED (R172): A counter reaches a waiter's target and the waiting CWAIT, gate or COUNTER_WAIT completes as an acquire. -/
  | counterTargetReached (w : Waiter)
  /-- PREFETCH (R51): Advice operation that moves each block of a range to a target tier and optionally a target wick's sliver. -/
  | prefetch (q : Nat) (e : W512)
  /-- PIN (R51): Advice operation that moves each block to the stacked or capacity tier and adds 1 to its pin count. -/
  | pin (q : Nat) (e : W512)
  /-- UNPIN (R51): Advice operation that subtracts 1 from each block's pin count. -/
  | unpin (q : Nat) (e : W512)
  /-- COLD (R51): Advice operation that moves each block to the flash tier or the capacity tier. -/
  | cold (q : Nat) (e : W512)
  /-- MARK_SHADOW (R55): Advice operation that marks blocks shadowed and reserves their shadow space in the pool. -/
  | markShadow (q : Nat) (e : W512)
  /-- UNMARK_SHADOW (R51): Advice operation that clears the shadow mark and frees the shadow space. -/
  | unmarkShadow (q : Nat) (e : W512)
  /-- PREFETCH_FROM_HOST (R53): Queue command that copies a host range through the host link into a store range. -/
  | prefetchFromHost (q : Nat) (e : W512) (hc : HostCpl)
  /-- EVICT_TO_HOST (R53): Queue command that copies a store range to host memory, completing after a zero-length read, optionally applying COLD. -/
  | evictToHost (q : Nat) (e : W512) (hc : HostCpl)
  /-- SHOOTDOWN (R78): Queue command that withdraws translations of a context range from every cache of this controller. -/
  | shootdown (q : Nat) (e : W512)
  /-- SHOOT_CMD_GO (R79): A write of XLT.SHOOT_CMD.GO starts a shootdown from the staged registers, or is ignored when 16 are in progress. -/
  | shootCmdGo (src : RegSrc) (v : W64)
  /-- SHOOTDOWN_ACK (R79): A mover or copy engine finishes its pre-translated tiles and acknowledges the shootdown. -/
  | shootdownAck (id : Nat) (eng : Engine)
  /-- SHOOTDOWN_COMPLETE (R79): Every access under an old translation has been accepted or failed and the shootdown completes OK. -/
  | shootdownComplete (id : Nat)
  /-- SHOOTDOWN_OVERRUN (R79): An engine misses its 20 µs acknowledgement bound and is escalated, the shootdown completing with RESET_IN_PROGRESS. -/
  | shootdownOverrun (id : Nat) (eng : Engine)
  /-- RECLAIM (R383): Queue command that removes forfeit and LOST marks over a range, optionally zeroing the data. -/
  | reclaim (q : Nat) (e : W512)
  /-- REBUILD_SEND (R435): REBUILD with ROLE SEND copies mirrored blocks' ciphertext to the spare as TWIN_WRITEs with counter adds. -/
  | rebuildSend (q : Nat) (e : W512)
  /-- REBUILD_RECEIVE (R434): REBUILD with ROLE RECEIVE marks the named extents LOST and clears marks as its counter advances. -/
  | rebuildReceive (q : Nat) (e : W512)
  /-- REBUILD_SEND_DONE (R436): SEND has copied every block and installs or rewrites the mirror-map entry naming the spare. -/
  | rebuildSendDone
  /-- REBUILD_STALL (R434): The receive counter has not advanced for STALL µs and RECEIVE completes with LOST. -/
  | rebuildStall
  /-- EMBER_READ (R514): Queue command of partition 0 that writes decrypted bytes of an ember dump slot to a destination. -/
  | emberRead (q : Nat) (e : W512) (hc : HostCpl)
  /-- PLAN_ADMIT (R272): Queue command that checks a plan image and grants all its claims or none. -/
  | planAdmit (q : Nat) (e : W512)
  /-- PLAN_ARM (R275): Queue command that arms an admitted MULTI part whose GROUP_TAG matches. -/
  | planArm (q : Nat) (e : W512)
  /-- PLAN_RUN (R276): Queue command that starts a run of an idle admitted plan, optionally resetting its counters and run index. -/
  | planRun (q : Nat) (e : W512)
  /-- PLAN_RETIRE (R274): Queue command that waits for the current run to end and frees every claim of the plan. -/
  | planRetire (q : Nat) (e : W512)
  /-- GATE_OPEN (R276): A step's gate counter reaches its target for the run and the step starts as an acquire. -/
  | gateOpen (h : Nat)
  /-- STEP_START (R276): A plan step starts: buffers dropped, wicks reset, code loaded, generators seeded, streams begun. -/
  | stepStart (h : Nat)
  /-- SPOT_COPY_DONE (R215): The chosen wick's state has been copied to the spare, and the wick resumes with the spare behind it. -/
  | spotCopyDone (sc : Nat)
  /-- SPOT_COMPARE (R217): The spare's last output is compared and the check is recorded as match, mismatch or skip. -/
  | spotCompare (sc : Nat)
  /-- STEP_END (R276): Every wick has ended or stopped, every stream finished and every packet completed, so the step ends. -/
  | stepEnd (h : Nat)
  /-- STEP_OVERRUN (R279): A sconce or hub count reaches its step bound and every wick of the plan stops with STEP_OVERRUN. -/
  | stepOverrun (h : Nat) (wick : BitVec 12)
  /-- GATE_BOUND_EXPIRY (R279): A gate wait passes GATE_BOUND and the step overruns. -/
  | gateBoundExpiry (h : Nat)
  /-- APPEND (R293): Queue command that writes keys and values of a batch of KV sessions and updates stream lengths. -/
  | append (q : Nat) (e : W512)
  /-- ATTEND (R299): Function command that computes one layer of decode attention for a batch of sessions as a service instance. -/
  | attend (q : Nat) (e : W512) (mergeSeed : Nat)
  /-- GATHER (R325): EMBED operation that writes one output row per index or per distinct row. -/
  | gather (q : Nat) (e : W512) (late : List Nat) (hc : HostCpl)
  /-- POOL (R326): EMBED operation that pools rows into one output row per bag. -/
  | pool (q : Nat) (e : W512) (late : List Nat) (hc : HostCpl)
  /-- SCATTER_ADD (R327): EMBED operation that adds aggregated gradients into rows, optionally with row-wise Adagrad. -/
  | scatterAdd (q : Nat) (e : W512) (hc : HostCpl)
  /-- UPDATE_ROW (R328): EMBED operation that writes whole rows in place or at a new location and class. -/
  | updateRow (q : Nat) (e : W512) (hc : HostCpl)
  /-- TABLE_OPEN (R329): EMBED operation that reads a table descriptor, allocates its row-cache region and returns a table id. -/
  | tableOpen (q : Nat) (e : W512)
  /-- TABLE_CLOSE (R329): EMBED operation that aborts pending moves, evicts cached rows and frees the table's region. -/
  | tableClose (q : Nat) (e : W512) (hc : HostCpl)
  /-- ROW_MOVE (R319): A row-cache fill, eviction or replacement runs in the migration share and flips the directory entry by compare-and-swap. -/
  | rowMove (t : Nat) (u : Nat) (hc : HostCpl)
  /-- ADAMW (R341): OPTIM operator that applies the AdamW update per element over the chunks. -/
  | adamw (q : Nat) (e : W512)
  /-- SGD_M (R341): OPTIM operator that applies SGD with momentum, optionally Nesterov. -/
  | sgdM (q : Nat) (e : W512)
  /-- SIGN_M (R341): OPTIM operator that applies the sign-momentum update. -/
  | signM (q : Nat) (e : W512)
  /-- ROW_ADAGRAD (R341): OPTIM operator that applies row-wise Adagrad per row of ROW_LEN elements. -/
  | rowAdagrad (q : Nat) (e : W512)
  /-- NORM2 (R342): OPTIM operator that writes the fixed-order sum of squared scaled gradients. -/
  | norm2 (q : Nat) (e : W512)
  /-- ACCUM_STREAM (R335): Queue command that adds a range into the store as ACCUMULATE packets on a copy engine. -/
  | accumStream (q : Nat) (e : W512)
  /-- COLL_OPEN (R347): Queue command that opens a collective group from its descriptor and member list. -/
  | collOpen (q : Nat) (e : W512)
  /-- COLL_ABORT (R348): Queue command that aborts a collective group with a given cause. -/
  | collAbort (q : Nat) (e : W512)
  /-- COLL_RESET (R351): Queue command that zeroes a group's counters and returns it to ACTIVE, refused until 100 µs after abort. -/
  | collReset (q : Nat) (e : W512)
  /-- COLL_CLOSE (R351): Queue command that removes a collective group, leaving its counters. -/
  | collClose (q : Nat) (e : W512)
  /-- ABORT_REPEAT (R349): At 10 µs and 20 µs after entering ABORTED the controller sends ABORT to every member again. -/
  | abortRepeat (part : BitVec 6) (gid : BitVec 16)
  /-- CTX_INSTALL (R392): Queue command that installs a context descriptor from the partition's Reservoir bytes after ordered checks. -/
  | ctxInstall (q : Nat) (e : W512)
  /-- CTX_WITHDRAW (R393): Queue command that invalidates a context and runs a whole-context shootdown. -/
  | ctxWithdraw (q : Nat) (e : W512)
  /-- GRANT (R404): EXTENT operation that gives unowned extents to a composition. -/
  | grant (q : Nat) (e : W512)
  /-- REVOKE (R403): EXTENT operation that revokes extents: epoch bump, sweep, drain and unowning. -/
  | revoke (q : Nat) (e : W512)
  /-- HANDOVER (R403): EXTENT operation that moves extents and their key slots to another composition after draining. -/
  | handover (q : Nat) (e : W512)
  /-- EXTENT_DRAIN (R403): An extent's in-flight count reaches 0 and step 4 of the revocation or hand-over runs. -/
  | extentDrain (ext : Nat)
  /-- CREATE (R400): COMPOSE operation that makes a composition ACTIVE with its partition and host. -/
  | create (q : Nat) (e : W512)
  /-- ADD_AGENT (R400): COMPOSE operation that adds an accelerator, optionally with a forwarding slot. -/
  | addAgent (q : Nat) (e : W512)
  /-- REMOVE_AGENT (R400): COMPOSE operation that removes an accelerator from a composition. -/
  | removeAgent (q : Nat) (e : W512)
  /-- COMPOSE_END (R400): COMPOSE operation END that makes a composition FREE when it owns nothing. -/
  | composeEnd (q : Nat) (e : W512)
  /-- GRANT_SCONCE (R389): OWN_CMD kind 1 grants a sconce to a partition after zeroing it. -/
  | grantSconce (src : RegSrc) (idx : BitVec 12) (part : BitVec 6)
  /-- GRANT_HUB_COUNTERS (R389): OWN_CMD kind 2 grants a block of 1,024 hub counters, zeroed. -/
  | grantHubCounters (src : RegSrc) (idx : BitVec 12) (part : BitVec 6)
  /-- GRANT_SEMAPHORES (R389): OWN_CMD kind 3 grants a block of 256 semaphores. -/
  | grantSemaphores (src : RegSrc) (idx : BitVec 12) (part : BitVec 6)
  /-- GRANT_RESERVOIR (R389): OWN_CMD kind 4 grants a Reservoir MiB chunk after zeroing it. -/
  | grantReservoir (src : RegSrc) (idx : BitVec 12) (part : BitVec 6)
  /-- GRANT_ZEROING_DONE (R389): The zeroing of a grant ends and OWN_STAT.BUSY clears. -/
  | grantZeroingDone
  /-- SNUFF (R406): A write of WORK.SNUFF with GO tears down a composition's runs, commands, JC packets, groups and queues. -/
  | snuff (src : RegSrc) (v : W64)
  /-- TEARDOWN_REPEAT (R405): Every 10 ms without a snuff the teardown request is sent again. -/
  | teardownRepeat (comp : BitVec 12)
  /-- SNAP (R492): A write of MET.SNAP.GO copies a composition's metering counts and module time into the snapshot registers. -/
  | snap (src : RegSrc) (v : W64)
  /-- WALK (R76): An L2 miss is served by a walker reading the page-table levels, ending in a leaf or a fault. -/
  | walk (ctx : BitVec 20) (dva : W64)
  /-- READ (R128): A READ packet is received and read data is returned by READ_RSP or ERR_RSP. -/
  | read (port : Nat) (p : Packet) (hold : Bool)
  /-- WRITE (R128): A WRITE packet is received and applied, then acknowledged. -/
  | write (port : Nat) (p : Packet) (hold : Bool)
  /-- WRITE_MASKED (R128): A WRITE_MASKED packet writes the enabled bytes of one line and is acknowledged. -/
  | writeMasked (port : Nat) (p : Packet) (hold : Bool)
  /-- ACCUMULATE (R333): An ACCUMULATE packet adds its elements into memory elements of the named format. -/
  | accumulate (port : Nat) (p : Packet) (hold : Bool)
  /-- ATOMIC_ADD (R336): An ATOMIC ADD is applied once at the home and returns the old value. -/
  | atomicAdd (port : Nat) (p : Packet) (hold : Bool)
  /-- ATOMIC_MIN (R336): An ATOMIC MIN is applied once at the home and returns the old value. -/
  | atomicMin (port : Nat) (p : Packet) (hold : Bool)
  /-- ATOMIC_MAX (R336): An ATOMIC MAX is applied once at the home and returns the old value. -/
  | atomicMax (port : Nat) (p : Packet) (hold : Bool)
  /-- ATOMIC_CAS (R336): An ATOMIC CAS swaps when the old value matches bit for bit and returns the old value. -/
  | atomicCas (port : Nat) (p : Packet) (hold : Bool)
  /-- READ_RSP (R130): A READ_RSP arrives, is matched by SRC and SEQ and completes the read. -/
  | readRsp (port : Nat) (p : Packet)
  /-- ATOMIC_RSP (R130): An ATOMIC_RSP arrives and completes the atomic with the old value. -/
  | atomicRsp (port : Nat) (p : Packet)
  /-- ERR_RSP (R153): An ERR_RSP arrives and the request completes with all 0xFF bytes and the status. -/
  | errRsp (port : Nat) (p : Packet)
  /-- INVALIDATE (R376): A SNOOP INVALIDATE toward a host is converted into BISnpInv by the host link's controller. -/
  | invalidate (port : Nat) (p : Packet)
  /-- RECALL_SHARED (R376): A SNOOP RECALL_SHARED toward a host is converted into BISnpData. -/
  | recallShared (port : Nat) (p : Packet)
  /-- SNOOP_RSP (R372): A snoop answer arrives at the home and advances the directory transaction, with dirty data if any. -/
  | snoopRsp (port : Nat) (p : Packet)
  /-- LINE_BUFFER_WRITEBACK (R372): Dirty data held in O is applied at the tier and the entry becomes S. -/
  | lineBufferWriteback (line : Nat)
  /-- TWIN_WRITE (R353): A partner receives a TWIN_WRITE and applies the line bytes in its guest extent, then acknowledges. -/
  | twinWrite (port : Nat) (p : Packet)
  /-- TIER_APPLY (R169): A memory target accepts a write, accumulate or atomic, making it visible, and counts are added after. -/
  | tierApply (t : Target)
  /-- PACKET_FORWARD (R133): A packet not addressed to this controller is routed by the current or pending bank to its port. -/
  | packetForward (port : Nat) (p : Packet)
  /-- REPLAY_TIMEOUT (R141): A packet not completed within REPLAY_TMO is retransmitted with the same SEQ. -/
  | replayTimeout (dst : BitVec 10) (ctl : Bool) (seq : W32)
  /-- DEAD_TARGET_BOUND (R155): A packet reaches the dead-target bound and ends with TARGET_DEAD or PATH_LOST. -/
  | deadTargetBound (dst : BitVec 10) (ctl : Bool) (seq : W32)
  /-- CREDIT (R145): A CREDIT message updates the transmitter's credit from cumulative freed counts. -/
  | credit (port : Nat) (counts : List (BitVec 16))
  /-- CREDIT_SEND (R145): A receiver sends CREDIT at least every 64 ns while a count has changed. -/
  | creditSend (port : Nat)
  /-- MARK (R146): A MARK message is compared with received counts and lost cells are returned to the freed counts. -/
  | mark (port : Nat) (tag : BitVec 8) (counts : List (BitVec 16))
  /-- MARK_SEND (R146): At each mark stripe the transmitter sends its cumulative sent counts. -/
  | markSend (port : Nat)
  /-- ACK (R140): An ACK arrives and completes the acknowledged posted packets, freeing replay entries. -/
  | ack (port : Nat) (m : CtlMsg)
  /-- CSACK (R132): A CSACK completes the acknowledged CNT_ADDs, with a failure status when non-zero. -/
  | csack (port : Nat) (m : CtlMsg)
  /-- CNT_ADD (R171): A CNT_ADD message adds its increment to a hub counter after partition and duplicate checks. -/
  | cntAdd (port : Nat) (m : CtlMsg)
  /-- SEM_READ (R174): SEM_OP READ returns a semaphore's value without change. -/
  | semRead (port : Nat) (m : CtlMsg)
  /-- SIGNAL (R174): SEM_OP SIGNAL adds its operand to a semaphore as a release. -/
  | signal (port : Nat) (m : CtlMsg)
  /-- WAIT_DEC (R175): SEM_OP WAIT_DEC decrements when the value suffices, or is held in arrival order. -/
  | waitDec (port : Nat) (m : CtlMsg)
  /-- WAIT_DEC_TIMEOUT (R175): A WAIT_DEC held for DEAD_BOUND ÷ 2 is answered TAKEN = 0 and resent by its engine. -/
  | waitDecTimeout (sem : Nat)
  /-- TRY_DEC (R174): SEM_OP TRY_DEC decrements if the value is at or above its operand, never held. -/
  | tryDec (port : Nat) (m : CtlMsg)
  /-- SET (R174): SEM_OP SET sets a semaphore to its operand as a release. -/
  | set (port : Nat) (m : CtlMsg)
  /-- SEM_RSP (R174): A SEM_RSP completes a SEM_OP with the prior value and TAKEN. -/
  | semRsp (port : Nat) (m : CtlMsg)
  /-- ABORT (R349): An ABORT message for an open group from a member enters ABORTED and forwards ABORT once, or is ignored. -/
  | abort (port : Nat) (m : CtlMsg)
  /-- NO_ROUTE (R155): A NO_ROUTE message records that a destination is unreachable for the PATH_LOST decision. -/
  | noRoute (port : Nat) (m : CtlMsg)
  /-- PREPARED (R136): An EPOCH PREPARED answer from an attached accelerator is collected, setting PREPARED when all have answered. -/
  | prepared (port : Nat) (m : CtlMsg)
  /-- PREPARE (R136): EPOCH_CMD PREPARE freezes the pending bank and passes PREPARE to attached accelerators. -/
  | prepare (src : RegSrc) (epoch : BitVec 8)
  /-- COMMIT (R136): EPOCH_CMD COMMIT swaps banks, stamping new requests with the new epoch. -/
  | commit (src : RegSrc) (epoch : BitVec 8) (added : List (BitVec 10))
  /-- RETIRE (R136): EPOCH_CMD RETIRE clears the old bank after DRAINED. -/
  | retire (src : RegSrc) (epoch : BitVec 8)
  /-- ROUTE_DATA (R159): A write of XBAR.ROUTE_DATA sets a route entry of the non-current bank unless it is frozen. -/
  | routeData (src : RegSrc) (v : W64)
  /-- CODEWORD_RECEIVE (R99): A lane codeword is FEC-decoded, its header taken, and an uncorrectable codeword discarded with its packets. -/
  | codewordReceive (port : Nat) (lane : Nat) (cw : Codeword)
  /-- PORT_ENABLE (R109): Setting LNTn.CTRL.ENABLE trains all five lanes in parallel. -/
  | portEnable (src : RegSrc) (port : Nat)
  /-- PORT_DISABLE (R109): Clearing LNTn.CTRL.ENABLE takes every lane to OFF within 1 ms. -/
  | portDisable (src : RegSrc) (port : Nat)
  /-- TRAINING_ATTEMPT (R109): A lane training attempt locks rings, adapts, aligns and exchanges, ending ACTIVE. -/
  | trainingAttempt (port : Nat) (lane : Nat) (tx : BitVec 12) (rx : BitVec 12)
  /-- TRAINING_BOUND_MISS (R109): An attempt misses a step bound, fails and the next attempt starts, the third failure entering FAILED. -/
  | trainingBoundMiss (port : Nat) (lane : Nat)
  /-- NO_PEER_TIMEOUT (R109): No peer answers within 1 s of enabling and NO_PEER is set once. -/
  | noPeerTimeout (port : Nat)
  /-- UNCORR_WINDOW (R110): A lane discards more than UNCORR codewords in 1 ms and retrains. -/
  | uncorrWindow (port : Nat) (lane : Nat) (n : Nat)
  /-- SER_WINDOW (R110): A lane's corrected-symbol ratio stays above the limit for 10 ms and it retrains. -/
  | serWindow (port : Nat) (lane : Nat) (corrected : Nat) (symbols : Nat)
  /-- RING_LOCK_LOSS (R106): A ring heater reaches its range end, loses lock and the lane retrains. -/
  | ringLockLoss (port : Nat) (lane : Nat) (rx : Bool) (top : Bool)
  /-- SIGNAL_LOSS_TIMEOUT (R105): Received signal lost for more than 100 µs starts a retrain of the lane. -/
  | signalLossTimeout (port : Nat) (lane : Nat)
  /-- SIGNAL_RETURN (R105): Signal returns within 100 µs and the lane regains codeword alignment without retraining. -/
  | signalReturn (port : Nat) (lane : Nat)
  /-- ACTIVE_MAP_CHANGE (R112): A new data-lane map takes effect at the next CW_SEQ multiple of 16 after 8 codewords. -/
  | activeMapChange (port : Nat) (tx : Bool) (map : BitVec 4)
  /-- CONTROL_FAILOVER (R115): The control lane leaves ACTIVE and control traffic moves to the chosen data lane at the next boundary. -/
  | controlFailover (port : Nat)
  /-- CONTROL_RETURN (R115): The control lane is ACTIVE again and control traffic returns to it. -/
  | controlReturn (port : Nat)
  /-- LANE_RETRAIN (R116): LANE_CMD RETRAIN retrains a lane, also leaving FAILED. -/
  | laneRetrain (src : RegSrc) (port : Nat) (lane : BitVec 3)
  /-- LANE_DISABLE (R116): LANE_CMD DISABLE darkens a lane's transmitter. -/
  | laneDisable (src : RegSrc) (port : Nat) (lane : BitVec 3)
  /-- LANE_ENABLE (R116): LANE_CMD ENABLE re-enables a disabled or FAILED lane. -/
  | laneEnable (src : RegSrc) (port : Nat) (lane : BitVec 3)
  /-- LOSS_OF_LIGHT (R102): The active laser input falls below threshold and the controller switches to the other input. -/
  | lossOfLight (litA : BitVec 5) (litB : BitVec 5) (within1s : Bool)
  /-- LASERS_LOST (R104): Neither input supplies light and every port enters DOWN. -/
  | lasersLost (litA : BitVec 5) (litB : BitVec 5)
  /-- LIGHT_RESTORED (R104): An input is lit again on all wavelengths and every enabled port trains from OFF. -/
  | lightRestored (litA : BitVec 5) (litB : BitVec 5)
  /-- SWITCH (R103): LASER_CMD.SWITCH moves to the other laser input if it is lit. -/
  | switch (src : RegSrc) (v : W64)
  /-- POLICY_MOVE (R44): The counter policy starts a one-tier move of a candidate in the migration share, sweeping for a victim. -/
  | policyMove (block : Nat)
  /-- MOVE_FLIP (R46): A move's copy ends and the block-map entry is updated in one step to the new location. -/
  | moveFlip (block : Nat)
  /-- MOVE_COMPLETE (R46): Requests looked up before the flip drain and the old location is freed. -/
  | moveComplete (block : Nat)
  /-- SHADOW_REWRITE (R55): The placement engine writes or rewrites a stale shadow in the migration share. -/
  | shadowRewrite (block : Nat)
  /-- GARBAGE_COLLECTION (R56): The flash manager relocates pages in its fixed 10 % of channel time. -/
  | garbageCollection (channel : Nat) (pages : Nat) (freed : Nat) (retired : Nat)
  /-- FLASH_READ_COMPLETE (R58): A flash page read completes, rebuilding from its stripe when LDPC fails. -/
  | flashReadComplete (block : Nat) (page : Nat) (corrected : Nat) (ldpcOk : Bool) (rebuildOk : Bool)
  /-- TILE_COMPLETE (R64): A tile delivers all its destination bytes and adds them to its counter, or delivers none. -/
  | tileComplete (id : Nat)
  /-- DEADLINE_EXPIRY (R65): A tile fetch's budget ends with a block unread and WAIT, SHADOW or STATUS applies. -/
  | deadlineExpiry (id : Nat) (late : List Nat)
  /-- CHANNEL_RETRAIN_DUE (R455): A capacity channel meets a retrain trigger and retrains when its group has none retraining. -/
  | channelRetrainDue (ch : Nat) (why : RetrainWhy)
  /-- CHANNEL_READY (R455): A capacity channel's retraining ends and held accesses proceed. -/
  | channelReady (ch : Nat) (ok : Bool)
  /-- DIE_RETRAIN_DUE (R454): A stacked die meets a temperature or correction trigger and enters PENDING. -/
  | dieRetrainDue (die : Nat) (why : RetrainWhy)
  /-- DIE_TRAINING_START (R454): No claiming step is running and the die enters TRAINING. -/
  | dieTrainingStart (die : Nat)
  /-- DIE_READY (R454): The die is READY again and held steps and accesses proceed. -/
  | dieReady (die : Nat) (ok : Bool) (temp : BitVec 16)
  /-- RETRAIN_CMD (R454): A write of STKn or CAPn RETRAIN_CMD.GO makes the die or channel due for retraining. -/
  | retrainCmd (src : RegSrc) (page : Nat) (v : W64)
  /-- LOAD (R84): SLOT_CMD LOAD unwraps a key pair into an invalid slot and sets its owner. -/
  | load (src : RegSrc) (owner : BitVec 6)
  /-- CLEAR (R85): SLOT_CMD CLEAR invalidates a slot and zeroes it once accesses drain. -/
  | clear (src : RegSrc)
  /-- SET_OWNER (R85): SLOT_CMD SET_OWNER changes a valid slot's owning partition. -/
  | setOwner (src : RegSrc) (owner : BitVec 6)
  /-- KEY_DRAIN_DONE (R85): Accesses before a CLEAR or SET_OWNER point drain and SLOT_STAT.BUSY clears. -/
  | keyDrainDone (slot : BitVec 12)
  /-- MEMRD (R366): A CXL.mem read is converted through the window to a DVA and sent to the home as a 64 B READ. -/
  | memrd (addr : W64) (metaVal : BitVec 2)
  /-- MEMWR (R366): A CXL.mem write is sent to the home and answered with Cmp once applied. -/
  | memwr (addr : W64) (metaVal : BitVec 2) (mask : W64) (data : List Byte) (poison : Bool)
  /-- BIRSP (R376): A host BIRsp arrives and the controller answers the home's snoop. -/
  | birsp (line : Nat) (dirty : Option (List Byte))
  /-- BISNP_TIMEOUT (R376): A BISnp unanswered within BISNP_BOUND declares the host dead. -/
  | bisnpTimeout (line : Nat)
  /-- DL_INACTIVE_TIMEOUT (R380): The data link stays out of DL_Active for 100 ms and the host is declared dead. -/
  | dlInactiveTimeout
  /-- DECLARE_DEAD (R380): HOST_CMD DECLARE_DEAD declares the host dead and starts a DEAD sweep. -/
  | declareDead (src : RegSrc)
  /-- REVIVE (R384): HOST_CMD REVIVE clears DEAD once the DEAD sweep has ended. -/
  | revive (src : RegSrc)
  /-- DEAD_SWEEP (R381): SWEEP_CMD MODE DEAD walks the directory forfeiting and removing one agent. -/
  | deadSweep (src : RegSrc) (agent : BitVec 10)
  /-- REMOVE_SWEEP (R381): SWEEP_CMD MODE REMOVE walks the directory invalidating one agent. -/
  | removeSweep (src : RegSrc) (agent : BitVec 10)
  /-- SWEEP_END (R381): A sweep has walked every entry and SWEEP_DONE is set. -/
  | sweepEnd
  /-- CWIN_CACHE_CLEAR (R386): A write clearing a CACHE bit of a coherent window starts a REMOVE sweep for that agent. -/
  | cwinCacheClear (src : RegSrc) (v : W64)
  /-- HDM_COMMIT (R365): A host commits an HDM decoder and the binding is checked, failing with Error Not Committed. -/
  | hdmCommit (n : Nat) (base : W64) (size : W64) (coherent : Bool) (ways : Nat)
  /-- FUNCTION_LEVEL_RESET (R362): An FLR of virtual function n resets its config space and requests a partition reset of partition n. -/
  | functionLevelReset (n : BitVec 6)
  /-- HOST_LINK_RESET (R452): PERST_N or a hot reset resets the host-link island, stops host-ring queues and declares the host dead. -/
  | hostLinkReset (perst : Bool)
  /-- ATS_INVALIDATION (R90): An ATS invalidation request is honoured once host-memory accesses using the entry complete. -/
  | atsInvalidation (base : W64) (len : W64)
  /-- CONFIG_REQUEST (R444): A configuration request is answered with retry status until ready, then normally. -/
  | configRequest (fn : BitVec 6) (write : Bool) (off : BitVec 12) (v : W32)
  /-- RESERVOIR_BAR_ACCESS (R363): A BAR4 access reads or writes the Reservoir, or fails with Unsupported Request and an error record. -/
  | reservoirBarAccess (src : RegSrc) (off : Nat) (len : Nat) (write : Option (List Byte))
  /-- FORWARD_WRITE (R401): A host write to a forwarding slot is sent to the accelerator as WRITE_MASKED. -/
  | forwardWrite (src : RegSrc) (slot : Nat) (off : Nat) (data : List Byte)
  /-- FORWARD_READ (R401): A host read of a forwarding slot is sent as a 64 B READ to the accelerator. -/
  | forwardRead (src : RegSrc) (slot : Nat) (off : Nat) (len : Nat)
  /-- IDENTIFY_MEMORY_DEVICE (R361): Mailbox command Identify Memory Device returns device identification. -/
  | identifyMemoryDevice
  /-- GET_SUPPORTED_LOGS (R361): Mailbox command Get Supported Logs returns the supported logs. -/
  | getSupportedLogs
  /-- GET_LOG (R361): Mailbox command Get Log returns a log. -/
  | getLog (id : Nat) (off : Nat) (len : Nat)
  /-- GET_EVENT_RECORDS (R361): Mailbox command Get Event Records returns event records. -/
  | getEventRecords (log : Nat)
  /-- CLEAR_EVENT_RECORDS (R361): Mailbox command Clear Event Records clears event records. -/
  | clearEventRecords (log : Nat) (n : Nat)
  /-- GET_HEALTH_INFO (R361): Mailbox command Get Health Info returns health information. -/
  | getHealthInfo
  /-- MAILBOX_UNSUPPORTED (R361): Any other mailbox opcode returns Unsupported. -/
  | mailboxUnsupported (opcode : BitVec 16)
  /-- ERROR_RECORD_WRITE (R413): The ring writer takes one record from an island queue, assigns SEQ and writes it to the ring. -/
  | errorRecordWrite (island : BitVec 8)
  /-- RECORD_EXPORT (R414): The Lamplighter copies a record to a partition's export ring, advances EXP_HEAD and signals. -/
  | recordExport (part : BitVec 6) (hc : HostCpl)
  /-- BEACON (R416): Every 1 ms of module time the Lamplighter emits a beacon to register, host, ports and Ethernet. -/
  | beacon
  /-- WATCHDOG_HANG (R417): Sixteen beacon periods pass without a beacon and the watchdog restarts the Lamplighter. -/
  | watchdogHang (within10s : Bool)
  /-- LAMPLIGHTER_RESUME (R417): Firmware has rebuilt its state after a restart and export, management and admissions resume. -/
  | lamplighterResume
  /-- COPY_ENGINE_HANG (R419): A copy engine holding work issues nothing for 4 × DEAD_BOUND and suspect replay starts. -/
  | copyEngineHang (eng : Nat) (internal : Bool) (guilty : Option Nat)
  /-- CONTEXT_RESET (R425): RESET_CMD level 1 resets one context: runs, commands, translations and packets. -/
  | contextReset (src : RegSrc) (v : W64)
  /-- ENGINE_RESET (R426): RESET_CMD level 2 resets one sconce or copy engine. -/
  | engineReset (src : RegSrc) (v : W64)
  /-- PARTITION_RESET (R427): RESET_CMD level 3 resets one partition's contexts, plans, queues, groups and values. -/
  | partitionReset (src : RegSrc) (v : W64)
  /-- COMPUTE_RESET (R449): RESET_CMD level 4 resets sconces and engines while fabric, host link and tiers run. -/
  | computeReset (src : RegSrc) (v : W64)
  /-- POWER_CYCLE_REQUEST (R423): RESET_CMD level 5 raises a power-cycle request over I3C. -/
  | powerCycleRequest (src : RegSrc) (v : W64)
  /-- RESET_OVERRUN (R423): A reset level misses its bound and the next level is started. -/
  | resetOverrun (level : Nat) (target : Nat)
  /-- QUIESCE (R476): Setting SCN CTRL.QUIESCE holds new step starts on the sconce. -/
  | quiesce (src : RegSrc) (sc : Nat) (on : Bool)
  /-- SCONCE_RESET (R476): Setting SCN CTRL.RESET starts a level-2 reset of the sconce. -/
  | sconceReset (src : RegSrc) (sc : Nat)
  /-- FATAL_STOP (R429): A thermal crossing or uncorrectable error in critical state stops the fabric and host link and starts an ember dump. -/
  | fatalStop (cause : BitVec 8)
  /-- EMBER_DUMP (R510): State is captured to capacity then flash and a power cycle is requested. -/
  | emberDump (flashOk : Bool)
  /-- LOST_CMD (R432): PLC.LOST_CMD with GO marks whole extents of this home LOST. -/
  | lostCmd (src : RegSrc) (v : W64)
  /-- COLD_BOOT (R444): Release of the module reset starts the cold boot from fuses, firmware and calibration. -/
  | coldBoot (scan : BootScan)
  /-- COLD_BOOT_READY (R444): Cold-boot work ends, TOP.STAT ready is set, the first beacon sent and admission opens. -/
  | coldBootReady
  /-- CAL_CMD (R461): A write of LMP.CAL_CMD with GO checks and writes a new user calibration copy. -/
  | calCmd (src : RegSrc) (v : W64)
  /-- CAL_WRITTEN (R461): The new user copy is current, BUSY clears and CAL_WRITTEN is set. -/
  | calWritten
  /-- CLASS_REQ (R453): A write of PWR.CLASS_REQ stores the POWER_CLASS item in the user area. -/
  | classReq (src : RegSrc) (v : W64)
  /-- POOL_CFG (R66): A write of PLC.POOL_CFG stores the pool sizes in the user area for the next cold boot. -/
  | poolCfg (src : RegSrc) (v : W64)
  /-- OPKEY_CMD (R509): A write of MON.OPKEY_CMD replaces the operator key modulus in SPI flash. -/
  | opkeyCmd (src : RegSrc) (v : W64)
  /-- MON_CMD_LOCK (R506): A write of MON.MON_CMD.LOCK ends the monitor session at level 0. -/
  | monCmdLock (src : RegSrc) (v : W64)
  /-- PIN_UNMASK (R528): A write of PWR.PIN_CMD.UNMASK unmasks COOLANT_FAULT_N. -/
  | pinUnmask (src : RegSrc) (v : W64)
  /-- SENSOR_SAMPLE (R531): Every 100 µs each temperature sensor is sampled and compared with its stop limit. -/
  | sensorSample (sensor : Nat) (raw : BitVec 16)
  /-- SENSOR_FAIL (R490): A sensor failing its self-check is marked failed and replaced by neighbours' readings. -/
  | sensorFail (sensor : Nat)
  /-- HELP (R507): Lerter command listing the commands of the session's level. -/
  | help (ss : MonSess) (len : Nat) (lost : Bool)
  /-- STAT (R507): Lerter command returning boot, reset, beacon, watchdog, temperature and power state. -/
  | stat (ss : MonSess)
  /-- RD (R507): Lerter command performing n consecutive 8 B register reads. -/
  | rd (ss : MonSess) (off : Nat) (n : Nat)
  /-- WR (R507): Lerter command performing one 8 B register write. -/
  | wr (ss : MonSess) (off : Nat) (v : W64)
  /-- ERING (R507): Lerter command returning error records from a SEQ. -/
  | ering (ss : MonSess) (seq : W32) (n : Nat)
  /-- FBLOB (R507): Lerter command returning the factory blob records. -/
  | fblob (ss : MonSess)
  /-- RESET (R507): Lerter command acting as TOP.RESET_CMD with a level and target. -/
  | reset (ss : MonSess) (level : Nat) (target : Nat)
  /-- EMBER_LIST (R507): Lerter command returning the header of each valid ember slot. -/
  | emberList (ss : MonSess)
  /-- MON_EMBER_READ (R507): Lerter command EMBER READ returning decrypted lines of a dump slot. -/
  | monEmberRead (ss : MonSess) (slot : Nat) (off : Nat) (n : Nat)
  /-- EMBER_ERASE (R515): Lerter command invalidating an ember slot by overwriting its header. -/
  | emberErase (ss : MonSess) (slot : Nat)
  /-- SPIRD (R507): Lerter command returning raw SPI flash bytes at service level. -/
  | spird (ss : MonSess) (off : Nat) (n : Nat)
  /-- SARD (R507): Lerter command returning stored ciphertext at a store address at service level. -/
  | sard (ss : MonSess) (sa : W64) (n : Nat)
  /-- CHAL (R505): Lerter command returning a fresh nonce for unlocking a level. -/
  | chal (ss : MonSess) (level : Nat)
  /-- ANS (R505): Lerter command carrying one part of the unlock signature, checked after part 7. -/
  | ans (ss : MonSess) (i : Nat) (h : BitVec 512)
  /-- LOCK (R506): Lerter command returning the session to level 0. -/
  | lock (ss : MonSess)
  /-- BREAK_RESET (R502): A break held longer than 1 s resets the monitor parser. -/
  | breakReset
  /-- NONCE_EXPIRY (R505): An unlock nonce expires 60 s after CHAL. -/
  | nonceExpiry (ss : MonSess)
  /-- SESSION_TIMEOUT (R506): A monitor session returns to level 0 after 15 minutes without a command. -/
  | sessionTimeout (ss : MonSess)
  /-- MON_REQ (R527): A MON_REQ frame opens or continues an Ethernet monitor session and its command line runs or its answer is resent. -/
  | monReq (port : Nat) (mac : BitVec 48) (seq : BitVec 16) (cmd : MonCmd)
  /-- POWER_ON (R521): I3C POWER_CMD ON makes main power due. -/
  | powerOn
  /-- POWER_OFF (R522): I3C POWER_CMD OFF powers the main rails down. -/
  | powerOff
  /-- CYCLE (R522): I3C POWER_CMD CYCLE powers off, waits 2 s and powers on. -/
  | cycle
  /-- COLD_RESET (R524): I3C POWER_CMD COLD_RESET acts as a SYS_RESET_N pulse. -/
  | coldReset
  /-- I3C_COMPUTE_RESET (R525): I3C POWER_CMD COMPUTE_RESET starts a level-4 reset on the fast path. -/
  | i3cComputeReset
  /-- ALERT_CLEAR (R525): A W1C write of the I3C ALERT register clears bits whose conditions no longer hold. -/
  | alertClear (v : BitVec 16)
  /-- ALERT_REPEAT (R525): While ALERT is not 0 the in-band interrupt is raised again every 1 s. -/
  | alertRepeat
  /-- DYNAMIC_ADDRESS (R524): ENTDAA or SETDASA assigns the I3C target a dynamic address. -/
  | dynamicAddress (addr : BitVec 7)
  /-- PWR_EN_HIGH (R521): PWR_EN held high for 1 ms makes power-up due. -/
  | pwrEnHigh
  /-- PWR_EN_LOW (R522): PWR_EN held low for 1 ms powers down at once. -/
  | pwrEnLow
  /-- POWER_UP (R521): Main rails come up in order, PWRGD is released and the module reset is released. -/
  | powerUp
  /-- MIN_OFF_TIME_END (R521): The main rails have been off 2 s and a waiting power-up proceeds. -/
  | minOffTimeEnd
  /-- SYS_RESET_ASSERT (R523): SYS_RESET_N asserted past its filter holds every main-rail domain in reset. -/
  | sysResetAssert
  /-- SYS_RESET_RELEASE (R523): SYS_RESET_N released starts a cold boot. -/
  | sysResetRelease
  /-- RESET_HELD (R528): SYS_RESET_N or PERST_N held asserted longer than 1 s sets RESET_HELD and alerts. -/
  | resetHeld (perst : Bool)
  /-- COOLANT_FAULT (R528): COOLANT_FAULT_N asserted sets COOLANT_FAULT and ALERT COOLANT only. -/
  | coolantFault
  /-- INPUT_MASKED (R528): More than 1,000 COOLANT_FAULT_N edges in a 10 ms window mask the input. -/
  | inputMasked (edges : Nat)
  /-- FEED_CONNECT (R519): Connecting the 64 V feed limits inrush and brings up the standby rail. -/
  | feedConnect
  /-- INPUT_RANGE_TRIP (R519): Input voltage out of range for 100 µs opens the input stage and switches off every main rail. -/
  | inputRangeTrip
  /-- OVERCURRENT_TRIP (R519): Input current above the class limit for 5 ms opens the input stage. -/
  | overcurrentTrip
  /-- SALU_ADD (R226): Scalar add of two registers modulo 2^64. -/
  | saluAdd (w : Nat) (word : W32)
  /-- SALU_SUB (R226): Scalar subtract A − B. -/
  | saluSub (w : Nat) (word : W32)
  /-- SALU_AND (R226): Scalar bitwise AND. -/
  | saluAnd (w : Nat) (word : W32)
  /-- SALU_OR (R226): Scalar bitwise OR. -/
  | saluOr (w : Nat) (word : W32)
  /-- SALU_XOR (R226): Scalar bitwise XOR. -/
  | saluXor (w : Nat) (word : W32)
  /-- ANDN (R226): Scalar A and not B. -/
  | andn (w : Nat) (word : W32)
  /-- SALU_SHL (R226): Scalar shift left by B[5:0]. -/
  | saluShl (w : Nat) (word : W32)
  /-- SALU_SHR (R226): Scalar logical shift right. -/
  | saluShr (w : Nat) (word : W32)
  /-- SALU_SAR (R226): Scalar arithmetic shift right. -/
  | saluSar (w : Nat) (word : W32)
  /-- ROR (R226): Scalar rotate right. -/
  | ror (w : Nat) (word : W32)
  /-- CLT (R226): Scalar signed less-than to 0 or 1. -/
  | clt (w : Nat) (word : W32)
  /-- CLTU (R226): Scalar unsigned less-than to 0 or 1. -/
  | cltu (w : Nat) (word : W32)
  /-- CEQ (R226): Scalar equality to 0 or 1. -/
  | ceq (w : Nat) (word : W32)
  /-- SALU_MIN (R226): Scalar signed minimum. -/
  | saluMin (w : Nat) (word : W32)
  /-- SALU_MAX (R226): Scalar signed maximum. -/
  | saluMax (w : Nat) (word : W32)
  /-- MINU (R226): Scalar unsigned minimum. -/
  | minu (w : Nat) (word : W32)
  /-- MAXU (R226): Scalar unsigned maximum. -/
  | maxu (w : Nat) (word : W32)
  /-- MULLO (R226): Low 64 bits of the scalar product. -/
  | mullo (w : Nat) (word : W32)
  /-- MULHI (R226): High 64 bits of the signed product. -/
  | mulhi (w : Nat) (word : W32)
  /-- MULHIU (R226): High 64 bits of the unsigned product. -/
  | mulhiu (w : Nat) (word : W32)
  /-- QUO (R226): Unsigned quotient, 0 with DZ on division by zero. -/
  | quo (w : Nat) (word : W32)
  /-- MOD (R226): Unsigned remainder, 0 with DZ on division by zero. -/
  | mod (w : Nat) (word : W32)
  /-- POPC (R226): Count of set bits of A. -/
  | popc (w : Nat) (word : W32)
  /-- CLZ (R226): Count of leading zero bits of A. -/
  | clz (w : Nat) (word : W32)
  /-- ADDI (R227): Scalar add of a sign-extended immediate. -/
  | addi (w : Nat) (word : W32)
  /-- ANDI (R227): Scalar AND with an immediate. -/
  | andi (w : Nat) (word : W32)
  /-- ORI (R227): Scalar OR with an immediate. -/
  | ori (w : Nat) (word : W32)
  /-- XORI (R227): Scalar XOR with an immediate. -/
  | xori (w : Nat) (word : W32)
  /-- SHLI (R227): Scalar shift left by an immediate. -/
  | shli (w : Nat) (word : W32)
  /-- SHRI (R227): Scalar logical shift right by an immediate. -/
  | shri (w : Nat) (word : W32)
  /-- SARI (R227): Scalar arithmetic shift right by an immediate. -/
  | sari (w : Nat) (word : W32)
  /-- MULI (R227): Low 64 bits of A times an immediate. -/
  | muli (w : Nat) (word : W32)
  /-- SETQ (R228): Writes a 16-bit quarter and sign- or zero-fills the others. -/
  | setq (w : Nat) (word : W32)
  /-- PUTQ (R228): Writes a 16-bit quarter keeping the others. -/
  | putq (w : Nat) (word : W32)
  /-- BR (R229): Conditional branch on the F3 condition, DNZ decrementing D. -/
  | br (w : Nat) (word : W32)
  /-- CALL (R229): Sets D to the return index and jumps to TARGET. -/
  | call (w : Nat) (word : W32)
  /-- JIND (R229): Sets D to the return index and jumps to A + IMM. -/
  | jind (w : Nat) (word : W32)
  /-- NOP (R236): Does nothing. -/
  | nop (w : Nat) (word : W32)
  /-- END (R253): Finishes the wick's work in the current step. -/
  | endProgram (w : Nat) (word : W32)
  /-- MFS (R236): Reads a special register into a scalar register. -/
  | mfs (w : Nat) (word : W32)
  /-- MTS (R236): Writes a scalar register to a writable special register. -/
  | mts (w : Nat) (word : W32)
  /-- LDS (R231): Scalar load from scratch. -/
  | lds (w : Nat) (word : W32)
  /-- STS (R231): Scalar store to scratch. -/
  | sts (w : Nat) (word : W32)
  /-- LDV (R231): Vector load of 64 B from scratch. -/
  | ldv (w : Nat) (word : W32)
  /-- STV (R231): Masked vector store to scratch. -/
  | stv (w : Nat) (word : W32)
  /-- LDM (R231): Scalar load from the store, possibly from the read buffer. -/
  | ldm (w : Nat) (word : W32)
  /-- STM (R231): Scalar store to the store as one posted WRITE_MASKED. -/
  | stm (w : Nat) (word : W32)
  /-- LDMV (R231): Vector load of 64 B from the store. -/
  | ldmv (w : Nat) (word : W32)
  /-- STMV (R231): Vector store to the store as WRITE or WRITE_MASKED. -/
  | stmv (w : Nat) (word : W32)
  /-- LDA (R231): Scalar load-acquire from the home. -/
  | lda (w : Nat) (word : W32)
  /-- STR (R252): Scalar store-release that waits for the wick's packets before sending. -/
  | str (w : Nat) (word : W32)
  /-- STN (R232): Narrowing vector store of 16 FP32 lanes to scratch or store. -/
  | stn (w : Nat) (word : W32)
  /-- AMO (R233): Sends one ATOMIC and waits for the old value. -/
  | amo (w : Nat) (word : W32)
  /-- VACC (R234): Sends a vector as one posted 64 B ACCUMULATE. -/
  | vacc (w : Nat) (word : W32)
  /-- LDSB (R235): Loads 8 SB blocks from scratch into register layout. -/
  | ldsb (w : Nat) (word : W32)
  /-- STSB (R235): Stores 8 SB blocks from registers to scratch. -/
  | stsb (w : Nat) (word : W32)
  /-- FADD (R239): FP32 vector add. -/
  | fadd (w : Nat) (word : W32)
  /-- FSUB (R239): FP32 vector subtract. -/
  | fsub (w : Nat) (word : W32)
  /-- FMUL (R239): FP32 vector multiply. -/
  | fmul (w : Nat) (word : W32)
  /-- FMA (R239): FP32 fused multiply-add. -/
  | fma (w : Nat) (word : W32)
  /-- FNMA (R239): FP32 negated fused multiply-add. -/
  | fnma (w : Nat) (word : W32)
  /-- FMIN (R239): FP32 vector minimum. -/
  | fmin (w : Nat) (word : W32)
  /-- FMAX (R239): FP32 vector maximum. -/
  | fmax (w : Nat) (word : W32)
  /-- FABS (R239): FP32 absolute value. -/
  | fabs (w : Nat) (word : W32)
  /-- FNEG (R239): FP32 negation. -/
  | fneg (w : Nat) (word : W32)
  /-- IADD (R239): 32-bit lane add. -/
  | iadd (w : Nat) (word : W32)
  /-- ISUB (R239): 32-bit lane subtract. -/
  | isub (w : Nat) (word : W32)
  /-- IMUL (R239): 32-bit lane multiply, low half. -/
  | imul (w : Nat) (word : W32)
  /-- VALU_AND (R239): Vector bitwise AND. -/
  | valuAnd (w : Nat) (word : W32)
  /-- VALU_OR (R239): Vector bitwise OR. -/
  | valuOr (w : Nat) (word : W32)
  /-- VALU_XOR (R239): Vector bitwise XOR. -/
  | valuXor (w : Nat) (word : W32)
  /-- VALU_SHL (R239): Vector lane shift left. -/
  | valuShl (w : Nat) (word : W32)
  /-- VALU_SHR (R239): Vector lane logical shift right. -/
  | valuShr (w : Nat) (word : W32)
  /-- VALU_SAR (R239): Vector lane arithmetic shift right. -/
  | valuSar (w : Nat) (word : W32)
  /-- IMIN (R239): Signed 32-bit lane minimum. -/
  | imin (w : Nat) (word : W32)
  /-- IMAX (R239): Signed 32-bit lane maximum. -/
  | imax (w : Nat) (word : W32)
  /-- MOV (R239): Vector move or masked lane select. -/
  | mov (w : Nat) (word : W32)
  /-- CVTIF (R239): Signed 32-bit integer lanes to FP32. -/
  | cvtif (w : Nat) (word : W32)
  /-- CVTFI (R239): FP32 lanes to saturated signed 32-bit integers. -/
  | cvtfi (w : Nat) (word : W32)
  /-- FEQ (R240): FP32 equal compare into a mask. -/
  | feq (w : Nat) (word : W32)
  /-- FLT (R240): FP32 less-than compare into a mask. -/
  | flt (w : Nat) (word : W32)
  /-- FLE (R240): FP32 less-or-equal compare into a mask. -/
  | fle (w : Nat) (word : W32)
  /-- FUNORD (R240): Unordered compare into a mask. -/
  | funord (w : Nat) (word : W32)
  /-- IEQ (R240): Integer equal compare into a mask. -/
  | ieq (w : Nat) (word : W32)
  /-- ILT (R240): Signed integer less-than into a mask. -/
  | ilt (w : Nat) (word : W32)
  /-- ILTU (R240): Unsigned integer less-than into a mask. -/
  | iltu (w : Nat) (word : W32)
  /-- KAND (R240): Mask AND. -/
  | kand (w : Nat) (word : W32)
  /-- KOR (R240): Mask OR. -/
  | kor (w : Nat) (word : W32)
  /-- KXOR (R240): Mask XOR. -/
  | kxor (w : Nat) (word : W32)
  /-- KANDN (R240): Mask AND NOT. -/
  | kandn (w : Nat) (word : W32)
  /-- KFROMS (R240): Mask from a scalar's low 16 bits. -/
  | kfroms (w : Nat) (word : W32)
  /-- KTOS (R240): Scalar from a mask, zero-extended. -/
  | ktos (w : Nat) (word : W32)
  /-- KPOP (R240): Number of set mask bits to a scalar. -/
  | kpop (w : Nat) (word : W32)
  /-- BCST (R241): Broadcast a scalar to every lane. -/
  | bcst (w : Nat) (word : W32)
  /-- EXT (R241): Extract one lane to a scalar. -/
  | ext (w : Nat) (word : W32)
  /-- INS (R241): Insert a scalar into one lane. -/
  | ins (w : Nat) (word : W32)
  /-- LANE (R241): Set each lane to its index. -/
  | lane (w : Nat) (word : W32)
  /-- REDSUM (R241): FP32 sum of 16 lanes by a fixed tree. -/
  | redsum (w : Nat) (word : W32)
  /-- REDMAX (R241): FP32 maximum of 16 lanes. -/
  | redmax (w : Nat) (word : W32)
  /-- REDIADD (R241): Wrapping 32-bit integer sum of 16 lanes. -/
  | rediadd (w : Nat) (word : W32)
  /-- EXP (R242): Per-lane exponential. -/
  | exp (w : Nat) (word : W32)
  /-- RCP (R242): Per-lane correctly rounded reciprocal. -/
  | rcp (w : Nat) (word : W32)
  /-- RSQ (R242): Per-lane reciprocal square root. -/
  | rsq (w : Nat) (word : W32)
  /-- VCVT_WIDEN (R243): Widens one part of narrow elements into 16 FP32 lanes. -/
  | vcvtWiden (w : Nat) (word : W32)
  /-- VCVT_NARROW (R243): Narrows 16 FP32 lanes into one part of a register. -/
  | vcvtNarrow (w : Nat) (word : W32)
  /-- VSB_TO_SB (R244): Converts 32 FP32 values to one SB block and scale. -/
  | vsbToSb (w : Nat) (word : W32)
  /-- VSB_FROM_SB (R244): Widens one SB block and scale into 32 FP32 lanes. -/
  | vsbFromSb (w : Nat) (word : W32)
  /-- DOT (R245): Dot operation of two operand groups into an accumulator. -/
  | dot (w : Nat) (word : W32)
  /-- DOTSB (R245): Dot operation of SB8 or SB4 operands with row scales. -/
  | dotsb (w : Nat) (word : W32)
  /-- AZERO (R246): Zeroes an accumulator. -/
  | azero (w : Nat) (word : W32)
  /-- AREAD (R246): Reads an accumulator quarter into a vector after pending dots. -/
  | aread (w : Nat) (word : W32)
  /-- AWRITE (R246): Writes a vector into an accumulator quarter. -/
  | awrite (w : Nat) (word : W32)
  /-- MVT (R247): Issues a tile descriptor from scratch on a mover channel. -/
  | mvt (w : Nat) (word : W32)
  /-- MVX (R248): Issues a raw copy from scratch to store or scratch, as writes or accumulates. -/
  | mvx (w : Nat) (word : W32)
  /-- MOVER_TRANSFER_DONE (R166): A mover transfer is acknowledged or written and its range-tracker entry frees. -/
  | moverTransferDone (w : Nat) (id : Nat)
  /-- CWAIT (R251): Waits for a counter to reach a target within a cycle bound. -/
  | cwait (w : Nat) (word : W32)
  /-- CWAIT_BOUND (R251): A CWAIT's bound passes first and sD = 0 without acquire. -/
  | cwaitBound (w : Nat)
  /-- CREAD (R250): Plain read of a counter into a scalar. -/
  | cread (w : Nat) (word : W32)
  /-- CADD (R250): Adds to a counter as a release, by CNT_ADD or the package ring. -/
  | cadd (w : Nat) (word : W32)
  /-- SEMOP (R250): Performs a SEM_OP on a semaphore and returns the prior value. -/
  | semop (w : Nat) (word : W32)
  /-- WICK_FENCE (R250): Waits for the wick's own packets and returns their first failure status. -/
  | wickFence (w : Nat) (word : W32)
  /-- FENCE_COMPLETE (R157): Every packet an engine sent before a fence completes and the fence or release proceeds. -/
  | fenceComplete (eng : Engine)
  /-- ACQUIRE (R250): Standalone acquire that empties the read buffer. -/
  | acquire (w : Nat) (word : W32)
  /-- MWAIT (R252): Waits until the wick's range tracker is empty and returns MSTAT. -/
  | mwait (w : Nat) (word : W32)
  /-- LOSS_OF_SIGNAL (R105): A lane's received signal goes away; the lane stays ACTIVE with its tuning, SIGNAL clears and the 100 µs ride-through begins. -/
  | lossOfSignal (port : Nat) (lane : Nat)
  /-- LINK_CHANGE (R385): The host link's state changes (DL_Active lost or regained, rate or width changed), updating LINK_STAT, setting LINK_CHANGE and arming or cancelling the 100 ms dead-host timer. -/
  | linkChange (stat : W64)
  /-- PERST_RELEASE (R452): PERST_N is released past its filter and the host-link island leaves reset and trains, after which configuration requests complete normally. -/
  | perstRelease
  /-- FRAMING_ERROR (R502): A serial character without a valid stop bit, or a short break, is dropped and MON.FRAMING_ERR gains 1 while the line in progress is kept. -/
  | framingError
  /-- OPKEY_STORED (R509): The operator-key write to SPI flash ends, BUSY clears, PRESENT is set, and level-1 sessions return to level 0. -/
  | opkeyStored
  /-- DOE_REQUEST (R359): A DOE mailbox request from the host is answered: SPDM 1.3 attestation or IDE_KM key programming of IDE streams. -/
  | doeRequest (req : DoeReq)
deriving DecidableEq, Repr

end Sys2Proof
end

