-- ==== Sys2Proof/Decode.lean ====
section
/-! DEFINITION. The table's word decoder. The block has no instruction decoder of a processor's kind and the rows of
spec/opcode_table.json give no bits (the wick instruction decoder stands in Machine/Operands.lean). -/
namespace Sys2Proof

/-- The command that a word spells by the table's bits: no row gives bits, so no word spells one. -/
def decodeTableWord (_nbits _w : Nat) : Option Instr := none

end Sys2Proof
end

