-- ==== Sys2Proof/Config.lean ====
section
/-! DEFINITION. The figures of the part, and its open values: constants without a body, so that nothing can be proved
of them beyond their type. -/
namespace Sys2Proof.Config

/-! ### Figures of the part (00 R2, 01 R19 to R21) -/

/-- Wick positions (01 R19). -/
abbrev wicks : Nat := 4096
/-- Sconces (01 R19). -/
abbrev sconces : Nat := 64
/-- Lantern ports (00 R2). -/
abbrev ports : Nat := 10
/-- Copy engines (03 R75). -/
abbrev copyEngines : Nat := 32
/-- Hub counters (06 R170). -/
abbrev hubCounters : Nat := 131072
/-- Semaphores (06 R174). -/
abbrev semaphores : Nat := 32768
/-- Queues (14 R394). -/
abbrev queues : Nat := 262144
/-- Bytes of the Reservoir (01 R21): 128 MiB. -/
abbrev reservoirBytes : Nat := 0x8000000
/-- Bytes of a wick's scratch (07 R190): 128 KiB. -/
abbrev scratchBytes : Nat := 0x20000
/-- Key slots (03 R81). -/
abbrev keySlots : Nat := 4096

/-! ### Open values -/

/-- A fresh free value: the value drawn `n`-th wherever the manual leaves a value open (the model applies it to a
counter of the state that each draw advances). -/
opaque freeWord : Nat → W64

/-- The XTS-AES-256 permutation of a 64 B line under a slot's key pair, by the line's place in the home range
(03 R81, R83). The manual names the cipher and not its tables; any permutation stands for it. -/
opaque cipher (pair : W512) (line : Nat) : Equiv.Perm W512

/-- The NAND channel (0 to 31) of the page at a position of the flash manager's log (02 R39: chosen by that
position, no relation given). -/
opaque flashChannel (pos : Nat) : Fin 32

/-- AES-KW unwrapping of a 72 B wrapped key pair under the key-encryption key (03 R84): none when the integrity
check fails. -/
opaque unwrapKey (wrapped : BitVec 576) : Option W512

/-- A key pair drawn from the entropy source (16 R444 step 4). -/
opaque entropyKey : Nat → W512

/-- A nonce drawn from the entropy source (18 R505). -/
opaque entropyNonce : Nat → BitVec 128

/-- Whether a signature verifies over a message under an RSA-4096 key (18 R505): modulus, message, signature. -/
opaque rsaVerify (modulus message signature : List Byte) : Bool

/-- The key under which level 2 unlocks, fixed in the fuses (18 R505). -/
opaque serviceKey : List Byte

/-- An SPDM answer over a challenge and the measurements (13 R359). -/
opaque spdmAnswer (challenge : List Byte) : List Byte

/-- Where the SR-IOV Control register lies in the physical function's configuration space (13 R359: SR-IOV, no place
given). -/
opaque sriovControl : BitVec 12

/-- e^x per FP32 lane for a finite input; `f32Exp` holds it to the accuracy of 07 R196. -/
opaque expFinite : W32 → W32

/-- 1/√x per FP32 lane for a positive finite input; `f32Rsqrt` holds it to the accuracy of 07 R196. -/
opaque rsqrtPositive : W32 → W32

/-- Arithmetic cycles that pass between two instructions of a wick beyond the issue cycle (07 R193; the manual gives
typical figures only). -/
opaque stall : Nat → W64

/-- Cycles of island `i` in one 10 ns of module time number `t`, within the ±1 % of 01 R29. -/
opaque islandTicks (i t : Nat) : W64

/-- A wick's digest of a margin screen differs from the expected one (15 R438): sconce, physical wick, screen. -/
opaque marginFails (sconce wick n : Nat) : Bool

/-- A byte of an ember dump in a place whose layout the manual does not give (18 R513): the dump's generation, and the
byte's offset. -/
opaque dumpByte (generation : W64) (off : Nat) : Byte

end Sys2Proof.Config
end

