-- ==== Sys2Proof/Machine/State.lean ====
section
/-! DEFINITION. The state of the block as plain data, one structure per subsystem, the reasons a step can stop, and
the state right after reset. Sparse tables are `NatMap`s in canonical form; every table's default is given by the
accessor in Machine/Ops.lean that reads it. "Model's own" marks fields that the manual does not name. -/
namespace Sys2Proof.Machine

/-- Why a step stops with a fault. -/
inductive Fault where
  /-- Raised by any meaning whose operand names a unit the part does not have (a wick, port, lane, queue, page,
  channel beyond the manual's range). Safe: no such command reaches the hardware. -/
  | noSuchUnit
deriving DecidableEq, Repr

/-- Why a step is refused. -/
inductive Refusal where
  /-- Raised by an arm of `exec` whose command has no meaning yet. Safe. -/
  | notModelled (mnemonic : String)
deriving DecidableEq, Repr

/-! ### Outputs, requests and packets in flight -/

/-- What a monitor or mailbox answer carries: numbers, and bytes. -/
inductive AnsVal where
  | num (v : Nat)
  | bytes (b : List Byte)
  | word (s : String)
deriving DecidableEq, Repr

/-- One thing that leaves the module (model's own: the boundary's output, oldest first). -/
inductive Out where
  | packet (port : Nat) (p : Packet)
  | ctl (port : Nat) (m : CtlMsg)
  | deliver (port : Nat) (p : Packet)
  | memData (addr : W64) (data : List Byte) (poison : Bool)
  | memCmp (addr : W64)
  | bisnp (inv : Bool) (line : Nat)
  | barData (data : List Byte)
  | barPoison (data : List Byte)
  | barUR
  | barCA
  | msix (fn : Nat) (vec : Nat)
  | hostWrite (addr : Nat) (data : List Byte)
  | ibi (bit : Nat)
  | frame (kind : Nat) (port : Nat) (mac : Option (BitVec 48)) (seq : W16) (body : List AnsVal)
  | serial (body : List AnsVal) (final : Status)
  | serialBanner (beacon : W64)
  | mailbox (opcode : W16) (ok : Bool) (body : List AnsVal)
  | regRead (src : RegSrc) (off : Nat) (v : W64)
  | cfgRetry
  | cfgData (v : W32)
  | atsDone
  | doe (body : List Byte)
deriving DecidableEq, Repr

/-- Who is told when a request completes. -/
inductive Origin where
  /-- A packet of another agent that this home serves: answered by READ_RSP, ATOMIC_RSP, ERR_RSP or ACK. -/
  | peer (p : Packet)
  /-- An accelerator's own packet that this controller carries onward as ingress (05 R119). -/
  | ingress (p : Packet)
  | hostRead (addr : W64)
  | hostWrite (addr : W64)
  | forwardRead (len : Nat) (skip : Nat)
  | forwardWrite
  /-- A wick's scalar load into `sd` (size, sign) or load-acquire. -/
  | wickLoad (w : Nat) (d : Nat) (size : Nat) (off : Nat) (sext : Bool) (acquire : Bool)
  | wickVLoad (w : Nat) (d : Nat)
  | wickAmo (w : Nat) (d : Nat) (size : Nat)
  /-- A posted packet of a wick, with its place in the order of issue; a release among them stops the wick when it
  fails. -/
  | wickPosted (w : Nat) (ord : Nat) (stopOnFail : Bool)
  | wickSem (w : Nat) (d : Nat) (op : Byte) (isWait : Bool)
  | wickCadd (w : Nat) (ord : Nat)
  /-- A packet of a mover transfer. -/
  | transfer (id : Nat)
  /-- The twin of a mirrored write; `id` names the held original in `twins`. -/
  | twin (id : Nat)
  /-- A TWIN_WRITE that copies a block for the rebuild `id`. -/
  | rebuild (id : Nat)
  | snoop (line : Nat) (agent : BitVec 10)
  | deposit (line : Nat) (agent : BitVec 10)
  | post (h : Nat)
  | queueFence (q : Nat) (tag : W32)
  /-- A packet whose completion nobody waits for but the error record (a posted packet of an engine). -/
  | engine (e : Engine)
  | exportAdd (part : BitVec 6)
  /-- Piece `idx` of an ingress request that crosses pages; `join` names the whole in `Xbar.joins`. -/
  | part (join : Nat) (idx : Nat)
deriving DecidableEq, Repr

/-- An ingress request that crosses pages: the whole packet, and what its pieces have answered. -/
structure Join where
  id     : Nat
  whole  : Packet
  got    : List (Nat × List Byte)
  open_  : Nat
  bad    : Status
  recorded : Bool
deriving DecidableEq, Repr

/-- A request: the packet in the form it has at the home (XL = 1), and who is told. -/
structure Req where
  pkt    : Packet
  origin : Origin
deriving DecidableEq, Repr

/-- A packet or control message in a replay buffer (05 R140, R141, R155, R156). -/
structure Unfinished where
  pkt     : Packet
  origin  : Origin
  resends : Nat
  /-- a NO_ROUTE for the destination arrived after the last transmission and nothing from it since -/
  noRoute : Bool
  /-- a job-critical packet held for teardown (14 R405) -/
  held    : Bool
  oldEpoch : Bool
deriving DecidableEq, Repr

/-- A CNT_ADD or SEM_OP in a replay buffer. -/
structure UnfinishedCtl where
  msg     : CtlMsg
  origin  : Origin
  resends : Nat
  noRoute : Bool
deriving DecidableEq, Repr

/-- One source's stream toward one destination agent (05 R140), data and control. -/
structure TxStream where
  nextSeq  : W32
  nextCseq : W16
  pkts     : List Unfinished
  ctls     : List UnfinishedCtl
  /-- packets held because 2,048 are unfinished, or by the overlap rule R167 -/
  waiting  : List Req
deriving DecidableEq, Repr

/-- A SEQ's state in a duplicate window (05 R142). -/
inductive SeqState where
  | inProgress
  | applied (status : Status) (result : List Byte)
deriving DecidableEq, Repr

/-- The duplicate window kept for one source agent: the newest SEQ seen, the recorded states, and RESTARTED. -/
structure RxWindow where
  newest    : Option W32
  seqs      : NatMap SeqState
  cnewest   : Option W16
  cseqs     : NatMap SeqState
  restarted : Bool
deriving DecidableEq, Repr

/-! ### Crossbar, lantern transaction layer and sync block -/

/-- Routes, map epochs, streams, duplicate windows and combining windows (05 R133 to R157). -/
structure Xbar where
  agentId     : BitVec 10
  routeCur    : NatMap W32
  routeOther  : NatMap W32
  otherFrozen : Bool
  epochCur    : Byte
  epochOther  : Byte
  otherState  : BitVec 2
  prepared    : Bool
  drained     : Bool
  preparedBy  : List (BitVec 10)
  tx          : NatMap TxStream
  rx          : NatMap RxWindow
  /-- combining windows: the groups of requests queued for each memory target, oldest first -/
  windows     : List (Target × List (List Req))
  /-- the first non-OK status, in order of issue, since each wick's previous fence (R157) -/
  fenceBad    : NatMap (Nat × Status)
  issued      : Nat
  joins       : List Join
  nextJoin    : Nat
  /-- teardown requests raised and not yet snuffed (14 R405): compositions -/
  teardowns   : List (BitVec 12)
deriving DecidableEq, Repr

/-- A WAIT_DEC that the sync block holds (06 R175). -/
structure HeldWait where
  sem     : Nat
  operand : W64
  part    : BitVec 6
  /-- the peer's message, or the wick of this controller (with its destination register) -/
  peer    : Option CtlMsg
  wick    : Option (Nat × Nat)
deriving DecidableEq, Repr

/-- A member of a collective group (12 R347). -/
structure Member where
  agent : BitVec 10
  first : BitVec 17
  count : BitVec 18
deriving DecidableEq, Repr

/-- An open collective group (12 R347 to R351). `repeats` counts the repeated ABORTs sent (R349); the BUSY time of
100 µs (R351) ends with the second repeat and one module microsecond count kept in `abortedAt`. -/
structure Group where
  part      : BitVec 6
  gid       : W16
  members   : List Member
  comp      : Option (BitVec 12)
  aborted   : Bool
  cause     : Status
  repeats   : Nat
  abortedAt : W64
deriving DecidableEq, Repr

/-- Counters, semaphores, waits and collective groups (06, 12). -/
structure Sync where
  hub    : NatMap W64
  local_ : NatMap W64
  sems   : NatMap W64
  held   : List HeldWait
  waits  : List (Waiter × Nat × Bool × W64)
  groups : List Group
  /-- faults of collective groups detected and not yet acted on: partition, group id, cause (12 R348) -/
  detected : List (BitVec 6 × W16 × Status)
deriving DecidableEq, Repr

/-! ### Lantern ports and light -/

/-- One lane of a port (04 R108 to R116). -/
structure Lane where
  state    : BitVec 3
  lock     : Bool
  signal   : Bool
  wait     : Bool
  retrains : Byte
  tx       : BitVec 12
  rx       : BitVec 12
  /-- consecutive failed attempts -/
  failed   : Nat
  /-- RETRAIN_REQ is set in the headers that this end sends on the lane -/
  retrainReq : Bool
deriving DecidableEq, Repr

/-- One lantern port (04, 05 R144 to R146): `lanes` by lane index (R95: 0, 1, 3, 4 data lanes 0 to 3, 2 the control
lane); the maps of data lanes that this end and its peer offer; the data lanes in use; the lane that carries control
traffic; cumulative counts per sub-class; what waits for credit; the peer's REQ allocation. -/
structure Port where
  state     : BitVec 4
  lanes     : List Lane
  txMap     : BitVec 4
  rxMap     : BitVec 4
  txUse     : BitVec 4
  rxUse     : BitVec 4
  ctlLane   : BitVec 3
  failReq   : Bool
  cwSeqTx   : Byte
  cwSeqRx   : Byte
  framingLost : Bool
  /-- a lane has been ACTIVE since the port was enabled -/
  met         : Bool
  /-- NO_PEER has been set since the port was enabled -/
  noPeerSeen  : Bool
  credit    : List W16
  sent      : List W16
  received  : List W16
  freed     : List W16
  creditDue : Bool
  queue     : List Packet
  ctlQueue  : List CtlMsg
  peerReq   : Nat
deriving DecidableEq, Repr

/-- Ports and laser inputs (04 R101 to R104). -/
structure Lantern where
  ports    : NatMap Port
  activeB  : Bool
  litA     : BitVec 5
  litB     : BitVec 5
  switches : W16
  recent   : Nat
  dark     : Bool
  booster  : List (BitVec 16)
deriving DecidableEq, Repr

/-! ### Store, placement, translation and keys -/

/-- Where a placement block lies (02 R39): a sliver's block, a capacity group's block, or flash (with the log
position of its first page, if it holds NAND pages). -/
inductive Loc where
  | stacked (wick : Nat) (idx : Nat)
  | capacity (group : Nat) (slot : Nat)
  | flash (page : Option Nat)
deriving DecidableEq, Repr

/-- A block's shadow mark (02 R54, R55): formats, staleness, and the key selector its bytes are read under. -/
structure Shadow where
  srcFmt : BitVec 2
  sb4    : Bool
  stale  : Bool
  key    : BitVec 12
deriving DecidableEq, Repr

/-- A block-map entry (02 R37 to R55, 13 R382, 15 R432). The counter is kept with the halving epoch it was written
in, because halving is lazy (R42). -/
structure Block where
  loc      : Loc
  count    : W16
  epoch    : Nat
  pins     : Byte
  shadow   : Option Shadow
  noPolicy : Bool
  forfeit  : Bool
  lost     : Bool
deriving DecidableEq, Repr

/-- Why a move runs (02 R45): the counter policy, an advice command, a demand promotion. -/
inductive MoveWhy where
  | policy
  | advice (q : Nat) (tag : W32)
  | demand
deriving DecidableEq, Repr

/-- A pending move (02 R46, R52). -/
structure Move where
  block   : Nat
  dst     : Loc
  wick    : Option Nat
  rank    : Nat
  why     : MoveWhy
  joined  : List (Nat × W32)
  flipped : Bool
  old     : Loc
deriving DecidableEq, Repr

/-- An advice command whose moves are under way (02 R50). -/
structure AdviceCmd where
  q     : Nat
  tag   : W32
  todo  : List Nat
  first : Status
  bad   : Nat
deriving DecidableEq, Repr

/-- A rebuild in progress (15 R433 to R436): its fields, blocks whose copying has begun, blocks done, and of the block
that SEND copies the TWIN_WRITEs still open and the first failure. -/
structure Rebuild where
  id      : Nat
  send    : Bool
  q       : Nat
  tag     : W32
  peer    : BitVec 10
  srcHome : BitVec 6
  extent  : W16
  count   : Nat
  counter : Nat
  stallUs : Nat
  done    : Nat
  copied  : Nat
  open_   : Nat
  bad     : Status
  badLine : Nat
deriving DecidableEq, Repr

/-- A mirrored write waiting for its twin (12 R353). -/
structure TwinWait where
  id   : Nat
  reqs : List (Req × List Byte)
  open_ : Nat
  bad  : Status
deriving DecidableEq, Repr

/-- The store: ciphertext bytes by home offset (the row-cache pool at 2^49 + pool offset, 11 R315), the lines ever
written, failing lines, the block map and the placement engine's state (02, 12, 15). -/
structure Store where
  homeId    : BitVec 6
  homeLen   : Nat
  rowGiB    : Nat
  shadowGiB : Nat
  cells     : List Host.Cell
  written   : List Nat
  badLines  : List Nat
  blocks    : NatMap Block
  stkAt     : NatMap (Option Nat)
  capAt     : NatMap (Option Nat)
  /-- sconces unavailable at the last cold boot (R537, R447) -/
  bootDown  : List Nat
  /-- flash channels whose metadata the last cold boot could not read -/
  flashDown : BitVec 32
  handStk   : Nat
  handCap   : Nat
  decay     : BitVec 24
  halvings  : W32
  touched   : List Nat
  moves     : List Move
  moveWait  : List Move
  advice    : List AdviceCmd
  deferred  : List Req
  shadowMem : List Host.Cell
  shadowUse : Nat
  flashFree : Nat
  flashWait : Bool
  flashWear : Byte
  flashLog  : Nat
  mirror    : NatMap W64
  guest     : NatMap W64
  twins     : List TwinWait
  nextTwin  : Nat
  rebuild   : Option Rebuild
  rebuildStat : W64
deriving DecidableEq, Repr

/-- A context-table entry (03 R68), with the reset marking of 15 R425. -/
structure Ctx where
  type      : BitVec 2
  part      : BitVec 6
  key       : BitVec 12
  ats       : Bool
  viewValid : Bool
  memValid  : Bool
  root      : BitVec 56
  viewBase  : BitVec 57
  viewLen   : W64
  memBase   : W64
  memLen    : W64
  data      : BitVec 128
  resetting : Bool
deriving DecidableEq, Repr

/-- Which translation cache an entry lies in (03 R75). -/
inductive Tlb where
  | l2 | port (n : Nat) | copy (n : Nat) | wick (w : Nat)
deriving DecidableEq, Repr

/-- A cached leaf (03 R72, R75). -/
structure Leaf where
  sa   : BitVec 56
  size : Nat
  w : Bool
  x : Bool
  a : Bool
  c : Bool
  j : Bool
  m : Bool
  key  : BitVec 12
deriving DecidableEq, Repr

structure TlbEntry where
  where_ : Tlb
  ctx  : BitVec 20
  base : Nat
  leaf : Leaf
deriving DecidableEq, Repr

/-- A shootdown in progress (03 R79): what it covers, the engines still to acknowledge, who asked. -/
structure Shootdown where
  id      : Nat
  ctx     : BitVec 20
  all     : Bool
  base    : Nat
  blocks  : Nat
  engines : List Engine
  old     : List (BitVec 10 × W32)
  queue   : Option (Nat × W32)
  bank    : Option Nat
  failed  : Bool
  withdraw : Bool
deriving DecidableEq, Repr

/-- Translation unit (03): the context table, caches, shootdowns and the host-address translation cache. -/
structure Xlt where
  ctxs   : NatMap Ctx
  tlb    : List TlbEntry
  shoots : List Shootdown
  nextShoot : Nat
  walkers   : Nat
  atc    : List (W64 × W64)
deriving DecidableEq, Repr

/-- A key slot (03 R81, R84, R85). -/
structure KeySlot where
  pair  : W512
  valid : Bool
  owner : BitVec 6
  busy  : Bool
  /-- zero the key material when the drain ends (CLEAR) -/
  clearing : Bool
deriving DecidableEq, Repr

/-! ### Wicks and sconces -/

/-- A wick's run state (17 R486). -/
inductive WState where
  | idle | running | ended | stopped | held
deriving DecidableEq, Repr

/-- What a running wick waits for before its next instruction. -/
inductive WWait where
  | none
  | response
  | counter (local_ : Bool) (id : Nat) (target : W64) (d : Nat)
  | semaphore (d : Nat)
  | fence (d : Nat)
  | release (req : Req)
  | ctlRelease (msg : CtlMsg) (origin : Origin)
  | moverEmpty (d : Nat)
deriving DecidableEq, Repr

/-- A range in one of the three spaces (06 R163). -/
inductive Range where
  | scratch (w : Nat) (addr : Nat) (len : Nat)
  | store (dva : Nat) (len : Nat)
  | reservoir (addr : Nat) (len : Nat)
deriving DecidableEq, Repr

/-- A range-tracker entry (06 R166). -/
structure Track where
  id  : Nat
  src : Range
  dst : Range
deriving DecidableEq, Repr

/-- A wick at its position (08 R220, R236, R237; 07 R190). -/
structure Wick where
  sreg   : NatMap W64
  vreg   : NatMap W512
  kreg   : NatMap W16
  acc    : NatMap (BitVec 2048)
  pc     : Nat
  cycle  : W64
  flags  : BitVec 5
  mstat  : BitVec 9
  cntsel : BitVec 19
  rel    : List W64
  step   : W32
  ctx    : BitVec 20
  part   : BitVec 6
  handle : Byte
  state  : WState
  wait   : WWait
  stop   : Status
  gen    : W32
  buf    : List (Nat × W512)
  track  : List Track
deriving DecidableEq, Repr

/-- A tile or raw transfer that an engine holds (02 R59 to R65, 08 R247 to R249): its descriptor, its context and
partition, its pre-translated pages, and what the deadline did. -/
structure Xfer where
  id      : Nat
  eng     : Engine
  wick    : Option Nat
  handle  : Option Byte
  stream  : Option Nat
  queue   : Option (Nat × W32)
  desc    : W512
  raw     : Bool
  ctx     : BitVec 20
  part    : BitVec 6
  srcPages : List (Nat × Leaf)
  dstPages : List (Nat × Leaf)
  late    : Bool
  shadow  : Bool
  lateBlocks : List Nat
  params  : W64
  srcScratch : Nat
  dstAddr : W64
  open_   : Nat
  bad     : Status
  moved   : Bool
deriving DecidableEq, Repr

/-- A spot check in progress (07 R214 to R217). -/
structure Spot where
  wick     : Nat
  spare    : Nat
  copied   : Bool
  outputs  : Nat
  fault    : Bool
deriving DecidableEq, Repr

/-- A sconce (07 R197, R218; 01 R20; 17 R476). -/
structure Sconce where
  fuseFail  : BitVec 68
  failed    : BitVec 68
  available : Bool
  screened  : BitVec 68
  spotGen   : W32
  spot      : Option Spot
  quiesce   : Bool
  resetting : Bool
  moverGen  : List W32
deriving DecidableEq, Repr

/-! ### Plans -/

/-- A claim entry (09 R260). -/
structure Claim where
  kind : Byte
  b1   : Byte
  b2   : Byte
  a    : W32
  b    : W64
deriving DecidableEq, Repr

/-- A step entry (09 R264). -/
structure PStep where
  sconceBound : W32
  hubBound    : W32
  gateBound   : W32
  kind        : Byte
  serviceOp   : Byte
  spot  : Bool
  gate  : Bool
  post  : Bool
  launchFirst : Nat
  launchCount : Nat
  streamFirst : Nat
  streamCount : Nat
  gateCounter : BitVec 17
  postCounter : BitVec 17
  gateBase    : W64
  gateStride  : W64
  postAgent   : BitVec 10
  postInc     : W32
deriving DecidableEq, Repr

/-- A launch entry (09 R265). -/
structure Launch where
  wick    : BitVec 12
  entry   : BitVec 12
  codeOff : Nat
  codeLen : Nat
deriving DecidableEq, Repr

/-- A stream entry (09 R266). -/
structure PStream where
  engine    : Byte
  unit      : Byte
  channel   : Byte
  ahead     : Byte
  tileFirst : Nat
  tileCount : Nat
  deadline  : Byte
  srcRel    : BitVec 3
  dstRel    : BitVec 3
deriving DecidableEq, Repr

/-- Where a plan's current run stands (09 R276). -/
inductive RunState where
  | idle
  | gate
  | ready
  | running
deriving DecidableEq, Repr

/-- A stream of the running step: the next tile to issue, tiles in flight, ended early. -/
structure StreamRun where
  idx      : Nat
  next     : Nat
  inFlight : Nat
  ended    : Bool
deriving DecidableEq, Repr

/-- An admitted plan (09). -/
structure Plan where
  ctx      : BitVec 20
  part     : BitVec 6
  service  : Bool
  multi    : Bool
  armed    : Bool
  tag      : W64
  partMask : W64
  seed     : W32
  claims   : List Claim
  steps    : List PStep
  launches : List Launch
  code     : List Byte
  streams  : List PStream
  tiles    : List W512
  routes   : List W64
  deadlines : List W64
  spots    : List W64
  run      : RunState
  curStep  : Nat
  runIndex : W64
  rel      : List W64
  status   : Status
  misses   : Nat
  lates    : Nat
  runs     : BitVec 24
  streamRuns : List StreamRun
  runner   : Option (Nat × W32)
  comp     : BitVec 12
  retire   : Option (Nat × W32)
deriving DecidableEq, Repr

/-! ### Embedding tables -/

/-- An open embedding table (11 R310, R315, R316, R329). -/
structure Table where
  part    : BitVec 6
  ctx     : BitVec 20
  dir     : Nat
  rows    : Nat
  dim     : Nat
  shards  : Nat
  shard   : Nat
  sets    : Nat
  cacheMax : BitVec 2
  adagrad : Bool
  eps     : W32
  stateDva : Nat
  base    : Nat
  mult    : W64
deriving DecidableEq, Repr

/-- A pending fill of a row-cache way (11 R318, R319): the row, its way, the row that it displaces, the directory entry
that the row had, and the row's bytes as they were fetched. -/
structure RowMove where
  table  : Nat
  row    : Nat
  way    : Nat
  victim : Option Nat
  e0     : W64
  data   : List Byte
deriving DecidableEq, Repr

/-- The embedding front-end (11 R315 to R319); `aborts` counts the aborted moves of a table's row in this decay
period. -/
structure Emb where
  tables  : NatMap Table
  sketch  : NatMap (BitVec 4)
  lookups : BitVec 26
  epoch   : W32
  mults   : List W64
  moves   : List RowMove
  aborts  : List (Nat × Nat × Nat)
deriving DecidableEq, Repr

/-! ### Host link, directory -/

/-- An HDM decoder with its binding (13 R365, R384). -/
structure Window where
  ctx       : BitVec 20
  coherent  : Bool
  committed : Bool
  base      : W64
  size      : W64
  status    : Status
deriving DecidableEq, Repr

/-- The host link (13 R359 to R367, R376, R380). `mem` is host memory as the controller's accesses find it
(model's own: the other side of the link). -/
structure HostLink where
  linkStat  : W64
  windows   : NatMap Window
  bisnp     : List (Nat × Bool × Packet)
  dead      : Bool
  deadTimer : Bool
  inReset   : Bool
  cfgSpace  : NatMap W32
  vfEnable  : Bool
  stopped   : Bool
  /-- model's own: in a large configuration, this is not the controller that the fabric manager named (01 R31) -/
  notFront  : Bool
  ide       : NatMap (BitVec 256)
  ideGo     : List Nat
  events    : List (List AnsVal)
  mem       : List Host.Cell
deriving DecidableEq, Repr

/-- A directory entry (13 R370). State 0 I, 1 S, 2 EM, 3 O. `way` is its way of the set; `key` and `part` are those of
the request that last changed it (model's own: the manual's entry does not hold under which key slot data that its
agents return is written). -/
structure DirEntry where
  state : BitVec 3
  bcast : Bool
  busy  : Bool
  ptrs  : List (BitVec 10)
  way   : Nat
  key   : BitVec 12
  part  : BitVec 6
deriving DecidableEq, Repr

/-- A directory transaction on BUSY lines (13 R372): the request with its home offset (none for a sweep's INVALIDATE
or a deposit), its lines, the snoops still to be answered, the dirty data returned, the lines whose owner failed, and
the ways it takes (new line, line that leaves, way). -/
structure DirTxn where
  id      : Nat
  req     : Option (Req × Nat)
  lines   : List Nat
  waitFor : List (Nat × BitVec 10)
  dirty   : List (Nat × W512)
  lost    : List Nat
  alloc   : List (Nat × Option Nat × Nat)
  /-- the agent that a sweep invalidates, or to which a deposit went, and whether it took the line; with neither, `took`
  says that a revocation leaves the line in I -/
  sweep   : Option (BitVec 10)
  deposit : Option (BitVec 10)
  took    : Bool
deriving DecidableEq, Repr

/-- A sweep (13 R381). -/
structure Sweep where
  agent  : BitVec 10
  remove : Bool
  hostDead : Bool
deriving DecidableEq, Repr

/-- A coherent window (13 R369). -/
structure CohWin where
  first : W16
  count : W16
  valid : Bool
  cache : BitVec 1024
  rw    : BitVec 1024
deriving DecidableEq, Repr

structure Directory where
  entries : NatMap DirEntry
  txns    : List DirTxn
  nextTxn : Nat
  /-- snoop answers that came at once (from this controller's own host), not yet acted on: line, agent, status, data -/
  answers : List (Nat × BitVec 10 × Status × List Byte)
  waiting : List (Req × Nat)
  lineBuf : List (Nat × W512)
  rr      : NatMap Nat
  windows : NatMap CohWin
  depBase : NatMap W64
  depLen  : NatMap W64
  depTarget : NatMap W64
  sweep   : Option Sweep
  /-- the host was declared dead while another sweep ran: its DEAD sweep starts after it -/
  hostDue : Option (BitVec 10)
  /-- agents whose REMOVE sweep waits for the sweep that runs -/
  sweepDue : List (BitVec 10)
  walked  : W32
  forfeits : List Nat
deriving DecidableEq, Repr

/-! ### Partitions, queues, compositions -/

/-- A submission entry the controller has fetched: its slot index and its 64 bytes. -/
structure QEntry where
  idx  : W32
  raw  : W512
deriving DecidableEq, Repr

/-- A command in progress on a queue: its index, tag, flags and opcode. -/
structure Active where
  idx  : W32
  raw  : W512
  /-- the copy engine that carries it, if one does -/
  eng  : Option Nat
  /-- a FENCE whose CNT_ADD is on its way -/
  sent : Bool
deriving DecidableEq, Repr

/-- A command that has ended and whose completion entry is not yet written (14 R396, R397). -/
structure Ended where
  q      : Nat
  act    : Active
  status : Status
  result : W64
deriving DecidableEq, Repr

/-- A queue (14 R394 to R397). `ring`, `cpl`, `cfg`, `tailcnt` are the register values Q_RING, Q_CPL, Q_CFG,
Q_TAILCNT. -/
structure Queue where
  ring    : W64
  cpl     : W64
  cfg     : W64
  tailcnt : W64
  head    : W32
  tail    : W32
  stopped : Bool
  stop    : Status
  fetched : List QEntry
  active  : List Active
  /-- commands that ended badly and that no fence of the queue has reported: index and status (05 R157) -/
  failed  : List (W32 × Status)
deriving DecidableEq, Repr

/-- An accelerator of a composition (14 R398, R401). -/
structure Accel where
  agent : BitVec 10
  slot  : Option Nat
  base  : BitVec 48
deriving DecidableEq, Repr

/-- A composition on this controller (14 R400, R402). state 0 FREE, 1 ACTIVE, 2 TORN_DOWN. -/
structure Comp where
  state    : BitVec 2
  part     : BitVec 6
  host     : BitVec 10
  accels   : List Accel
  teardown : Bool
  activeUs : W64
  sconceUs : W64
  gibUs    : W64
  created  : Bool
deriving DecidableEq, Repr

/-- An extent of the home (14 R403). -/
structure Extent where
  comp     : BitVec 12
  owned    : Bool
  revoking : Bool
  epoch    : Byte
  inflight : BitVec 24
deriving DecidableEq, Repr

/-- A running REVOKE or HANDOVER (14 R403). -/
structure ExtentCmd where
  q    : Nat
  tag  : W32
  hand : Bool
  comp : BitVec 12
  keys : List (BitVec 12)
  todo : List Nat
deriving DecidableEq, Repr

/-- A TILE_STREAM in progress (14 R398, 09 R267, R268): its descriptors' address, how many it issues and has issued,
tiles in flight, its first failure, misses and late tiles. -/
structure TStream where
  q        : Nat
  tag      : W32
  dva      : Nat
  count    : Nat
  next     : Nat
  inFlight : Nat
  bad      : Status
  misses   : Nat
  lates    : Nat
deriving DecidableEq, Repr

structure Work where
  sconceOwner : NatMap (BitVec 6)
  cntOwner    : NatMap (BitVec 6)
  semOwner    : NatMap (BitVec 6)
  rsvOwner    : NatMap (BitVec 6)
  /-- the grant whose zeroing runs (R389): kind, index, partition, bank of its source -/
  grant       : Option (Nat × Nat × BitVec 6 × Nat)
  partQueues  : NatMap W64
  partCtx     : NatMap W64
  quota0      : NatMap W64
  quota1      : NatMap W64
  share       : NatMap W64
  agentPart   : NatMap W64
  queues      : NatMap Queue
  ended       : List Ended
  comps       : NatMap Comp
  extents     : NatMap Extent
  extCmds     : List ExtentCmd
  partReset   : List (BitVec 6)
  xfers       : List Xfer
  nextXfer    : Nat
  tstreams    : List TStream
  engGen      : NatMap W32
  copyReset   : List Nat
deriving DecidableEq, Repr

/-! ### Errors, Lamplighter, boot, power -/

/-- An error record (15 R409) before the ring writer gives it its SEQ. -/
structure Record where
  status   : Status
  island   : Byte
  cls      : W16
  inst     : Byte
  addrKind : BitVec 3
  suspect  : Bool
  guilty   : Bool
  agentV   : Bool
  partV    : Bool
  ctxV     : Bool
  suppressed : W16
  addr     : W64
  tick     : W64
  ctx      : BitVec 20
  part     : BitVec 6
  agent    : BitVec 10
  temp     : W16
  load     : W64
  info     : W64
  aux      : W64
  errBit   : BitVec 6
  seq      : W32
deriving DecidableEq, Repr

/-- An export ring (15 R414, R441), and the SEQ of the record that its export looks at next (model's own). -/
structure Export where
  ring    : W64
  cfg     : W64
  head    : W32
  tail    : W32
  next    : W32
deriving DecidableEq, Repr

/-- The error ring, the island queues and exports (15 R413 to R415). `capture` links a record still in an island
queue to the ERR_FIRST that waits for its SEQ: the page and the island queue position count. -/
structure Errs where
  queues     : NatMap (List (Record × Option Nat))
  suppressed : NatMap Nat
  ring       : NatMap Record
  seq        : W32
  exports    : NatMap Export
  ticks      : NatMap W64
deriving DecidableEq, Repr

/-- A running reset (15 R422 to R424). -/
structure Running where
  level  : Nat
  target : Nat
  retrain : Bool
  margin  : Bool
  taken  : Bool
deriving DecidableEq, Repr

/-- A user-calibration copy (16 R459): GENERATION and its entries as 64-bit words. -/
structure UserCopy where
  valid      : Bool
  generation : W32
  entries    : List W64
deriving DecidableEq, Repr

/-- A factory-blob record (16 R458). -/
structure Factory where
  item  : W16
  index : W16
  value : W32
  min   : W32
  max   : W32
deriving DecidableEq, Repr

/-- An ember slot (18 R510 to R515): the header fields, and the bytes of the sections whose layout the manual gives. -/
structure Ember where
  valid      : Bool
  generation : W64
  cause      : Byte
  island     : Byte
  status     : Status
  sensor     : Byte
  temp       : W16
  time       : W64
  lastSeq    : W32
  second     : Bool
  bytes      : List Host.Cell
deriving DecidableEq, Repr

/-- An ember dump being written. -/
structure Dump where
  cause  : Byte
  status : Status
  sensor : Byte
  temp   : W16
  time   : W64
  second : Bool
  early  : Bool
deriving DecidableEq, Repr

/-- The Lamplighter and the part's non-volatile areas (15 R416 to R421, 16 R444 to R461, 18 R510). -/
structure Lamp where
  moduleTime  : W64
  beacon      : W64
  restarting  : Bool
  gaveUp      : Bool
  restarts    : Byte
  hangs       : Nat
  heldWrites  : List (RegSrc × Nat × W64)
  variantA    : Bool
  bootStep    : BitVec 4
  booting     : Bool
  halted      : Bool
  fatal       : Bool
  running     : List Running
  escalated   : Byte
  userA       : UserCopy
  userB       : UserCopy
  useB        : Bool
  noCopy      : Bool
  newCopy     : Option UserCopy
  factory     : List Factory
  serial      : BitVec 128
  slotAVer    : W16
  slotBVer    : W16
  minVer      : W16
  classNow    : BitVec 2
  classStored : BitVec 2
  classRefused : BitVec 2
  emberA      : Ember
  emberB      : Ember
  newestB     : Bool
  dump        : Option Dump
  spi         : List Host.Cell
deriving DecidableEq, Repr

/-- A Lerter session (18 R504 to R506, 19 R527). -/
structure Session where
  open_   : Bool
  level   : BitVec 2
  nonce   : Option (BitVec 128)
  want    : BitVec 2
  parts   : NatMap W512
  fails   : Nat
  /-- module time until which CHAL is refused -/
  lockUntil : W64
  mac     : BitVec 48
  lastSeq : Option W16
  answer  : List AnsVal
  final   : Status
deriving DecidableEq, Repr

structure Mon where
  sessions : NatMap Session
  opkey    : Option (List Byte)
  newKey   : Option (List Byte)
  commands : W16
  breakHeld : Bool
deriving DecidableEq, Repr

/-- A stacked die's or capacity channel's training (16 R454 to R456): 0 READY, 1 PENDING, 2 TRAINING. -/
structure Training where
  state    : BitVec 2
  retrains : Byte
  middle   : W16
  temp     : W16
  fails    : Nat
  dead     : Bool
deriving DecidableEq, Repr

/-- A temperature sensor (17 R489, R490; 19 R531). -/
structure Sensor where
  reading : W16
  failed  : Bool
  overCount : Nat
  near    : Bool
deriving DecidableEq, Repr

/-- The standby domain: feed, rails, pins, I3C (19). -/
structure Power where
  feed      : Bool
  tripped   : Bool
  mainOn    : Bool
  pwrgd     : Bool
  offWait   : Bool
  powerDue  : Bool
  cmdOff    : Bool
  cycling   : Bool
  heldCmds  : List Byte
  /-- the filtered levels of PWR_EN, SYS_RESET_N, PERST_N and COOLANT_FAULT_N -/
  pwrEn     : Bool
  sysResetN : Bool
  perstN    : Bool
  coolantN  : Bool
  masked    : Bool
  sysHeld   : Bool
  perstHeld : Bool
  /-- SYS_RESET_N [0] or PERST_N [1] has been asserted longer than 1 s and still is -/
  heldNow   : BitVec 2
  /-- a held SYS_RESET_N [0] or PERST_N [1] whose record the next cold boot writes -/
  heldDue   : BitVec 2
  startCause : Byte
  alert     : W16
  /-- a power-cycle request stands -/
  cycleReq  : Bool
  i3cAddr   : Option (BitVec 7)
  inputPower : W32
  rails     : NatMap W16
  peakPower : W16
  stack     : NatMap Training
  cap       : NatMap Training
  sensors   : NatMap Sensor
  /-- the calibrated offset of each sensor, as last applied (16 R460) -/
  tempOffset : NatMap W32
  stopLimit : W32
  peakTemp  : W16
  peakSensor : BitVec 7
deriving DecidableEq, Repr

/-- The whole state of the block. -/
structure State where
  /-- the commands waiting, first in, first out -/
  pending  : List Instr
  /-- model's own: what left the module, oldest first -/
  out      : List Out
  /-- model's own: how many free values have been drawn -/
  free     : Nat
  /-- model's own: other homes' stores and agents' windows as this controller's accesses find them, and the status
  with which accesses to an agent end -/
  remote       : List Host.Cell
  remoteStatus : NatMap Status
  /-- registers that are stored as written (17 R469 to R475), keyed by BAR0 offset, banked ones by bank -/
  regs     : NatMap W64
  /-- status of each source's last command (17 R474), keyed by command kind and bank -/
  lastCmd  : NatMap W16
  xbar     : Xbar
  sync     : Sync
  lantern  : Lantern
  store    : Store
  xlt      : Xlt
  keys     : NatMap KeySlot
  scratch  : List Host.Cell
  imem     : List Host.Cell
  reservoir : List Host.Cell
  /-- uncorrectable 8-byte words: scratch, instruction memory (wick-major word numbers), Reservoir -/
  badScratch : List Nat
  badImem    : List Nat
  badRsv     : List Nat
  wicks    : NatMap Wick
  sconces  : NatMap Sconce
  plans    : NatMap Plan
  emb      : Emb
  host     : HostLink
  dir      : Directory
  work     : Work
  errs     : Errs
  lamp     : Lamp
  mon      : Mon
  power    : Power
deriving DecidableEq, Repr

/-! ### The state right after reset

The moment is the release of the module reset (16 R444, 19 R521): the main rails are on, PWRGD is released, and the
cold boot has not begun. Where the manual gives no reset value the value is zero (log entry 1). -/

/-- A lane of a port that is not enabled (04 R109). -/
def Lane.off : Lane :=
  { state := 0, lock := false, signal := false, wait := false, retrains := 0, tx := 0, rx := 0, failed := 0,
    retrainReq := false }

/-- A port that is not enabled: every lane OFF, no lane in use, no credit, nothing queued (04 R109, R113; 05 R145). -/
def Port.down : Port :=
  { state := 0, lanes := List.replicate 5 Lane.off, txMap := 0, rxMap := 0, txUse := 0, rxUse := 0, ctlLane := 0,
    failReq := false, cwSeqTx := 0, cwSeqRx := 0, framingLost := false, met := false, noPeerSeen := false,
    credit := List.replicate 12 0, sent := List.replicate 12 0, received := List.replicate 12 0,
    freed := List.replicate 12 0, creditDue := false, queue := [], ctlQueue := [], peerReq := 0 }

/-- A wick with no launch: all registers zero (08 R221; 07 R190). -/
def Wick.fresh : Wick :=
  { sreg := [], vreg := [], kreg := [], acc := [], pc := 0, cycle := 0, flags := 0, mstat := 0, cntsel := 0,
    rel := [0, 0, 0, 0], step := 0, ctx := 0, part := 0, handle := 0, state := .idle, wait := .none, stop := 0,
    gen := 0, buf := [], track := [] }

/-- A sconce before the boot reads its fuses: no wick marked failed (log entry 1). -/
def Sconce.fresh : Sconce :=
  { fuseFail := 0, failed := 0, available := true, screened := 0, spotGen := 0, spot := none, quiesce := false,
    resetting := false, moverGen := List.replicate 8 0 }

/-- A queue of a cold-booted part: disabled (16 R447). -/
def Queue.off : Queue :=
  { ring := 0, cpl := 0, cfg := 0, tailcnt := 0, head := 0, tail := 0, stopped := false, stop := 0, fetched := [],
    active := [], failed := [] }

/-- A composition never created: FREE (14 R400). -/
def Comp.free : Comp :=
  { state := 0, part := 0, host := 0, accels := [], teardown := false, activeUs := 0, sconceUs := 0, gibUs := 0,
    created := false }

/-- An extent that no composition owns (16 R447). -/
def Extent.unowned : Extent := { comp := 0, owned := false, revoking := false, epoch := 0, inflight := 0 }

/-- An ember slot that holds no dump. -/
def Ember.empty : Ember :=
  { valid := false, generation := 0, cause := 0, island := 0, status := 0, sensor := 0, temp := 0, time := 0,
    lastSeq := 0, second := false, bytes := [] }

/-- A user copy that is not valid (16 R459). -/
def UserCopy.absent : UserCopy := { valid := false, generation := 0, entries := [] }

/-- A closed monitor session at level 0 (18 R504). -/
def Session.closed : Session :=
  { open_ := false, level := 0, nonce := none, want := 0, parts := [], fails := 0, lockUntil := 0, mac := 0,
    lastSeq := none, answer := [], final := 0 }

/-- A die or channel that is READY and has not been retrained (16 R466). -/
def Training.ready : Training := { state := 0, retrains := 0, middle := 0, temp := 0, fails := 0, dead := false }

/-- A sensor that has not been sampled. -/
def Sensor.fresh : Sensor := { reading := 0, failed := false, overCount := 0, near := false }

/-- An HDM decoder that is not committed (13 R365). -/
def Window.off : Window := { ctx := 0, coherent := false, committed := false, base := 0, size := 0, status := 0 }

/-- A coherent window that is not valid (13 R369, R386). -/
def CohWin.off : CohWin := { first := 0, count := 0, valid := false, cache := 0, rw := 0 }

/-- A directory entry in I (13 R370). -/
def DirEntry.invalid : DirEntry :=
  { state := 0, bcast := false, busy := false, ptrs := [], way := 0, key := 0, part := 0 }

/-- An export ring that is not enabled (15 R441). -/
def Export.off : Export := { ring := 0, cfg := 0, head := 0, tail := 0, next := 0 }

/-- A stream toward an agent to which nothing was sent (05 R140). -/
def TxStream.fresh : TxStream := { nextSeq := 0, nextCseq := 0, pkts := [], ctls := [], waiting := [] }

/-- An empty duplicate window (05 R142; 16 R447). -/
def RxWindow.fresh : RxWindow := { newest := none, seqs := [], cnewest := none, cseqs := [], restarted := false }

def Xbar.reset : Xbar :=
  { agentId := 0, routeCur := [], routeOther := [], otherFrozen := false, epochCur := 0, epochOther := 0,
    otherState := 0, prepared := false, drained := false, preparedBy := [], tx := [], rx := [], windows := [],
    fenceBad := [], issued := 0, joins := [], nextJoin := 0, teardowns := [] }

def Sync.reset : Sync := { hub := [], local_ := [], sems := [], held := [], waits := [], groups := [], detected := [] }

def Lantern.reset : Lantern :=
  { ports := [], activeB := false, litA := 0, litB := 0, switches := 0, recent := 0, dark := false,
    booster := List.replicate 5 0 }

/-- The store before a boot: default pools and every sconce available, so that HOME_LEN is its reset value
(02 R66). -/
def Store.reset : Store :=
  { homeId := 0, homeLen := 0x3B2940000000, rowGiB := 0, shadowGiB := 0, cells := [], written := [], badLines := [],
    blocks := [], stkAt := [], capAt := [], bootDown := [], flashDown := 0, handStk := 0, handCap := 0, decay := 0, halvings := 0,
    touched := [], moves := [], moveWait := [], advice := [], deferred := [], shadowMem := [], shadowUse := 0,
    flashFree := 0, flashWait := false, flashWear := 0, flashLog := 0, mirror := [], guest := [],
    twins := [], nextTwin := 0, rebuild := none, rebuildStat := 0 }

def Xlt.reset : Xlt := { ctxs := [], tlb := [], shoots := [], nextShoot := 0, walkers := 0, atc := [] }

def Emb.reset : Emb :=
  { tables := [], sketch := [], lookups := 0, epoch := 0, mults := [0, 0, 0, 0], moves := [], aborts := [] }

def HostLink.reset : HostLink :=
  { linkStat := 0, windows := [], bisnp := [], dead := false, deadTimer := false, inReset := false, cfgSpace := [],
    vfEnable := false, stopped := false, notFront := false, ide := [], ideGo := [], events := [], mem := [] }

def Directory.reset : Directory :=
  { entries := [], txns := [], nextTxn := 0, answers := [], waiting := [], lineBuf := [], rr := [], windows := [],
    depBase := [], depLen := [], depTarget := [], sweep := none, hostDue := none, sweepDue := [], walked := 0, forfeits := [] }

def Work.reset : Work :=
  { sconceOwner := [], cntOwner := [], semOwner := [], rsvOwner := [], grant := none, partQueues := [],
    partCtx := [], quota0 := [], quota1 := [], share := [], agentPart := [], queues := [], ended := [], comps := [],
    extents := [], extCmds := [], partReset := [], xfers := [], nextXfer := 0, tstreams := [], engGen := [], copyReset := [] }

def Errs.reset : Errs :=
  { queues := [], suppressed := [], ring := [], seq := 0, exports := [], ticks := [] }

def Lamp.reset : Lamp :=
  { moduleTime := 0, beacon := 0, restarting := false, gaveUp := false, restarts := 0, hangs := 0, heldWrites := [],
    variantA := false, bootStep := 0, booting := true, halted := false, fatal := false, running := [],
    escalated := 0, userA := UserCopy.absent, userB := UserCopy.absent, useB := false, noCopy := true,
    newCopy := none, factory := [], serial := 0, slotAVer := 0, slotBVer := 0, minVer := 0, classNow := 3,
    classStored := 0, classRefused := 0, emberA := Ember.empty, emberB := Ember.empty, newestB := false,
    dump := none, spi := [] }

def Mon.reset : Mon := { sessions := [], opkey := none, newKey := none, commands := 0, breakHeld := false }

def Power.reset : Power :=
  { feed := true, tripped := false, mainOn := true, pwrgd := true, offWait := false, powerDue := false,
    cmdOff := false, cycling := false, heldCmds := [], pwrEn := true, sysResetN := true, perstN := true,
    coolantN := true, masked := false, sysHeld := false, perstHeld := false, heldNow := 0, heldDue := 0, startCause := 0,
    alert := 0, cycleReq := false, i3cAddr := none, inputPower := 0, rails := [], peakPower := 0, stack := [], cap := [],
    sensors := [], tempOffset := [], stopLimit := 0x03200690, peakTemp := 0, peakSensor := 0 }

/-- The block right after reset. -/
def State.reset : State :=
  { pending := [], out := [], free := 0, remote := [], remoteStatus := [], regs := [], lastCmd := [],
    xbar := Xbar.reset, sync := Sync.reset, lantern := Lantern.reset, store := Store.reset, xlt := Xlt.reset,
    keys := [], scratch := [], imem := [], reservoir := [], badScratch := [], badImem := [], badRsv := [],
    wicks := [], sconces := [], plans := [], emb := Emb.reset, host := HostLink.reset, dir := Directory.reset,
    work := Work.reset, errs := Errs.reset, lamp := Lamp.reset, mon := Mon.reset, power := Power.reset }

end Sys2Proof.Machine
end

