-- ==== Sys2Proof/Machine/Ops.lean ====
section
/-! DEFINITION. Named operations that every family uses: sparse tables and byte memories, little-endian bytes, free
values, and what leaves the module. -/
namespace Sys2Proof.Machine

/-! ### Sparse tables -/

/-- The entry of a table at a key; `d` where the table lists none. -/
def tget {α : Type} (d : α) : NatMap α → Nat → α
  | [], _ => d
  | (j, v) :: r, k => if j = k then v else tget d r k

/-- The entry of a table at a key, if it lists one. -/
def tfind {α : Type} : NatMap α → Nat → Option α
  | [], _ => none
  | (j, v) :: r, k => if j = k then some v else tfind r k

/-- Lists `v` at `k`, keeping the keys in rising order. -/
def tput {α : Type} : NatMap α → Nat → α → NatMap α
  | [], k, v => [(k, v)]
  | (j, u) :: r, k, v =>
    if k < j then (k, v) :: (j, u) :: r
    else if k = j then (k, v) :: r
    else (j, u) :: tput r k v

/-- Removes the entry at a key. -/
def tdel {α : Type} (m : NatMap α) (k : Nat) : NatMap α := m.filter (fun e => e.1 ≠ k)

/-- Changes the entry at a key. -/
def tmod {α : Type} (d : α) (m : NatMap α) (k : Nat) (f : α → α) : NatMap α := tput m k (f (tget d m k))

/-! ### Byte memories -/

/-- Reads a byte; an unlisted address reads 0. -/
def cellGet (m : List Host.Cell) (a : Nat) : Byte := tget 0 m a

/-- Writes a byte, keeping the canonical form: rising addresses and no zero listed. -/
def cellSet (m : List Host.Cell) (a : Nat) (b : Byte) : List Host.Cell :=
  if b = 0 then tdel m a else tput m a b

/-- Reads `n` bytes from `a` upward. -/
def cellRead (m : List Host.Cell) (a n : Nat) : List Byte := (List.range n).map (fun i => cellGet m (a + i))

/-- Writes bytes from `a` upward. -/
def cellWrite (m : List Host.Cell) : Nat → List Byte → List Host.Cell
  | _, [] => m
  | a, b :: r => cellWrite (cellSet m a b) (a + 1) r

/-- Writes zeros over `[a, a + n)`. -/
def cellZero (m : List Host.Cell) (a n : Nat) : List Host.Cell :=
  m.filter (fun c => ¬ (a ≤ c.1 ∧ c.1 < a + n))

/-- The canonical form of a byte memory: addresses strictly rising, no listed byte 0. -/
def Memory.wf (m : List Host.Cell) : Bool :=
  decide (m.Pairwise (fun x y => x.1 < y.1)) && m.all (fun c => c.2 ≠ 0)

/-! ### Little-endian bytes (00 R9) -/

/-- The low `n` bytes of a number, lowest first. -/
def leBytes : Nat → Nat → List Byte
  | 0, _ => []
  | n + 1, v => BitVec.ofNat 8 v :: leBytes n (v / 256)

/-- The number that bytes spell, lowest first. -/
def leNat : List Byte → Nat
  | [] => 0
  | b :: r => b.toNat + 256 * leNat r

/-- Bits [lo + n - 1 : lo] of a number. -/
def bits (v lo n : Nat) : Nat := v / 2 ^ lo % 2 ^ n

/-- Bit `i` of a number. -/
def bit (v i : Nat) : Bool := v.testBit i

/-- Set bits among the low `n`. -/
def popc (n v : Nat) : Nat := ((List.range n).filter (fun i => v.testBit i)).length

/-- 1 or 0. -/
def b2n (b : Bool) : Nat := if b then 1 else 0

/-- `n` bytes 0xFF: what a failed load returns (00 R16). -/
def ones (n : Nat) : List Byte := List.replicate n 0xFF

/-- `n` zero bytes. -/
def zeros (n : Nat) : List Byte := List.replicate n 0

/-- Bytes `[i, i + n)` of a list. -/
def slice (l : List Byte) (i n : Nat) : List Byte := (l.drop i).take n

/-- The unsigned field of `n` bytes at byte `i` of a 64 B structure. -/
def fld (d : W512) (i n : Nat) : Nat := bits d.toNat (8 * i) (8 * n)

/-! ### Status codes (00 R15) -/

abbrev stOK : Status := 0x00
abbrev stXlate : Status := 0x01
abbrev stPerm : Status := 0x02
abbrev stKey : Status := 0x03
abbrev stTargetDead : Status := 0x04
abbrev stStaleEpoch : Status := 0x05
abbrev stRevoked : Status := 0x06
abbrev stUncorr : Status := 0x07
abbrev stForfeit : Status := 0x08
abbrev stLost : Status := 0x09
abbrev stDeadline : Status := 0x0A
abbrev stReplayExpired : Status := 0x0B
abbrev stPathLost : Status := 0x0C
abbrev stAborted : Status := 0x0D
abbrev stSessionLost : Status := 0x0E
abbrev stDenied : Status := 0x0F
abbrev stBusy : Status := 0x10
abbrev stFormat : Status := 0x11
abbrev stAlign : Status := 0x12
abbrev stQuota : Status := 0x13
abbrev stTornDown : Status := 0x14
abbrev stReset : Status := 0x15
abbrev stOverrun : Status := 0x16

/-! ### Free values and outputs -/

/-- Draws a free value. -/
def draw (s : State) : W64 × State := (Config.freeWord s.free, { s with free := s.free + 1 })

/-- Appends one thing that leaves the module. -/
def emit (s : State) (o : Out) : State := { s with out := s.out ++ [o] }

/-- Folds a state operation over a list, first element first. -/
def eachDo {α : Type} (l : List α) (f : State → α → State) (s : State) : State := l.foldl f s

/-- The first non-OK status of a list, or OK. -/
def firstBad (l : List Status) : Status := (l.find? (· ≠ 0)).getD 0

/-! ### Record updates used throughout -/

def State.setReg (s : State) (k : Nat) (v : W64) : State := { s with regs := tput s.regs k v }
def State.setWick (s : State) (w : Nat) (f : Wick → Wick) : State :=
  { s with wicks := tmod Wick.fresh s.wicks w f }
def State.wick (s : State) (w : Nat) : Wick := tget Wick.fresh s.wicks w
def State.setSconce (s : State) (n : Nat) (f : Sconce → Sconce) : State :=
  { s with sconces := tmod Sconce.fresh s.sconces n f }
def State.sconce (s : State) (n : Nat) : Sconce := tget Sconce.fresh s.sconces n
def State.setPort (s : State) (n : Nat) (f : Port → Port) : State :=
  { s with lantern := { s.lantern with ports := tmod Port.down s.lantern.ports n f } }
def State.port (s : State) (n : Nat) : Port := tget Port.down s.lantern.ports n
def State.setXbar (s : State) (f : Xbar → Xbar) : State := { s with xbar := f s.xbar }
def State.setSync (s : State) (f : Sync → Sync) : State := { s with sync := f s.sync }
def State.setStore (s : State) (f : Store → Store) : State := { s with store := f s.store }
def State.setXlt (s : State) (f : Xlt → Xlt) : State := { s with xlt := f s.xlt }
def State.setWork (s : State) (f : Work → Work) : State := { s with work := f s.work }
def State.setQueue (s : State) (q : Nat) (f : Queue → Queue) : State :=
  { s with work := { s.work with queues := tmod Queue.off s.work.queues q f } }
def State.queue (s : State) (q : Nat) : Queue := tget Queue.off s.work.queues q
def State.setComp (s : State) (c : Nat) (f : Comp → Comp) : State :=
  { s with work := { s.work with comps := tmod Comp.free s.work.comps c f } }
def State.comp (s : State) (c : Nat) : Comp := tget Comp.free s.work.comps c
def State.setExtent (s : State) (e : Nat) (f : Extent → Extent) : State :=
  { s with work := { s.work with extents := tmod Extent.unowned s.work.extents e f } }
def State.extent (s : State) (e : Nat) : Extent := tget Extent.unowned s.work.extents e
def State.setDir (s : State) (f : Directory → Directory) : State := { s with dir := f s.dir }
def State.setHost (s : State) (f : HostLink → HostLink) : State := { s with host := f s.host }
def State.setErrs (s : State) (f : Errs → Errs) : State := { s with errs := f s.errs }
def State.setLamp (s : State) (f : Lamp → Lamp) : State := { s with lamp := f s.lamp }
def State.setMon (s : State) (f : Mon → Mon) : State := { s with mon := f s.mon }
def State.setPower (s : State) (f : Power → Power) : State := { s with power := f s.power }
def State.setEmb (s : State) (f : Emb → Emb) : State := { s with emb := f s.emb }
def State.setPlan (s : State) (h : Nat) (f : Plan → Plan) : State :=
  { s with plans := s.plans.map (fun e => if e.1 = h then (e.1, f e.2) else e) }
def State.plan (s : State) (h : Nat) : Option Plan := tfind s.plans h

/-- Engines issue nothing further: a fatal stop has happened, or an ember dump has begun, which also stops the host
link (15 R429, 18 R510). -/
def frozen (s : State) : Bool := s.lamp.fatal || s.host.stopped

/-- The main rails are on and SYS_RESET_N does not hold their domains in reset (19 R521, R523). -/
def mainUp (s : State) : Bool := s.power.mainOn && s.power.sysResetN

end Sys2Proof.Machine
end

