-- ==== Sys2Proof/Machine/Flags.lean ====
section
/-! DEFINITION. Number formats, rounding and the flags it raises: exact dyadic values, one rounding at the end
(07 R194 to R213, R535). -/
namespace Sys2Proof.Machine

/-! ### Values and formats (R201, R202) -/

/-- A floating value: a NaN, an infinity, or (-1)^neg × m × 2^e exactly (m = 0 keeps its sign). -/
inductive FVal where
  | nan
  | inf (neg : Bool)
  | fin (neg : Bool) (m : Nat) (e : Int)
deriving DecidableEq, Repr

/-- A floating format: exponent and fraction bits, bias, largest finite code, canonical NaN (none in E2M1), and the
code of an infinity where the format has one. -/
structure Fmt where
  eb : Nat
  fb : Nat
  bias : Int
  maxCode : Nat
  nanCode : Option Nat
  infCode : Option Nat
deriving DecidableEq, Repr

def fmtFP32 : Fmt := ⟨8, 23, 127, 0x7F7FFFFF, some 0x7FC00000, some 0x7F800000⟩
def fmtBF16 : Fmt := ⟨8, 7, 127, 0x7F7F, some 0x7FC0, some 0x7F80⟩
def fmtFP16 : Fmt := ⟨5, 10, 15, 0x7BFF, some 0x7E00, some 0x7C00⟩
def fmtE4M3 : Fmt := ⟨4, 3, 7, 0x7E, some 0x7F, none⟩
def fmtE5M2 : Fmt := ⟨5, 2, 15, 0x7B, some 0x7E, some 0x7C⟩
def fmtE2M1 : Fmt := ⟨2, 1, 1, 0x7, none, none⟩

/-- Bits of an element, and its sign bit's weight. -/
def Fmt.width (f : Fmt) : Nat := 1 + f.eb + f.fb
def Fmt.signBit (f : Fmt) : Nat := 2 ^ (f.eb + f.fb)

/-- The value that a code stands for. -/
def fdec (f : Fmt) (c : Nat) : FVal :=
  let neg := decide (f.signBit ≤ c % (2 * f.signBit))
  let a := c % f.signBit
  if a ≤ f.maxCode then
    let ex := a / 2 ^ f.fb
    let fr := a % 2 ^ f.fb
    if ex = 0 then .fin neg fr (1 - f.bias - f.fb) else .fin neg (2 ^ f.fb + fr) (ex - f.bias - f.fb)
  else if f.infCode = some a then .inf neg
  else .nan

/-- INT8 and wider two's-complement values. -/
def sval (n v : Nat) : Int := if v % 2 ^ n < 2 ^ (n - 1) then (v % 2 ^ n : Nat) else ((v % 2 ^ n : Nat) : Int) - 2 ^ n
def fint (i : Int) : FVal := .fin (decide (i < 0)) i.natAbs 0

/-! ### Rounding (R206, R207) -/

/-- The rounding of one element: nearest even, or stochastic with the 16 bits that the generator supplied. -/
inductive Rnd where
  | rne
  | stoch (r : Nat)
deriving DecidableEq, Repr

/-- Rounds the quotient n/d to an integer. -/
def roundQuot (r : Rnd) (n d : Nat) : Nat :=
  let k := n / d
  let rem := n % d
  match r with
  | .rne => if 2 * rem < d then k else if d < 2 * rem then k + 1 else if k % 2 = 0 then k else k + 1
  | .stoch b => if b < rem * 65536 / d then k + 1 else k

/-- x × 2^e as a quotient. -/
def scaleQuot (n d : Nat) (e : Int) : Nat × Nat :=
  if 0 ≤ e then (n * 2 ^ e.toNat, d) else (n, d * 2 ^ (-e).toNat)

/-- The largest E with 2^E ≤ n/d, for n > 0. -/
def expOf (n d : Nat) : Int :=
  let l : Int := (Nat.log2 n : Int) - Nat.log2 d
  let (a, b) := scaleQuot n d (-l)
  if b ≤ a then l else l - 1

/-- The sticky flags of a wick (08 R254): NV, DZ, OF, UF, NX. -/
abbrev FFlags := BitVec 5
abbrev flNV : FFlags := 1
abbrev flDZ : FFlags := 2
abbrev flOF : FFlags := 4
abbrev flUF : FFlags := 8
abbrev flNX : FFlags := 16

/-- A rounded magnitude: its code before the overflow rule, exactness, tininess after rounding. -/
structure Rounded where
  code : Nat
  inexact : Bool
  tiny : Bool
deriving DecidableEq, Repr

/-- The code of k × 2^q in a format, q being the quantum that `k` was rounded to. -/
def packCode (f : Fmt) (k : Nat) (q : Int) : Nat :=
  if k < 2 ^ f.fb then k
  else if k < 2 ^ (f.fb + 1) then (q + f.fb + f.bias).toNat * 2 ^ f.fb + (k - 2 ^ f.fb)
  else (q + 1 + f.fb + f.bias).toNat * 2 ^ f.fb

/-- Rounds the magnitude n/d × 2^e to a format, as though the exponent had no upper end. -/
def roundMag (f : Fmt) (r : Rnd) (n d : Nat) (e : Int) : Rounded :=
  if n = 0 then ⟨0, false, false⟩
  else
    let ex := expOf n d + e
    let emin : Int := 1 - f.bias
    let q := max (ex - f.fb) (emin - f.fb)
    let (a, b) := scaleQuot n d (e - q)
    let k := roundQuot r a b
    let qu := ex - f.fb
    let (a', b') := scaleQuot n d (e - qu)
    let ku := roundQuot r a' b'
    ⟨packCode f k q, decide (a % b ≠ 0), decide (ex + b2n (decide (2 ^ (f.fb + 1) ≤ ku)) < emin)⟩

/-- The signed code. -/
def withSign (f : Fmt) (neg : Bool) (c : Nat) : Nat := if neg then f.signBit + c else c

/-- How a narrowing treats values beyond the range (R209): `sat` is the default setting of the 8-bit formats. -/
def narrow (f : Fmt) (r : Rnd) (sat : Bool) (v : FVal) : Nat × FFlags :=
  match v with
  | .nan => (f.nanCode.getD 0, 0)
  | .inf neg =>
    match f.infCode with
    | some c => if f.eb = 5 ∧ f.fb = 2 ∧ sat then (withSign f neg f.maxCode, flOF ||| flNX) else (withSign f neg c, 0)
    | none => if sat then (withSign f neg f.maxCode, flOF ||| flNX) else (f.nanCode.getD 0, flNV)
  | .fin neg m e =>
    let p := roundMag f r m 1 e
    if p.code ≤ f.maxCode then
      (withSign f neg p.code, if !p.inexact then 0 else if p.tiny then flUF ||| flNX else flNX)
    else
      match f.infCode with
      | some c => if f.eb = 5 ∧ f.fb = 2 ∧ sat then (withSign f neg f.maxCode, flOF ||| flNX)
                  else (withSign f neg c, flOF ||| flNX)
      | none => if sat then (withSign f neg f.maxCode, flOF ||| flNX) else (f.nanCode.getD 0, flNV)

/-- One rounding to FP32, nearest even: result and flags (R195, R254). -/
def toFP32 (v : FVal) : Nat × FFlags := narrow fmtFP32 .rne true v

/-- A value rounded to a signed integer of `n` bits, clamped; NaN gives 0 (R209, R535). -/
def toInt (n : Nat) (r : Rnd) (v : FVal) : Int × FFlags :=
  let hi : Int := 2 ^ (n - 1) - 1
  let lo : Int := -2 ^ (n - 1)
  match v with
  | .nan => (0, flNV)
  | .inf neg => (if neg then lo else hi, flNV)
  | .fin neg m e =>
    let (a, b) := scaleQuot m 1 e
    let k := roundQuot r a b
    let i : Int := if neg then -(k : Int) else k
    if i < lo then (lo, flNV) else if hi < i then (hi, flNV)
    else (i, if a % b = 0 then 0 else flNX)

/-! ### Exact arithmetic (R211) -/

def FVal.negate : FVal → FVal
  | .nan => .nan
  | .inf n => .inf (!n)
  | .fin n m e => .fin (!n) m e

def signed (neg : Bool) (m : Nat) : Int := if neg then -(m : Int) else m

/-- The exact sum; an exact zero is +0 unless both operands are −0. -/
def fadd (x y : FVal) : FVal :=
  match x, y with
  | .nan, _ => .nan
  | _, .nan => .nan
  | .inf a, .inf b => if a = b then .inf a else .nan
  | .inf a, _ => .inf a
  | _, .inf b => .inf b
  | .fin a m e, .fin b n g =>
    let q := min e g
    let i := signed a (m * 2 ^ (e - q).toNat) + signed b (n * 2 ^ (g - q).toNat)
    .fin (if i = 0 then m = 0 ∧ n = 0 ∧ a ∧ b else decide (i < 0)) i.natAbs q

/-- The exact product. -/
def fmul (x y : FVal) : FVal :=
  match x, y with
  | .nan, _ => .nan
  | _, .nan => .nan
  | .inf a, .inf b => .inf (a != b)
  | .inf a, .fin b n _ => if n = 0 then .nan else .inf (a != b)
  | .fin a m _, .inf b => if m = 0 then .nan else .inf (a != b)
  | .fin a m e, .fin b n g => .fin (a != b) (m * n) (e + g)

/-- An operation is invalid when it gives a NaN from operands that are none. -/
def invalid (ops : List FVal) (r : FVal) : Bool := decide (r = .nan) && !(ops.contains .nan)

/-- The exact order of two values that are no NaN, −0 and +0 equal. -/
def fcmp (x y : FVal) : Ordering :=
  match x, y with
  | .nan, _ => .eq
  | _, .nan => .eq
  | .inf a, .inf b => if a = b then .eq else if a then .lt else .gt
  | .inf a, _ => if a then .lt else .gt
  | _, .inf b => if b then .gt else .lt
  | .fin a m e, .fin b n g =>
    let q := min e g
    compare (signed a (m * 2 ^ (e - q).toNat)) (signed b (n * 2 ^ (g - q).toNat))

def FVal.isNeg : FVal → Bool
  | .nan => false
  | .inf n => n
  | .fin n _ _ => n

def FVal.isZero : FVal → Bool
  | .fin _ 0 _ => true
  | _ => false

/-- Minimum and maximum (R212): NaN if either is, −0 below +0. -/
def fmin (x y : FVal) : FVal :=
  if x = .nan ∨ y = .nan then .nan
  else if x.isZero && y.isZero then (if x.isNeg then x else y)
  else if fcmp y x = .lt then y else x
def fmax (x y : FVal) : FVal :=
  if x = .nan ∨ y = .nan then .nan
  else if x.isZero && y.isZero then (if x.isNeg then y else x)
  else if fcmp x y = .lt then y else x

/-! ### FP32 operations with flags -/

def f32 (c : Nat) : FVal := fdec fmtFP32 c

/-- The flags of an operation whose exact result is `v` from operands `ops`. -/
def opFlags (ops : List FVal) (v : FVal) : FFlags := if invalid ops v then flNV else 0

def f32Add (a b : Nat) : Nat × FFlags :=
  let v := fadd (f32 a) (f32 b); let (r, g) := toFP32 v; (r, g ||| opFlags [f32 a, f32 b] v)
def f32Mul (a b : Nat) : Nat × FFlags :=
  let v := fmul (f32 a) (f32 b); let (r, g) := toFP32 v; (r, g ||| opFlags [f32 a, f32 b] v)
/-- a × b + c with one rounding. -/
def f32Fma (a b c : Nat) : Nat × FFlags :=
  let v := fadd (fmul (f32 a) (f32 b)) (f32 c)
  let (r, g) := toFP32 v; (r, g ||| opFlags [f32 a, f32 b, f32 c] v)
/-- −(a × b) + c with one rounding. -/
def f32Fnma (a b c : Nat) : Nat × FFlags :=
  let v := fadd (fmul (f32 a) (f32 b)).negate (f32 c)
  let (r, g) := toFP32 v; (r, g ||| opFlags [f32 a, f32 b, f32 c] v)
def f32Neg (a : Nat) : Nat := a ^^^ 0x80000000
def f32Abs (a : Nat) : Nat := a % 0x80000000
/-- A value's canonical FP32 code (a NaN becomes the canonical NaN). -/
def f32Code (v : FVal) : Nat := (toFP32 v).1

/-- Reciprocal, correctly rounded (R196); the flags that R242 names and no other (log entry 12). -/
def f32Recip (a : Nat) : Nat × FFlags :=
  match f32 a with
  | .nan => (0x7FC00000, 0)
  | .inf neg => (withSign fmtFP32 neg 0, 0)
  | .fin neg 0 _ => (withSign fmtFP32 neg 0x7F800000, flDZ)
  | .fin neg m e =>
    let p := roundMag fmtFP32 .rne 1 m (-e)
    (withSign fmtFP32 neg (if p.code ≤ fmtFP32.maxCode then p.code else 0x7F800000), 0)

/-- The integer square root of `n`, by `k` pairs of bits. -/
def isqrt (n : Nat) : Nat → Nat
  | 0 => 0
  | k + 1 => let r := 2 * isqrt (n / 4) k; if (r + 1) * (r + 1) ≤ n then r + 1 else r

/-- A code that is 1/√(m × 2^e) with a relative error of at most 2^-22 (R196), decided exactly by its square. -/
def rsqrtAllowed (m : Nat) (e : Int) (c : Nat) : Bool :=
  match f32 c with
  | .fin false r g =>
    let (a, b) := scaleQuot (r * r * m) 1 (2 * g + e)
    decide ((2 ^ 22 - 1) ^ 2 * b ≤ a * 2 ^ 44 ∧ a * 2 ^ 44 ≤ (2 ^ 22 + 1) ^ 2 * b)
  | _ => false

/-- 1/√(m × 2^e) rounded from 100 fraction bits: a code within the bound. -/
def rsqrtNear (m : Nat) (e : Int) : Nat :=
  let (m, e) := if e % 2 = 0 then (m, e) else (2 * m, e - 1)
  (roundMag fmtFP32 .rne (isqrt (2 ^ 200 / m) 101) 1 (-100 - e / 2)).code

/-- Reciprocal square root (R196): the special inputs as stated; for other values a fixed result that is free within
the stated bound (log entry 14). -/
def f32Rsqrt (a : Nat) : Nat × FFlags :=
  match f32 a with
  | .nan => (0x7FC00000, 0)
  | .inf false => (0, 0)
  | .inf true => (0x7FC00000, flNV)
  | .fin neg 0 _ => (withSign fmtFP32 neg 0x7F800000, flDZ)
  | .fin true _ _ => (0x7FC00000, flNV)
  | .fin false m e =>
    let c := (Config.rsqrtPositive (BitVec.ofNat 32 a)).toNat
    (if rsqrtAllowed m e c then c else rsqrtNear m e, 0)

/-- The FP32 constants of R196 beyond which exp overflows and vanishes: 88.722839 and −103.97208, as exact
fractions. -/
def expAbove (v : FVal) : Bool :=
  match v with
  | .inf n => !n
  | .fin false m e => let (a, b) := scaleQuot m 1 e; decide (88722839 * b < a * 1000000)
  | _ => false
def expBelow (v : FVal) : Bool :=
  match v with
  | .inf n => n
  | .fin true m e => let (a, b) := scaleQuot m 1 e; decide (10397208 * b < a * 100000)
  | _ => false

/-- `n` terms of the series of e^x after the term `t` of index `k`, in units of 2^-256 and each rounded down; `x` is
in the same units. -/
def expSum (x : Nat) : Nat → Nat → Nat → Nat
  | 0, _, _ => 0
  | n + 1, k, t => t + expSum x n (k + 1) (t * x / 2 ^ 256 / (k + 1))

/-- Two fractions, one at most and one at least e^(±m × 2^e), for a magnitude below 104: 500 terms of the series, whose
rounding down loses less than 2^-200 of the sum. -/
def expBounds (neg : Bool) (m : Nat) (e : Int) : (Nat × Nat) × (Nat × Nat) :=
  let (a, b) := scaleQuot m 1 (e + 256)
  let lo := expSum (a / b) 500 0 (2 ^ 256)
  let hi := lo + lo / 2 ^ 200
  if neg then ((2 ^ 256, hi), (2 ^ 256, lo)) else ((lo, 2 ^ 256), (hi, 2 ^ 256))

/-- A code that may be e^(±m × 2^e) (R196): a relative error of at most 2^-21 for a normal result, an absolute error of
at most 2^-149 for a subnormal one. -/
def expAllowed (neg : Bool) (m : Nat) (e : Int) (c : Nat) : Bool :=
  match f32 c with
  | .fin false r g =>
    let (lo, hi) := expBounds neg m e
    let (a, b) := scaleQuot r 1 g
    if 0x00800000 ≤ c then
      decide (lo.1 * (2 ^ 21 - 1) * b ≤ a * lo.2 * 2 ^ 21 ∧ a * hi.2 * 2 ^ 21 ≤ hi.1 * (2 ^ 21 + 1) * b)
    else decide (lo.1 * 2 ^ 149 ≤ (c + 1) * lo.2 ∧ c * hi.2 ≤ hi.1 * 2 ^ 149 + hi.2)
  | _ => false

/-- e^(±m × 2^e) rounded to nearest from its lower bound: a code within the bound. -/
def expNear (neg : Bool) (m : Nat) (e : Int) : Nat :=
  let lo := (expBounds neg m e).1
  (roundMag fmtFP32 .rne lo.1 lo.2 0).code

/-- e^x (R196): the special inputs as stated; for other values a fixed result that is free within the stated bound (log
entry 14). -/
def f32Exp (a : Nat) : Nat × FFlags :=
  match f32 a with
  | .nan => (0x7FC00000, 0)
  | .inf n => (if n then 0 else 0x7F800000, 0)
  | .fin n m e =>
    if expAbove (.fin n m e) then (0x7F800000, flOF)
    else if expBelow (.fin n m e) then (0, flUF)
    else
      let c := (Config.expFinite (BitVec.ofNat 32 a)).toNat
      let r := if expAllowed n m e c then c else expNear n m e
      (r, if r < 0x00800000 then flUF else 0)

/-! ### The rounding generator (R208) -/

def genAdvance (g : W32) : W32 :=
  let h := g >>> 1
  if g.getLsbD 0 then h ^^^ 0x80200003 else h

/-- A seed of 0 is replaced by 1. -/
def genSeed (g : W32) : W32 := if g = 0 then 1 else g

/-- The rounding of the next element, and the generator after it. -/
def genRnd (stoch : Bool) (g : W32) : Rnd × W32 :=
  if stoch then let h := genAdvance g; (.stoch (h.toNat / 65536), h) else (.rne, g)

/-! ### Shared-scale blocks (R203 to R205) -/

/-- The scale exponent for a block: the smallest e, at least −127, with amax ≤ m × 2^e. -/
def sbExp (m : Nat) (amax : FVal) : Int :=
  match amax with
  | .fin _ n e =>
    if n = 0 then -127
    else
      let t := (Nat.log2 n : Int) + e
      let e0 := t - (if m = 127 then 6 else 2)
      let c := if fcmp (.fin false n e) (.fin false m e0) = .gt then e0 + 1 else e0
      max c (-127)
  | _ => -127

/-- The largest magnitude of a list. -/
def amaxOf (l : List FVal) : FVal :=
  l.foldl (fun a x => match x with
    | .fin _ m e => if fcmp a (.fin false m e) = .lt then .fin false m e else a
    | _ => a) (.fin false 0 0)

def notFinite : FVal → Bool
  | .fin _ _ _ => false
  | _ => true

/-- One element of a block: x / 2^e rounded to INT8 or E2M1, as a code, with its inexactness. -/
def sbElem (sb4 : Bool) (r : Rnd) (e : Int) (x : FVal) : Nat × Bool :=
  match x with
  | .fin neg m g =>
    if sb4 then
      let p := roundMag fmtE2M1 r m 1 (g - e); (withSign fmtE2M1 neg p.code, p.inexact)
    else
      let (i, fl) := toInt 8 r (.fin neg m (g - e)); ((i % 256).toNat, fl != 0)
  | _ => (0, false)

/-- Converts values to a block: scale byte, element codes, flags, and the generator afterwards. A generator advances
for each element. -/
def toBlock (sb4 stoch : Bool) (g : W32) (xs : List FVal) : Nat × List Nat × FFlags × W32 :=
  let bad := xs.any notFinite
  let e := sbExp (if sb4 then 6 else 127) (amaxOf xs)
  let (codes, inex, g') := xs.foldl (fun (acc : List Nat × Bool × W32) x =>
    let (r, h) := genRnd stoch acc.2.2
    let (c, i) := sbElem sb4 r e x
    (acc.1 ++ [c], acc.2.1 || i, h)) ([], false, g)
  if bad then (0xFF, xs.map (fun _ => 0), flNV, g')
  else ((e + 127).toNat, codes, if inex then flNX else 0, g')

/-- The exact value of a block's element (R203): scale 0xFF reads as NaN. -/
def sbVal (sb4 : Bool) (s c : Nat) : FVal :=
  if s = 0xFF then .nan
  else
    match (if sb4 then fdec fmtE2M1 c else fint (sval 8 c)) with
    | .fin n m e => .fin n m (e + s - 127)
    | v => v

/-! ### Element formats of tiles and conversions (02 R60, 07 R205) -/

/-- The floating format of a code of R60, if it is one. -/
def fmtOf : Nat → Option Fmt
  | 0 => some fmtFP32
  | 1 => some fmtBF16
  | 2 => some fmtFP16
  | 3 => some fmtE4M3
  | 4 => some fmtE5M2
  | _ => none

/-- Bytes of an element of a format of R60 (0 for the block formats, whose size is by block). -/
def fmtBytes : Nat → Nat
  | 0 => 4
  | 1 => 2
  | 2 => 2
  | 3 => 1
  | 4 => 1
  | 5 => 1
  | 8 => 1
  | _ => 0

/-- Narrows to a plain element format of R60 (0 to 5). -/
def narrowTo (fmt : Nat) (r : Rnd) (sat : Bool) (v : FVal) : Nat × FFlags :=
  match fmtOf fmt with
  | some f => narrow f r sat v
  | none => let (i, g) := toInt 8 r v; ((i % 256).toNat, g)

/-- Widens a plain element (exactly; NaN canonical). -/
def widenFrom (fmt c : Nat) : FVal :=
  match fmtOf fmt with
  | some f => fdec f c
  | none => fint (sval 8 c)

/-! ### The dot unit (R193, R194, R210) -/

/-- An FP8 subnormal input reads as a zero of its sign; BF16 and FP16 subnormals are kept. -/
def dotInput (fmt c : Nat) : FVal :=
  match widenFrom fmt c with
  | .fin n m e =>
    if (fmt = 3 ∧ c % 128 < 8) ∨ (fmt = 4 ∧ c % 128 < 4) then .fin n 0 e else .fin n m e
  | v => v

/-- An SB element whose scaled value lies below 2^-126 reads as a zero of its sign. -/
def dotInputSB (sb4 : Bool) (s c : Nat) : FVal :=
  match sbVal sb4 s c with
  | .fin n m e => if fcmp (.fin false m e) (.fin false 1 (-126)) = .lt then .fin n 0 e else .fin n m e
  | v => v

/-- One output of a dot operation: the exact sum of the accumulator and the products, rounded once. -/
def dotOut (acc : Nat) (a b : List FVal) : Nat × FFlags :=
  let ps := List.zipWith fmul a b
  let v := ps.foldl fadd (f32 acc)
  let (r, g) := toFP32 v
  (r, (g &&& flOF) ||| (if invalid (f32 acc :: (a ++ b)) v then flNV else 0))

end Sys2Proof.Machine
end

