-- ==== Sys2Proof/Machine/Regs.lean ====
section
/-! DEFINITION. The register file of BAR0: pages, the table of registers with access codes and reset values, the
stored registers, counters that a read clears, and error and event capture (17 R469 to R478, 15 R409 to R413). -/
namespace Sys2Proof.Machine

/-! ### Pages (17 R470) -/

abbrev pTOP : Nat := 0
abbrev pLMP : Nat := 1
abbrev pPWR : Nat := 2
abbrev pTHM : Nat := 3
abbrev pHOST : Nat := 4
abbrev pDIR : Nat := 5
abbrev pXBAR : Nat := 6
abbrev pSYNC : Nat := 7
abbrev pWORK : Nat := 8
abbrev pPLAN : Nat := 9
abbrev pXLT : Nat := 10
abbrev pKEY : Nat := 11
abbrev pPLC : Nat := 12
abbrev pRSV : Nat := 13
abbrev pMET : Nat := 14
abbrev pMON : Nat := 15
def pLNT (n : Nat) : Nat := 16 + n
def pSTK (n : Nat) : Nat := 26 + n
def pCAP (n : Nat) : Nat := 34 + n
def pFLC (n : Nat) : Nat := 58 + n
def pSCN (n : Nat) : Nat := 90 + n

/-- BAR0 base of a page (17 R470). -/
def pageBase (p : Nat) : Nat :=
  if p < 16 then 0x1000 * p
  else if p < 26 then 0x10000 + 0x1000 * (p - 16)
  else if p < 34 then 0x20000 + 0x1000 * (p - 26)
  else if p < 58 then 0x30000 + 0x1000 * (p - 34)
  else if p < 90 then 0x50000 + 0x1000 * (p - 58)
  else 0x80000 + 0x1000 * (p - 90)

/-- The page that a BAR0 offset lies in. -/
def pageOf (off : Nat) : Option Nat :=
  let n := off / 0x1000
  if n < 0x10 then some n
  else if n < 0x1A then some (16 + (n - 0x10))
  else if 0x20 ≤ n ∧ n < 0x28 then some (26 + (n - 0x20))
  else if 0x30 ≤ n ∧ n < 0x48 then some (34 + (n - 0x30))
  else if 0x50 ≤ n ∧ n < 0x70 then some (58 + (n - 0x50))
  else if 0x80 ≤ n ∧ n < 0xC0 then some (90 + (n - 0x80))
  else none

/-- Class of a page (17 R470, 15 R411). -/
def pageClass (p : Nat) : W16 :=
  if p < 16 then BitVec.ofNat 16 (p + 1)
  else if p < 26 then 0x11 else if p < 34 then 0x12 else if p < 58 then 0x13 else if p < 90 then 0x14 else 0x15

/-- Instance of a page (17 R470). -/
def pageInst (p : Nat) : Byte :=
  BitVec.ofNat 8 (if p < 16 then 0 else if p < 26 then p - 16 else if p < 34 then p - 26 else if p < 58 then p - 34
    else if p < 90 then p - 58 else p - 90)

/-- The island in which a page's block runs (01 R28; log entry 9). -/
def pageIsland (p : Nat) : Byte :=
  if p = pLMP ∨ p = pPWR ∨ p = pTHM ∨ p = pMON ∨ p = pMET then 0x43
  else if p = pHOST then 0x42
  else if p = pSYNC then 0x41
  else if p < 16 then 0x40
  else if p < 26 then BitVec.ofNat 8 (0x48 + (p - 16))
  else if p < 34 then 0x40
  else if p < 58 then BitVec.ofNat 8 (0x58 + (p - 34) / 4)
  else if p < 90 then BitVec.ofNat 8 (0x60 + (p - 58) / 8)
  else BitVec.ofNat 8 (p - 90)

/-! ### Registers -/

/-- Access of a register (00 R12), with its writable bits or counter width. -/
inductive Acc where
  | ro
  | rw (mask : Nat)
  | w1c
  | rc (width : Nat)
  | wo
deriving DecidableEq, Repr

/-- A register of a page: offset, access, reset value. -/
structure RegDesc where
  off   : Nat
  acc   : Acc
  reset : Nat
deriving DecidableEq, Repr

/-- [hi:lo] as a mask. -/
def fieldMask (hi lo : Nat) : Nat := (2 ^ (hi + 1 - lo) - 1) * 2 ^ lo

/-- The common header (17 R475); CTRL's writable bits are given with the page. -/
def headerRegs : List RegDesc :=
  [⟨0x000, .ro, 0⟩, ⟨0x008, .ro, 0⟩, ⟨0x018, .ro, 0⟩, ⟨0x020, .w1c, 0⟩, ⟨0x028, .rw (2 ^ 64 - 1), 0⟩,
   ⟨0x030, .ro, 0⟩, ⟨0x038, .ro, 0⟩, ⟨0x040, .rc 32, 0⟩, ⟨0x048, .w1c, 0⟩, ⟨0x050, .rw (2 ^ 64 - 1), 0⟩]

/-- Registers of the pages beside the header, by class (15 R439, R441, R443; 16 R462 to R467; 17 R488 to R499;
18 R509, R515; 19 R533; 13 R384 to R387; 05 R159 to R161; 06 R189; 12 R352 to R358; 14 R407; 10 R309; 11 R332;
09 R282; 03 R91 to R93; 02 R66; 04 R116; 07 R218). -/
def classRegs : Nat → List RegDesc
  | 0x01 => [⟨0x100, .wo, 0⟩, ⟨0x108, .ro, 0⟩, ⟨0x110, .rw 0x10F, 5⟩, ⟨0x118, .ro, 0⟩, ⟨0x120, .ro, 0⟩,
      ⟨0x128, .rc 32, 0⟩, ⟨0x130, .ro, 0⟩, ⟨0x138, .rc 64, 0⟩, ⟨0x140, .ro, 0⟩, ⟨0x148, .ro, 0⟩, ⟨0x150, .ro, 0⟩,
      ⟨0x158, .ro, 0⟩, ⟨0x160, .ro, 0⟩, ⟨0x168, .ro, 0⟩]
  | 0x02 => [⟨0x100, .ro, 0⟩, ⟨0x108, .rw (2 ^ 64 - 7), 0⟩, ⟨0x110, .ro, 0⟩, ⟨0x118, .ro, 0⟩, ⟨0x120, .rc 32, 0⟩,
      ⟨0x128, .rw 0x3F, 0⟩, ⟨0x130, .rw (2 ^ 63 + fieldMask 56 6), 0⟩, ⟨0x138, .rw (fieldMask 55 0), 0⟩,
      ⟨0x140, .ro, 0⟩, ⟨0x148, .rw (fieldMask 31 0), 0⟩, ⟨0x150, .rc 32, 0⟩, ⟨0x200, .wo, 0⟩, ⟨0x208, .ro, 0⟩,
      ⟨0x210, .ro, 0⟩]
  | 0x03 => [⟨0x100, .ro, 0⟩, ⟨0x108, .wo, 0⟩, ⟨0x110, .ro, 0⟩, ⟨0x118, .ro, 0⟩, ⟨0x120, .ro, 0⟩, ⟨0x128, .ro, 0⟩,
      ⟨0x130, .ro, 0⟩, ⟨0x138, .ro, 0⟩, ⟨0x140, .ro, 0⟩, ⟨0x148, .ro, 0⟩, ⟨0x150, .ro, 0⟩, ⟨0x158, .ro, 0⟩,
      ⟨0x160, .ro, 0⟩, ⟨0x168, .wo, 0⟩, ⟨0x170, .ro, 0⟩]
  | 0x04 => [⟨0x100, .ro, 0⟩, ⟨0x108, .ro, 0⟩, ⟨0x110, .ro, 0⟩, ⟨0x118, .rw 0xFFF, 0x50⟩, ⟨0x120, .ro, 0⟩,
      ⟨0x128, .ro, 0⟩, ⟨0x130, .ro, 0⟩]
  | 0x05 => [⟨0x100, .ro, 0⟩, ⟨0x108, .rw 0x103FF, 0⟩, ⟨0x110, .rw 0x3FFF, 0x32⟩, ⟨0x118, .rw 0xF, 0⟩,
      ⟨0x120, .rw (2 ^ 32 + 0xFFFFF), 0⟩, ⟨0x128, .ro, 0⟩, ⟨0x130, .ro, 0⟩, ⟨0x138, .wo, 0⟩, ⟨0x140, .rc 32, 0⟩,
      ⟨0x148, .rc 32, 0⟩, ⟨0x150, .rc 32, 0⟩]
  | 0x06 => [⟨0x100, .rw 0xFF, 0⟩, ⟨0x108, .rw (fieldMask 32 0), 0⟩, ⟨0x110, .rw (2 ^ 64 - 1), 0⟩,
      ⟨0x118, .rw (2 ^ 64 - 1), 0⟩, ⟨0x120, .rw 0x3F, 0⟩, ⟨0x128, .rw (2 ^ 63 + fieldMask 49 16), 0⟩,
      ⟨0x130, .rw (fieldMask 49 16), 0⟩, ⟨0x138, .rw 0x3FF, 0⟩, ⟨0x140, .wo, 0⟩, ⟨0x148, .ro, 0⟩, ⟨0x150, .ro, 0⟩,
      ⟨0x158, .ro, 0⟩, ⟨0x160, .ro, 0⟩, ⟨0x168, .rc 32, 0⟩, ⟨0x170, .rc 32, 0⟩, ⟨0x178, .rc 32, 0⟩,
      ⟨0x180, .rc 32, 0⟩, ⟨0x188, .rc 32, 0⟩, ⟨0x190, .rc 32, 0⟩]
  | 0x07 => [⟨0x100, .rw 0x3FFF, 0x64⟩, ⟨0x108, .rw 0x3FF, 0xA⟩, ⟨0x110, .ro, 0⟩, ⟨0x118, .wo, 0⟩,
      ⟨0x120, .rw 0x103FF, 0⟩, ⟨0x128, .rw (fieldMask 31 0), 0xFF⟩, ⟨0x130, .rc 32, 0⟩, ⟨0x138, .rc 32, 0⟩,
      ⟨0x140, .rc 32, 0⟩, ⟨0x148, .rc 32, 0⟩, ⟨0x150, .rc 32, 0⟩, ⟨0x158, .rc 32, 0⟩, ⟨0x160, .rc 32, 0⟩]
  | 0x08 => [⟨0x100, .ro, 0⟩, ⟨0x108, .ro, 0⟩, ⟨0x110, .rc 32, 0⟩, ⟨0x118, .rc 48, 0⟩, ⟨0x120, .rc 48, 0⟩,
      ⟨0x128, .rc 32, 0⟩, ⟨0x130, .ro, 0⟩, ⟨0x138, .rc 32, 0⟩, ⟨0x140, .rc 32, 0⟩, ⟨0x148, .ro, 0⟩]
  | 0x09 => [⟨0x100, .wo, 0⟩, ⟨0x108, .ro, 0⟩, ⟨0x110, .rw 0x3F, 0⟩, ⟨0x118, .rw (fieldMask 36 0), 0⟩,
      ⟨0x120, .rw (fieldMask 40 0), 0⟩, ⟨0x128, .rw (fieldMask 47 0), 0⟩, ⟨0x130, .rw (fieldMask 31 0), 0⟩,
      ⟨0x138, .rw (fieldMask 39 0), 0⟩, ⟨0x140, .ro, 0⟩, ⟨0x148, .rw 0x3FF, 0⟩, ⟨0x150, .rw (2 ^ 64 - 1), 0⟩,
      ⟨0x158, .rw 0xFFFF, 0⟩, ⟨0x160, .ro, 0⟩, ⟨0x168, .rw 0x3FFFF, 0⟩, ⟨0x170, .rw (2 ^ 63 + fieldMask 56 6), 0⟩,
      ⟨0x178, .rw (2 ^ 63 + fieldMask 56 6), 0⟩, ⟨0x180, .rw (fieldMask 49 0), 0⟩, ⟨0x188, .rw 0x3FFFF, 0⟩,
      ⟨0x190, .ro, 0⟩, ⟨0x198, .rw 0xFFF, 0⟩, ⟨0x1A0, .ro, 0⟩, ⟨0x1A8, .wo, 0⟩,
      ⟨0x600, .rc 32, 0⟩, ⟨0x608, .rc 32, 0⟩, ⟨0x610, .rc 32, 0⟩, ⟨0x618, .rc 32, 0⟩, ⟨0x620, .rc 48, 0⟩,
      ⟨0x628, .rc 48, 0⟩, ⟨0x630, .rc 32, 0⟩,
      ⟨0x680, .rc 48, 0⟩, ⟨0x688, .rc 48, 0⟩, ⟨0x690, .rc 32, 0⟩, ⟨0x698, .rc 32, 0⟩, ⟨0x6A0, .rc 32, 0⟩,
      ⟨0x6A8, .rc 32, 0⟩, ⟨0x6B0, .rc 32, 0⟩, ⟨0x6B8, .rc 32, 0⟩, ⟨0x6C0, .ro, 0⟩, ⟨0x6C8, .ro, 0⟩, ⟨0x6D0, .ro, 0⟩]
  | 0x0A => [⟨0x100, .ro, 0⟩, ⟨0x108, .rw 0x3FF, 0x64⟩, ⟨0x110, .rw 0x3FF, 0x64⟩, ⟨0x118, .rw 0x3FF, 0xA⟩,
      ⟨0x120, .rc 32, 0⟩, ⟨0x128, .rc 32, 0⟩, ⟨0x130, .ro, 0⟩, ⟨0x138, .rc 32, 0⟩, ⟨0x140, .ro, 0⟩,
      ⟨0x148, .rc 48, 0⟩] ++ (List.range 256).map (fun h => ⟨0x800 + 8 * h, .ro, 0⟩)
  | 0x0B => [⟨0x100, .rw (2 ^ 32 + 0xFFFFF), 0⟩, ⟨0x108, .rw (fieldMask 56 16), 0⟩, ⟨0x110, .rw (fieldMask 56 16), 0⟩,
      ⟨0x118, .wo, 0⟩, ⟨0x120, .ro, 0⟩, ⟨0x128, .rc 32, 0⟩, ⟨0x130, .rc 32, 0⟩, ⟨0x138, .ro, 0⟩]
  | 0x0C => [⟨0x100, .rw 0xFFF, 0⟩, ⟨0x108, .wo, 0⟩, ⟨0x110, .ro, 0⟩, ⟨0x118, .ro, 1⟩] ++
      (List.range 9).map (fun i => ⟨0x200 + 8 * i, .wo, 0⟩)
  | 0x0D => [⟨0x100, .ro, 0⟩, ⟨0x108, .rw 0xFFFF, 0⟩, ⟨0x110, .rw 0xF, 5⟩, ⟨0x118, .rw (fieldMask 31 0), 0x00080040⟩,
      ⟨0x120, .rw (fieldMask 31 0), 0x00020010⟩, ⟨0x128, .ro, 0⟩, ⟨0x130, .ro, 0⟩, ⟨0x138, .rc 32, 0⟩,
      ⟨0x140, .rc 32, 0⟩, ⟨0x148, .rc 32, 0⟩, ⟨0x150, .rc 32, 0⟩, ⟨0x158, .ro, 0⟩, ⟨0x160, .ro, 0⟩, ⟨0x168, .ro, 0⟩,
      ⟨0x200, .rw 0xFFF, 0⟩, ⟨0x208, .rw (fieldMask 24 0), 0⟩, ⟨0x210, .rw 0xFFF, 0⟩, ⟨0x218, .rw (fieldMask 39 0), 0⟩,
      ⟨0x220, .rc 48, 0⟩, ⟨0x228, .rc 48, 0⟩, ⟨0x240, .ro, 0⟩, ⟨0x248, .ro, 0⟩, ⟨0x250, .wo, 0⟩]
  | 0x0E => [⟨0x100, .rw 0x7F, 0⟩, ⟨0x108, .ro, 0⟩, ⟨0x110, .rc 32, 0⟩, ⟨0x118, .ro, 0⟩]
  | 0x0F => [⟨0x100, .rw 0xFFF, 0⟩, ⟨0x108, .wo, 0⟩, ⟨0x110, .ro, 0⟩, ⟨0x118, .ro, 0⟩, ⟨0x120, .ro, 0⟩,
      ⟨0x128, .ro, 0⟩, ⟨0x130, .ro, 0⟩]
  | 0x10 => [⟨0x100, .rw 0x3, 0⟩, ⟨0x108, .ro, 0⟩, ⟨0x110, .wo, 0⟩, ⟨0x118, .rc 32, 0⟩, ⟨0x120, .rc 16, 0⟩,
      ⟨0x128, .wo, 0⟩, ⟨0x130, .ro, 0⟩]
  | 0x11 => [⟨0x100, .ro, 0⟩, ⟨0x108, .rw 0x73, 0x13⟩, ⟨0x110, .wo, 0⟩, ⟨0x190, .rw 0xFFF, 0x0410⟩,
      ⟨0x200, .rw 0x1, 1⟩, ⟨0x208, .ro, 0⟩, ⟨0x210, .wo, 0⟩, ⟨0x300, .rw (2 ^ 64 - 1), 0x0400040010001800⟩,
      ⟨0x308, .rw (fieldMask 31 0), 0x02000600⟩, ⟨0x310, .ro, 0⟩, ⟨0x318, .ro, 0⟩, ⟨0x320, .rc 32, 0⟩] ++
      (List.range 5).map (fun i => ⟨0x118 + 8 * i, .ro, 0⟩) ++
      (List.range 5).map (fun i => ⟨0x140 + 8 * i, .rc 48, 0⟩) ++
      (List.range 5).map (fun i => ⟨0x168 + 8 * i, .rc 32, 0⟩)
  | 0x12 => [⟨0x100, .ro, 0⟩, ⟨0x108, .rw (0xFF + fieldMask 31 16), 0x0100000A⟩, ⟨0x110, .wo, 0⟩,
      ⟨0x118, .rc 48, 0⟩, ⟨0x120, .rc 32, 0⟩]
  | 0x13 => [⟨0x100, .ro, 0⟩, ⟨0x108, .rw (0xFF + fieldMask 31 16), 0x0100000A⟩, ⟨0x110, .wo, 0⟩,
      ⟨0x118, .rc 48, 0⟩, ⟨0x120, .rc 32, 0⟩]
  | 0x14 => [⟨0x100, .ro, 0⟩, ⟨0x108, .rc 48, 0⟩, ⟨0x110, .rc 32, 0⟩, ⟨0x118, .rc 32, 0⟩, ⟨0x120, .rc 48, 0⟩,
      ⟨0x128, .rc 32, 0⟩]
  | 0x15 => [⟨0x100, .ro, 0⟩, ⟨0x108, .ro, 0⟩, ⟨0x110, .ro, 0⟩, ⟨0x118, .ro, 0⟩, ⟨0x120, .rw 0x1F01, 0x0C01⟩,
      ⟨0x128, .rc 32, 0⟩, ⟨0x130, .rc 32, 0⟩, ⟨0x138, .rc 32, 0⟩, ⟨0x140, .ro, 0⟩, ⟨0x148, .ro, 0⟩, ⟨0x150, .rc 32, 0⟩]
  | _ => []

/-- ERR_BITS and EVT_BITS of a page: the bits defined, counted from bit 0 (17 R475 CAP; the pages' own tables). -/
def pageBits (p : Nat) : Nat × Nat :=
  match (pageClass p).toNat with
  | 0x01 => (4, 2)
  | 0x02 => (4, 2)
  | 0x03 => (3, 2)
  | 0x04 => (1, 1)
  | 0x05 => (3, 2)
  | 0x06 => (4, 2)
  | 0x07 => (5, 3)
  | 0x08 => (3, 1)
  | 0x09 => (3, 3)
  | 0x0A => (3, 2)
  | 0x0B => (3, 0)
  | 0x0C => (2, 0)
  | 0x0D => (6, 4)
  | 0x0E => (1, 0)
  | 0x10 => (1, 1)
  | 0x11 => if p = 16 then (11, 9) else (6, 4)
  | 0x12 => (1, 1)
  | 0x13 => (1, 1)
  | 0x14 => (1, 1)
  | 0x15 => (3, 0)
  | _ => (0, 0)

/-- The register of a page at an offset within it; the laser registers are LNT0's alone (04 R116). -/
def regDesc (p rel : Nat) : Option RegDesc :=
  if rel = 0x010 then
    some ⟨0x010, .rw (if (pageClass p) = 0x11 then 1 else if (pageClass p) = 0x15 then 6 else 0), 0⟩
  else if rel < 0x100 then headerRegs.find? (·.off = rel)
  else if 16 < p ∧ p < 26 ∧ 0x200 ≤ rel ∧ rel < 0x218 then none
  else (classRegs (pageClass p).toNat).find? (·.off = rel)

/-- The reset value of the register stored under a key: its BAR0 offset in the low 26 bits. -/
def regReset (k : Nat) : W64 :=
  let off := k % 2 ^ 26
  match pageOf off with
  | none => 0
  | some p => match regDesc p (off - pageBase p) with
    | none => 0
    | some d => BitVec.ofNat 64 d.reset

/-- A stored register. -/
def regGet (s : State) (k : Nat) : W64 := (tfind s.regs k).getD (regReset k)

/-- The key of a register of a page. -/
def rk (p rel : Nat) : Nat := pageBase p + rel

/-- The key of a register that is banked, or kept per partition (17 R474). -/
def rkBank (p rel bank : Nat) : Nat := (bank + 1) * 2 ^ 26 + rk p rel

/-- The bank of a source: physical function 0, virtual function n, then the Lamplighter's ten (17 R474). -/
def srcBank : RegSrc → Nat
  | .pf => 0
  | .vf n => n
  | .lmp b => 64 + b

/-- The partition for which a source's register accesses act (17 R482). -/
def srcPart : RegSrc → BitVec 6
  | .vf n => BitVec.ofNat 6 n
  | _ => 0

/-- Adds to a counter that a read clears. Past its field's width the manual states no value: a free one. -/
def bump (s : State) (k width n : Nat) : State :=
  let v := (regGet s k).toNat + n
  if v < 2 ^ width then s.setReg k (BitVec.ofNat 64 v)
  else let (f, s) := draw s; s.setReg k (BitVec.ofNat 64 (f.toNat % 2 ^ width))

/-- Adds to a counter that saturates. -/
def bumpSat (s : State) (k width n : Nat) : State :=
  s.setReg k (BitVec.ofNat 64 (min ((regGet s k).toNat + n) (2 ^ width - 1)))

/-! ### Error and event capture (17 R477, R478; 15 R409 to R413) -/

/-- A failure to be recorded: the fields of R409 that a rule names. -/
structure Fail where
  status : Status
  island : Option Byte := none
  cls    : Option (W16 × Byte) := none
  kind   : BitVec 3 := 0
  addr   : Nat := 0
  ctx    : Option (BitVec 20) := none
  part   : Option (BitVec 6) := none
  agent  : Option (BitVec 10) := none
  info   : Nat := 0
  aux    : Nat := 0
  suspect : Bool := false
  guilty : Bool := false
deriving DecidableEq, Repr

def sensorReading (s : State) (n : Nat) : W16 := (tget Sensor.fresh s.power.sensors n).reading

/-- TEMP of a record: the sconce's sensor, or the hub die's (15 R409). -/
def tempOf (s : State) (island : Byte) : W16 :=
  if island.toNat < 64 then sensorReading s island.toNat else sensorReading s 64

def sat16 (n : Nat) : Nat := min n 0xFFFF

/-- The memory target's queued requests: the groups of its combining window. -/
def windowOf (s : State) (t : Target) : List (List Req) :=
  ((s.xbar.windows.find? (·.1 = t)).map (·.2)).getD []

/-- LOAD of a record (15 R412). Counts that the state holds are read from it; the others are free (log entry 10). -/
def loadOf (s : State) (island : Byte) : W64 :=
  let f := (Config.freeWord s.free).toNat
  let i := island.toNat
  let word (a b c d : Nat) : W64 := BitVec.ofNat 64 (sat16 a + 2 ^ 16 * sat16 b + 2 ^ 32 * sat16 c + 2 ^ 48 * sat16 d)
  if i < 64 then
    word ((s.work.xfers.filter (fun x => match x.eng with | .mover sc _ => sc = i | _ => false)).length)
      (bits f 16 16) ((windowOf s (.sconce i)).flatten.length)
      ((s.wicks.filter (fun e => e.1 / 64 = i ∧ e.2.state = .running)).length)
  else if i = 0x40 then
    word ((s.xbar.tx.map (fun e => e.2.pkts.length)).sum) ((s.xbar.windows.map (fun e => e.2.length)).sum)
      s.xlt.walkers s.store.moves.length
  else if 0x48 ≤ i ∧ i < 0x52 then
    word (bits f 0 16) (bits f 16 16) ((s.xbar.tx.map (fun e => e.2.pkts.length)).sum) (popc 4 (s.port (i - 0x48)).txUse.toNat)
  else if i = 0x42 then word (bits f 0 16) s.host.bisnp.length (bits f 32 16) (bits f 48 16)
  else if 0x58 ≤ i ∧ i < 0x5E then
    word ((windowOf s (.cap (i - 0x58))).flatten.length) (bits f 16 16) 0
      ((s.power.cap.filter (fun e => e.1 / 4 = i - 0x58 ∧ e.2.state = 2)).length)
  else if 0x60 ≤ i ∧ i < 0x64 then
    word ((windowOf s (.flash (i - 0x60))).flatten.length) (bits f 16 16) (bits f 32 16) 0
  else 0

/-- The record of a failure, before its SEQ (15 R409). -/
def recordOf (s : State) (p b : Nat) (f : Fail) : Record :=
  let island := f.island.getD (pageIsland p)
  let (cls, inst) := f.cls.getD (pageClass p, pageInst p)
  { status := f.status, island := island, cls := cls, inst := inst, addrKind := f.kind, suspect := f.suspect,
    guilty := f.guilty, agentV := f.agent.isSome, partV := f.part.isSome, ctxV := f.ctx.isSome, suppressed := 0,
    addr := if f.kind = 0 then 0 else BitVec.ofNat 64 f.addr, tick := tget 0 s.errs.ticks island.toNat, ctx := f.ctx.getD 0,
    part := f.part.getD 0, agent := f.agent.getD 0, temp := tempOf s island, load := loadOf s island,
    info := BitVec.ofNat 64 f.info, aux := BitVec.ofNat 64 f.aux, errBit := BitVec.ofNat 6 b, seq := 0 }

/-- The summary error and event bits of a page (17 R478). -/
def errSummary (s : State) (p : Nat) : Bool := (regGet s (rk p 0x20) &&& ~~~ (regGet s (rk p 0x28))) != 0
def evtSummary (s : State) (p : Nat) : Bool := (regGet s (rk p 0x48) &&& regGet s (rk p 0x50)) != 0

/-- Applies `f`, then fires vectors 0 and 1 of the physical function where a summary bit of the page rose. -/
def withVectors (p : Nat) (f : State → State) (s : State) : State :=
  let t := f s
  let t := if !errSummary s p && errSummary t p then emit t (.msix 0 0) else t
  if !evtSummary s p && evtSummary t p then emit t (.msix 0 1) else t

/-- Passes a record to its island's queue; false if the queue of 64 was full (15 R413). -/
def pushRecord (s : State) (r : Record) (capture : Option Nat) : Bool × State :=
  let i := r.island.toNat
  let q := tget [] s.errs.queues i
  let supp := tget 0 s.errs.suppressed i
  if q.length < 64 then
    (true, s.setErrs (fun e => { e with
      queues := tput e.queues i (q ++ [({ r with suppressed := BitVec.ofNat 16 supp }, capture)]),
      suppressed := tput e.suppressed i 0 }))
  else
    (false, bump (s.setErrs (fun e => { e with suppressed := tput e.suppressed i (min (supp + 1) 0xFFFF) }))
      (rk pLMP 0x120) 32 1)

/-- Records a failure that sets no ERR_STAT bit (ERR_BIT 0x3F). -/
def logRecord (s : State) (p : Nat) (f : Fail) : State :=
  (pushRecord { s with free := s.free + 1 } (recordOf s p 0x3F f) none).2

/-- Records an error that sets bit `b` of a page: the bit, ERR_COUNT, the record, and the capture of the first
error. -/
def logErr (s : State) (p b : Nat) (f : Fail) : State :=
  let first := regGet s (rk p 0x20) = 0
  let r := recordOf s p b f
  let s0 := { s with free := s.free + 1 }
  let (ok, t) := pushRecord s0 r (if first then some p else none)
  withVectors p (fun t =>
    let t := t.setReg (rk p 0x20) (regGet t (rk p 0x20) ||| BitVec.ofNat 64 (2 ^ b))
    let t := bumpSat t (rk p 0x40) 32 1
    if first then
      (t.setReg (rk p 0x30) (BitVec.ofNat 64
        (f.status.toNat + 2 ^ 8 * b + 2 ^ 14 + 2 ^ 15 * b2n (!ok) + 2 ^ 16 * f.kind.toNat))).setReg
        (rk p 0x38) r.addr
    else t) t

/-- Sets event bit `b` of a page. -/
def logEvt (s : State) (p b : Nat) : State :=
  withVectors p (fun t => t.setReg (rk p 0x48) (regGet t (rk p 0x48) ||| BitVec.ofNat 64 (2 ^ b))) s

/-- A W1C write of ERR_STAT: when it reads 0 again, VALID and NO_RECORD of ERR_FIRST clear and no record waits to
give ERR_FIRST its SEQ (17 R477). -/
def clearErrStat (s : State) (p : Nat) (v : W64) : State :=
  let e := regGet s (rk p 0x20) &&& ~~~ v
  let s := s.setReg (rk p 0x20) e
  if e = 0 then
    let s := s.setReg (rk p 0x30) (regGet s (rk p 0x30) &&& ~~~ (0xC000 : W64))
    s.setErrs (fun e => { e with queues := e.queues.map (fun q =>
      (q.1, q.2.map (fun r => (r.1, if r.2 = some p then none else r.2)))) })
  else s

/-! ### Dropped and refused writes -/

def srcDrop : RegSrc → Nat
  | .pf => 0
  | .vf n => n
  | .lmp _ => 0xFF

/-- A dropped write: counted in TOP.ACCESS_DROP with its source and offset; no record (17 R472). -/
def dropWrite (s : State) (src : RegSrc) (off : Nat) : State :=
  let k := rk pTOP 0x138
  let n := bits (regGet s k).toNat 0 32 + 1
  let tail := 2 ^ 32 * (srcDrop src % 256) + 2 ^ 40 * (off / 4 % 2 ^ 24)
  if n < 2 ^ 32 then s.setReg k (BitVec.ofNat 64 (n + tail))
  else let (f, s) := draw s; s.setReg k (BitVec.ofNat 64 (f.toNat % 2 ^ 32 + tail))

/-- A refused register write or command: FORMAT_ERROR with the register's BAR0 offset (15 R536, R410). -/
def refuse (s : State) (p b rel : Nat) : State :=
  logErr s p b { status := stFormat, kind := 5, addr := rk p rel }

end Sys2Proof.Machine
end

