-- ==== Sys2Proof/Machine/Store.lean ====
section
/-! DEFINITION. The home as bytes: placement blocks and where they lie, access counters, key slots, and reading and
writing lines of the store, the Reservoir, scratch and instruction memory (02 R34 to R42, R47, R48, R538; 03 R81 to
R83; 17 R493, R494; 07 R191). -/
namespace Sys2Proof.Machine

/-! ### Where blocks lie (02 R35, R39, R447, R537) -/

/-- Sconces available at the last cold boot, in increasing id. -/
def bootSconces (st : Store) : List Nat := (List.range 64).filter (fun n => ¬ st.bootDown.contains n)

/-- Wicks available at the last cold boot. -/
def bootWickCount (st : Store) : Nat := 64 * (bootSconces st).length

/-- The available wick of an ordinal. -/
def wickOfOrdinal (st : Store) (o : Nat) : Nat := 64 * (bootSconces st).getD (o / 64) 0 + o % 64

/-- The ordinal of an available wick. -/
def ordinalOfWick (st : Store) (w : Nat) : Nat := 64 * (bootSconces st).idxOf (w / 64) + w % 64

/-- Blocks of the two pools (R537). -/
def poolBlocks (st : Store) : Nat := (st.rowGiB + st.shadowGiB) * 16384

/-- Blocks of an available wick's sliver that belong to the home: 768 less the pools' share (R537). -/
def sliverHome (st : Store) (w : Nat) : Nat :=
  768 - (poolBlocks st + ordinalOfWick st w) / bootWickCount st

/-- Stacked and capacity blocks of the home at cold boot (R35). -/
def stackedBlocks (st : Store) : Nat := 768 * bootWickCount st - poolBlocks st
abbrev capacityBlocks : Nat := 3045 * 16384

/-- The cold-boot place of block `n` (16 R447, 02 R39). -/
def coldLoc (st : Store) (n : Nat) : Loc :=
  if n < stackedBlocks st then
    .stacked (wickOfOrdinal st (n % bootWickCount st)) (n / bootWickCount st)
  else if n < stackedBlocks st + capacityBlocks then
    .capacity ((n - stackedBlocks st) % 6) ((n - stackedBlocks st) / 6)
  else .flash none

/-- A block's entry in the block map. -/
def blockGet (s : State) (b : Nat) : Block :=
  (tfind s.store.blocks b).getD
    { loc := coldLoc s.store b, count := 0, epoch := 0, pins := 0, shadow := none, noPolicy := false,
      forfeit := false, lost := false }

def blockSet (s : State) (b : Nat) (f : Block → Block) : State :=
  s.setStore (fun st => { st with blocks := tput st.blocks b (f (blockGet s b)) })

/-- The block that holds block index `i` of wick `w`'s sliver, if any. -/
def stackedAt (s : State) (w i : Nat) : Option Nat :=
  (tfind s.store.stkAt (768 * w + i)).getD
    (if s.store.bootDown.contains (w / 64) then none
     else if i < sliverHome s.store w then some (i * bootWickCount s.store + ordinalOfWick s.store w) else none)

/-- The block that holds slot `i` of capacity group `g`, if any. -/
def capacityAt (s : State) (g i : Nat) : Option Nat :=
  (tfind s.store.capAt (8388608 * g + i)).getD (some (stackedBlocks s.store + 6 * i + g))

/-- Records which block holds a place (flash places are not tracked). -/
def placeSet (s : State) (l : Loc) (v : Option Nat) : State :=
  match l with
  | .stacked w i => s.setStore (fun st => { st with stkAt := tput st.stkAt (768 * w + i) v })
  | .capacity g i => s.setStore (fun st => { st with capAt := tput st.capAt (8388608 * g + i) v })
  | .flash _ => s

/-- The memory target of a place (05 R149, 02 R39). -/
def targetOf (b : Nat) : Loc → Target
  | .stacked w _ => .sconce (w / 64)
  | .capacity g _ => .cap g
  | .flash (some p) => .flash ((Config.flashChannel p).val / 8)
  | .flash none => .flash ((Config.flashChannel b).val / 8)

/-- Tier of a place: 0 stacked, 1 capacity, 2 flash. -/
def tierOf : Loc → Nat
  | .stacked _ _ => 0
  | .capacity _ _ => 1
  | .flash _ => 2

/-- The composition that owns a block's extent, and with it the block's partition (02 R44, 14 R390). -/
def extentOf (off : Nat) : Nat := off / 2 ^ 30
def blockPart (s : State) (b : Nat) : BitVec 6 :=
  let e := s.extent (b / 16384)
  if e.owned then (s.comp e.comp.toNat).part else 0

/-! ### Access counters (02 R42) -/

/-- A block's counter as it reads, with the halvings since it was written applied. -/
def counterOf (s : State) (b : Nat) : Nat :=
  let e := blockGet s b
  e.count.toNat / 2 ^ (s.store.halvings.toNat - e.epoch)

/-- Adds 1 to a block's saturating counter, advances the decay count, and halves every counter when it reaches
2^24. -/
def countAccess (s : State) (b : Nat) : State :=
  let s := blockSet s b (fun e => { e with
    count := BitVec.ofNat 16 (min (counterOf s b + 1) 0xFFFF), epoch := s.store.halvings.toNat })
  if s.store.decay.toNat + 1 = 2 ^ 24 then
    s.setStore (fun st => { st with decay := 0, halvings := st.halvings + 1 })
  else s.setStore (fun st => { st with decay := st.decay + 1 })

/-- Blocks of the home touched by `[off, off + n)`. -/
def blocksOf (off n : Nat) : List Nat :=
  if n = 0 then [] else (List.range ((off + n - 1) / 65536 - off / 65536 + 1)).map (· + off / 65536)

/-- Lines touched by `[off, off + n)`. -/
def linesOf (off n : Nat) : List Nat :=
  if n = 0 then [] else (List.range ((off + n - 1) / 64 - off / 64 + 1)).map (· + off / 64)

/-! ### Keys (03 R81 to R83) -/

def KeySlot.empty : KeySlot := { pair := 0, valid := false, owner := 0, busy := false, clearing := false }
def keySlot (s : State) (k : BitVec 12) : KeySlot := tget KeySlot.empty s.keys k.toNat
def setKeySlot (s : State) (k : BitVec 12) (f : KeySlot → KeySlot) : State :=
  { s with keys := tmod KeySlot.empty s.keys k.toNat f }

/-- Whether a key selector serves a partition (R82). -/
def keyOk (s : State) (k : BitVec 12) (p : BitVec 6) : Bool :=
  k != 0 && (keySlot s k).valid && (keySlot s k).owner == p

/-! ### Lines of the home -/

/-- Inserts a number in a rising list without repeats. -/
def setInsert : List Nat → Nat → List Nat
  | [], n => [n]
  | m :: r, n => if n < m then n :: m :: r else if n = m then m :: r else m :: setInsert r n

/-- A line's bits from its 64 bytes, and back. -/
def lineOf (b : List Byte) : W512 := BitVec.ofNat 512 (leNat b)
def bytesOf (v : W512) : List Byte := leBytes 64 v.toNat

/-- The guest-map entry whose local extent is `ext` (12 R352): its register value. -/
def guestOf (st : Store) (ext : Nat) : Option W64 :=
  (st.guest.map (·.2)).find? (fun g => g.getLsbD 38 && decide (bits g.toNat 0 16 = ext))

/-- The line number of the tweak: SA[55:6] of the line's store address (R83). A line of a guest extent keeps the
store address of its source home (12 R355); pool lines lie beyond the home range (11 R315). -/
def tweakOf (st : Store) (l : Nat) : Nat :=
  match guestOf st (l / 2 ^ 24) with
  | some g => bits g.toNat 16 6 * 2 ^ 44 + bits g.toNat 22 16 * 2 ^ 24 + l % 2 ^ 24
  | none => st.homeId.toNat * 2 ^ 44 + l

/-- A line's stored ciphertext. -/
def lineStored (s : State) (l : Nat) : W512 := lineOf (cellRead s.store.cells (64 * l) 64)

/-- Stores a line's ciphertext and marks the line written. -/
def lineStore (s : State) (l : Nat) (v : W512) : State :=
  s.setStore (fun st => { st with cells := cellWrite st.cells (64 * l) (bytesOf v), written := setInsert st.written l })

/-- A line as read under a key slot: a line that nothing has written since the cold boot reads as zero (02 R36). -/
def lineRead (s : State) (k : BitVec 12) (l : Nat) : W512 :=
  if s.store.written.contains l then
    (Config.cipher (keySlot s k).pair (tweakOf s.store l)).symm (lineStored s l)
  else 0

def lineBad (s : State) (l : Nat) : Bool := s.store.badLines.contains l

/-- Clears a line's failure; once nothing of the block fails, the counter policy may select it again (R47, R538). -/
def clearBad (s : State) (l : Nat) : State :=
  if lineBad s l then
    let s := s.setStore (fun st => { st with badLines := st.badLines.filter (· ≠ l) })
    if s.store.badLines.any (fun m => m / 1024 == l / 1024) then s
    else blockSet s (l / 1024) (fun e => { e with noPolicy := false })
  else s

/-- Writes a line whole under a key slot; its failure, if any, clears (R538). -/
def lineWrite (s : State) (k : BitVec 12) (l : Nat) (v : W512) : State :=
  clearBad (lineStore s l (Config.cipher (keySlot s k).pair (tweakOf s.store l) v)) l

/-- Bytes of the home as read under a key slot. -/
def homeBytes (s : State) (k : BitVec 12) (off n : Nat) : List Byte :=
  let ls := linesOf off n
  (((ls.map (fun l => bytesOf (lineRead s k l))).flatten).drop (off % 64)).take n

/-- Writes into one line the bytes that a mask enables, byte `i` of `d` going to byte `i` of the line. -/
def lineMerge (s : State) (k : BitVec 12) (l : Nat) (d : List Byte) (m : List Bool) : State :=
  let old := bytesOf (lineRead s k l)
  lineWrite s k l (lineOf ((List.range 64).map (fun i =>
    if m.getD i false then d.getD i 0 else old.getD i 0)))

/-- Writes bytes into the home under a key slot, line by line. -/
def homeWrite (s : State) (k : BitVec 12) (off : Nat) (d : List Byte) : State :=
  (linesOf off d.length).foldl (fun s l =>
    lineMerge s k l ((List.range 64).map (fun i => if off ≤ 64 * l + i then d.getD (64 * l + i - off) 0 else 0))
      ((List.range 64).map (fun i => decide (off ≤ 64 * l + i ∧ 64 * l + i < off + d.length)))) s

/-- A write of `[off, off + n)` covers line `l` whole. -/
def coversLine (off n l : Nat) : Bool := decide (off ≤ 64 * l ∧ 64 * l + 64 ≤ off + n)

/-- A line of the write that fails because it must be read first and cannot be (R538). -/
def writeBadLine (s : State) (off n : Nat) : Option Nat :=
  (linesOf off n).find? (fun l => lineBad s l && !coversLine off n l)

/-- A line that a read of `[off, off + n)` cannot correct. -/
def readBadLine (s : State) (off n : Nat) : Option Nat := (linesOf off n).find? (lineBad s)

/-! ### Scratch, instruction memory and the Reservoir -/

/-- 8 B SECDED words (numbers) that `[a, a + n)` touches. -/
def wordsOf (a n : Nat) : List Nat :=
  if n = 0 then [] else (List.range ((a + n - 1) / 8 - a / 8 + 1)).map (· + a / 8)

/-- Scratch of wick `w` at byte `a`. -/
def scratchAddr (w a : Nat) : Nat := Config.scratchBytes * w + a
def scratchRead (s : State) (w a n : Nat) : List Byte := cellRead s.scratch (scratchAddr w a) n
/-- Writes scratch bytes; a failing word ends with a write (07 R191). -/
def scratchWrite (s : State) (w a : Nat) (d : List Byte) : State :=
  { s with scratch := cellWrite s.scratch (scratchAddr w a) d,
           badScratch := s.badScratch.filter (fun x => ¬ (wordsOf (scratchAddr w a) d.length).contains x) }

def scratchBad (s : State) (w a n : Nat) : Bool := (wordsOf (scratchAddr w a) n).any s.badScratch.contains
def reservoirRead (s : State) (a n : Nat) : List Byte := cellRead s.reservoir a n
def reservoirBad (s : State) (a n : Nat) : Bool := (wordsOf a n).any s.badRsv.contains

/-- Writes Reservoir bytes; a failing word ends with a write (17 R494). -/
def reservoirWrite (s : State) (a : Nat) (d : List Byte) : State :=
  { s with reservoir := cellWrite s.reservoir a d,
           badRsv := s.badRsv.filter (fun w => ¬ (wordsOf a d.length).contains w) }

/-- Instruction memory of wick `w`: 4,096 words of 32 bits. -/
def imemAddr (w a : Nat) : Nat := 16384 * w + a
def imemWord (s : State) (w pc : Nat) : W32 := BitVec.ofNat 32 (leNat (cellRead s.imem (imemAddr w (4 * pc)) 4))
def imemBad (s : State) (w pc : Nat) : Bool := s.badImem.contains (imemAddr w (4 * pc) / 8)
def imemWrite (s : State) (w a : Nat) (d : List Byte) : State :=
  { s with imem := cellWrite s.imem (imemAddr w a) d,
           badImem := s.badImem.filter (fun x => ¬ (wordsOf (imemAddr w a) d.length).contains x) }

end Sys2Proof.Machine
end

