-- ==== Sys2Proof/Machine/Sync.lean ====
section
/-! DEFINITION. Arrival counters and semaphores: owners, additions, takes (06 R170 to R177; 14 R388). -/
namespace Sys2Proof.Machine

/-! ### Owners (14 R388: partition 0 unless granted) -/

def counterOwner (s : State) (k : Nat) : BitVec 6 := tget 0 s.work.cntOwner (k / 1024)
def semOwner (s : State) (k : Nat) : BitVec 6 := tget 0 s.work.semOwner (k / 256)
def sconceOwner (s : State) (sc : Nat) : BitVec 6 := tget 0 s.work.sconceOwner sc
def reservoirOwner (s : State) (a : Nat) : BitVec 6 := tget 0 s.work.rsvOwner (a / 2 ^ 20)

/-- Every MiB that `[a, a + n)` of the Reservoir touches belongs to the partition. -/
def reservoirOwned (s : State) (p : BitVec 6) (a n : Nat) : Bool :=
  (List.range ((a + n - 1) / 2 ^ 20 - a / 2 ^ 20 + 1)).all (fun i => reservoirOwner s (a + i * 2 ^ 20) == p)

/-! ### Counters -/

def hubGet (s : State) (k : Nat) : W64 := tget 0 s.sync.hub k
def localKey (sc n : Nat) : Nat := 1024 * sc + n
def localGet (s : State) (sc n : Nat) : W64 := tget 0 s.sync.local_ (localKey sc n)

def hubSet (s : State) (k : Nat) (v : W64) : State := s.setSync (fun y => { y with hub := tput y.hub k v })
def localSet (s : State) (sc n : Nat) (v : W64) : State :=
  s.setSync (fun y => { y with local_ := tput y.local_ (localKey sc n) v })

/-- Adds to a hub counter modulo 2^64 (R171); SYNC.CNT_ADDS counts the addition. -/
def hubAdd (s : State) (k : Nat) (v : W64) : State := bump (hubSet s k (hubGet s k + v)) (rk pSYNC 0x118) 48 1

/-- Adds to a local counter of a sconce. -/
def localAdd (s : State) (sc n : Nat) (v : W64) : State :=
  bump (localSet s sc n (localGet s sc n + v)) (rk pSYNC 0x118) 48 1

/-- A SYNC access to a counter or semaphore that its partition does not own (R173). -/
def ownerFault (s : State) (part : BitVec 6) (agent : Option (BitVec 10)) (id : Nat) : State :=
  logErr s pSYNC 0 { status := stPerm, part := some part, agent := agent, info := id }

/-! ### Semaphores (R174) -/

def semGet (s : State) (k : Nat) : W64 := tget 0 s.sync.sems k
def semSet (s : State) (k : Nat) (v : W64) : State := s.setSync (fun y => { y with sems := tput y.sems k v })

/-- A collective group's hub counters on this controller (12 R347). -/
def Group.owns (g : Group) (me : BitVec 10) (k : Nat) : Bool :=
  g.members.any (fun m => m.agent == me && decide (m.first.toNat ≤ k ∧ k < m.first.toNat + m.count.toNat))

/-- The aborted group that owns a hub counter, if any (12 R350). -/
def abortedGroup (s : State) (k : Nat) : Option Group :=
  s.sync.groups.find? (fun g => g.aborted && g.owns s.xbar.agentId k)

end Sys2Proof.Machine
end

