-- ==== Sys2Proof/Machine/Links.lean ====
section
/-! DEFINITION. The lantern transaction layer's sending side: credits, routes, streams with replay, answers, duplicate
windows (05 R128 to R157). -/
namespace Sys2Proof.Machine

/-! ### Ports and credits (04 R113; 05 R144, R145) -/

/-- A port is live while it is UP or REDUCED (R134). -/
def portLive (s : State) (n : Nat) : Bool := (s.port n).state == 3 || (s.port n).state == 4

/-- Data packets are taken in on a live port unless it waits for a mark stripe after a discarded codeword (R122). -/
def portData (s : State) (n : Nat) : Bool := portLive s n && !(s.port n).framingLost

/-- Credit held for a sub-class: counts received less cells sent, modulo 2^16. -/
def creditOf (p : Port) (i : Nat) : Nat := (p.credit.getD i 0 - p.sent.getD i 0).toNat

def listSet {α : Type} (l : List α) (i : Nat) (f : α → α) : List α := l.modify i f

/-- The sub-class of a data packet among the twelve counts of R131. -/
def subClass (p : Packet) : Nat := 2 * p.cls.toNat + b2n p.dl
def cellsOf (p : Packet) : Nat := 1 + p.len.toNat

/-- The sub-class of a control message: SYNC 8, ACK 9; hop messages have none. -/
def ctlClass (m : CtlMsg) : Option Nat :=
  let c := m.ctype.toNat
  if c = 3 ∨ c = 0xB then some 9 else if 4 ≤ c ∧ c ≤ 9 then some 8 else none

def countSent (p : Port) (i n : Nat) : Port := { p with sent := listSet p.sent i (· + BitVec.ofNat 16 n) }

/-- Sends a packet on a port, or queues it there until credit for all its cells is held. -/
def portSend (s : State) (n : Nat) (p : Packet) : State :=
  let t := s.port n
  let i := subClass p
  if t.queue.all (fun q => subClass q ≠ i) ∧ cellsOf p ≤ creditOf t i then
    emit (s.setPort n (fun t => countSent t i (cellsOf p))) (.packet n p)
  else s.setPort n (fun t => { t with queue := t.queue ++ [p] })

def portSendCtl (s : State) (n : Nat) (m : CtlMsg) : State :=
  match ctlClass m with
  | none => emit s (.ctl n m)
  | some i =>
    let t := s.port n
    if t.ctlQueue.all (fun q => ctlClass q ≠ some i) ∧ 1 ≤ creditOf t i then
      emit (s.setPort n (fun t => countSent t i 1)) (.ctl n m)
    else s.setPort n (fun t => { t with ctlQueue := t.ctlQueue ++ [m] })

/-- Sends what a port's queue holds credit for: control first, then RSP, FWD, SNP and REQ, each sub-class in order
(R158). -/
def portDrain (s : State) (n : Nat) : State :=
  let cq := (s.port n).ctlQueue
  let s := s.setPort n (fun t => { t with ctlQueue := [] })
  let s := cq.foldl (fun s m => portSendCtl s n m) s
  let q := (s.port n).queue
  let s := s.setPort n (fun t => { t with queue := [] })
  let pick (c : Nat) := q.filter (fun p => p.cls.toNat = c)
  (pick 1 ++ pick 3 ++ pick 2 ++ pick 0).foldl (fun s p => portSend s n p) s

/-! ### Routes (R133, R134, R137) -/

def routeGet (m : NatMap W32) (a : BitVec 10) : W32 := tget 0xFF m a.toNat

/-- A route entry with PRIMARY local. -/
def routeLocal (e : W32) : Bool := e.getLsbD 12 && e.toNat % 16 == 0xE

/-- An agent id that this controller answers for: its own, or one whose current route entry is local. -/
def isLocal (s : State) (a : BitVec 10) : Bool :=
  a == s.xbar.agentId || routeLocal (routeGet s.xbar.routeCur a)

/-- The port and DL action by which an entry routes, if it leaves a live port. -/
def routePort (s : State) (e : W32) : Option (Nat × Nat) :=
  let p := e.toNat % 16
  let a := e.toNat / 16 % 16
  if !e.getLsbD 12 then none
  else if p < 10 ∧ portLive s p then some (p, e.toNat / 256 % 4)
  else if p < 10 ∧ a < 10 ∧ portLive s a then some (a, e.toNat / 1024 % 4)
  else none

/-- The bank by which a packet of an epoch is routed: the pending bank for the prepared epoch (R137). -/
def bankOf (s : State) (epoch : Byte) : NatMap W32 :=
  if s.xbar.otherState = 1 ∧ s.xbar.otherFrozen ∧ epoch = s.xbar.epochOther then s.xbar.routeOther
  else s.xbar.routeCur

def applyDL (dl : Bool) (act : Nat) : Bool := if act = 1 then true else if act = 2 then false else dl

/-- A NO_ROUTE for an agent, raised to this controller itself (R134, R155). -/
def raiseNoRoute (s : State) (a : BitVec 10) : State :=
  let s := s.setXbar (fun x => { x with tx := x.tx.map (fun e => if e.1 = a.toNat then
    (e.1, { e.2 with pkts := e.2.pkts.map (fun u => { u with noRoute := true }),
                     ctls := e.2.ctls.map (fun u => { u with noRoute := true }) }) else e) })
  logEvt s pXBAR 2

/-- A control message of this controller. -/
def mkCtl (s : State) (ct : Nat) (dst : BitVec 10) (part : BitVec 6) (body : Nat) : CtlMsg :=
  { ctype := BitVec.ofNat 4 ct, tag := 0, dst := dst, src := s.xbar.agentId, part := part,
    epoch := s.xbar.epochCur, cseq := 0, rsvd := false, body := BitVec.ofNat 192 body }

/-- Bytes [i, i + n) of a control message (i counted in the message, from 8). -/
def cfld (m : CtlMsg) (i n : Nat) : Nat := bits m.body.toNat (8 * (i - 8)) (8 * n)

/-- Sends a control message toward its destination by a bank; false if no live port is left. -/
def sendCtlBy (s : State) (bank : NatMap W32) (m : CtlMsg) : Bool × State :=
  match routePort s (routeGet bank m.dst) with
  | some (n, _) => (true, portSendCtl s n m)
  | none => (false, s)

/-- Sends a control message of this controller; without a route it raises NO_ROUTE to itself. -/
def sendCtl (s : State) (m : CtlMsg) : State :=
  let (ok, t) := sendCtlBy s s.xbar.routeCur m
  if ok then t else raiseNoRoute t m.dst

/-- Sends a data packet of this controller by the current bank; without a route it raises NO_ROUTE to itself. -/
def transmit (s : State) (p : Packet) : State :=
  match routePort s (routeGet s.xbar.routeCur p.dst) with
  | some (n, act) => portSend s n { p with dl := applyDL p.dl act }
  | none => raiseNoRoute s p.dst

/-! ### Streams and replay (R140, R141, R167) -/

def txStream (s : State) (a : BitVec 10) : TxStream := tget TxStream.fresh s.xbar.tx a.toNat
def setTx (s : State) (a : BitVec 10) (f : TxStream → TxStream) : State :=
  s.setXbar (fun x => { x with tx := tmod TxStream.fresh x.tx a.toNat f })

/-- Bytes that a packet reads or writes at its address. -/
def packetBytes (p : Packet) : Nat :=
  match p.opc.toNat with
  | 0 => p.arg.toNat % 8192
  | 2 => 64
  | 4 => 4 * 2 ^ (p.arg.toNat / 4 % 4)
  | _ => 32 * p.len.toNat

def packetWrites (p : Packet) : Bool := p.opc.toNat ≠ 0 ∧ p.opc.toNat ≠ 8

/-- The two exceptions of R167. -/
def mayPass (p q : Packet) : Bool :=
  (p.opc == 3 && q.opc == 3 && p.arg.toNat % 16 == q.arg.toNat % 16) ||
  (p.opc == 4 && q.opc == 4 && p.arg.toNat % 4 != 3 && p.arg.toNat % 128 == q.arg.toNat % 128)

/-- A new packet that R167 holds behind an unfinished one of the same engine. -/
def heldBy (p q : Packet) : Bool :=
  p.ekind == q.ekind && p.eidx == q.eidx && (packetWrites p || packetWrites q) && !mayPass p q &&
  decide (p.addr.toNat < q.addr.toNat + packetBytes q ∧ q.addr.toNat < p.addr.toNat + packetBytes p)

def canSend (t : TxStream) (p : Packet) : Bool :=
  decide (t.pkts.length < 2048) && t.pkts.all (fun u => !heldBy p u.pkt)

/-- Gives a packet its SEQ and sends it, keeping it until it completes. -/
def launch (s : State) (p : Packet) (o : Origin) : State :=
  let t := txStream s p.dst
  let p := { p with src := s.xbar.agentId, epoch := s.xbar.epochCur, seq := t.nextSeq }
  let u : Unfinished := { pkt := p, origin := o, resends := 0, noRoute := false, held := false, oldEpoch := false }
  transmit (setTx s p.dst (fun t => { t with nextSeq := t.nextSeq + 1, pkts := t.pkts ++ [u] })) p

/-- Sends a new request packet to an agent, or holds it (2,048 unfinished, or R167). -/
def sendNew (s : State) (p : Packet) (o : Origin) : State :=
  let t := txStream s p.dst
  if canSend t p ∧ t.waiting.all (fun w => !heldBy p w.pkt) ∧ (t.waiting = [] ∨ t.pkts.length < 2048) then launch s p o
  else setTx s p.dst (fun t => { t with waiting := t.waiting ++ [⟨p, o⟩] })

/-- Sends the held packets that nothing holds any more, in order. -/
def releaseWaiting (s : State) (a : BitVec 10) : State :=
  let w := (txStream s a).waiting
  let s := setTx s a (fun t => { t with waiting := [] })
  w.foldl (fun s r => sendNew s r.pkt r.origin) s

/-- Frees the unfinished packet of a stream by its SEQ: what it was, and the state without it. -/
def takeUnfinished (s : State) (a : BitVec 10) (seq : W32) : Option Unfinished × State :=
  let t := txStream s a
  match t.pkts.find? (fun u => u.pkt.seq == seq) with
  | none => (none, s)
  | some u =>
    let s := setTx s a (fun t => { t with pkts := t.pkts.filter (fun v => v.pkt.seq != seq) })
    (some u, releaseWaiting s a)

/-- Numbers a CNT_ADD or SEM_OP in the control stream and sends it, keeping it until it completes (R132). -/
def launchCtl (s : State) (m : CtlMsg) (o : Origin) : State :=
  let t := txStream s m.dst
  let m := { m with cseq := t.nextCseq }
  let u : UnfinishedCtl := { msg := m, origin := o, resends := 0, noRoute := false }
  sendCtl (setTx s m.dst (fun t => { t with nextCseq := t.nextCseq + 1, ctls := t.ctls ++ [u] })) m

def takeUnfinishedCtl (s : State) (a : BitVec 10) (cseq : W16) : Option UnfinishedCtl × State :=
  let t := txStream s a
  match t.ctls.find? (fun u => u.msg.cseq == cseq) with
  | none => (none, s)
  | some u => (some u, setTx s a (fun t => { t with ctls := t.ctls.filter (fun v => v.msg.cseq != cseq) }))

/-- Anything from an agent arrived: an earlier NO_ROUTE for it no longer decides PATH_LOST (R155). -/
def heardFrom (s : State) (a : BitVec 10) : State :=
  if (txStream s a).pkts.any (·.noRoute) ∨ (txStream s a).ctls.any (·.noRoute) then
    setTx s a (fun t => { t with pkts := t.pkts.map (fun u => { u with noRoute := false }),
                                 ctls := t.ctls.map (fun u => { u with noRoute := false }) })
  else s

/-! ### Answers (R130, R131, R132, R153) -/

/-- The response to a request, with the fields that R130 copies. -/
def responseTo (s : State) (p : Packet) (opc : Nat) (status : Status) (arg : W32) (payload : List Byte) : Packet :=
  { opc := BitVec.ofNat 4 opc, cls := 1, dl := false, dst := p.src, src := p.dst, part := p.part,
    epoch := s.xbar.epochCur, len := BitVec.ofNat 8 (payload.length / 32), ekind := p.ekind, eidx := p.eidx,
    seq := p.seq, ctx := p.ctx, status := status, xl := p.xl, nocomb := false, jc := false, addr := p.addr,
    coh := false, mir := false, key := 0, cen := false, cunit := false, counter := 0, arg := arg, rsvd := false,
    payload := payload }

/-- An ACK of one packet. -/
def ackOf (s : State) (p : Packet) (status : Status) : CtlMsg :=
  { mkCtl s 3 p.src p.part (p.seq.toNat + 2 ^ 32 * 1 + 2 ^ 96 * status.toNat) with src := p.dst }

/-- A CSACK of one control message. -/
def csackOf (s : State) (m : CtlMsg) (status : Status) : CtlMsg :=
  { mkCtl s 0xB m.src m.part (m.cseq.toNat + 2 ^ 16 * 1 + 2 ^ 80 * status.toNat) with src := m.dst }

/-- Answers a request of another agent (R128, R153): data or old value where it has one, its status otherwise. -/
def answer (s : State) (p : Packet) (status : Status) (data : List Byte) : State :=
  match p.opc.toNat with
  | 0 => transmit s (if status = 0 then responseTo s p 5 0 (BitVec.ofNat 32 data.length) data
                     else responseTo s p 7 status 0 [])
  | 4 => transmit s (if status = 0 then responseTo s p 6 0 p.arg (data ++ zeros (32 - data.length))
                     else responseTo s p 7 status 4 [])
  | 8 => transmit s (if status = 0 then responseTo s p 9 0 (if data = [] then 0 else 1) data
                     else responseTo s p 7 status 8 [])
  | _ => sendCtl s (ackOf s p status)

/-! ### Duplicate windows (R142) -/

def rxWindow (s : State) (a : BitVec 10) : RxWindow := tget { RxWindow.fresh with restarted := true } s.xbar.rx a.toNat
def setRx (s : State) (a : BitVec 10) (f : RxWindow → RxWindow) : State :=
  s.setXbar (fun x => { x with rx := tmod { RxWindow.fresh with restarted := true } x.rx a.toNat f })

/-- What the window says of an arrival. -/
inductive Arrival where
  | perform
  | discard
  | again (status : Status) (result : List Byte)
  | expired
deriving DecidableEq, Repr

/-- Distance from `b` forward to `a` in serial arithmetic of `n` bits. -/
def serialAfter (n a b : Nat) : Int := sval n ((a + 2 ^ n - b % 2 ^ n) % 2 ^ n)

/-- Judges a non-read arrival. -/
def judge (bitsN : Nat) (newest : Option Nat) (seqs : NatMap SeqState) (restarted : Bool) (seq : Nat) : Arrival :=
  let n := newest.getD (2 ^ bitsN - 1)
  if restarted then .expired
  else if serialAfter bitsN seq n ≤ -4096 then .expired
  else match tfind seqs seq with
    | some .inProgress => .discard
    | some (.applied st r) => .again st r
    | none => .perform

/-- Records a SEQ's state, keeping the 4,096 most recent. -/
def recordSeq (bitsN : Nat) (newest : Option Nat) (seqs : NatMap SeqState) (seq : Nat) (v : SeqState) :
    Nat × NatMap SeqState :=
  let n := newest.getD (2 ^ bitsN - 1)
  let n' := if 0 < serialAfter bitsN seq n then seq else n
  (n', (tput seqs seq v).filter (fun e => -4096 < serialAfter bitsN e.1 n'))

/-- Records a data packet's state in its source's window (reads enter no window). -/
def markSeq (s : State) (p : Packet) (v : SeqState) : State :=
  if p.opc = 0 then s
  else setRx s p.src (fun r =>
    let (n, m) := recordSeq 32 (r.newest.map (·.toNat)) r.seqs p.seq.toNat v
    { r with newest := some (BitVec.ofNat 32 n), seqs := m })

def markCseq (s : State) (m : CtlMsg) (v : SeqState) : State :=
  setRx s m.src (fun r =>
    let (n, q) := recordSeq 16 (r.cnewest.map (·.toNat)) r.cseqs m.cseq.toNat v
    { r with cnewest := some (BitVec.ofNat 16 n), cseqs := q })

/-- Completes another agent's request: its window records the outcome, and it is answered. -/
def finishPeer (s : State) (p : Packet) (status : Status) (data : List Byte) : State :=
  answer (markSeq s p (.applied status (if p.opc = 4 then data else []))) p status data

/-- Fails a packet of another agent: its record, then its answer (R153, R154). -/
def failPeer (s : State) (p : Packet) (status : Status) (page bit : Nat) : State :=
  let f : Fail := { status := status, kind := if p.xl then 2 else 1, addr := p.addr.toNat,
                    ctx := if p.xl then none else some p.ctx, part := some p.part, agent := some p.src }
  finishPeer (if bit = 0x3F then logRecord s page f else logErr s page bit f) p status []

end Sys2Proof.Machine
end

