-- ==== Sys2Proof/Machine/Placement.lean ====
section
/-! DEFINITION. The placement engine: free places, victims, quotas, moves with their ranks, and shadows (02 R41 to
R55, R57; 14 R390). -/
namespace Sys2Proof.Machine

/-! ### Thresholds and shares -/

def thrSC (s : State) : Nat × Nat := let v := (regGet s (rk pPLC 0x118)).toNat; (bits v 0 16, bits v 16 16)
def thrCF (s : State) : Nat × Nat := let v := (regGet s (rk pPLC 0x120)).toNat; (bits v 0 16, bits v 16 16)
def migShare (s : State) : Nat := bits (regGet s (rk pPLC 0x110)).toNat 0 4

/-- A BUSY result of the placement engine (R52). -/
def bumpBusy (s : State) : State := bump s (rk pPLC 0x140) 32 1

/-! ### Quotas (14 R390) -/

def quotaField (s : State) (p : BitVec 6) (one : Bool) (lo : Nat) : Nat :=
  bits (tget 0 (if one then s.work.quota1 else s.work.quota0) p.toNat).toNat lo 16

/-- Residency and pin quotas of a tier in GiB (0 no limit); the flash tier has none. -/
def residencyQuota (s : State) (p : BitVec 6) (tier : Nat) : Nat :=
  if tier = 0 then quotaField s p false 0 else if tier = 1 then quotaField s p true 0 else 0
def pinQuota (s : State) (p : BitVec 6) (tier : Nat) : Nat :=
  if tier = 0 then quotaField s p false 16 else if tier = 1 then quotaField s p true 16 else 0

/-- Blocks of a partition that meet a condition. -/
def countBlocks (s : State) (p : BitVec 6) (f : Nat → Bool) : Nat :=
  ((List.range (s.store.homeLen / 2 ^ 30)).map (fun x =>
    if blockPart s (16384 * x) = p then ((List.range 16384).filter (fun i => f (16384 * x + i))).length else 0)).sum

def residentIn (s : State) (p : BitVec 6) (tier : Nat) : Nat :=
  countBlocks s p (fun b => tierOf (blockGet s b).loc == tier)
def pinnedIn (s : State) (p : BitVec 6) (tier : Nat) : Nat :=
  countBlocks s p (fun b => tierOf (blockGet s b).loc == tier && (blockGet s b).pins != 0)

/-- A partition stands at its residency quota in a tier. -/
def atQuota (s : State) (p : BitVec 6) (tier : Nat) : Bool :=
  residencyQuota s p tier != 0 && decide (residencyQuota s p tier * 16384 ≤ residentIn s p tier)

/-! ### Places -/

/-- A place that no pending move has taken as its destination. -/
def unclaimed (s : State) (l : Loc) : Bool := s.store.moves.all (fun m => m.flipped || m.dst != l)

/-- Free places of a sliver, and of a capacity group. Only places that a move has left are free. -/
def freeInWick (s : State) (w : Nat) : Option Loc :=
  ((s.store.stkAt.filter (fun e => e.1 / 768 = w ∧ e.2 = none)).map (fun e => Loc.stacked w (e.1 % 768))).find?
    (unclaimed s)
def freeInGroup (s : State) (g : Nat) : List Loc :=
  ((s.store.capAt.filter (fun e => e.1 / 8388608 = g ∧ e.2 = none)).map
    (fun e => Loc.capacity g (e.1 % 8388608))).filter (unclaimed s)

/-- The sliver search of R41, from wick (SA[27:16] xor SA[39:28]) upward. -/
def freeStacked (s : State) (b : Nat) : Option Loc :=
  let w0 := (b % 4096) ^^^ (b / 4096 % 4096)
  (List.range 4096).findSome? (fun i => freeInWick s ((w0 + i) % 4096))

/-- The capacity group with the most free blocks, the lowest on ties (R39). -/
def freeCapacity (s : State) : Option Loc :=
  let best := (List.range 6).foldl (fun a g =>
    if (freeInGroup s a).length < (freeInGroup s g).length then g else a) 0
  (freeInGroup s best).head?

/-! ### Victims (R44) -/

def pendingMove (s : State) (b : Nat) : Option Move := s.store.moves.find? (fun m => m.block == b)

/-- The place that a sweep's hand reaches at step `n` of a tier: the order in which a cold boot fills it (log entry
20). -/
def sweepPlace (s : State) (tier n : Nat) : Loc :=
  if tier = 0 then .stacked (wickOfOrdinal s.store (n % bootWickCount s.store)) (n / bootWickCount s.store)
  else .capacity (n % 6) (n / 6)
def placeCount (s : State) (tier : Nat) : Nat := if tier = 0 then stackedBlocks s.store else capacityBlocks
def occupant (s : State) : Loc → Option Nat
  | .stacked w i => stackedAt s w i
  | .capacity g i => capacityAt s g i
  | .flash _ => none

/-- The four conditions and the counter condition for a victim `v` of a candidate `b`. -/
def isVictim (s : State) (tier b cnt v : Nat) : Bool :=
  let e := blockGet s v
  v != b && decide (counterOf s v ≤ (if tier = 0 then thrSC s else thrCF s).2) && e.pins == 0 &&
  (pendingMove s v).isNone && !e.lost && !e.forfeit && !e.noPolicy && decide (counterOf s v < cnt) &&
  (!atQuota s (blockPart s b) tier || blockPart s v == blockPart s b)

/-- A clock sweep over a tier, at most 256 blocks: the victim with its place, and the hand afterwards. -/
def sweepVictim (s : State) (tier b cnt : Nat) : Option (Nat × Loc) × State :=
  let hand := if tier = 0 then s.store.handStk else s.store.handCap
  let n := placeCount s tier
  let set (s : State) (h : Nat) :=
    s.setStore (fun st => if tier = 0 then { st with handStk := h } else { st with handCap := h })
  match (List.range 256).findSome? (fun i =>
      let l := sweepPlace s tier ((hand + i) % n)
      match occupant s l with
      | some v => if isVictim s tier b cnt v then some (v, l, i) else none
      | none => none) with
  | some (v, l, i) => (some (v, l), set s ((hand + i + 1) % n))
  | none => (none, set s ((hand + 256) % n))

/-! ### Starting moves -/

def addMove (s : State) (m : Move) : State := s.setStore (fun st => { st with moves := st.moves ++ [m] })

def newMove (s : State) (b : Nat) (dst : Loc) (wick : Option Nat) (rank : Nat) (why : MoveWhy) : Move :=
  { block := b, dst := dst, wick := wick, rank := rank, why := why, joined := [], flipped := false,
    old := (blockGet s b).loc }

/-- Victims move in the share of the move that needs them, and answer nobody. -/
def victimWhy : MoveWhy → MoveWhy
  | .policy => .policy
  | _ => .demand

/-- A place in the capacity tier for block `b`: a free one, or that of a victim, which goes to flash. -/
def roomInCapacity (s : State) (b cnt rank : Nat) (why : MoveWhy) (needVictim : Bool) : Option Loc × State :=
  match (if needVictim then none else freeCapacity s) with
  | some l => (some l, s)
  | none =>
    match sweepVictim s 1 b cnt with
    | (some (v, l), s) => (some l, addMove s (newMove s v (.flash none) none rank (victimWhy why)))
    | (none, s) => (none, s)

/-- A place in the stacked tier: the named wick's sliver or nothing, else R41's choice, else that of a victim, which
needs a place in the capacity tier in its turn. -/
def roomInStacked (s : State) (b cnt rank : Nat) (why : MoveWhy) (wick : Option Nat) (needVictim : Bool) :
    Option Loc × State :=
  match wick with
  | some w => (freeInWick s w, s)
  | none =>
    match (if needVictim then none else freeStacked s b) with
    | some l => (some l, s)
    | none =>
      match sweepVictim s 0 b cnt with
      | (some (v, l), t) =>
        match roomInCapacity t v (counterOf t v) rank why false with
        | (some d, t) => (some l, addMove t (newMove t v d none rank (victimWhy why)))
        | (none, _) => (none, s)
      | (none, t) => (none, t)

def isAdvice : MoveWhy → Bool
  | .advice _ _ => true
  | _ => false

/-- Starts a move of a block with no pending move: none while it is pending, or the status with which it ends at
once. With the moves of its victims it may not bring more than 4,096 pending (R45). -/
def startMove (s : State) (b tier : Nat) (wick : Option Nat) (rank : Nat) (why : MoveWhy) : Option Status × State :=
  let m0 := newMove s b (if tier = 0 then .stacked 0 0 else if tier = 1 then .capacity 0 0 else .flash none) wick rank why
  let full4096 : Option Status × State :=
    if why = .policy then (some stBusy, logEvt s pPLC 1)
    else (none, s.setStore (fun st => { st with moveWait := st.moveWait ++ [m0] }))
  if 4096 ≤ s.store.moves.length then full4096
  else
    let p := blockPart s b
    let promote := decide (tier < tierOf (blockGet s b).loc)
    let full := promote && atQuota s p tier
    if full && isAdvice why then (some stQuota, s)
    else if tier = 2 then (none, addMove s m0)
    else
      match (if tier = 0 then roomInStacked s b (counterOf s b) rank why wick full
             else roomInCapacity s b (counterOf s b) rank why full) with
      | (some l, t) => if 4096 ≤ t.store.moves.length then full4096 else (none, addMove t { m0 with dst := l })
      | (none, t) => (some stBusy, if why = .policy then t else bumpBusy t)

/-! ### Advice commands in progress (R50) -/

/-- One block of an advice command has ended with a status. -/
def adviceDone (s : State) (q : Nat) (tag : W32) (b : Nat) (st : Status) : State :=
  s.setStore (fun z => { z with advice := z.advice.map (fun a =>
    if a.q = q ∧ a.tag = tag ∧ a.todo.contains b then
      { a with todo := a.todo.filter (· ≠ b), first := if a.first = 0 then st else a.first,
               bad := a.bad + (if st = 0 then 0 else 1) }
    else a) })

/-- Adds 1 to a pin count under the pin quota of the block's tier (R51). -/
def pinBlock (s : State) (b : Nat) : Status × State :=
  let e := blockGet s b
  let t := tierOf e.loc
  let p := blockPart s b
  if e.pins = 255 then (stQuota, s)
  else if e.pins = 0 ∧ pinQuota s p t ≠ 0 ∧ pinQuota s p t * 16384 ≤ pinnedIn s p t then (stQuota, s)
  else (0, blockSet s b (fun e => { e with pins := e.pins + 1 }))

/-- A move of an advice command ends: a PIN (rank 1) counts its pin. -/
def tellAdvice (s : State) (rank b : Nat) (st : Status) (q : Nat) (tag : W32) : State :=
  if st = 0 ∧ rank = 1 then let (st, s) := pinBlock s b; adviceDone s q tag b st else adviceDone s q tag b st

/-- Everyone who waits on a move is told how it ended. -/
def tellMove (s : State) (m : Move) (st : Status) : State :=
  let s := match m.why with
    | .advice q tag => tellAdvice s m.rank m.block st q tag
    | _ => s
  m.joined.foldl (fun s e => tellAdvice s m.rank m.block st e.1 e.2) s

def dropMove (s : State) (b : Nat) : State :=
  s.setStore (fun st => { st with moves := st.moves.filter (fun m => m.block != b) })

/-- A pending move gives way to one of higher rank, before its flip (R52). -/
def cancelMove (s : State) (m : Move) : State :=
  let s := tellMove (dropMove s m.block) m stBusy
  if m.why = .policy then s else bumpBusy s

/-- A block already where a request wants it. -/
def isThere (l : Loc) (tier : Nat) (wick : Option Nat) : Bool :=
  tierOf l == tier && (match wick, l with
    | some w, .stacked v _ => w == v
    | _, _ => true)

/-- A requested move against what is pending (R52): none while it is pending, or its status at once. -/
def requestMove (s : State) (b tier : Nat) (wick : Option Nat) (rank : Nat) (why : MoveWhy) : Option Status × State :=
  let e := blockGet s b
  let busy (s : State) : Option Status × State := (some stBusy, if why = .policy then s else bumpBusy s)
  if e.lost then (some stLost, s)
  else if e.forfeit then (some stForfeit, s)
  else if e.pins != 0 && rank != 1 && !isThere e.loc tier wick then busy s
  else
    match pendingMove s b with
    | none => if isThere e.loc tier wick then (some stOK, s) else startMove s b tier wick rank why
    | some m =>
      let up := decide (tier < tierOf e.loc)
      let mup := decide (tierOf m.dst < tierOf e.loc)
      if m.flipped then
        if why = .policy then (some stBusy, s)
        else (none, s.setStore (fun st => { st with moveWait := st.moveWait ++
          [newMove s b (if tier = 0 then .stacked 0 0 else if tier = 1 then .capacity 0 0 else .flash none) wick rank
            why] }))
      else if rank < m.rank then startMove (cancelMove s m) b tier wick rank why
      else if m.rank < rank then busy s
      else if up != mup then if up then startMove (cancelMove s m) b tier wick rank why else busy s
      else if tierOf m.dst = tier ∧ m.wick = wick then
        (none, s.setStore (fun st => { st with moves := st.moves.map (fun n =>
          if n.block = b then { n with joined := match why with
            | .advice q tag => n.joined ++ [(q, tag)]
            | _ => n.joined } else n) }))
      else busy s

/-- Requests that waited for a place among the pending moves or for a flipped move are looked at again, in order. -/
def retryWaiting (s : State) : State :=
  let w := s.store.moveWait
  w.foldl (fun s m =>
    let (r, s) := requestMove s m.block (tierOf m.dst) m.wick m.rank m.why
    match r with
    | some st => tellMove s m st
    | none => s) (s.setStore (fun st => { st with moveWait := [] }))

/-! ### Shadows (R54, R55) -/

/-- 512 B units that a shadow takes. -/
def shadowUnits (h : Shadow) : Nat :=
  if h.srcFmt = 0 then (if h.sb4 then 17 else 33) else (if h.sb4 then 34 else 66)

/-- Units of the shadow pool. -/
def shadowPool (s : State) : Nat := s.store.shadowGiB * 2 ^ 21

/-- One SB block in memory order (07 R203). -/
def sbBytes (sb4 : Bool) (sc : Nat) (cs : List Nat) : List Byte :=
  let body := (cs.zipIdx.map (fun e => e.1 * 2 ^ ((if sb4 then 4 else 8) * e.2))).sum
  BitVec.ofNat 8 sc :: leBytes (if sb4 then 16 else 32) body

/-- The source elements of a block, as values. -/
def shadowSource (h : Shadow) (bytes : List Byte) : List FVal :=
  let n := if h.srcFmt = 0 then 4 else 2
  (List.range (65536 / n)).map (fun i => widenFrom h.srcFmt.toNat (leNat (slice bytes (n * i) n)))

/-- Writes a block's shadow from its bytes, nearest even; the stale mark clears. -/
def writeShadow (s : State) (b : Nat) : State :=
  match (blockGet s b).shadow with
  | none => s
  | some h =>
    let xs := shadowSource h (homeBytes s h.key (65536 * b) 65536)
    let blocks := (List.range (xs.length / 32)).map (fun i =>
      let (sc, cs, _, _) := toBlock h.sb4 false 1 ((xs.drop (32 * i)).take 32)
      sbBytes h.sb4 sc cs)
    blockSet (s.setStore (fun st => { st with shadowMem := cellWrite st.shadowMem (65536 * b) blocks.flatten })) b
      (fun e => { e with shadow := some { h with stale := false } })

/-- A write to a shadowed block marks its shadow stale. -/
def staleShadow (s : State) (b : Nat) : State :=
  match (blockGet s b).shadow with
  | none => s
  | some h => blockSet s b (fun e => { e with shadow := some { h with stale := true } })

/-! ### Flip and completion (R46, R47) -/

/-- Lines of a block that fail. -/
def blockBad (s : State) (b : Nat) : Option Nat := s.store.badLines.find? (fun l => l / 1024 == b)

/-- Flash blocks of the tier, and the levels of R57. -/
abbrev flashBlocks : Nat := 57344 * 16384

def setFlashFree (s : State) (n : Nat) : State :=
  let s := s.setStore (fun st => { st with flashFree := n })
  if !s.store.flashWait && decide (100 * n < flashBlocks) then
    logEvt (s.setStore (fun st => { st with flashWait := true })) pPLC 0
  else if s.store.flashWait && decide (2 * flashBlocks ≤ 100 * n) then s.setStore (fun st => { st with flashWait := false })
  else s

/-- The copy of a move has ended and its destination is free: the block map takes the new location. -/
def flipMove (s : State) (m : Move) : State :=
  let toFlash := tierOf m.dst = 2
  let dst := if toFlash then .flash (some s.store.flashLog) else m.dst
  let s := if toFlash then
      setFlashFree (s.setStore (fun st => { st with flashLog := st.flashLog + 4 })) (s.store.flashFree - 1)
    else s
  let s := placeSet (blockSet s m.block (fun e => { e with loc := dst })) dst (some m.block)
  let s := s.setStore (fun st => { st with moves := st.moves.map (fun n =>
    if n.block = m.block then { n with flipped := true, dst := dst } else n) })
  if tierOf m.old = 0 ∧ tierOf dst ≠ 0 then writeShadow s m.block
  else if tierOf dst = 0 then staleShadow s m.block
  else s

/-- A policy or advice move meets data it cannot correct and stops before the flip. -/
def stopMove (s : State) (m : Move) (line : Nat) : State :=
  let s := logErr s pPLC 2 { status := stUncorr, kind := 2, addr := s.store.homeId.toNat * 2 ^ 50 + 64 * line }
  tellMove (dropMove (blockSet s m.block (fun e => { e with noPolicy := true })) m.block) m stUncorr

/-- A move's destination is free to be written. -/
def dstFree (s : State) : Loc → Bool
  | .flash _ => !s.store.flashWait
  | l => (occupant s l).isNone

/-- The old location is freed and the move completes. -/
def finishMove (s : State) (m : Move) : State :=
  let s := placeSet (dropMove s m.block) m.old none
  retryWaiting (tellMove (bump s (rk pPLC 0x138) 32 1) m stOK)

/-- Moves a block to the capacity tier at once, in the step of an engine's own write (R48): none if it finds no
victim. A victim it needs goes to flash in the same step. -/
def promoteNow (s : State) (b : Nat) : Option State :=
  let s := match pendingMove s b with
    | some m => if m.flipped then finishMove s m else cancelMove s m
    | none => s
  if tierOf (blockGet s b).loc ≠ 2 then some s
  else
    match requestMove s b 1 none 0 .demand with
    | (some st, t) => if st = 0 then some t else none
    | (none, t) =>
      let ms := t.store.moves.filter (fun m => m.why = .demand ∧ (pendingMove s m.block).isNone)
      some (ms.foldl (fun t m => finishMove (flipMove t m) { m with flipped := true }) t)

end Sys2Proof.Machine
end

