-- ==== Sys2Proof/Machine/Operands.lean ====
section
/-! DEFINITION. The wick instruction words: fields of the five forms, and the decoder with everything it refuses
(08 R223 to R250). -/
namespace Sys2Proof.Machine

/-- The wick instructions, one per row. -/
inductive Op where
  | saluAdd | saluSub | saluAnd | saluOr | saluXor | andn | saluShl | saluShr | saluSar | ror | clt | cltu
  | ceq | saluMin | saluMax | minu | maxu | mullo | mulhi | mulhiu | quo | mod | popc | clz | addi | andi | ori
  | xori | shli | shri | sari | muli | setq | putq | br | call | jind | nop | endProgram | mfs | mts | lds
  | sts | ldv | stv | ldm | stm | ldmv | stmv | lda | str | stn | amo | vacc | ldsb | stsb | fadd | fsub | fmul
  | fma | fnma | fmin | fmax | fabs | fneg | iadd | isub | imul | valuAnd | valuOr | valuXor | valuShl
  | valuShr | valuSar | imin | imax | mov | cvtif | cvtfi | feq | flt | fle | funord | ieq | ilt | iltu | kand
  | kor | kxor | kandn | kfroms | ktos | kpop | bcst | ext | ins | lane | redsum | redmax | rediadd | exp | rcp
  | rsq | vcvtWiden | vcvtNarrow | vsbToSb | vsbFromSb | dot | dotsb | azero | aread | awrite | mvt | mvx
  | cwait | cread | cadd | semop | wickFence | acquire | mwait
deriving DecidableEq, Repr

/-! ### Fields (R223) -/

def wOP (i : W32) : Nat := bits i.toNat 0 7
def wD (i : W32) : Nat := bits i.toNat 7 5
def wA (i : W32) : Nat := bits i.toNat 12 5
def wB (i : W32) : Nat := bits i.toNat 17 5
def wPK (i : W32) : Nat := bits i.toNat 22 3
def wFN (i : W32) : Nat := bits i.toNat 25 7
def wF3 (i : W32) : Nat := bits i.toNat 17 3
/-- The immediate of form I, unsigned and signed. -/
def wIMMu (i : W32) : Nat := bits i.toNat 20 12
def wIMM (i : W32) : Int := sval 12 (wIMMu i)
def wIMM16 (i : W32) : Nat := bits i.toNat 16 16
def wH (i : W32) : Nat := bits i.toNat 14 2
def wKEEP (i : W32) : Bool := bit i.toNat 13
def wTARGET (i : W32) : Nat := bits i.toNat 12 12
def wSCB (i : W32) : Nat := bits i.toNat 27 5
def wSCA (i : W32) : Nat := bits i.toNat 22 5
def wFMT (i : W32) : Nat := bits i.toNat 9 3
def wACC (i : W32) : Nat := bits i.toNat 7 2

/-! ### The decoder (R224, R225); none is a refused word -/

/-- Accepts `o` when `c` holds. -/
def okIf (c : Bool) (o : Op) : Option Op := if c then some o else none

/-- SALU (R226). -/
def decSalu (i : W32) : Option Op :=
  let o := match wFN i with
    | 0x00 => some .saluAdd | 0x01 => some .saluSub | 0x02 => some .saluAnd | 0x03 => some .saluOr
    | 0x04 => some .saluXor | 0x05 => some .andn | 0x08 => some .saluShl | 0x09 => some .saluShr
    | 0x0A => some .saluSar | 0x0B => some .ror | 0x10 => some .clt | 0x11 => some .cltu | 0x12 => some .ceq
    | 0x14 => some .saluMin | 0x15 => some .saluMax | 0x16 => some .minu | 0x17 => some .maxu
    | 0x18 => some .mullo | 0x19 => some .mulhi | 0x1A => some .mulhiu | 0x1C => some .quo | 0x1D => some .mod
    | 0x20 => okIf (wB i == 0) .popc | 0x21 => okIf (wB i == 0) .clz | _ => (none : Option Op)
  if wPK i = 0 then o else none

/-- SALUI (R227). -/
def decSalui (i : W32) : Option Op :=
  let sh := wIMMu i < 64
  match wF3 i with
  | 0 => some .addi | 1 => some .andi | 2 => some .ori | 3 => some .xori
  | 4 => okIf sh .shli | 5 => okIf sh .shri | 6 => okIf sh .sari | _ => some .muli

/-- SYS (R236): selectors 0x3 to 0x5 are writable, 0x0 to 0xB readable. -/
def decSys (i : W32) : Option Op :=
  if wPK i ≠ 0 then none
  else match wFN i with
    | 0 => okIf (wD i == 0 && wA i == 0 && wB i == 0) .nop
    | 1 => okIf (wD i == 0 && wA i == 0 && wB i == 0) .endProgram
    | 2 => okIf (decide (wA i < 0xC) && wB i == 0) .mfs
    | 3 => okIf (decide (3 ≤ wA i ∧ wA i ≤ 5) && wD i == 0) .mts
    | _ => none

/-- VALU (R239). -/
def decValu (i : W32) : Option Op :=
  let u := wB i == 0
  match wFN i with
  | 0x00 => some .fadd | 0x01 => some .fsub | 0x02 => some .fmul | 0x03 => some .fma | 0x04 => some .fnma
  | 0x05 => some .fmin | 0x06 => some .fmax | 0x07 => okIf u .fabs | 0x08 => okIf u .fneg
  | 0x10 => some .iadd | 0x11 => some .isub | 0x12 => some .imul | 0x13 => some .valuAnd | 0x14 => some .valuOr
  | 0x15 => some .valuXor | 0x16 => some .valuShl | 0x17 => some .valuShr | 0x18 => some .valuSar
  | 0x19 => some .imin | 0x1A => some .imax | 0x20 => okIf u .mov | 0x21 => okIf u .cvtif
  | 0x22 => okIf u .cvtfi | _ => none

/-- VMSK (R240). -/
def decVmsk (i : W32) : Option Op :=
  let d := decide (wD i < 8)
  let np := wPK i == 0
  let m := np && d && decide (wA i < 8) && decide (wB i < 8)
  let r := np && decide (wA i < 8) && wB i == 0
  match wFN i with
  | 0x00 => okIf d .feq | 0x01 => okIf d .flt | 0x02 => okIf d .fle | 0x03 => okIf d .funord
  | 0x08 => okIf d .ieq | 0x09 => okIf d .ilt | 0x0A => okIf d .iltu
  | 0x10 => okIf m .kand | 0x11 => okIf m .kor | 0x12 => okIf m .kxor | 0x13 => okIf m .kandn
  | 0x18 => okIf (np && d && wB i == 0) .kfroms | 0x19 => okIf r .ktos | 0x1A => okIf r .kpop | _ => none

/-- VMOV (R241). -/
def decVmov (i : W32) : Option Op :=
  let np := wPK i == 0
  let l := np && decide (wB i < 16)
  let r := np && wB i == 0
  match wFN i with
  | 0 => okIf (wB i == 0) .bcst | 1 => okIf l .ext | 2 => okIf l .ins
  | 3 => okIf (wA i == 0 && wB i == 0) .lane
  | 4 => okIf r .redsum | 5 => okIf r .redmax | 6 => okIf r .rediadd | _ => none

/-- VCVT (R243): PK holds the rounding and saturation choices. -/
def decVcvt (i : W32) : Option Op :=
  let f := bits (wFN i) 0 3
  let p := bits (wFN i) 3 2
  if f < 5 ∧ wFN i < 64 ∧ (p < 2 ∨ 2 ≤ f) ∧ wB i = 0 ∧ wPK i < 4 then
    if bit (wFN i) 5 then some .vcvtNarrow else okIf (wPK i == 0) .vcvtWiden
  else none

/-- VSB (R244). Widening uses no rounding, so its PK field must be 0 (log entry 13). -/
def decVsb (i : W32) : Option Op :=
  let p := bits (wFN i) 1 2
  if (p < 2 ∨ bit (wFN i) 0) ∧ wPK i < 2 then
    if bit (wFN i) 6 then okIf (wD i % 2 == 0 && wPK i == 0) .vsbFromSb else okIf (wA i % 2 == 0) .vsbToSb
  else none

/-- ACC (R246). -/
def decAcc (i : W32) : Option Op :=
  if wPK i ≠ 0 then none
  else match wFN i with
    | 0 => okIf (decide (wD i < 4) && wA i == 0 && wB i == 0) .azero
    | 1 => okIf (decide (wA i < 4) && decide (wB i < 4)) .aread
    | 2 => okIf (decide (wD i < 4) && decide (wB i < 4)) .awrite
    | _ => none

/-- MOVE (R247, R248). -/
def decMove (i : W32) : Option Op :=
  if wPK i ≠ 0 then none
  else match bits (wFN i) 5 2 with
    | 0 => okIf (decide (wFN i < 8) && wD i == 0 && wB i == 0) .mvt
    | 1 => okIf (!(bit (wFN i) 3 && bit (wFN i) 4)) .mvx
    | _ => none

/-- SYNC (R250). -/
def decSync (i : W32) : Option Op :=
  let f := wFN i
  if wPK i ≠ 0 then none
  else match bits f 0 4 with
    | 0 => okIf (decide (f < 32)) .cwait
    | 1 => okIf (decide (f < 32) && wB i == 0) .cread
    | 2 => okIf (decide (f < 32) && wD i == 0) .cadd
    | 3 => okIf (decide (bits f 4 3 < 5)) .semop
    | 4 => okIf (decide (f < 16) && wA i == 0 && wB i == 0) .wickFence
    | 5 => okIf (decide (f < 16) && wA i == 0 && wB i == 0 && wD i == 0) .acquire
    | 6 => okIf (decide (f < 16) && wA i == 0 && wB i == 0) .mwait
    | _ => none

/-- The instruction that a word holds; none where the decoder refuses it. -/
def decodeOp (i : W32) : Option Op :=
  match wOP i with
  | 0x01 => decSalu i
  | 0x02 => decSalui i
  | 0x03 => okIf (!bit i.toNat 12) (if wKEEP i then .putq else .setq)
  | 0x04 => okIf (wF3 i != 7 || wA i == 0) .br
  | 0x05 => okIf (decide (bits i.toNat 24 8 = 0)) .call
  | 0x06 => okIf (wF3 i == 0) .jind
  | 0x07 => decSys i
  | 0x10 => okIf (wF3 i != 7) .lds
  | 0x11 => okIf (decide (wF3 i < 4)) .sts
  | 0x12 => okIf (wF3 i == 0) .ldv
  | 0x13 => some .stv
  | 0x14 => okIf (wF3 i != 7) .ldm
  | 0x15 => okIf (decide (wF3 i < 4)) .stm
  | 0x16 => okIf (wF3 i == 0) .ldmv
  | 0x17 => some .stmv
  | 0x18 => okIf (wF3 i != 7) .lda
  | 0x19 => okIf (decide (wF3 i < 4)) .str
  | 0x1A => okIf (decide (bits (wFN i) 0 3 < 5) && decide (wFN i < 64) && wB i == 0) .stn
  | 0x1B => okIf (wPK i == 0 && decide (wFN i < 64) && decide (bits (wFN i) 3 3 < 5) &&
              (decide (bits (wFN i) 3 3 < 2) || !bit (wFN i) 2)) .amo
  | 0x1C => okIf (wPK i == 0 && decide (bits (wFN i) 0 3 < 5) && decide (wFN i < 16) && wB i == 0) .vacc
  | 0x1D => okIf (wPK i == 0 && decide (wFN i < 2) && wD i % (if wFN i = 1 then 2 else 4) == 0) .ldsb
  | 0x1E => okIf (wPK i == 0 && decide (wFN i < 2) && wD i % (if wFN i = 1 then 2 else 4) == 0) .stsb
  | 0x20 => decValu i
  | 0x22 => match wFN i with
    | 0 => okIf (wB i == 0) .exp
    | 1 => okIf (wB i == 0) .rcp
    | 2 => okIf (wB i == 0) .rsq
    | _ => none
  | 0x23 => decVcvt i
  | 0x24 => decVmsk i
  | 0x25 => decVmov i
  | 0x26 => decVsb i
  | 0x30 => okIf (decide (wFMT i < 7) && wSCA i == 0 && wSCB i == 0) .dot
  | 0x31 => okIf (decide (wFMT i < 2) && wA i % (if wFMT i = 1 then 2 else 4) == 0 &&
              wB i % (if wFMT i = 1 then 2 else 4) == 0) .dotsb
  | 0x32 => decAcc i
  | 0x38 => decMove i
  | 0x39 => decSync i
  | _ => none

end Sys2Proof.Machine
end

