-- ==== Sys2Proof/WellFormed.lean ====
section
/-! DEFINITION. Well-formed commands: every operand names a unit that the part has, and a packet carries as many bytes
as its LEN says. A command that is not well formed reaches no hardware; its meaning is a fault. -/
namespace Sys2Proof

def wickOk (w : Nat) : Bool := decide (w < Config.wicks)
def portOk (n : Nat) : Bool := decide (n < Config.ports)
/-- Lane indices 0 to 4; 2 is the control lane (04 R95). -/
def laneOk (n : Nat) : Bool := decide (n < 5)
def queueOk (q : Nat) : Bool := decide (q < Config.queues)
def sconceOk (n : Nat) : Bool := decide (n < Config.sconces)
def copyOk (n : Nat) : Bool := decide (n < Config.copyEngines)
/-- Pages 0 to 153 in the order of 17 R470. -/
def pageOk (p : Nat) : Bool := decide (p < 154)
/-- Stacked dies 0 to 7, capacity channels 0 to 23, flash channels 0 to 31 (17 R470). -/
def dieOk (n : Nat) : Bool := decide (n < 8)
def channelOk (n : Nat) : Bool := decide (n < 24)
def flashOk (n : Nat) : Bool := decide (n < 32)
/-- BAR0 is a window of 64 MiB (17 R469). -/
def barOk (off : Nat) : Bool := decide (off < 2 ^ 26)
def counterOk (k : Nat) : Bool := decide (k < Config.hubCounters)
/-- Local counters 0 to 1,023 of a sconce (06 R170). -/
def localOk (n : Nat) : Bool := decide (n < 1024)
def semaphoreOk (k : Nat) : Bool := decide (k < Config.semaphores)
/-- Plan handles 0 to 255 (09 R274). -/
def handleOk (h : Nat) : Bool := decide (h < 256)
/-- Temperature sensors 0 to 65 (17 R489). -/
def sensorOk (n : Nat) : Bool := decide (n < 66)
/-- A CREDIT or MARK message carries twelve counts (05 R131). -/
def countsOk (c : List (BitVec 16)) : Bool := c.length == 12

/-- The physical function, virtual functions 1 to 63, the Lamplighter's ten banks (17 R474). -/
def RegSrc.ok : RegSrc → Bool
  | .pf => true
  | .vf n => decide (1 ≤ n ∧ n < 64)
  | .lmp b => decide (b < 10)

/-- The payload has LEN times 32 bytes (05 R126). -/
def Packet.ok (p : Packet) : Bool := p.payload.length == 32 * p.len.toNat

/-- Four sessions on each Ethernet port 0 and 1 (19 R527). -/
def MonSess.ok : MonSess → Bool
  | .serial => true
  | .eth port i => decide (port < 2 ∧ i < 4)

def Target.ok : Target → Bool
  | .sconce n => sconceOk n
  | .cap g => decide (g < 6)
  | .flash g => decide (g < 4)

def Engine.ok : Engine → Bool
  | .wick w => wickOk w
  | .mover sc ch => sconceOk sc && decide (ch < 8)
  | .copy n => copyOk n
  | .work => true
  | .sconce sc => sconceOk sc

def Waiter.ok : Waiter → Bool
  | .wick w => wickOk w
  | .gate h => handleOk h
  | .queue q _ => queueOk q

/-- Whether a command is well formed. -/
def Instr.wellFormed : Instr → Bool
  | .registerWrite src off _ _ => src.ok && barOk off
  | .rcRead src off => src.ok && barOk off
  | .errStatClear src page _ => src.ok && pageOk page
  | .hubCounterWrite src k _ _ => src.ok && counterOk k
  | .localCounterWrite src sc n _ _ => src.ok && sconceOk sc && localOk n
  | .semaphoreRead src k => src.ok && semaphoreOk k
  | .semaphoreWrite src k _ _ => src.ok && semaphoreOk k
  | .doorbell src q _ _ _ => src.ok && queueOk q
  | .qEnable src _ => src.ok
  | .copy q _ => queueOk q
  | .tileStream q _ => queueOk q
  | .fence q _ => queueOk q
  | .counterWait q _ => queueOk q
  | .counterWaitBound q _ => queueOk q
  | .counterTargetReached w => w.ok
  | .prefetch q _ => queueOk q
  | .pin q _ => queueOk q
  | .unpin q _ => queueOk q
  | .cold q _ => queueOk q
  | .markShadow q _ => queueOk q
  | .unmarkShadow q _ => queueOk q
  | .prefetchFromHost q _ _ => queueOk q
  | .evictToHost q _ _ => queueOk q
  | .shootdown q _ => queueOk q
  | .shootCmdGo src _ => src.ok
  | .shootdownAck _ eng => eng.ok
  | .shootdownComplete _ => true
  | .shootdownOverrun _ eng => eng.ok
  | .reclaim q _ => queueOk q
  | .rebuildSend q _ => queueOk q
  | .rebuildReceive q _ => queueOk q
  | .rebuildSendDone => true
  | .rebuildStall => true
  | .emberRead q _ _ => queueOk q
  | .planAdmit q _ => queueOk q
  | .planArm q _ => queueOk q
  | .planRun q _ => queueOk q
  | .planRetire q _ => queueOk q
  | .gateOpen h => handleOk h
  | .stepStart h => handleOk h
  | .spotCopyDone sc => sconceOk sc
  | .spotCompare sc => sconceOk sc
  | .stepEnd h => handleOk h
  | .stepOverrun h _ => handleOk h
  | .gateBoundExpiry h => handleOk h
  | .append q _ => queueOk q
  | .attend q _ _ => queueOk q
  | .gather q _ _ _ => queueOk q
  | .pool q _ _ _ => queueOk q
  | .scatterAdd q _ _ => queueOk q
  | .updateRow q _ _ => queueOk q
  | .tableOpen q _ => queueOk q
  | .tableClose q _ _ => queueOk q
  | .rowMove _ _ _ => true
  | .adamw q _ => queueOk q
  | .sgdM q _ => queueOk q
  | .signM q _ => queueOk q
  | .rowAdagrad q _ => queueOk q
  | .norm2 q _ => queueOk q
  | .accumStream q _ => queueOk q
  | .collOpen q _ => queueOk q
  | .collAbort q _ => queueOk q
  | .collReset q _ => queueOk q
  | .collClose q _ => queueOk q
  | .abortRepeat _ _ => true
  | .ctxInstall q _ => queueOk q
  | .ctxWithdraw q _ => queueOk q
  | .grant q _ => queueOk q
  | .revoke q _ => queueOk q
  | .handover q _ => queueOk q
  | .extentDrain _ => true
  | .create q _ => queueOk q
  | .addAgent q _ => queueOk q
  | .removeAgent q _ => queueOk q
  | .composeEnd q _ => queueOk q
  | .grantSconce src _ _ => src.ok
  | .grantHubCounters src _ _ => src.ok
  | .grantSemaphores src _ _ => src.ok
  | .grantReservoir src _ _ => src.ok
  | .grantZeroingDone => true
  | .snuff src _ => src.ok
  | .teardownRepeat _ => true
  | .snap src _ => src.ok
  | .walk _ _ => true
  | .read port p _ => portOk port && p.ok
  | .write port p _ => portOk port && p.ok
  | .writeMasked port p _ => portOk port && p.ok
  | .accumulate port p _ => portOk port && p.ok
  | .atomicAdd port p _ => portOk port && p.ok
  | .atomicMin port p _ => portOk port && p.ok
  | .atomicMax port p _ => portOk port && p.ok
  | .atomicCas port p _ => portOk port && p.ok
  | .readRsp port p => portOk port && p.ok
  | .atomicRsp port p => portOk port && p.ok
  | .errRsp port p => portOk port && p.ok
  | .invalidate port p => portOk port && p.ok
  | .recallShared port p => portOk port && p.ok
  | .snoopRsp port p => portOk port && p.ok
  | .lineBufferWriteback _ => true
  | .twinWrite port p => portOk port && p.ok
  | .tierApply t => t.ok
  | .packetForward port p => portOk port && p.ok
  | .replayTimeout _ _ _ => true
  | .deadTargetBound _ _ _ => true
  | .credit port counts => portOk port && countsOk counts
  | .creditSend port => portOk port
  | .mark port _ counts => portOk port && countsOk counts
  | .markSend port => portOk port
  | .ack port _ => portOk port
  | .csack port _ => portOk port
  | .cntAdd port _ => portOk port
  | .semRead port _ => portOk port
  | .signal port _ => portOk port
  | .waitDec port _ => portOk port
  | .waitDecTimeout sem => semaphoreOk sem
  | .tryDec port _ => portOk port
  | .set port _ => portOk port
  | .semRsp port _ => portOk port
  | .abort port _ => portOk port
  | .noRoute port _ => portOk port
  | .prepared port _ => portOk port
  | .prepare src _ => src.ok
  | .commit src _ _ => src.ok
  | .retire src _ => src.ok
  | .routeData src _ => src.ok
  | .codewordReceive port ln _ => portOk port && laneOk ln
  | .portEnable src port => src.ok && portOk port
  | .portDisable src port => src.ok && portOk port
  | .trainingAttempt port ln _ _ => portOk port && laneOk ln
  | .trainingBoundMiss port ln => portOk port && laneOk ln
  | .noPeerTimeout port => portOk port
  | .uncorrWindow port ln _ => portOk port && laneOk ln
  | .serWindow port ln _ _ => portOk port && laneOk ln
  | .ringLockLoss port ln _ _ => portOk port && laneOk ln
  | .signalLossTimeout port ln => portOk port && laneOk ln
  | .signalReturn port ln => portOk port && laneOk ln
  | .activeMapChange port _ _ => portOk port
  | .controlFailover port => portOk port
  | .controlReturn port => portOk port
  | .laneRetrain src port _ => src.ok && portOk port
  | .laneDisable src port _ => src.ok && portOk port
  | .laneEnable src port _ => src.ok && portOk port
  | .lossOfLight _ _ _ => true
  | .lasersLost _ _ => true
  | .lightRestored _ _ => true
  | .switch src _ => src.ok
  | .policyMove _ => true
  | .moveFlip _ => true
  | .moveComplete _ => true
  | .shadowRewrite _ => true
  | .garbageCollection channel _ _ _ => flashOk channel
  | .flashReadComplete _ page _ _ _ => decide (page < 4)
  | .tileComplete _ => true
  | .deadlineExpiry _ _ => true
  | .channelRetrainDue ch _ => channelOk ch
  | .channelReady ch _ => channelOk ch
  | .dieRetrainDue die _ => dieOk die
  | .dieTrainingStart die => dieOk die
  | .dieReady die _ _ => dieOk die
  | .retrainCmd src page _ => src.ok && pageOk page
  | .load src _ => src.ok
  | .clear src => src.ok
  | .setOwner src _ => src.ok
  | .keyDrainDone _ => true
  | .memrd _ _ => true
  | .memwr _ _ _ _ _ => true
  | .birsp _ _ => true
  | .bisnpTimeout _ => true
  | .dlInactiveTimeout => true
  | .declareDead src => src.ok
  | .revive src => src.ok
  | .deadSweep src _ => src.ok
  | .removeSweep src _ => src.ok
  | .sweepEnd => true
  | .cwinCacheClear src _ => src.ok
  | .hdmCommit _ _ _ _ _ => true
  | .functionLevelReset _ => true
  | .hostLinkReset _ => true
  | .atsInvalidation _ _ => true
  | .configRequest _ _ _ _ => true
  | .reservoirBarAccess src _ _ _ => src.ok
  | .forwardWrite src _ _ _ => src.ok
  | .forwardRead src _ _ _ => src.ok
  | .identifyMemoryDevice => true
  | .getSupportedLogs => true
  | .getLog _ _ _ => true
  | .getEventRecords _ => true
  | .clearEventRecords _ _ => true
  | .getHealthInfo => true
  | .mailboxUnsupported _ => true
  | .errorRecordWrite _ => true
  | .recordExport _ _ => true
  | .beacon => true
  | .watchdogHang _ => true
  | .lamplighterResume => true
  | .copyEngineHang eng _ _ => copyOk eng
  | .contextReset src _ => src.ok
  | .engineReset src _ => src.ok
  | .partitionReset src _ => src.ok
  | .computeReset src _ => src.ok
  | .powerCycleRequest src _ => src.ok
  | .resetOverrun _ _ => true
  | .quiesce src sc _ => src.ok && sconceOk sc
  | .sconceReset src sc => src.ok && sconceOk sc
  | .fatalStop _ => true
  | .emberDump _ => true
  | .lostCmd src _ => src.ok
  | .coldBoot _ => true
  | .coldBootReady => true
  | .calCmd src _ => src.ok
  | .calWritten => true
  | .classReq src _ => src.ok
  | .poolCfg src _ => src.ok
  | .opkeyCmd src _ => src.ok
  | .monCmdLock src _ => src.ok
  | .pinUnmask src _ => src.ok
  | .sensorSample sensor _ => sensorOk sensor
  | .sensorFail sensor => sensorOk sensor
  | .help ss _ _ => ss.ok
  | .stat ss => ss.ok
  | .rd ss _ _ => ss.ok
  | .wr ss _ _ => ss.ok
  | .ering ss _ _ => ss.ok
  | .fblob ss => ss.ok
  | .reset ss _ _ => ss.ok
  | .emberList ss => ss.ok
  | .monEmberRead ss _ _ _ => ss.ok
  | .emberErase ss _ => ss.ok
  | .spird ss _ _ => ss.ok
  | .sard ss _ _ => ss.ok
  | .chal ss _ => ss.ok
  | .ans ss _ _ => ss.ok
  | .lock ss => ss.ok
  | .breakReset => true
  | .nonceExpiry ss => ss.ok
  | .sessionTimeout ss => ss.ok
  | .monReq port _ _ _ => decide (port < 2)
  | .powerOn => true
  | .powerOff => true
  | .cycle => true
  | .coldReset => true
  | .i3cComputeReset => true
  | .alertClear _ => true
  | .alertRepeat => true
  | .dynamicAddress _ => true
  | .pwrEnHigh => true
  | .pwrEnLow => true
  | .powerUp => true
  | .minOffTimeEnd => true
  | .sysResetAssert => true
  | .sysResetRelease => true
  | .resetHeld _ => true
  | .coolantFault => true
  | .inputMasked _ => true
  | .feedConnect => true
  | .inputRangeTrip => true
  | .overcurrentTrip => true
  | .saluAdd w _ => wickOk w
  | .saluSub w _ => wickOk w
  | .saluAnd w _ => wickOk w
  | .saluOr w _ => wickOk w
  | .saluXor w _ => wickOk w
  | .andn w _ => wickOk w
  | .saluShl w _ => wickOk w
  | .saluShr w _ => wickOk w
  | .saluSar w _ => wickOk w
  | .ror w _ => wickOk w
  | .clt w _ => wickOk w
  | .cltu w _ => wickOk w
  | .ceq w _ => wickOk w
  | .saluMin w _ => wickOk w
  | .saluMax w _ => wickOk w
  | .minu w _ => wickOk w
  | .maxu w _ => wickOk w
  | .mullo w _ => wickOk w
  | .mulhi w _ => wickOk w
  | .mulhiu w _ => wickOk w
  | .quo w _ => wickOk w
  | .mod w _ => wickOk w
  | .popc w _ => wickOk w
  | .clz w _ => wickOk w
  | .addi w _ => wickOk w
  | .andi w _ => wickOk w
  | .ori w _ => wickOk w
  | .xori w _ => wickOk w
  | .shli w _ => wickOk w
  | .shri w _ => wickOk w
  | .sari w _ => wickOk w
  | .muli w _ => wickOk w
  | .setq w _ => wickOk w
  | .putq w _ => wickOk w
  | .br w _ => wickOk w
  | .call w _ => wickOk w
  | .jind w _ => wickOk w
  | .nop w _ => wickOk w
  | .endProgram w _ => wickOk w
  | .mfs w _ => wickOk w
  | .mts w _ => wickOk w
  | .lds w _ => wickOk w
  | .sts w _ => wickOk w
  | .ldv w _ => wickOk w
  | .stv w _ => wickOk w
  | .ldm w _ => wickOk w
  | .stm w _ => wickOk w
  | .ldmv w _ => wickOk w
  | .stmv w _ => wickOk w
  | .lda w _ => wickOk w
  | .str w _ => wickOk w
  | .stn w _ => wickOk w
  | .amo w _ => wickOk w
  | .vacc w _ => wickOk w
  | .ldsb w _ => wickOk w
  | .stsb w _ => wickOk w
  | .fadd w _ => wickOk w
  | .fsub w _ => wickOk w
  | .fmul w _ => wickOk w
  | .fma w _ => wickOk w
  | .fnma w _ => wickOk w
  | .fmin w _ => wickOk w
  | .fmax w _ => wickOk w
  | .fabs w _ => wickOk w
  | .fneg w _ => wickOk w
  | .iadd w _ => wickOk w
  | .isub w _ => wickOk w
  | .imul w _ => wickOk w
  | .valuAnd w _ => wickOk w
  | .valuOr w _ => wickOk w
  | .valuXor w _ => wickOk w
  | .valuShl w _ => wickOk w
  | .valuShr w _ => wickOk w
  | .valuSar w _ => wickOk w
  | .imin w _ => wickOk w
  | .imax w _ => wickOk w
  | .mov w _ => wickOk w
  | .cvtif w _ => wickOk w
  | .cvtfi w _ => wickOk w
  | .feq w _ => wickOk w
  | .flt w _ => wickOk w
  | .fle w _ => wickOk w
  | .funord w _ => wickOk w
  | .ieq w _ => wickOk w
  | .ilt w _ => wickOk w
  | .iltu w _ => wickOk w
  | .kand w _ => wickOk w
  | .kor w _ => wickOk w
  | .kxor w _ => wickOk w
  | .kandn w _ => wickOk w
  | .kfroms w _ => wickOk w
  | .ktos w _ => wickOk w
  | .kpop w _ => wickOk w
  | .bcst w _ => wickOk w
  | .ext w _ => wickOk w
  | .ins w _ => wickOk w
  | .lane w _ => wickOk w
  | .redsum w _ => wickOk w
  | .redmax w _ => wickOk w
  | .rediadd w _ => wickOk w
  | .exp w _ => wickOk w
  | .rcp w _ => wickOk w
  | .rsq w _ => wickOk w
  | .vcvtWiden w _ => wickOk w
  | .vcvtNarrow w _ => wickOk w
  | .vsbToSb w _ => wickOk w
  | .vsbFromSb w _ => wickOk w
  | .dot w _ => wickOk w
  | .dotsb w _ => wickOk w
  | .azero w _ => wickOk w
  | .aread w _ => wickOk w
  | .awrite w _ => wickOk w
  | .mvt w _ => wickOk w
  | .mvx w _ => wickOk w
  | .moverTransferDone w _ => wickOk w
  | .cwait w _ => wickOk w
  | .cwaitBound w => wickOk w
  | .cread w _ => wickOk w
  | .cadd w _ => wickOk w
  | .semop w _ => wickOk w
  | .wickFence w _ => wickOk w
  | .fenceComplete eng => eng.ok
  | .acquire w _ => wickOk w
  | .mwait w _ => wickOk w
  | .lossOfSignal port ln => portOk port && laneOk ln
  | .linkChange _ => true
  | .perstRelease => true
  | .framingError => true
  | .opkeyStored => true
  | .doeRequest _ => true
end Sys2Proof
end

