-- ==== Sys2Proof/Machine/WickCore.lean ====
section
/-! DEFINITION. A wick's registers, how it issues an instruction, how it goes on and how it stops (08 R220 to R225,
R229, R254, R255). -/
namespace Sys2Proof.Machine

/-! ### Registers (R220) -/

/-- s0 reads as 0. -/
def rdS (k : Wick) (n : Nat) : W64 := if n = 0 then 0 else tget 0 k.sreg n
/-- A write to s0 is discarded. -/
def wrS (k : Wick) (n : Nat) (v : W64) : Wick := if n = 0 then k else { k with sreg := tput k.sreg n v }
def rdV (k : Wick) (n : Nat) : W512 := tget 0 k.vreg n
def wrV (k : Wick) (n : Nat) (v : W512) : Wick := { k with vreg := tput k.vreg n v }
/-- k0 reads as 0xFFFF. -/
def rdK (k : Wick) (n : Nat) : W16 := if n = 0 then 0xFFFF else tget 0 k.kreg n
/-- A write to k0 is discarded. -/
def wrK (k : Wick) (n : Nat) (v : W16) : Wick := if n = 0 then k else { k with kreg := tput k.kreg n v }
def rdAcc (k : Wick) (n : Nat) : BitVec 2048 := tget 0 k.acc n
def wrAcc (k : Wick) (n : Nat) (v : BitVec 2048) : Wick := { k with acc := tput k.acc n v }

/-- Lane `i` of a vector. -/
def laneAt (v : W512) (i : Nat) : Nat := bits v.toNat (32 * i) 32
def lanesOf (v : W512) : List Nat := (List.range 16).map (laneAt v)

/-- The number whose base-2^n digits are the list, lowest first. -/
def packN (n : Nat) : List Nat → Nat
  | [] => 0
  | x :: r => x % 2 ^ n + 2 ^ n * packN n r

def ofLanes (l : List Nat) : W512 := BitVec.ofNat 512 (packN 32 l)

/-- Raises sticky flags. -/
def raise (k : Wick) (f : FFlags) : Wick := { k with flags := k.flags ||| f }

/-! ### Going on and stopping -/

/-- A record of a wick (15 R409): class 0x0020, the sconce as instance, the wick id in INFO. -/
def wickFail (s : State) (w : Nat) (st : Status) (kind : BitVec 3) (addr : Nat) : Fail :=
  let k := s.wick w
  { status := st, island := some (BitVec.ofNat 8 (w / 64)), cls := some (0x0020, BitVec.ofNat 8 (w / 64)),
    kind := kind, addr := addr, ctx := some k.ctx, part := some k.part, info := w }

/-- The wick issues nothing further, and its part of the step ends with the status (R255). -/
def haltWick (s : State) (w : Nat) (st : Status) : State :=
  s.setWick w (fun k => { k with state := .stopped, stop := st, wait := .none })

/-- A stop that the wick itself detects: its record, then the halt. -/
def stopWick (s : State) (w : Nat) (st : Status) (kind : BitVec 3) (addr : Nat) : State :=
  haltWick (logRecord s (pSCN (w / 64)) (wickFail s w st kind addr)) w st

/-- A stop without a data address: the record holds the instruction index. -/
def stopAtPc (s : State) (w : Nat) (st : Status) : State := stopWick s w st 4 (s.wick w).pc

/-- A read of an uncorrectable word of scratch or instruction memory (07 R191). -/
def stopUncorr (s : State) (w : Nat) : State :=
  haltWick (logErr s (pSCN (w / 64)) 2
    { status := stUncorr, kind := 4, addr := (s.wick w).pc, ctx := some (s.wick w).ctx, part := some (s.wick w).part,
      info := w }) w stUncorr

/-- Continues at an instruction index; outside 0 to 4,095 the wick stops with FORMAT_ERROR (R229). -/
def goTo (s : State) (w : Nat) (target : Int) : State :=
  if 0 ≤ target ∧ target < 4096 then s.setWick w (fun k => { k with pc := target.toNat })
  else stopAtPc s w stFormat

/-- Continues at the next instruction. -/
def advance (s : State) (w : Nat) : State := goTo s w ((s.wick w).pc + 1)

/-- Changes a wick's registers and continues at the next instruction. -/
def wickDo (w : Nat) (f : Wick → Wick) (s : State) : State := advance (s.setWick w f) w

/-- One issue cycle and the cycles that hold the next instruction (R256, 07 R192). -/
def issue (s : State) (w : Nat) : State :=
  { s.setWick w (fun k => { k with cycle := k.cycle + 1 + Config.stall s.free }) with free := s.free + 1 }

/-- A running wick that waits for nothing. -/
def canIssue (k : Wick) : Bool := decide (k.state = .running) && decide (k.wait = .none)

/-- A wick reaches an instruction: nothing happens unless the word at its PC is this one and the wick can issue; an
uncorrectable word and a word that the decoder refuses stop it; otherwise the row's own effect `f` runs if the word
holds instruction `op`. -/
def wickRun (op : Op) (w : Nat) (word : W32) (s : State) (f : State → State) : Host.Outcome State Fault Refusal :=
  if wickOk w then
    .next (
      if canIssue (s.wick w) && !frozen s then
        if imemBad s w (s.wick w).pc then stopUncorr s w
        else if imemWord s w (s.wick w).pc = word then
          match decodeOp word with
          | none => stopAtPc s w stFormat
          | some o => if o = op then f (issue s w) else s
        else s
      else s)
  else .fault .noSuchUnit

/-! ### Outputs under a spot check (07 R216) -/

/-- Counts an output of a wick that a spot check follows. -/
def spotOutput (s : State) (w : Nat) : State :=
  match (s.sconce (w / 64)).spot with
  | some sp => if sp.wick = w then
      s.setSconce (w / 64) (fun c => { c with spot := some { sp with outputs := sp.outputs + 1 } })
    else s
  | none => s

end Sys2Proof.Machine
end

