-- ==== Sys2Proof/Machine/Tier.lean ====
section
/-! DEFINITION. The home: its checks, combined groups, the arithmetic at memory, mirrored writes, and completions
(01 R24; 02 R34, R47, R48, R538; 03 R82; 05 R128, R129, R149 to R151; 07 R213; 12 R333 to R337, R353, R354;
14 R391, R403; 15 R428, R432). -/
namespace Sys2Proof.Machine

/-! ### Units and records -/

def islandOf : Target → Byte
  | .sconce n => BitVec.ofNat 8 n
  | .cap g => BitVec.ofNat 8 (0x58 + g)
  | .flash g => BitVec.ofNat 8 (0x60 + g)

/-- The page of the block that serves a target at a home offset (17 R470; a block of the capacity tier is interleaved
in 256 B granules over its group's four channels, 02 R39). -/
def targetPage (t : Target) (off : Nat) : Nat :=
  match t with
  | .sconce n => pSCN n
  | .cap g => pCAP (4 * g + off / 256 % 4)
  | .flash g => pFLC (8 * g)

/-- The fields that a request's record takes from its packet. -/
def packetFail (p : Packet) (st : Status) : Fail :=
  { status := st, kind := if p.xl then 2 else 1, addr := p.addr.toNat, ctx := some p.ctx, part := some p.part,
    agent := some p.src }

/-- Sets an error bit whose failure already has its record (05 R154): the bit, ERR_COUNT, and the capture of the first
error, which has no record of its own to name (17 R477). -/
def setErrOnly (s : State) (p b : Nat) (f : Fail) : State :=
  let first := regGet s (rk p 0x20) = 0
  withVectors p (fun t =>
    let t := bumpSat (t.setReg (rk p 0x20) (regGet t (rk p 0x20) ||| BitVec.ofNat 64 (2 ^ b))) (rk p 0x40) 32 1
    if first then
      (t.setReg (rk p 0x30) (BitVec.ofNat 64
        (f.status.toNat + 2 ^ 8 * b + 2 ^ 14 + 2 ^ 15 + 2 ^ 16 * f.kind.toNat))).setReg
        (rk p 0x38) (if f.kind = 0 then 0 else BitVec.ofNat 64 f.addr)
    else t) s

/-- A host agent as this controller knows it. -/
def isHostAgent (s : State) (a : BitVec 10) : Bool :=
  let h := (regGet s (rk pHOST 0x108)).toNat
  (bit h 16 && decide (a.toNat = bits h 0 10)) || s.work.comps.any (fun c => c.2.state != 0 && c.2.host == a)

/-! ### Form of a request (05 R128, R129; 12 R333, R336) -/

/-- The operation, format and size combinations of R336. -/
def atomicOk (arg : Nat) : Bool :=
  let op := arg % 4
  let size := arg / 4 % 4
  let fmt := arg / 16 % 8
  decide (arg < 128) && decide (size < 3) &&
  (decide (fmt < 2) || (decide (fmt < 5) && size == 0 && op != 3))

/-- ARG of an ACCUMULATE. -/
def accumOk (arg : Nat) : Bool := decide (arg < 32) && decide (arg % 16 < 5) && (decide (arg < 16) || decide (arg % 16 < 3))

/-- Class, length, ARG and reserved fields of a request. -/
def formatOk (p : Packet) : Bool :=
  let a := p.arg.toNat
  let n := p.len.toNat
  !p.rsvd && p.status == 0 &&
  (match p.opc.toNat with
   | 0x0 => p.cls == 0 && n == 0 && decide (64 ≤ a ∧ a ≤ 4096 ∧ a % 64 = 0)
   | 0x1 => p.cls == 0 && decide (2 ≤ n ∧ n ≤ 128 ∧ n % 2 = 0) && a == 0
   | 0x2 => p.cls == 0 && n == 3 && a == 0 && (p.payload.drop 72).all (· == 0)
   | 0x3 => p.cls == 0 && decide (1 ≤ n ∧ n ≤ 8) && accumOk a
   | 0x4 => p.cls == 0 && n == 1 && atomicOk a
   | 0x8 => p.cls == 2 && n == 0 && decide (a < 2) && !p.cen
   | 0xA => p.cls == 2 && n == 2 && a == 0 && !p.cen
   | 0xB => p.cls == 3 && decide (2 ≤ n ∧ n ≤ 8 ∧ n % 2 = 0) && a == 0 && !p.cen
   | _ => false)

/-- Alignment of a request's address (R129). -/
def alignOk (p : Packet) : Bool :=
  let a := p.addr.toNat
  match p.opc.toNat with
  | 0x3 => decide (a % 32 = 0 ∧ a % 256 + packetBytes p ≤ 256)
  | 0x4 => decide (a % packetBytes p = 0)
  | _ => decide (a % 64 = 0)

/-! ### Where a store address lies here (02 R34; 12 R352, R355) -/

/-- The offset in this home's range that serves a store address, or the status with which the request fails. -/
def homeOffset (s : State) (sa : Nat) : Except Status Nat :=
  let off := sa % 2 ^ 50
  if sa / 2 ^ 50 = s.store.homeId.toNat then
    if (guestOf s.store (extentOf off)).isSome then .error stPerm else .ok off
  else
    match (s.store.guest.map (·.2)).find? (fun g => g.getLsbD 38 && g.getLsbD 39 &&
        decide (bits g.toNat 16 6 = sa / 2 ^ 50 ∧ bits g.toNat 22 16 = extentOf off)) with
    | some g => .ok (bits g.toNat 0 16 * 2 ^ 30 + off % 2 ^ 30)
    | none => .error stXlate

/-- Extents that `[off, off + n)` touches. -/
def extentsOf (off n : Nat) : List Nat :=
  (List.range ((off + max n 1 - 1) / 2 ^ 30 - off / 2 ^ 30 + 1)).map (· + off / 2 ^ 30)

/-- The third partition check (R391): unowned or revoking extents answer REVOKED, another partition's PERM_FAULT. -/
def extentStatus (s : State) (off n : Nat) (part : BitVec 6) : Status :=
  firstBad ((extentsOf off n).map (fun x =>
    let e := s.extent x
    if !e.owned || e.revoking then stRevoked
    else if (s.comp e.comp.toNat).part != part then stPerm else 0))

/-- The running compute reset (15 R428): some true on the retraining path. -/
def computeReset (s : State) : Option Bool := (s.lamp.running.find? (fun r => r.level = 4)).map (·.retrain)

def partResetting (s : State) (p : BitVec 6) : Bool := s.work.partReset.contains p

/-! ### Mirrors (12 R352 to R354) -/

/-- The mirror-map entry of a home extent: its index and value. -/
def mirrorOf (s : State) (ext : Nat) : Option (Nat × W64) :=
  s.store.mirror.find? (fun e => e.2.getLsbD 22 && decide (bits e.2.toNat 0 16 = ext))

/-- Block index of an offset in the order of a rebuild (15 R434), if the rebuild names it. -/
def rebuildIndex (r : Rebuild) (sa : Nat) : Option Nat :=
  let x := extentOf (sa % 2 ^ 50)
  if sa / 2 ^ 50 = r.srcHome.toNat ∧ r.extent.toNat ≤ x ∧ x < r.extent.toNat + r.count then
    some (16384 * (x - r.extent.toNat) + sa / 65536 % 16384) else none

/-- The store address of a home offset: of the source home for a guest extent. -/
def saOf (s : State) (off : Nat) : Nat := tweakOf s.store (off / 64) * 64 + off % 64

/-- Who receives the twin of a write at an offset: the partner (none if degraded), and the peer of a rebuild that has
reached the block. -/
def twinPeers (s : State) (off : Nat) : List (BitVec 10) :=
  let m := match mirrorOf s (extentOf off) with
    | some (_, v) => if v.getLsbD 24 then [] else [BitVec.ofNat 10 (bits v.toNat 16 6)]
    | none => []
  let r := match s.store.rebuild with
    | some r => match rebuildIndex r (saOf s off) with
      | some j => if r.send && decide (j < r.copied) then [r.peer] else []
      | none => []
    | none => []
  (m ++ r).dedup

/-- A write to a DEGRADED extent whose ON_LOSS is HALT is not applied. -/
def haltedMirror (s : State) (off : Nat) : Bool :=
  match mirrorOf s (extentOf off) with
  | some (_, v) => v.getLsbD 24 && !v.getLsbD 23
  | none => false

/-! ### Stages 4 to 6 -/

def writesMemory (p : Packet) : Bool := p.opc != 0

/-- A whole-line write, which needs no read of the line. -/
def wholeLine (p : Packet) : Bool :=
  p.opc == 1 || p.opc == 0xB || (p.opc == 2 && (slice p.payload 64 8).all (· == 0xFF))

/-- A line that a directory forfeit marks, by itself or with its block (13 R382). -/
def lineForfeit (s : State) (l : Nat) : Bool := s.dir.forfeits.contains l || (blockGet s (l / 1024)).forfeit

/-- Sconces whose stacked DRAM holds a block. -/
def stackedOf (s : State) (bs : List Nat) : List Nat :=
  bs.filterMap (fun b => match (blockGet s b).loc with
    | .stacked w _ => some (w / 64)
    | _ => none)

/-- Stage 4, the placement lookup (R24): where the request is going can answer. -/
def lookupStatus (s : State) (p : Packet) (off : Nat) : Status :=
  let n := packetBytes p
  let bs := blocksOf off n
  let stacked := stackedOf s bs
  if computeReset s = some true then stReset
  else if s.store.homeLen < off + n then stXlate
  else if (computeReset s).isSome && stacked != [] then stReset
  else if stacked.any (fun c => (s.sconce c).resetting) then stReset
  else if bs.any (fun b => (blockGet s b).lost) then stLost
  else if (linesOf off n).any (fun l => lineForfeit s l && !(p.opc == 1 && !(blockGet s (l / 1024)).forfeit)) then
    stForfeit
  else if writesMemory p && haltedMirror s off then stTargetDead
  else 0

def stackTraining (s : State) (die : Nat) : Training := tget Training.ready s.power.stack die
def capTraining (s : State) (ch : Nat) : Training := tget Training.ready s.power.cap ch

/-- A target whose accesses wait for a retraining (16 R454, R455). -/
def targetHeld (s : State) : Target → Bool
  | .sconce n => (stackTraining s (n / 8)).state == 2
  | .cap g => (List.range 4).any (fun i => (capTraining s (4 * g + i)).state == 2)
  | .flash _ => false

/-- A target that no reset could train (16 R456). -/
def targetLost (s : State) : Target → Bool
  | .sconce n => (stackTraining s (n / 8)).dead
  | .cap g => (List.range 4).any (fun i => (capTraining s (4 * g + i)).dead)
  | .flash _ => false

/-- Targets of the blocks of a request. -/
def targetsOf (s : State) (off n : Nat) : List Target :=
  ((blocksOf off n).map (fun b => targetOf b (blockGet s b).loc)).dedup

/-- Stages 5 and 6: the key engine and the tier. `have_` names lines that need no read of the tier. -/
def tierStatus (s : State) (p : Packet) (off : Nat) (have_ : List Nat) : Status :=
  let n := packetBytes p
  if !keyOk s p.key p.part then stKey
  else if (targetsOf s off n).any (targetLost s) then stUncorr
  else if !wholeLine p && (linesOf off n).any (fun l => lineBad s l && !have_.contains l) then stUncorr
  else 0

/-- The status of stages 4 to 6 for a request at a home offset (R24), OK if it may be applied. -/
def stageStatus (s : State) (p : Packet) (off : Nat) : Status :=
  firstBad [lookupStatus s p off, tierStatus s p off []]

/-- Records the failure of a stage (R16, R154) with the error bit that its rule names. -/
def logStageWith (s : State) (f : Fail) (off : Nat) (t : Target) (st : Status) : State :=
  if st = stKey then logErr s pKEY 1 f
  else if st = stRevoked then logErr s pWORK 2 f
  else if st = stForfeit then bump (logRecord s pDIR f) (rk pDIR 0x190) 32 1
  else if st = stUncorr then logRecord s (targetPage t off) { f with island := some (islandOf t) }
  else logRecord s pXBAR f

def logStage (s : State) (p : Packet) (off : Nat) (t : Target) (st : Status) : State :=
  logStageWith s (packetFail p st) off t st

/-! ### Arithmetic at memory (07 R213; 12 R333, R336) -/

/-- Element size of an ACCUMULATE format. -/
def accSize (f : Nat) : Nat := if f = 0 ∨ f = 3 then 4 else if f = 4 then 8 else 2

/-- The exact or FP32 sum of a group's operands for one element (R151). -/
def groupSum (f : Nat) (xs : List Nat) : FVal :=
  match xs with
  | [] => .fin false 0 0
  | [x] => widenFrom f x
  | x :: r => f32 (r.foldl (fun a y => (f32Add a (f32Code (widenFrom f y))).1) (f32Code (widenFrom f x)))

/-- One element of an accumulate: memory element, operands, rounding. -/
def accElem (f : Nat) (r : Rnd) (m : Nat) (xs : List Nat) : Nat :=
  if f < 3 then (narrowTo f r false (fadd (widenFrom f m) (groupSum f xs))).1
  else (m + xs.sum) % 2 ^ (8 * accSize f)

/-- A whole accumulate group: the new bytes and the generator after it. -/
def accApply (arg : Nat) (g : W32) (mem : List Byte) (ops : List (List Byte)) : List Byte × W32 :=
  let f := arg % 16
  let n := accSize f
  (List.range (mem.length / n)).foldl (fun (acc : List Byte × W32) i =>
    let (r, g) := genRnd (bit arg 4) acc.2
    let e := accElem f r (leNat (slice mem (n * i) n)) (ops.map (fun o => leNat (slice o (n * i) n)))
    (acc.1 ++ leBytes n e, g)) ([], g)

/-- A pair of 2 B halves through a function. -/
def halves (f : Nat → Nat → Nat) (a b : Nat) : Nat :=
  f (a % 65536) (b % 65536) + 65536 * f (a / 65536 % 65536) (b / 65536 % 65536)

/-- The element format (02 R60) of a floating atomic's format. -/
def atomFmt (fmt : Nat) : Nat := fmt - 2

/-- The code of a value in a floating format, its overflow to an infinity. -/
def fcode (fmt : Nat) (v : FVal) : Nat := (narrowTo fmt .rne false v).1

/-- One atomic (R336): the new value from the old one, the operand and the swap value. -/
def atomicNew (arg old x swap : Nat) : Nat :=
  let op := arg % 4
  let w := 32 * 2 ^ (arg / 4 % 4)
  let fmt := arg / 16 % 8
  let f2 (g : FVal → FVal → FVal) (a b : Nat) : Nat :=
    let h := atomFmt fmt
    let one (a b : Nat) : Nat := fcode h (g (widenFrom h a) (widenFrom h b))
    if fmt = 2 then one a b else halves one a b
  match op with
  | 0 => if fmt < 2 then (old + x) % 2 ^ w else f2 fadd old x
  | 1 => if fmt = 0 then min old x else if fmt = 1 then (if sval w x < sval w old then x else old) else f2 fmin old x
  | 2 => if fmt = 0 then max old x else if fmt = 1 then (if sval w old < sval w x then x else old) else f2 fmax old x
  | _ => if old = x then swap else old

/-- The floating ADD of a combined group: the FP32 sums of the operands before each member and of all (R151). -/
def fpPrefix (h : Nat) (xs : List Nat) : List Nat :=
  (xs.foldl (fun (acc : List Nat × Nat) x =>
    let t := (f32Add acc.2 (f32Code (widenFrom h x))).1
    (acc.1 ++ [t], t)) ([0], 0)).1

/-- What each member of an atomic group receives, and the value left (R151). -/
def atomicGroup (arg old : Nat) (xs : List (Nat × Nat)) : List Nat × Nat :=
  let fmt := arg / 16 % 8
  let ops := xs.map (·.1)
  if arg % 4 = 0 ∧ 2 ≤ fmt ∧ 1 < xs.length then
    let h := atomFmt fmt
    let one (v : Nat) (ps : List Nat) : List Nat :=
      v :: (ps.tail.map (fun t => fcode h (fadd (widenFrom h v) (f32 t))))
    let vals := if fmt = 2 then one old (fpPrefix h ops)
      else List.zipWith (fun a b => a + 65536 * b)
        (one (old % 65536) (fpPrefix h (ops.map (· % 65536))))
        (one (old / 65536) (fpPrefix h (ops.map (· / 65536))))
    (vals.take xs.length, vals.getD xs.length old)
  else
    xs.foldl (fun (acc : List Nat × Nat) x => (acc.1 ++ [acc.2], atomicNew arg acc.2 x.1 x.2)) ([], old)

/-! ### The tier's data -/

/-- Key of an accumulate path's generator (07 R208). -/
def genKey : Target → Nat
  | .sconce n => 64 + n
  | .cap g => 128 + g
  | .flash g => 136 + g
def genGet (s : State) (k : Nat) : W32 := tget 1 s.work.engGen k
def genSet (s : State) (k : Nat) (g : W32) : State := s.setWork (fun w => { w with engGen := tput w.engGen k g })

/-- A line's forfeit entry clears when a WRITE replaces the whole line (13 R382). -/
def clearForfeits (s : State) (ls : List Nat) : State :=
  if s.dir.forfeits.any ls.contains then
    s.setDir (fun d => { d with forfeits := d.forfeits.filter (fun l => !ls.contains l) }) else s

/-- The mask of a WRITE_MASKED as booleans. -/
def maskOf (p : Packet) : List Bool :=
  let m := leNat (slice p.payload 64 8)
  (List.range 64).map (fun i => bit m i)

/-- Applies a group of one kind at a home offset: what each member receives, and the state after it. -/
def applyData (s : State) (t : Target) (ps : List Packet) (off : Nat) : List (List Byte) × State :=
  match ps with
  | [] => ([], s)
  | p :: _ =>
    let n := packetBytes p
    match p.opc.toNat with
    | 0x0 => (ps.map (fun _ => homeBytes s p.key off n), s)
    | 0x1 => (ps.map (fun _ => []), clearForfeits (homeWrite s p.key off p.payload) (linesOf off n))
    | 0x2 => (ps.map (fun _ => []), lineMerge s p.key (off / 64) p.payload (maskOf p))
    | 0x3 =>
      let (new, g) := accApply p.arg.toNat (genGet s (genKey t)) (homeBytes s p.key off n) (ps.map (·.payload))
      let s := homeWrite s p.key off new
      (ps.map (fun _ => []), if bit p.arg.toNat 4 then genSet s (genKey t) g else s)
    | _ =>
      let old := leNat (homeBytes s p.key off n)
      let (rs, new) := atomicGroup p.arg.toNat old (ps.map (fun q =>
        (leNat (slice q.payload 0 n), leNat (slice q.payload 16 n))))
      (rs.map (leBytes n), homeWrite s p.key off (leBytes n new))

/-! ### Completions -/

/-- A packet that this controller sent, naming a counter of a group member, ends badly (12 R348). -/
def noteFault (s : State) (dst : BitVec 10) (part : BitVec 6) (k : Nat) (st : Status) : State :=
  if st = 0 then s
  else
    let gs := s.sync.groups.filter (fun g => !g.aborted && g.part == part && g.owns dst k)
    if gs = [] then s
    else s.setSync (fun y => { y with detected := y.detected ++ gs.map (fun g => (g.part, g.gid, st)) })

/-- MSTAT takes the first failure, then MORE (08 R236). -/
def noteMstat (k : Wick) (st : Status) : Wick :=
  if k.mstat.toNat % 256 = 0 then { k with mstat := k.mstat &&& 0x100 ||| st.setWidth 9 }
  else { k with mstat := k.mstat ||| 0x100 }

/-- The first failure of a wick's packets in order of issue (05 R157). -/
def noteFence (s : State) (w ord : Nat) (st : Status) : State :=
  match tfind s.xbar.fenceBad w with
  | some (o, _) => if ord < o then s.setXbar (fun x => { x with fenceBad := tput x.fenceBad w (ord, st) }) else s
  | none => s.setXbar (fun x => { x with fenceBad := tput x.fenceBad w (ord, st) })

/-- A line that a load read enters the read buffer of 32 lines (06 R165); the oldest leaves (log entry 21). -/
def bufInsert (k : Wick) (line : Nat) (v : W512) : Wick :=
  let rest := k.buf.filter (fun e => e.1 ≠ line)
  { k with buf := (rest ++ [(line, v)]).drop (rest.length + 1 - 32) }

/-- A loaded value extended to 64 bits (08 R231). -/
def extendLoad (size : Nat) (sext : Bool) (v : Nat) : W64 :=
  if sext then BitVec.ofInt 64 (sval (8 * size) v) else BitVec.ofNat 64 v

/-- A wick's response arrives: its registers change and it goes on. -/
def wickGot (s : State) (w : Nat) (f : Wick → Wick) : State :=
  if (s.wick w).wait = .response then advance (s.setWick w (fun k => f { k with wait := .none })) w else s

/-- A wick's request failed: it stops with the status. -/
def wickFailed (s : State) (w : Nat) (st : Status) : State :=
  if (s.wick w).wait = .response then haltWick s w st else s

/-- One more packet of a transfer has completed. -/
def noteXfer (s : State) (id : Nat) (st : Status) : State :=
  s.setWork (fun k => { k with xfers := k.xfers.map (fun x =>
    if x.id = id then { x with open_ := x.open_ - 1, bad := if x.bad = 0 then st else x.bad } else x) })

/-- The record of a failure that the ingress completes to an accelerator or a host, unless it has one here. -/
def ingressRecord (s : State) (p : Packet) (st : Status) (recorded : Bool) : State :=
  if st = 0 ∨ recorded then s else logRecord s pXBAR (packetFail p st)

/-- A piece of an ingress request that crosses pages has completed. -/
def joinDone (s : State) (j i : Nat) (st : Status) (data : List Byte) (recorded : Bool) : State :=
  match s.xbar.joins.find? (fun e => e.id = j) with
  | none => s
  | some e =>
    let e := { e with got := e.got ++ [(i, data)], open_ := e.open_ - 1, bad := if e.bad = 0 then st else e.bad,
                      recorded := e.recorded || recorded }
    let rest := s.xbar.joins.filter (fun f => f.id ≠ j)
    if e.open_ = 0 then
      let s := s.setXbar (fun x => { x with joins := rest })
      let data := ((List.range e.got.length).map (fun n => tget [] e.got n)).flatten
      finishPeer s e.whole e.bad (if e.bad = 0 then data else [])
    else s.setXbar (fun x => { x with joins := rest ++ [e] })

/-- A host write that is not applied (13 R367): WRITE_FAILED, vector 0, WRITE_DROP. -/
def hostWriteFails (s : State) (f : Fail) (recorded : Bool) : State :=
  let rose := !errSummary s pHOST
  let s := if recorded then setErrOnly s pHOST 0 f else logErr s pHOST 0 f
  let s := if rose && errSummary s pHOST then s else emit s (.msix 0 0)
  bump s (rk pHOST 0x148) 32 1

/-- Tells the source of a request that it has completed. `recorded` says that this controller has written the
failure's record. -/
def deliver (s : State) (o : Origin) (p : Packet) (st : Status) (data : List Byte) (recorded : Bool) : State :=
  match o with
  | .peer q => finishPeer s q st data
  | .ingress q => finishPeer (ingressRecord s p st recorded) q st data
  | .part j i => joinDone (ingressRecord s p st recorded) j i st data true
  | .hostRead a =>
    if st = 0 then emit s (.memData a data false)
    else emit (bump (ingressRecord s p st recorded) (rk pHOST 0x140) 32 1) (.memData a (ones 64) true)
  | .hostWrite a => emit (if st = 0 then s else hostWriteFails s (packetFail p st) recorded) (.memCmp a)
  | .forwardRead len skip =>
    if st = 0 then emit s (.barData (slice data skip len)) else emit (ingressRecord s p st recorded) .barCA
  | .forwardWrite => ingressRecord s p st recorded
  | .wickLoad w d size off sext acquire =>
    if st = 0 then
      wickGot s w (fun k =>
        let k := wrS k d (extendLoad size sext (leNat (slice data off size)))
        if acquire then { k with buf := [] } else bufInsert k (p.addr.toNat / 64) (lineOf data))
    else wickFailed s w st
  | .wickVLoad w d =>
    if st = 0 then wickGot s w (fun k => bufInsert (wrV k d (lineOf data)) (p.addr.toNat / 64) (lineOf data))
    else wickFailed s w st
  | .wickAmo w d size =>
    if st = 0 then wickGot s w (fun k =>
      { wrS k d (BitVec.ofNat 64 (leNat (slice data 0 size))) with buf := k.buf.filter (·.1 ≠ p.addr.toNat / 64) })
    else wickFailed s w st
  | .wickPosted w ord stop =>
    if st = 0 then s
    else
      let s := noteFence s w ord st
      if stop then (if (s.wick w).state = .running then haltWick s w st else s)
      else s.setWick w (fun k => noteMstat k st)
  | .transfer id => noteXfer s id st
  | .queueFence _ _ => s
  | _ => s

/-! ### Completing a home request -/

/-- Bytes or packets that a request adds to its counter (06 R171). -/
def countOf (p : Packet) : Nat := if p.cunit then 1 else if p.opc = 0 then 0 else packetBytes p

def noteInflight (s : State) (off : Nat) (up : Bool) : State :=
  s.setExtent (extentOf off) (fun e => { e with inflight := if up then e.inflight + 1 else e.inflight - 1 })

/-- A request of this home has been applied, its twins included: its count, then its completion. -/
def completeHome (s : State) (r : Req) (off : Nat) (data : List Byte) : State :=
  let s := if r.pkt.cen then hubAdd s r.pkt.counter.toNat (BitVec.ofNat 64 (countOf r.pkt)) else s
  deliver (noteInflight s off false) r.origin r.pkt 0 data false

/-- A request of this home has failed at a stage after it was accepted, or with its twin. -/
def failHome (s : State) (r : Req) (off : Nat) (st : Status) : State :=
  let s := noteFault (noteInflight s off false) r.pkt.dst r.pkt.part r.pkt.counter.toNat
    (if r.pkt.cen && r.pkt.src == s.xbar.agentId then st else 0)
  deliver s r.origin r.pkt st [] true

/-- A TWIN_WRITE of up to 256 B of stored lines (R353). -/
def twinPacket (s : State) (p : Packet) (peer : BitVec 10) (line n : Nat) : Packet :=
  { opc := 0xB, cls := 3, dl := false, dst := peer, src := s.xbar.agentId, part := p.part, epoch := 0,
    len := BitVec.ofNat 8 (2 * n), ekind := 0, eidx := 0, seq := 0, ctx := p.ctx, status := 0, xl := true,
    nocomb := false, jc := false, addr := BitVec.ofNat 57 (64 * tweakOf s.store line), coh := false, mir := false,
    key := 0, cen := false, cunit := false, counter := 0, arg := 0, rsvd := false,
    payload := cellRead s.store.cells (64 * line) (64 * n) }

/-- Runs of up to four lines inside one 256 B unit: first line and count. -/
def lineRuns (ls : List Nat) : List (Nat × Nat) :=
  ls.foldl (fun acc l => match acc.getLast? with
    | some (a, n) => if l = a + n ∧ l % 4 ≠ 0 then acc.dropLast ++ [(a, n + 1)] else acc ++ [(l, 1)]
    | none => [(l, 1)]) []

/-- Completes the members of an applied group, holding them for their twins where the lines are mirrored. -/
def completeGroup (s : State) (rs : List (Req × List Byte)) (off : Nat) : State :=
  match rs with
  | [] => s
  | (r, _) :: _ =>
    let peers := if writesMemory r.pkt then twinPeers s off else []
    let s := match (if writesMemory r.pkt then mirrorOf s (extentOf off) else none) with
      | some (_, v) => if v.getLsbD 24 then logEvt s pPLC 2 else s
      | none => s
    if peers = [] then rs.foldl (fun s e => completeHome s e.1 off e.2) s
    else
      let id := s.store.nextTwin
      let runs := lineRuns (linesOf off (packetBytes r.pkt))
      let s := s.setStore (fun st => { st with nextTwin := id + 1, twins := st.twins ++
        [{ id := id, reqs := rs, open_ := runs.length * peers.length, bad := 0 }] })
      peers.foldl (fun s a => runs.foldl (fun s e =>
        bump (sendNew s (twinPacket s r.pkt a e.1 e.2) (.twin id)) (rk pPLC 0x220) 48 1) s) s

/-- A TWIN_WRITE has completed: with TARGET_DEAD or PATH_LOST the partner's entry becomes DEGRADED, or the rebuild
toward it stops; the held members complete with the last twin (R353, R354; 15 R437). -/
def twinDone (s : State) (id : Nat) (p : Packet) (st : Status) : State :=
  match s.store.twins.find? (fun t => t.id = id) with
  | none => s
  | some t =>
    let dead := st == stTargetDead || st == stPathLost
    let toRebuild := match s.store.rebuild with
      | some r => r.send && r.peer == p.dst && (match mirrorOf s (extentOf (p.addr.toNat % 2 ^ 50)) with
          | some (_, v) => v.getLsbD 24 || BitVec.ofNat 10 (bits v.toNat 16 6) != p.dst
          | none => true)
      | none => false
    let s := if dead && toRebuild then
        s.setStore (fun z => { z with rebuild := z.rebuild.map (fun r =>
          { r with bad := if r.bad = 0 then st else r.bad, badLine := p.addr.toNat / 64 % 2 ^ 44 }) })
      else if dead then
        match mirrorOf s (extentOf (p.addr.toNat % 2 ^ 50)) with
        | some (i, v) => logErr (s.setStore (fun z => { z with mirror := tput z.mirror i (v ||| 0x1000000) })) pPLC 4
            (packetFail p st)
        | none => s
      else s
    let t := { t with open_ := t.open_ - 1, bad := if t.bad == 0 && !toRebuild then st else t.bad }
    let rest := s.store.twins.filter (fun u => u.id ≠ id)
    if t.open_ = 0 then
      let s := s.setStore (fun z => { z with twins := rest })
      t.reqs.foldl (fun s e =>
        let off := (match homeOffset s e.1.pkt.addr.toNat with | .ok o => o | .error _ => 0)
        if t.bad = 0 then completeHome s e.1 off e.2 else failHome s e.1 off t.bad) s
    else s.setStore (fun z => { z with twins := rest ++ [t] })

end Sys2Proof.Machine
end

