-- ==== Sys2Proof/Machine/Directory.lean ====
section
/-! DEFINITION. The coherence directory of the home: windows, classes of request, entries with their ways, snoops and
their answers, transactions, the line buffer, forfeits, sweeps and deposits (13 R369 to R382). -/
namespace Sys2Proof.Machine

/-! ### Windows and classes (R369) -/

/-- The coherent window of a line of the home. -/
def cohWindowOf (s : State) (l : Nat) : Option CohWin :=
  (s.dir.windows.map (·.2)).find? (fun w =>
    w.valid && decide (w.first.toNat ≤ l / 2 ^ 24 ∧ l / 2 ^ 24 < w.first.toNat + w.count.toNat))

def canCache (w : CohWin) (a : BitVec 10) : Bool := w.cache.getLsbD a.toNat

/-- The class of a coherent request: an uncached read, a cached read, or a write with its writer's intent. -/
inductive CohClass where
  | ur | crS | crA
  | w (intent : Nat)
deriving DecidableEq, Repr

/-- The agent that a request comes from (13 R366); none for this controller's engines. -/
def requester (p : Packet) : Option (BitVec 10) := if p.ekind = 0 then some (p.eidx.setWidth 10) else none

/-- The intent of a request: ENGINE[61:60] of an agent's packet. -/
def intentOf (p : Packet) : Nat := if p.ekind = 0 then bits p.eidx.toNat 10 2 else 0

def classify (win : CohWin) (p : Packet) : CohClass :=
  let i := intentOf p
  if p.opc ≠ 0 then .w i
  else match requester p with
    | none => .ur
    | some a =>
      if i = 0 ∨ ¬ canCache win a then .ur
      else if win.rw.getLsbD a.toNat ∧ 2 ≤ i then .crA
      else .crS

/-! ### Entries (R370, R374, R375) -/

def dirEntry (s : State) (l : Nat) : DirEntry := tget DirEntry.invalid s.dir.entries l
def hasEntry (s : State) (l : Nat) : Bool := (tfind s.dir.entries l).isSome
def setEntry (s : State) (l : Nat) (f : DirEntry → DirEntry) : State :=
  s.setDir (fun d => { d with entries := tmod DirEntry.invalid d.entries l f })

/-- Leaves an entry in a state, or without an entry in I; a way reserved for a BUSY line stays. -/
def putEntry (s : State) (l : Nat) (e : DirEntry) : State :=
  s.setDir (fun d => { d with entries := if e.state = 0 ∧ ¬ e.busy then tdel d.entries l else tput d.entries l e })

/-- The set of a line: SA[25:6] xor SA[45:26]. -/
def dirSet (l : Nat) : Nat := (l % 2 ^ 20) ^^^ (l / 2 ^ 20 % 2 ^ 20)

/-- A way for a line that has none: a free one, or the first in the set's round-robin order that is neither BUSY nor
in O, with the line that it holds; none when every way is BUSY or in O. -/
def wayFor (s : State) (l : Nat) : Option (Option Nat × Nat) :=
  let here := s.dir.entries.filter (fun e => dirSet e.1 = dirSet l)
  match (List.range 16).find? (fun w => here.all (fun e => e.2.way ≠ w)) with
  | some w => some (none, w)
  | none =>
    let r := tget 0 s.dir.rr (dirSet l)
    ((List.range 16).map (fun i => (r + i) % 16)).findSome? (fun w =>
      (here.find? (fun e => e.2.way = w ∧ e.2.busy = false ∧ e.2.state ≠ 3)).map (fun e => (some e.1, w)))

/-- Adds a sharer; the fifth pointer sets BCAST and keeps only the owner in O. -/
def addSharer (e : DirEntry) (a : BitVec 10) : DirEntry :=
  if e.bcast || e.ptrs.contains a then e
  else if e.ptrs.length < 4 then { e with ptrs := e.ptrs ++ [a] }
  else { e with bcast := true, ptrs := if e.state = 3 then e.ptrs.take 1 else [] }

/-- The agents of a window that may cache lines. -/
def cachers (w : CohWin) : List (BitVec 10) :=
  ((List.range 1024).filter (fun a => w.cache.getLsbD a)).map (BitVec.ofNat 10)

/-- Whom an INVALIDATE of a line in S or O reaches, one agent excepted. -/
def sharersOf (win : Option CohWin) (e : DirEntry) (but : Option (BitVec 10)) : List (BitVec 10) :=
  (if e.bcast then (win.map cachers).getD [] else e.ptrs).filter (fun a => some a ≠ but)

/-! ### Forfeits (R382) -/

/-- A line is forfeited: listed, or its block marked when the list is full. -/
def forfeitLine (s : State) (l : Nat) (agent : BitVec 10) : State :=
  let s := logErr s pDIR 1 { status := stForfeit, kind := 2, addr := 64 * tweakOf s.store l, agent := some agent }
  if s.dir.forfeits.contains l then s
  else if s.dir.forfeits.length < 65536 then s.setDir (fun d => { d with forfeits := setInsert d.forfeits l })
  else logEvt (blockSet s (l / 1024) (fun b => { b with forfeit := true })) pDIR 1

/-! ### Dirty data -/

/-- The twins of lines that the directory writes back, for which nobody waits. -/
def twinLines (s : State) (p : Packet) (l : Nat) : State :=
  let peers := twinPeers s (64 * l)
  if peers = [] then s
  else
    let id := s.store.nextTwin
    let s := s.setStore (fun st => { st with nextTwin := id + 1, twins := st.twins ++
      [{ id := id, reqs := [], open_ := peers.length, bad := 0 }] })
    peers.foldl (fun s a => bump (sendNew s (twinPacket s p a l 1) (.twin id)) (rk pPLC 0x220) 48 1) s

/-- A SNOOP or DEPOSIT of this home about one line. -/
def dirPacket (s : State) (opc : Nat) (agent : BitVec 10) (part : BitVec 6) (l : Nat) (arg : W32) (d : List Byte) :
    Packet :=
  { opc := BitVec.ofNat 4 opc, cls := 2, dl := false, dst := agent, src := s.xbar.agentId, part := part, epoch := 0,
    len := BitVec.ofNat 8 (d.length / 32), ekind := 0, eidx := 0, seq := 0, ctx := 0, status := 0, xl := true,
    nocomb := false, jc := false, addr := BitVec.ofNat 57 (64 * tweakOf s.store l), coh := false, mir := false,
    key := 0, cen := false, cunit := false, counter := 0, arg := arg, rsvd := false, payload := d }

/-- Dirty data is applied at the tier under the key slot of the entry. A LOST block keeps its data and the failure is
recorded. -/
def dirtyWrite (s : State) (l : Nat) (v : W512) : State :=
  let e := dirEntry s l
  let b := l / 1024
  let p := dirPacket s 1 s.xbar.agentId e.part l 0 []
  if (blockGet s b).lost then logRecord s pDIR (packetFail p stLost)
  else
    let s := (promoteNow s b).getD s
    twinLines (staleShadow (lineWrite (countAccess s b) e.key l v) b) p l

/-! ### Snoops toward hosts (R376, R380) -/

abbrev bisnpMax : Nat := 1024

/-- The line of this home that a snoop of its own names. -/
def homeLine (s : State) (p : Packet) : Nat := match homeOffset s p.addr.toNat with | .ok o => o / 64 | .error _ => 0

/-- A snoop toward this controller's own host: it becomes a BISnp, or is answered at once when the host is dead. The
answer goes to the directory here or to the home that asked. -/
def hostSnoop (s : State) (p : Packet) : State :=
  let line := p.addr.toNat / 64
  if s.host.dead then
    if p.src = s.xbar.agentId then
      s.setDir (fun d => { d with answers := d.answers ++ [(homeLine s p, p.dst, stTargetDead, [])] })
    else logRecord (answer s p stTargetDead []) pHOST (packetFail p stTargetDead)
  else
    let inv := p.arg.toNat % 2 = 0
    let s' := s.setHost (fun h => { h with bisnp := h.bisnp ++ [(line, decide inv, p)] })
    if s.host.bisnp.length < bisnpMax then emit s' (.bisnp inv line) else s'

/-- Sends one snoop of this home about a line. -/
def sendSnoop (s : State) (l : Nat) (agent : BitVec 10) (inv : Bool) (part : BitVec 6) : State :=
  let p := dirPacket s 8 agent part l (if inv then 0 else 1) []
  let s := bump s (rk pDIR 0x168) 32 1
  if isLocal s agent then hostSnoop s p else sendNew s p (.snoop l agent)

/-! ### Transactions (R372) -/

/-- What a line asks for: to wait, or its snoops (INVALIDATE or RECALL_SHARED), and whether they are a broadcast. -/
inductive LineNeed where
  | wait
  | go (inv : Bool) (dests : List (BitVec 10)) (bcast : Bool)
deriving DecidableEq, Repr

def lineNeed (win : Option CohWin) (e : DirEntry) (c : CohClass) (r : Option (BitVec 10)) : LineNeed :=
  let reads := c = .ur ∨ c = .crS
  match e.state.toNat with
  | 1 => if reads then .go true [] false else .go true (sharersOf win e r) e.bcast
  | 2 => if r.isSome ∧ e.ptrs.head? = r then .go true [] false
         else if reads then .go false e.ptrs false else .go true e.ptrs false
  | 3 => if reads then .go true [] false else .wait
  | _ => .go true [] false

/-- An entry with one holder. -/
def heldBy1 (e : DirEntry) (st : BitVec 3) (a : BitVec 10) : DirEntry :=
  { e with state := st, bcast := false, ptrs := [a] }

def entryI (e : DirEntry) : DirEntry := { e with state := 0, bcast := false, ptrs := [] }

/-- "By the writer's intent". -/
def byIntent (e : DirEntry) (win : Option CohWin) (i : Nat) (r : Option (BitVec 10)) : DirEntry :=
  match r with
  | some a =>
    if i = 1 ∧ (win.map (canCache · a)).getD false then heldBy1 e 1 a
    else if i = 2 ∧ (win.map (canCache · a)).getD false then heldBy1 e 2 a
    else entryI e
  | none => entryI e

/-- A line's next state from I or from its own owner. -/
def freshNext (e : DirEntry) (win : Option CohWin) (c : CohClass) (r : Option (BitVec 10)) : DirEntry :=
  match c, r with
  | .crS, some a => heldBy1 e 1 a
  | .crA, some a => heldBy1 e 2 a
  | .w i, _ => byIntent e win i r
  | _, _ => entryI e

/-- The next state of a line whose transaction succeeds: `buf` says that its dirty data waits in the line buffer,
`lost` that its owner failed. -/
def nextEntry (e : DirEntry) (win : Option CohWin) (c : CohClass) (r : Option (BitVec 10)) (buf lost : Bool) :
    DirEntry :=
  let plus (e : DirEntry) : DirEntry := if c = .crS then (r.map (addSharer e)).getD e else e
  let reads := c = .ur ∨ c = .crS
  if lost then entryI e
  else match e.state.toNat with
  | 1 => if reads then plus e else freshNext e win c r
  | 2 => if r.isSome ∧ e.ptrs.head? = r then freshNext e win c r
         else if reads then plus { e with state := if buf then 3 else 1, bcast := false } else freshNext e win c r
  | 3 => if reads then plus e else e
  | _ => freshNext e win c r

/-- The next state of a line whose request ends without effect: the snoops have happened, the requester gains
nothing. -/
def failedEntry (e : DirEntry) (c : CohClass) (r : Option (BitVec 10)) (buf lost : Bool) : DirEntry :=
  let reads := c = .ur ∨ c = .crS
  if lost then entryI e
  else match e.state.toNat with
  | 1 => if reads then e
         else match r with
           | some a => if e.ptrs.contains a || e.bcast then heldBy1 e 1 a else entryI e
           | none => entryI e
  | 2 => if r.isSome ∧ e.ptrs.head? = r then e
         else if reads then { e with state := if buf then 3 else 1, bcast := false } else entryI e
  | 3 => e
  | _ => entryI e

def addTxn (s : State) (t : DirTxn) : State := s.setDir (fun d => { d with txns := d.txns ++ [t] })

/-- A line in a transaction, or named by a request that waits before this one. -/
def lineBusy (s : State) (l : Nat) : Bool :=
  s.dir.txns.any (fun t => t.lines.contains l || t.alloc.any (fun a => a.2.1 == some l)) ||
  s.dir.waiting.any (fun w => (linesOf w.2 (packetBytes w.1.pkt)).contains l)

def markBusy (s : State) (l : Nat) (b : Bool) : State :=
  if hasEntry s l then setEntry s l (fun e => { e with busy := b }) else s

/-- Reserves a way, and sends the INVALIDATEs of the line that leaves it: who must answer. -/
def takeWay (s : State) (a : Nat × Option Nat × Nat) : List (Nat × BitVec 10) × State :=
  match a.2.1 with
  | none => ([], putEntry s a.1 { DirEntry.invalid with busy := true, way := a.2.2 })
  | some v =>
    let e := dirEntry s v
    let dests := sharersOf (cohWindowOf s v) e none
    let s := markBusy (s.setDir (fun d => { d with rr := tput d.rr (dirSet v) ((a.2.2 + 1) % 16) })) v true
    let s := if dests = [] then s else bump s (rk pDIR 0x178) 32 1
    let s := if e.bcast then bump s (rk pDIR 0x170) 32 1 else s
    (dests.map (fun x => (v, x)), dests.foldl (fun s x => sendSnoop s v x true e.part) s)

/-- The deposit rule of a line (R378): its target. -/
def depositRule (s : State) (l : Nat) : Option (BitVec 10) :=
  (List.range 64).findSome? (fun i =>
    let b := (tget 0 s.dir.depBase i).toNat
    let n := bits (tget 0 s.dir.depLen i).toNat 16 34 * 65536
    let lo := bits b 16 34 * 65536
    if bit b 63 ∧ lo ≤ 64 * l ∧ 64 * l < lo + n then some (BitVec.ofNat 10 (bits (tget 0 s.dir.depTarget i).toNat 0 10))
    else none)

/-- After a write by an engine of this controller: the hint of a line that is now in I. -/
def depositHint (s : State) (p : Packet) (l : Nat) : State :=
  if p.src ≠ s.xbar.agentId ∨ p.ekind = 0 ∨ hasEntry s l then s
  else match depositRule s l, cohWindowOf s l with
    | some a, some win =>
      if !canCache win a then s
      else if isHostAgent s a then bump s (rk pDIR 0x188) 32 1
      else match wayFor s l with
        | none => s
        | some (v, w) =>
          let (wait, s) := takeWay s (l, v, w)
          let q := dirPacket s 0xA a p.part l 0 (bytesOf (lineRead s p.key l))
          let id := s.dir.nextTxn
          let s := addTxn (s.setDir (fun d => { d with nextTxn := id + 1 }))
            { id := id, req := none, lines := [l], waitFor := (l, a) :: wait, dirty := [], lost := [],
              alloc := [(l, v, w)], sweep := none, deposit := some a, took := false }
          sendNew (setEntry s l (fun e => { e with key := p.key, part := p.part })) q (.deposit l a)
    | _, _ => s

/-- What a read returns: the line buffer's data where a line has some. -/
def cohRead (s : State) (p : Packet) (off : Nat) : List Byte :=
  ((linesOf off (packetBytes p)).map (fun l =>
    match s.dir.lineBuf.find? (·.1 = l) with
    | some (_, v) => bytesOf v
    | none => bytesOf (lineRead s p.key l))).flatten

/-- A running sweep acts on an entry whose transaction has ended, or that it walks (R381). -/
def sweepEntry (s : State) (a : BitVec 10) (remove : Bool) (l : Nat) : State :=
  let e := dirEntry s l
  let named := e.ptrs.contains a
  if e.busy || !hasEntry s l then s
  else if remove then
    if named || e.bcast then
      let id := s.dir.nextTxn
      let s := addTxn (s.setDir (fun d => { d with nextTxn := id + 1 }))
        { id := id, req := none, lines := [l], waitFor := [(l, a)], dirty := [], lost := [], alloc := [],
          sweep := some a, deposit := none, took := false }
      sendSnoop (markBusy s l true) l a true e.part
    else s
  else if e.state = 2 then
    if named then forfeitLine (putEntry s l (entryI e)) l a else s
  else if named then
    let e' := { e with ptrs := e.ptrs.filter (· ≠ a) }
    putEntry s l (if e'.ptrs = [] ∧ ¬ e'.bcast ∧ e'.state = 1 then entryI e' else e')
  else s

/-- A running sweep acts on the lines of a transaction that has ended. -/
def sweepAfter (s : State) (ls : List Nat) (own : Bool) : State :=
  match s.dir.sweep with
  | some w => if own then s else ls.foldl (fun s l => sweepEntry s w.agent w.remove l) s
  | none => s

/-- The tier access of a request whose snoops are answered, and the next state of its lines. -/
def finishReq (s : State) (t : DirTxn) (r : Req) (off : Nat) : State :=
  let p := r.pkt
  let rq := requester p
  let win := fun l => cohWindowOf s l
  let cls := fun l => classify ((win l).getD CohWin.off) p
  let reads := p.opc = 0
  -- dirty data goes to the line buffer while it has room, else to the tier first (R373)
  let s := t.dirty.foldl (fun s d =>
    if t.lines.contains d.1 then
      if reads ∧ cls d.1 ≠ .crA ∧ s.dir.lineBuf.length < 4096 then
        s.setDir (fun x => { x with lineBuf := x.lineBuf ++ [d] })
      else dirtyWrite s d.1 d.2
    else s) s
  let buffered := fun l => s.dir.lineBuf.any (·.1 = l)
  let lost := fun l => t.lost.contains l
  let st := if t.lines.any lost then stForfeit else tierStatus s p off (s.dir.lineBuf.map (·.1))
  let settleLine (ok : Bool) (s : State) (l : Nat) : State :=
    let e := dirEntry s l
    let e' := if ok then nextEntry e (win l) (cls l) rq (buffered l) (lost l)
      else failedEntry e (cls l) rq (buffered l) (lost l)
    putEntry s l { e' with busy := false, key := if ok then p.key else e'.key, part := if ok then p.part else e'.part }
  let tgt := (targetsOf s off (packetBytes p)).headD (.flash 0)
  if st ≠ 0 then
    failHome (logStage (t.lines.foldl (settleLine false) s) p off tgt st) r off st
  else
    let s := (blocksOf off (packetBytes p)).foldl countAccess s
    let (data, s) := if reads then ([cohRead s p off], s) else applyData s tgt [p] off
    let s := if reads then s else (blocksOf off (packetBytes p)).foldl staleShadow s
    let s := t.lines.foldl (settleLine true) s
    let s := completeGroup s [(r, data.headD [])] off
    if reads then s else t.lines.foldl (fun s l => depositHint s p l) s

/-- Every snoop of a transaction is answered. -/
def finishTxn (s : State) (t : DirTxn) : State :=
  let s := s.setDir (fun d => { d with txns := d.txns.filter (fun u => u.id ≠ t.id) })
  -- the lines that leave their ways
  let s := t.alloc.foldl (fun s a => match a.2.1 with
    | some v =>
      let s := match t.dirty.find? (·.1 = v) with
        | some d => dirtyWrite s v d.2
        | none => s
      let s := putEntry s v { entryI (dirEntry s v) with busy := false }
      putEntry s a.1 { DirEntry.invalid with busy := true, way := a.2.2 }
    | none => s) s
  let s := match t.req with
    | some (r, off) => finishReq s t r off
    | none =>
      match t.deposit with
      | some a => t.lines.foldl (fun s l =>
          let e := dirEntry s l
          if t.took then bump (putEntry s l { heldBy1 e 1 a with busy := false }) (rk pDIR 0x180) 32 1
          else putEntry s l { entryI e with busy := false }) s
      | none => t.lines.foldl (fun s l =>
          let s := match t.dirty.find? (·.1 = l) with
            | some d => dirtyWrite s l d.2
            | none => s
          let e := dirEntry s l
          let e' := match t.sweep with
            | some a =>
              if e.state = 2 then entryI e
              else
                let e' := { e with ptrs := e.ptrs.filter (· ≠ a) }
                if e'.ptrs = [] ∧ ¬ e'.bcast ∧ e'.state = 1 then entryI e' else e'
            | none => if t.took then entryI e else e
          putEntry s l { e' with busy := false }) s
  sweepAfter s t.lines t.sweep.isSome

/-- The snoops that each line of a request needs. -/
def needsOf (s : State) (p : Packet) (ls : List Nat) : List (Nat × LineNeed) :=
  ls.map (fun l => (l, lineNeed (cohWindowOf s l) (dirEntry s l) (classify ((cohWindowOf s l).getD CohWin.off) p)
    (requester p)))

/-- Lines without an entry whose next state is not I, with the ways that they take. -/
def allocsOf (s : State) (p : Packet) (ls : List Nat) : List (Nat × Option (Option Nat × Nat)) :=
  (ls.filter (fun l => !hasEntry s l &&
    (freshNext DirEntry.invalid (cohWindowOf s l) (classify ((cohWindowOf s l).getD CohWin.off) p)
      (requester p)).state != 0)).map (fun l => (l, wayFor s l))

def waitDir (s : State) (r : Req) (off : Nat) : State :=
  s.setDir (fun d => { d with waiting := d.waiting ++ [(r, off)] })

/-- A coherent request reaches the directory: it fails, waits, or starts its transaction. -/
def cohStart (s : State) (r : Req) (off : Nat) : State :=
  let p := r.pkt
  let ls := linesOf off (packetBytes p)
  let tgts := targetsOf s off (packetBytes p)
  if ls.any (fun l => (cohWindowOf s l).isNone) then
    failHome (logErr s pDIR 0 (packetFail p stPerm)) r off stPerm
  else
    let st := lookupStatus s p off
    if st ≠ 0 then failHome (logStage s p off (tgts.headD (.flash 0)) st) r off st
    else
      let needs := needsOf s p ls
      let allocs := allocsOf s p ls
      if ls.any (lineBusy s) || needs.any (fun n => n.2 == .wait) || allocs.any (fun a => a.2.isNone) ||
          tgts.any (targetHeld s) then waitDir s r off
      else
        let alloc := allocs.filterMap (fun a => a.2.map (fun w => (a.1, w.1, w.2)))
        let id := s.dir.nextTxn
        let s := s.setDir (fun d => { d with nextTxn := id + 1 })
        let (w1, s) := alloc.foldl (fun (acc : List (Nat × BitVec 10) × State) a =>
          let (w, s) := takeWay acc.2 a
          (acc.1 ++ w, s)) ([], s)
        let s := ls.foldl (fun s l => markBusy s l true) s
        let (w2, s) := needs.foldl (fun (acc : List (Nat × BitVec 10) × State) n => match n.2 with
          | .go inv dests bc =>
            let s := if bc && !dests.isEmpty then bump acc.2 (rk pDIR 0x170) 32 1 else acc.2
            (acc.1 ++ dests.map (fun a => (n.1, a)), dests.foldl (fun s a => sendSnoop s n.1 a inv p.part) s)
          | .wait => acc) ([], s)
        let t : DirTxn := { id := id, req := some (r, off), lines := ls, waitFor := w1 ++ w2, dirty := [], lost := [],
                            alloc := alloc, sweep := none, deposit := none, took := false }
        if t.waitFor = [] then finishTxn s t else addTxn s t

/-- One answer to a snoop or deposit of this home (R377). `recorded` says that the failure has its record. -/
def dirAnswer (s : State) (l : Nat) (a : BitVec 10) (st : Status) (data : List Byte) (recorded : Bool) : State :=
  match s.dir.txns.find? (fun t => t.waitFor.contains (l, a)) with
  | none => s
  | some t =>
    let e := dirEntry s l
    let isDep := t.deposit == some a && t.lines.contains l
    let failed := st != 0 && !isDep
    let f : Fail := { status := st, kind := 2, addr := 64 * tweakOf s.store l, agent := some a }
    let s := if failed then if recorded then setErrOnly s pDIR 2 f else logErr s pDIR 2 f else s
    let owner := failed && e.state == 2 && e.ptrs.head? == some a
    let s := if owner then forfeitLine s l a else s
    let t := { t with waitFor := t.waitFor.erase (l, a),
                      dirty := if data = [] ∨ isDep then t.dirty else t.dirty ++ [(l, lineOf data)],
                      lost := if owner then t.lost ++ [l] else t.lost,
                      took := if isDep then decide (st = 0) else t.took }
    let s := s.setDir (fun d => { d with txns := d.txns.map (fun u => if u.id = t.id then t else u) })
    if t.waitFor = [] then finishTxn s t else s

/-- Requests that waited are looked at again in arrival order. -/
def retryDir (s : State) : State :=
  let w := s.dir.waiting
  w.foldl (fun s e => cohStart s e.1 e.2) (s.setDir (fun d => { d with waiting := [] }))

/-- Acts on answers that came at once, then on waiting requests, until neither changes anything. -/
def settleDirN : Nat → State → State
  | 0, s => s
  | n + 1, s =>
    match s.dir.answers with
    | (l, a, st, d) :: rest =>
      settleDirN n (dirAnswer (s.setDir (fun x => { x with answers := rest })) l a st d false)
    | [] =>
      let k := s.dir.waiting.length
      let t := retryDir s
      if t.dir.waiting.length = k ∧ t.dir.answers = [] then t else settleDirN n t

def settleDir (s : State) : State :=
  settleDirN (s.dir.answers.length + 1025 * (s.dir.waiting.length + s.dir.txns.length + 1)) s

/-- Dirty data held in O is applied at the tier: the entry becomes S with the owner among the sharers. -/
def writeBack (s : State) (l : Nat) : State :=
  match s.dir.lineBuf.find? (·.1 = l) with
  | none => s
  | some (_, v) =>
    let s := dirtyWrite s l v
    let s := s.setDir (fun d => { d with lineBuf := d.lineBuf.filter (·.1 ≠ l) })
    settleDir (setEntry s l (fun e => { e with state := 1 }))

/-! ### Sweeps (R381) -/

/-- Starts a sweep: it walks every entry; those in a transaction are acted on when that ends. -/
def startSweep (s : State) (a : BitVec 10) (remove hostDead : Bool) : State :=
  let s := s.setDir (fun d => { d with
    sweep := some { agent := a, remove := remove, hostDead := hostDead }, walked := 0 })
  settleDir ((s.dir.entries.map (·.1)).foldl (fun s l => sweepEntry s a remove l) s)

/-- The host is declared dead (R380). -/
def hostDies (s : State) : State :=
  if s.host.dead then s
  else
    let v := (regGet s (rk pHOST 0x108)).toNat
    let a := BitVec.ofNat 10 (bits v 0 10)
    let open_ := s.host.bisnp
    let s := logEvt (s.setHost (fun h => { h with dead := true, deadTimer := false, bisnp := [] })) pHOST 0
    -- snoops on their way to the host are answered at once
    let s := open_.foldl (fun s b => hostSnoop s b.2.2) s
    if !bit v 16 then settleDir s
    else if s.dir.sweep.isSome then settleDir (s.setDir (fun d => { d with hostDue := some a }))
    else startSweep s a false true

end Sys2Proof.Machine
end

