-- ==== Sys2Proof/Machine/Home.lean ====
section
/-! DEFINITION. How a request reaches its home and is served there: the home's checks, the combining windows, groups
accepted by a tier, writes that wait for a demand promotion, and how the completion of a request of this controller is
told (05 R149 to R154; 02 R48; 12 R353; 14 R391). -/
namespace Sys2Proof.Machine

/-! ### Telling who waits -/

/-- A queue command ends (14 R396): its completion entry is written by `settle`; a failure is kept for the queue's
next fence (05 R157). -/
def endCommand (s : State) (q : Nat) (idx : W32) (st : Status) (result : W64) : State :=
  match (s.queue q).active.find? (fun a => a.idx = idx) with
  | none => s
  | some a =>
    let s := s.setQueue q (fun k => { k with
      active := k.active.filter (fun b => b.idx ≠ idx),
      failed := if st = 0 ∨ fld a.raw 0 1 = 3 then k.failed else k.failed ++ [(idx, st)] })
    s.setWork (fun w => { w with ended := w.ended ++ [{ q := q, act := a, status := st, result := result }] })

/-- A fence of a queue that a release follows ends with that release (14 R398). -/
def fenceReleased (s : State) (q : Nat) (idx : W32) (st : Status) : State := endCommand s q idx st 0

/-- A run's post counter has been added, or failed (09 R276): the run's first error is kept. -/
def postDone (s : State) (h : Nat) (st : Status) : State :=
  if st = 0 then s else s.setPlan h (fun p => { p with status := if p.status = 0 then st else p.status })

/-- A wick that has not ended or stopped stops with a status that a packet of its own brought (08 R255). -/
def stopRunning (s : State) (w : Nat) (st : Status) : State :=
  if (s.wick w).state = .running ∨ (s.wick w).state = .held then haltWick s w st else s

/-- A semaphore operation of a wick is answered (08 R250): sD takes the prior value; a taken one is an acquire. -/
def semDone (s : State) (w d : Nat) (st : Status) (val : W64) (taken : Bool) : State :=
  match (s.wick w).wait with
  | .semaphore _ =>
    if st ≠ 0 then haltWick s w st
    else advance (s.setWick w (fun k =>
      let k := wrS { k with wait := .none } d val
      if taken then { k with buf := [] } else k)) w
  | _ => s

/-- A TWIN_WRITE of the block that a rebuild copies has completed (15 R435, R437). -/
def rebuildTwin (s : State) (id : Nat) (p : Packet) (st : Status) : State :=
  s.setStore (fun z => { z with rebuild := z.rebuild.map (fun r =>
    if r.id ≠ id then r
    else { r with open_ := r.open_ - 1, bad := if r.bad = 0 then st else r.bad,
                  badLine := if r.bad = 0 ∧ st ≠ 0 then p.addr.toNat / 64 % 2 ^ 44 else r.badLine }) })

/-- Tells the source of a request of this controller, or of another agent, that it has completed. -/
def complete (s : State) (o : Origin) (p : Packet) (st : Status) (data : List Byte) (recorded : Bool) : State :=
  match o with
  | .twin id => twinDone s id p st
  | .rebuild id => rebuildTwin s id p st
  | .snoop l a => settleDir (dirAnswer s l a st data recorded)
  | .deposit l a => settleDir (dirAnswer s l a st [] recorded)
  | .wickCadd w ord =>
    if st = 0 then s else stopRunning (noteFence s w ord st) w st
  | .post h => postDone s h st
  | .queueFence q tag => fenceReleased s q tag st
  | _ => deliver s o p st data recorded

/-! ### Combining (05 R149, R150) -/

/-- Two requests that one group may hold. -/
def combines (p q : Packet) : Bool :=
  p.opc == q.opc && p.addr == q.addr && p.part == q.part && p.key == q.key && p.arg == q.arg && p.len == q.len &&
  !p.nocomb && !q.nocomb && !p.coh && !q.coh &&
  (match p.opc.toNat with
   | 0 => true
   | 3 => !bit p.arg.toNat 4
   | 4 => p.arg.toNat % 4 != 3
   | _ => false)

/-- Two requests touch a byte in common. -/
def overlaps (p q : Packet) : Bool :=
  decide (p.addr.toNat < q.addr.toNat + packetBytes q ∧ q.addr.toNat < p.addr.toNat + packetBytes p)

/-- No request behind a group that touches the same bytes is of another kind (06 R180). -/
def clearBehind (p : Packet) (gs : List (List Req)) : Bool :=
  gs.flatten.all (fun q => q.pkt.opc == p.opc || !overlaps p q.pkt)

/-- Puts a request into a list of groups: into the oldest that takes it among the 64 oldest requests, else as a new
group; and whether it joined. -/
def joinGroup (r : Req) : Nat → List (List Req) → Bool × List (List Req)
  | _, [] => (false, [[r]])
  | left, g :: rest =>
    if left = 0 then (false, (g :: rest) ++ [[r]])
    else if (g.head?.map (fun q => combines q.pkt r.pkt)).getD false && clearBehind r.pkt rest then
      (true, (g ++ [r]) :: rest)
    else
      let (b, rest') := joinGroup r (left - g.length) rest
      (b, g :: rest')

def setWindow (s : State) (t : Target) (gs : List (List Req)) : State :=
  s.setXbar (fun x => { x with windows := (x.windows.filter (·.1 ≠ t)) ++ (if gs = [] then [] else [(t, gs)]) })

/-- Queues a request for a target. -/
def enqueue (s : State) (t : Target) (r : Req) : State :=
  let (joined, gs) := joinGroup r 64 (windowOf s t)
  let s := setWindow s t gs
  if !joined then s
  else if r.pkt.opc = 0 then bump s (rk pXBAR 0x130) 32 1 else bump s (rk pXBAR 0x138) 32 1

/-! ### A tier accepts a group -/

def offsetOf (s : State) (p : Packet) : Nat := match homeOffset s p.addr.toNat with | .ok o => o | .error _ => 0

/-- Fails every member of a group. -/
def failGroup (s : State) (g : List Req) (off : Nat) (t : Target) (st : Status) : State :=
  g.foldl (fun s r => failHome (logStage s r.pkt off t st) r off st) s

/-- Blocks of a writing request that lie in flash. -/
def flashBlocksOf (s : State) (p : Packet) (off : Nat) : List Nat :=
  if writesMemory p then (blocksOf off (packetBytes p)).filter (fun b => tierOf (blockGet s b).loc == 2) else []

/-- Asks for the demand promotions of blocks (02 R48): false when one finds no victim. -/
def demand (s : State) (bs : List Nat) : Bool × State :=
  bs.foldl (fun (acc : Bool × State) b =>
    let (r, s) := requestMove acc.2 b 1 none 0 .demand
    (acc.1 && (r == none || r == some 0), s)) (true, s)

/-- A request to bytes for which a write waits for its promotion waits behind it (06 R164, R180). -/
def behindDeferred (d : List Req) (p : Packet) : Bool := d.any (fun r => overlaps r.pkt p)

/-- The tier accepts a group: the lookup, a write's demand promotion, the key engine, the tier, the completions. -/
def applyGroup (s : State) (t : Target) (g : List Req) : State :=
  match g with
  | [] => s
  | r :: _ =>
    let p := r.pkt
    let off := offsetOf s p
    let n := packetBytes p
    let st := lookupStatus s p off
    let s := if st = stXlate ∨ st = stReset then s else (blocksOf off n).foldl countAccess s
    if st ≠ 0 then failGroup s g off t st
    else
      let fl := flashBlocksOf s p off
      let (ok, s) := demand s fl
      if !ok then failGroup s g off t stBusy
      else if fl ≠ [] ∨ behindDeferred s.store.deferred p then
        s.setStore (fun z => { z with deferred := z.deferred ++ g })
      else
        let st := tierStatus s p off []
        if st ≠ 0 then failGroup s g off t st
        else
          let (data, s) := applyData s t (g.map (·.pkt)) off
          let s := if writesMemory p then (blocksOf off n).foldl staleShadow s else s
          completeGroup s (List.zip g data) off

/-- A target accepts everything queued for it, oldest first, unless it retrains. -/
def drainTarget (s : State) (t : Target) : State :=
  if targetHeld s t then s
  else (windowOf s t).foldl (fun s g => applyGroup s t g) (setWindow s t [])

/-- A target accepts its oldest group. -/
def acceptOne (s : State) (t : Target) : State :=
  if targetHeld s t then s
  else match windowOf s t with
    | [] => s
    | g :: rest => applyGroup (setWindow s t rest) t g

/-- Writes that waited for a promotion go on, in order; those still in flash wait on. A promotion that lost its place
in the capacity tier leaves its block in flash with no move pending: its writes fail with BUSY (02 R48). -/
def retryDeferred (s : State) : State :=
  let d := s.store.deferred
  d.foldl (fun s r =>
    let off := offsetOf s r.pkt
    let fl := flashBlocksOf s r.pkt off
    let t := targetOf (off / 65536) (blockGet s (off / 65536)).loc
    if behindDeferred s.store.deferred r.pkt then
      s.setStore (fun z => { z with deferred := z.deferred ++ [r] })
    else if fl = [] then
      if r.pkt.coh then settleDir (cohStart s r off)
      else
        let st := stageStatus s r.pkt off
        if st ≠ 0 then failHome (logStage s r.pkt off t st) r off st
        else
          let (data, s) := applyData s t [r.pkt] off
          completeGroup ((blocksOf off (packetBytes r.pkt)).foldl staleShadow s) [(r, data.headD [])] off
    else if fl.any (fun b => (pendingMove s b).isNone &&
        s.store.moveWait.all (fun m => m.block != b)) then
      failHome (logStage s r.pkt off t stBusy) r off stBusy
    else s.setStore (fun z => { z with deferred := z.deferred ++ [r] }))
    (s.setStore (fun z => { z with deferred := [] }))

/-! ### Arrival at the home -/

/-- A request fails before its home accepts it. -/
def failEarly (s : State) (r : Req) (st : Status) : State :=
  complete (noteFault s r.pkt.dst r.pkt.part r.pkt.counter.toNat
    (if r.pkt.cen && r.pkt.src == s.xbar.agentId then st else 0)) r.origin r.pkt st [] true

/-- The status of the home's checks before a request is queued, and the record of a failure. -/
def admitWith (s : State) (p : Packet) (f : Status → Fail) : Except (Status × State) Nat :=
  let no (st : Status) : Except (Status × State) Nat := .error (st, logRecord s pXBAR (f st))
  if partResetting s p.part then no stReset
  else match homeOffset s p.addr.toNat with
  | .error st => no st
  | .ok off =>
    let st := extentStatus s off (packetBytes p) p.part
    if st = stRevoked then .error (st, logErr s pWORK 2 (f st))
    else if st ≠ 0 then no st
    else if p.cen && counterOwner s p.counter.toNat != p.part then
      .error (stPerm, ownerFault s p.part (some p.src) p.counter.toNat)
    else if !formatOk p then no stFormat
    else if !alignOk p then no stAlign
    else if p.mir && (mirrorOf s (extentOf off)).isNone then .error (stPerm, logErr s pPLC 3 (f stPerm))
    else .ok off

def admitted (s : State) (p : Packet) : Except (Status × State) Nat := admitWith s p (packetFail p)

/-- A request arrives at this home. With `hold` it waits in its target's window until the tier accepts it; without, it
and everything queued before it are accepted now. A coherent request goes to the directory. -/
def arriveHome (s : State) (r : Req) (hold : Bool) : State :=
  match admitted s r.pkt with
  | .error (st, s) => failEarly s r st
  | .ok off =>
    let s := noteInflight s off true
    if r.pkt.coh then
      let fl := flashBlocksOf s r.pkt off
      let (ok, s) := if lookupStatus s r.pkt off = 0 then demand s fl else (true, s)
      if !ok then failHome (logStage s r.pkt off (.flash 0) stBusy) r off stBusy
      else if (fl ≠ [] ∧ lookupStatus s r.pkt off = 0) ∨ behindDeferred s.store.deferred r.pkt then
        s.setStore (fun z => { z with deferred := z.deferred ++ [r] })
      else settleDir (cohStart s r off)
    else
      let t := targetOf (off / 65536) (blockGet s (off / 65536)).loc
      let s := enqueue s t r
      if hold then s else drainTarget s t

/-- A request of this controller goes to its home: here, or by the lanterns. -/
def submit (s : State) (r : Req) (hold : Bool) : State :=
  if isLocal s r.pkt.dst ∧ ¬ isHostAgent s r.pkt.dst then
    arriveHome s { r with pkt := { r.pkt with src := s.xbar.agentId } } hold
  else sendNew s r.pkt r.origin

/-- A packet of this controller ends at its source: with the status that its response or ACK carries, or one that the
source itself decides. -/
def finishSource (s : State) (u : Unfinished) (st : Status) (data : List Byte) (recorded : Bool) : State :=
  let s := if u.pkt.cen then noteFault s u.pkt.dst u.pkt.part u.pkt.counter.toNat st else s
  complete s u.origin u.pkt st data recorded

/-! ### Building requests of this controller -/

/-- ENGINE of an engine: kind and index (05 R126). -/
def engineKind : Engine → BitVec 2
  | .wick _ => 1
  | .mover _ _ => 2
  | .sconce _ => 0
  | _ => 3
def engineIdx : Engine → BitVec 12
  | .wick w => BitVec.ofNat 12 w
  | .mover sc ch => BitVec.ofNat 12 (8 * sc + ch)
  | .copy n => BitVec.ofNat 12 n
  | .work => 32
  | .sconce n => BitVec.ofNat 12 n

/-- A request for a store address under a leaf. -/
def mkReq (s : State) (opc : Nat) (eng : Engine) (part : BitVec 6) (ctx : BitVec 20) (leaf : Leaf) (sa : Nat)
    (arg : Nat) (payload : List Byte) : Packet :=
  { opc := BitVec.ofNat 4 opc, cls := 0, dl := false, dst := BitVec.ofNat 10 (sa / 2 ^ 50), src := s.xbar.agentId,
    part := part, epoch := s.xbar.epochCur, len := BitVec.ofNat 8 (payload.length / 32), ekind := engineKind eng,
    eidx := engineIdx eng, seq := 0, ctx := ctx, status := 0, xl := true, nocomb := false, jc := leaf.j,
    addr := BitVec.ofNat 57 sa, coh := leaf.c, mir := leaf.m, key := leaf.key, cen := false, cunit := false,
    counter := 0, arg := BitVec.ofNat 32 arg, rsvd := false, payload := payload }

end Sys2Proof.Machine
end

