-- ==== Sys2Proof/Machine/Engine.lean ====
section
/-! DEFINITION. What an engine of this controller does in the course of one command: accesses to the home made at once,
accesses to other homes as the environment answers them, host memory, and translation (03 R68 to R77, R90; 01 R24;
05 R154; 02 R48). -/
namespace Sys2Proof.Machine

/-- Why an engine's command goes no further: a status, or a wait, in which case the command has no effect yet. -/
inductive EFail where
  | stat (st : Status)
  | wait
deriving DecidableEq, Repr

abbrev Eng := ExceptT EFail (StateM State)

/-- For whom an engine acts, and the fields that its records carry (15 R409). -/
structure Who where
  eng  : Engine
  part : BitVec 6
  ctx  : BitVec 20
  info : Nat := 0
  aux  : Nat := 0
  /-- the accesses are those of one tile, which counts each block once itself (02 R42) -/
  tile : Bool := false
deriving DecidableEq, Repr

def Who.fail (w : Who) (st : Status) (kind : BitVec 3) (addr : Nat) : Fail :=
  { status := st, kind := kind, addr := addr, ctx := some w.ctx, part := some w.part, info := w.info, aux := w.aux }

/-- Class, instance and island of an engine's own records (15 R411). -/
def Who.site (w : Who) (f : Fail) : Fail :=
  match w.eng with
  | .wick n => { f with island := some (BitVec.ofNat 8 (n / 64)), cls := some (0x20, BitVec.ofNat 8 (n / 64)), info := n }
  | .mover sc _ => { f with island := some (BitVec.ofNat 8 sc), cls := some (0x15, BitVec.ofNat 8 sc) }
  | .sconce sc => { f with island := some (BitVec.ofNat 8 sc), cls := some (0x15, BitVec.ofNat 8 sc) }
  | .copy n => { f with island := some 0x40, cls := some (0x21, BitVec.ofNat 8 n) }
  | .work => { f with island := some 0x40, cls := some (0x22, 0) }

def modifyS (f : State → State) : Eng Unit := modify f
def failNow {α : Type} (st : Status) : Eng α := throw (.stat st)
def waitNow {α : Type} : Eng α := throw .wait

/-- Ends with a status after writing a record. -/
def failLog {α : Type} (st : Status) (f : State → State) : Eng α := do
  modify f
  failNow st

/-- Ends with a status and the engine's own record. -/
def failAt {α : Type} (w : Who) (st : Status) (kind : BitVec 3) (addr : Nat) : Eng α :=
  failLog st (fun s => logRecord s pXBAR (w.site (w.fail st kind addr)))

/-- Runs an engine's command from a state: its result and the state after it; none if it must wait. -/
def runEng {α : Type} (e : Eng α) (s : State) : Option (Except Status α × State) :=
  match e s with
  | (.ok a, t) => some (.ok a, t)
  | (.error (.stat st), t) => some (.error st, t)
  | (.error .wait, _) => none

/-! ### Store accesses made at once -/

/-- A coherent line access can be served without waiting for anybody. -/
def cohReady (s : State) (p : Packet) (ls : List Nat) : Bool :=
  ls.all (fun l => !lineBusy s l) &&
  (needsOf s p ls).all (fun n => match n.2 with
    | .go _ dests _ => dests.isEmpty
    | .wait => false) &&
  (allocsOf s p ls).all (fun a => match a.2 with
    | some (none, _) => true
    | _ => false)

/-- An access of an engine to this home, applied now: data, or the status of the first stage that fails. -/
def homeNow (w : Who) (p : Packet) : Eng (List Byte) := do
  let s ← get
  match admitWith s p (fun st => { packetFail p st with info := w.info, aux := w.aux }) with
  | .error (st, t) =>
    set (noteFault t p.dst p.part p.counter.toNat (if p.cen then st else 0))
    failNow st
  | .ok off =>
    let n := packetBytes p
    let tgts := targetsOf s off n
    if tgts.any (targetHeld s) || behindDeferred s.store.deferred p then waitNow
    let s := tgts.foldl drainTarget s
    let fail (s : State) (st : Status) : State :=
      noteFault (logStageWith s { packetFail p st with info := w.info, aux := w.aux } off (tgts.headD (.flash 0)) st)
        p.dst p.part p.counter.toNat (if p.cen then st else 0)
    let st := lookupStatus s p off
    let s := if st = stXlate ∨ st = stReset ∨ w.tile then s else (blocksOf off n).foldl countAccess s
    if st ≠ 0 then failLog st (fun _ => fail s st)
    else
      match (flashBlocksOf s p off).foldl (fun (o : Option State) b => o.bind (fun s => promoteNow s b)) (some s) with
      | none => failLog stBusy (fun _ => fail s stBusy)
      | some s =>
        if flashBlocksOf s p off ≠ [] then waitNow
        let st := tierStatus s p off (s.dir.lineBuf.map (·.1))
        if p.coh && !cohReady s p (linesOf off n) then waitNow
        if st ≠ 0 then failLog st (fun _ => fail s st)
        else
          let r : Req := { pkt := p, origin := .engine w.eng }
          if p.coh then
            let data := if p.opc = 0 then cohRead s p off else homeBytes s p.key off n
            set (settleDir (cohStart (noteInflight s off true) r off))
            return (if p.opc = 0 ∨ p.opc = 4 then data else [])
          else
            let (data, s) := applyData s (tgts.headD (.flash 0)) [p] off
            let s := if writesMemory p then (blocksOf off n).foldl staleShadow s else s
            set (completeGroup (noteInflight s off true) [(r, data.headD [])] off)
            return data.headD []

/-- The status with which accesses to another home or agent end (model's own, the environment's). -/
def remoteStatusOf (s : State) (a : Nat) : Status := tget 0 s.remoteStatus a

/-- Bytes of other homes and of accelerators' windows as the environment gives them: a home's at its store address, an
agent's window beyond them. -/
def windowAddr (agent addr : Nat) : Nat := 2 ^ 57 + agent * 2 ^ 48 + addr % 2 ^ 48

/-- An access to another home, as the environment answers it. The generator of another home's accumulate path is not
this controller's to know: a free value. -/
def remoteNow (w : Who) (p : Packet) (a : Nat) : Eng (List Byte) := do
  let s ← get
  let st := remoteStatusOf s p.dst.toNat
  let n := packetBytes p
  if st ≠ 0 then
    let f : Fail := { packetFail p st with info := w.info, aux := w.aux }
    let s := if st = stTargetDead then logErr s pXBAR 1 f
      else if st = stPathLost then logErr s pXBAR 2 f
      else if st = stReplayExpired then logErr s pXBAR 4 f else s
    failLog st (fun _ => noteFault s p.dst p.part p.counter.toNat (if p.cen then st else 0))
  else
    let old := cellRead s.remote a n
    match p.opc.toNat with
    | 0 => return old
    | 1 => set { s with remote := cellWrite s.remote a p.payload }; return []
    | 2 =>
      let new := (List.range 64).map (fun i => if (maskOf p).getD i false then p.payload.getD i 0 else old.getD i 0)
      set { s with remote := cellWrite s.remote a new }
      return []
    | 3 =>
      let (f, s) := draw s
      let (new, _) := accApply p.arg.toNat (f.setWidth 32) old [p.payload]
      set { s with remote := cellWrite s.remote a new }
      return []
    | _ =>
      let new := atomicNew p.arg.toNat (leNat old) (leNat (slice p.payload 0 n)) (leNat (slice p.payload 16 n))
      set { s with remote := cellWrite s.remote a (leBytes n new) }
      return old

/-- One packet of an engine to a store address, applied now. -/
def accessNow (w : Who) (p : Packet) : Eng (List Byte) := do
  let s ← get
  if isLocal s p.dst then homeNow w p else remoteNow w p p.addr.toNat

/-! ### Translation (R70 to R77) -/

def ctxOf (s : State) (c : BitVec 20) : Option Ctx :=
  match tfind s.xlt.ctxs c.toNat with
  | some e => if e.type = 0 then none else some e
  | none => none

def tlbSize : Tlb → Nat
  | .l2 => 65536
  | .port _ => 1024
  | .copy _ => 256
  | .wick _ => 32

/-- Adds a leaf to a translation cache; the oldest entry of a full one leaves (log entry 22). -/
def tlbFill (s : State) (t : Tlb) (c : BitVec 20) (base : Nat) (leaf : Leaf) : State :=
  s.setXlt (fun x =>
    let mine := x.tlb.filter (fun e => e.where_ = t) ++ [⟨t, c, base, leaf⟩]
    let rest := x.tlb.filter (fun e => e.where_ ≠ t)
    { x with tlb := rest ++ mine.drop (mine.length - tlbSize t) })

def tlbFind (s : State) (t : Tlb) (c : BitVec 20) (dva : Nat) : Option (Nat × Leaf) :=
  (s.xlt.tlb.find? (fun e => e.where_ = t ∧ e.ctx = c ∧ e.base ≤ dva ∧ dva < e.base + e.leaf.size)).map
    (fun e => (e.base, e.leaf))

/-- A controller of the domain: this one, or one with a valid route. -/
def inDomain (s : State) (home : Nat) : Bool :=
  home == s.store.homeId.toNat || (routeGet s.xbar.routeCur (BitVec.ofNat 10 home)).getLsbD 12

/-- A leaf without attributes, for accesses under a context's default key. -/
def plainLeaf (key : BitVec 12) : Leaf :=
  { sa := 0, size := 0, w := true, x := true, a := true, c := false, j := false, m := false, key := key }

/-- Index of a DVA at a level, and the log2 of the bytes that one entry of the level covers. -/
def levelShift (lv : Nat) : Nat := if lv = 0 then 16 else 12 + 9 * lv
def levelIndex (lv dva : Nat) : Nat := if lv = 0 then bits dva 16 5 else bits dva (12 + 9 * lv) 9

/-- A malformed entry (R71, R74): its record, then XLATE_FAULT. -/
def badEntry {α : Type} (w : Who) (ea : Nat) : Eng α :=
  failLog stXlate (fun s => logErr s pXLT 0 (w.fail stXlate 2 ea))

/-- A leaf entry's fields (R72). -/
def leafOf (v sz : Nat) : Leaf :=
  { sa := BitVec.ofNat 56 (bits v 12 40 * 65536), size := if sz = 0 then 2 ^ 16 else if sz = 1 then 2 ^ 21 else 2 ^ 30,
    w := bit v 3, x := bit v 4, a := bit v 5, c := bit v 6, j := bit v 7, m := bit v 8,
    key := BitVec.ofNat 12 (bits v 52 12) }

/-- The walk from level `n` at a node: the base of the page and its leaf. -/
def walkFrom (w : Who) (cx : Ctx) (dva : Nat) : Nat → Nat → Eng (Nat × Leaf)
  | n, node => do
    let ea := node + 8 * levelIndex n dva
    let s0 ← get
    let p := mkReq s0 0 .work cx.part w.ctx (plainLeaf cx.key) (ea / 64 * 64) 64 []
    let line ← tryCatch (accessNow w { p with ekind := 3, eidx := 32 }) (fun e => do
      match e with
      | .stat st => failLog st (fun s => logErr s pXLT 2 (w.fail st 2 ea))
      | .wait => waitNow)
    let v := leNat (slice line (ea % 64) 8)
    let s ← get
    let sz := bits v 1 2
    if !bit v 0 then failLog stXlate (fun s => logRecord s pXLT (w.fail stXlate 1 dva))
    else if sz = 3 then
      let next := bits v 12 48 * 256
      if bits v 3 9 ≠ 0 ∨ bits v 60 4 ≠ 0 ∨ (n ≠ 1 ∧ next % 4096 ≠ 0) ∨ ¬ inDomain s (next / 2 ^ 50) then badEntry w ea
      else match n with
        | 0 => badEntry w ea
        | m + 1 => walkFrom w cx dva m next
    else
      let leaf := leafOf v sz
      if n ≠ sz ∨ bits v 9 3 ≠ 0 ∨ leaf.sa.toNat % leaf.size ≠ 0 ∨ ¬ inDomain s (leaf.sa.toNat / 2 ^ 50) then badEntry w ea
      else return (dva / leaf.size * leaf.size, leaf)

/-- Fills the L2 for a page: an L2 miss is walked (R76). -/
def walkNow (w : Who) (cx : Ctx) (dva : Nat) : Eng (Nat × Leaf) := do
  modify (fun s => bump s (rk pXLT 0x130) 32 1)
  let (base, leaf) ← walkFrom w cx dva 4 cx.root.toNat
  modify (fun s => tlbFill (bump s (rk pXLT 0x128) 32 1) .l2 w.ctx base leaf)
  return (base, leaf)

/-- What an access does with its page (R73). -/
inductive Use where
  | read | write | accum | load
deriving DecidableEq, Repr

def permits (l : Leaf) : Use → Bool
  | .read => true
  | .write => l.w
  | .accum => l.w && l.a
  | .load => l.x

/-- Translates a DVA in an engine's context through its cache, the L2 and a walk, and checks permission. -/
def translate (w : Who) (t : Tlb) (use : Use) (dva : Nat) : Eng (Nat × Leaf) := do
  let s ← get
  match ctxOf s w.ctx with
  | none => failLog stPerm (fun s => logRecord s pXLT (w.fail stPerm 1 dva))
  | some cx =>
    if cx.resetting then failLog stReset (fun s => logRecord s pXLT (w.fail stReset 1 dva))
    else if 2 ^ 57 ≤ dva then failLog stXlate (fun s => logRecord s pXLT (w.fail stXlate 1 dva))
    else
      let (base, leaf) ← match tlbFind s t w.ctx dva with
        | some e => pure e
        | none => do
          let e ← match tlbFind s .l2 w.ctx dva with
            | some e => pure e
            | none => walkNow w cx dva
          if t ≠ .l2 then modify (fun s => tlbFill s t w.ctx e.1 e.2)
          pure e
      if permits leaf use then return (base, leaf)
      else failLog stPerm (fun s => logRecord s pXLT (w.fail stPerm 1 dva))

/-- The store address of a DVA under a translated page. -/
def saUnder (base : Nat) (leaf : Leaf) (dva : Nat) : Nat := leaf.sa.toNat + (dva - base)

/-- Pages of 64 KiB that `[dva, dva + n)` touches: the first address in each. -/
def pagesOf (dva n : Nat) : List Nat :=
  if n = 0 then [] else (List.range ((dva + n - 1) / 65536 - dva / 65536 + 1)).map
    (fun i => if i = 0 then dva else (dva / 65536 + i) * 65536)

/-- Translates every page of a range before anything moves. -/
def translateAll (w : Who) (t : Tlb) (use : Use) (dva n : Nat) : Eng (List (Nat × Leaf)) :=
  (pagesOf dva n).mapM (fun a => translate w t use a)

def pageFor (ps : List (Nat × Leaf)) (dva : Nat) : Nat × Leaf :=
  (ps.find? (fun p => p.1 ≤ dva ∧ dva < p.1 + p.2.size)).getD (0, plainLeaf 0)

/-! ### Ranges by device virtual address -/

/-- A range cut at lines: start and length of each piece. -/
def linePieces (a n : Nat) : List (Nat × Nat) :=
  (linesOf a n).map (fun l => (max a (64 * l), min (a + n) (64 * l + 64) - max a (64 * l)))

/-- Reads a range through pages that are already translated, line by line. -/
def readPages (w : Who) (ps : List (Nat × Leaf)) (dva n : Nat) : Eng (List Byte) := do
  let parts ← (linePieces dva n).mapM (fun (a, k) => do
    let (base, leaf) := pageFor ps a
    let sa := saUnder base leaf a
    let s ← get
    let line ← accessNow w (mkReq s 0 w.eng w.part w.ctx leaf (sa / 64 * 64) 64 [])
    return slice line (sa % 64) k)
  return parts.flatten

/-- Writes a range through pages that are already translated: whole lines by WRITE, parts of lines by WRITE_MASKED. -/
def writePages (w : Who) (ps : List (Nat × Leaf)) (dva : Nat) (d : List Byte) : Eng Unit := do
  (linePieces dva d.length).forM (fun (a, k) => do
    let (base, leaf) := pageFor ps a
    let sa := saUnder base leaf a
    let s ← get
    let piece := slice d (a - dva) k
    if k = 64 then
      let _ ← accessNow w (mkReq s 1 w.eng w.part w.ctx leaf sa 0 piece)
    else
      let o := sa % 64
      let mask := (2 ^ k - 1) * 2 ^ o
      let _ ← accessNow w (mkReq s 2 w.eng w.part w.ctx leaf (sa - o) 0
        (zeros o ++ piece ++ zeros (64 - o - k) ++ leBytes 8 mask ++ zeros 24)))

/-- Reads a range by device virtual address. -/
def readDva (w : Who) (t : Tlb) (dva n : Nat) : Eng (List Byte) := do
  let ps ← translateAll w t .read dva n
  readPages w ps dva n

/-- Writes a range by device virtual address. -/
def writeDva (w : Who) (t : Tlb) (dva : Nat) (d : List Byte) : Eng Unit := do
  let ps ← translateAll w t .write dva d.length
  writePages w ps dva d

/-- One atomic by device virtual address: the old value. -/
def atomicDva (w : Who) (t : Tlb) (dva arg x swap : Nat) : Eng Nat := do
  let (base, leaf) ← translate w t .accum dva
  let s ← get
  let n := 4 * 2 ^ (arg / 4 % 4)
  let old ← accessNow w (mkReq s 4 w.eng w.part w.ctx leaf (saUnder base leaf dva) arg (leBytes 16 x ++ leBytes 16 swap))
  return leNat (slice old 0 n)

/-! ### The Reservoir -/

/-- Reads Reservoir bytes of a partition; a failing word answers UNCORRECTABLE (17 R494). -/
def readRsv (w : Who) (a n : Nat) : Eng (List Byte) := do
  let s ← get
  if n = 0 then return []
  if Config.reservoirBytes < a + n ∨ ¬ reservoirOwned s w.part a n then failAt w stPerm 0 a
  else if reservoirBad s a n then failLog stUncorr (fun s => logErr s pRSV 0 { w.fail stUncorr 0 a with info := a })
  else return reservoirRead s a n

def writeRsv (w : Who) (a : Nat) (d : List Byte) : Eng Unit := do
  let s ← get
  if d = [] then return
  if Config.reservoirBytes < a + d.length ∨ ¬ reservoirOwned s w.part a d.length then failAt w stPerm 0 a
  else set (reservoirWrite s a d)

/-! ### Host memory (R90) -/

/-- A host range lies inside a context's aperture. -/
def inAperture (s : State) (c : BitVec 20) (a n : Nat) : Bool :=
  match ctxOf s c with
  | some x => x.memValid && decide (x.memBase.toNat ≤ a ∧ a + n ≤ x.memBase.toNat + x.memLen.toNat)
  | none => false

/-- What the host's answer makes of an access (R90), with the failure's record. -/
def hostAnswer (w : Who) (hc : HostCpl) (a : Nat) : Eng Unit :=
  let bad (st : Status) : Eng Unit := failLog st (fun s => logRecord s pHOST (w.fail st 3 a))
  match hc with
  | .ok => pure ()
  | .denied => bad stXlate
  | .abort => bad stPerm
  | .poisoned => bad stUncorr

/-- With ATS the translation of each 4 KiB page is cached (4,096 entries, the oldest leaving). -/
def atcFill (s : State) (c : BitVec 20) (a n : Nat) : State :=
  match ctxOf s c with
  | some x =>
    if !x.ats ∨ n = 0 then s
    else (List.range ((a + n - 1) / 4096 - a / 4096 + 1)).foldl (fun s i =>
      let pg := BitVec.ofNat 64 ((a / 4096 + i) * 4096)
      if s.xlt.atc.any (·.1 = pg) then s
      else s.setXlt (fun z => { z with atc := (z.atc ++ [(pg, pg)]).drop (z.atc.length + 1 - 4096) })) s
  | none => s

def hostCheck (w : Who) (a n : Nat) : Eng Unit := do
  let s ← get
  if inAperture s w.ctx a n then pure () else failLog stPerm (fun s => logRecord s pHOST (w.fail stPerm 3 a))

/-- Reads host memory inside the aperture. -/
def readHost (w : Who) (hc : HostCpl) (a n : Nat) : Eng (List Byte) := do
  hostCheck w a n
  hostAnswer w hc a
  modify (fun s => atcFill s w.ctx a n)
  let s ← get
  return cellRead s.host.mem a n

/-- Writes host memory inside the aperture; the bytes leave the module. -/
def writeHost (w : Who) (hc : HostCpl) (a : Nat) (d : List Byte) : Eng Unit := do
  hostCheck w a d.length
  hostAnswer w hc a
  modify (fun s => emit { atcFill s w.ctx a d.length with
    host := { s.host with mem := cellWrite s.host.mem a d } } (.hostWrite a d))

end Sys2Proof.Machine
end

