-- ==== Sys2Proof/Machine/Packets.lean ====
section
/-! DEFINITION. Packets that arrive on a port: requests for this home, requests of an accelerator that this controller
carries onward, twins, responses, packets for others; the tier's acceptance (05 R118 to R157; 12 R353, R355). -/
namespace Sys2Proof.Machine

/-- A command whose operands name units of the part moves the block to a state; any other is a fault. -/
def onOk (ok : Bool) (s : State) : Host.Outcome State Fault Refusal := if ok then .next s else .fault .noSuchUnit

/-! ### What a port takes in -/

/-- Cells that leave a receiver's buffer of a sub-class (R145). -/
def freeCells (s : State) (n i k : Nat) : State :=
  s.setPort n (fun t => { t with freed := listSet t.freed i (· + BitVec.ofNat 16 k), creditDue := true })

/-- A packet is taken in on a live port: the cells are freed, and its source has been heard from. -/
def takeIn (s : State) (n : Nat) (p : Packet) : State := heardFrom (freeCells s n (subClass p) (cellsOf p)) p.src

/-- What the map epoch of an arriving request says (R137). -/
inductive EpochIs where
  | ok | stale | unknown
deriving DecidableEq, Repr

def epochIs (s : State) (e : Byte) : EpochIs :=
  if e = s.xbar.epochCur then .ok
  else if s.xbar.otherState = 1 ∧ s.xbar.otherFrozen ∧ e = s.xbar.epochOther then .ok
  else if s.xbar.otherState = 2 ∧ e = s.xbar.epochOther then .stale
  else .unknown

def agentPartOf (s : State) (a : BitVec 10) : W64 := tget 0 s.work.agentPart a.toNat

/-- An agent may send packets of a partition (14 R391, the first check). -/
def agentMay (s : State) (a : BitVec 10) (p : BitVec 6) : Bool := (agentPartOf s a).getLsbD p.toNat

/-- The first reader's checks of form (R127, R128). -/
def firstReadOk (p : Packet) : Bool :=
  formatOk p && (p.xl || (!p.jc && !p.coh && !p.mir && p.key == 0))

/-! ### Carrying an accelerator's request onward (R119) -/

def useOf (p : Packet) : Use :=
  match p.opc.toNat with
  | 0 => .read
  | 1 => .write
  | 2 => .write
  | _ => .accum

/-- Pieces of a request that crosses 64 KiB pages: first byte and length of each. -/
def piecesOf (a n : Nat) : List (Nat × Nat) :=
  (pagesOf a n).map (fun x => (x - a, min (a + n) ((x / 65536 + 1) * 65536) - x))

/-- One piece of a packet. A count per packet is carried by the first piece alone. -/
def cutPiece (p : Packet) (i o n : Nat) : Packet :=
  { p with addr := p.addr + BitVec.ofNat 57 o,
           len := if p.opc = 0 then p.len else BitVec.ofNat 8 (n / 32),
           arg := if p.opc = 0 then BitVec.ofNat 32 n else p.arg,
           payload := if p.opc = 0 then [] else slice p.payload o n,
           cen := p.cen && (!p.cunit || i == 0) }

/-- The onward packet of a piece under its leaf: this controller's own, for the originating agent (13 R366). -/
def onward (s : State) (p : Packet) (leaf : Leaf) (sa : Nat) (agent : BitVec 10) (intent : Nat) : Packet :=
  { p with dst := BitVec.ofNat 10 (sa / 2 ^ 50), src := s.xbar.agentId, epoch := s.xbar.epochCur, dl := false,
           ekind := 0, eidx := BitVec.ofNat 12 (agent.toNat + 1024 * intent), seq := 0, xl := true, jc := leaf.j,
           addr := BitVec.ofNat 57 sa, coh := leaf.c, mir := leaf.m, key := leaf.key }

/-- Translates a request's pages and sends it onward; `orig` is told when it completes. -/
def carryOn (t : Tlb) (p : Packet) (agent : BitVec 10) (intent : Nat) (orig : Origin) (hold : Bool) : Eng Unit := do
  let w : Who := { eng := .work, part := p.part, ctx := p.ctx }
  let ps ← translateAll w t (useOf p) p.addr.toNat (packetBytes p)
  let pieces := piecesOf p.addr.toNat (packetBytes p)
  let sub := fun (s : State) (i o n : Nat) =>
    let a := p.addr.toNat + o
    let (base, leaf) := pageFor ps a
    onward s (if pieces.length = 1 then p else cutPiece p i o n) leaf (saUnder base leaf a) agent intent
  match pieces with
  | [(o, n)] => modify (fun s => submit s { pkt := sub s 0 o n, origin := orig } hold)
  | _ =>
    let s ← get
    let j := s.xbar.nextJoin
    modify (fun s => s.setXbar (fun x => { x with nextJoin := j + 1, joins := x.joins ++
      [{ id := j, whole := p, got := [], open_ := pieces.length, bad := 0, recorded := false }] }))
    pieces.zipIdx.forM (fun e =>
      modify (fun s => submit s { pkt := sub s e.2 e.1.1 e.1.2, origin := .part j e.2 } hold))

/-- A request of an agent in virtual addresses: the second partition check, then translation. -/
def ingress (s : State) (port : Nat) (p : Packet) (hold : Bool) : Option State :=
  match ctxOf s p.ctx with
  | none => some (finishPeer (logRecord s pXBAR (packetFail p stPerm)) p stPerm [])
  | some c =>
    if c.part ≠ p.part then some (finishPeer (logRecord s pXBAR (packetFail p stPerm)) p stPerm [])
    else if partResetting s p.part then some (finishPeer (logRecord s pXBAR (packetFail p stReset)) p stReset [])
    else if !alignOk p then some (finishPeer (logRecord s pXBAR (packetFail p stAlign)) p stAlign [])
    else match runEng (carryOn (.port port) p p.src 3 (.ingress p) hold) s with
      | some (.ok _, t) => some t
      | some (.error st, t) => some (finishPeer t p st [])
      | none => none

/-! ### Twins at the partner (12 R353, R355) -/

/-- The local offset of a twin's lines: the extent that the guest map names, or that of this home itself when it
receives its own data back (15 R434). -/
def twinOffset (s : State) (sa : Nat) : Option Nat :=
  if sa / 2 ^ 50 = s.store.homeId.toNat then some (sa % 2 ^ 50) else
  ((s.store.guest.map (·.2)).find? (fun g => g.getLsbD 38 &&
    decide (bits g.toNat 16 6 = sa / 2 ^ 50 ∧ bits g.toNat 22 16 = extentOf (sa % 2 ^ 50)))).map
    (fun g => bits g.toNat 0 16 * 2 ^ 30 + sa % 2 ^ 30)

/-- A TWIN_WRITE is applied as stored bytes, whoever owns the extent (log entry 62); none while its demand promotion
waits for a place among the pending moves (02 R45). -/
def applyTwin (s : State) (p : Packet) : Option State :=
  match twinOffset s p.addr.toNat with
  | none => failPeer s p stXlate pXBAR 0x3F
  | some off =>
    let l := lookupStatus s p off
    let st := if l = stLost then 0 else l
    if st ≠ 0 then failPeer s p st pXBAR 0x3F
    else match (flashBlocksOf s p off).foldl (fun (o : Option State) b => o.bind (fun s => promoteNow s b)) (some s) with
      | none => failPeer s p stBusy pXBAR 0x3F
      | some s =>
        if flashBlocksOf s p off ≠ [] then none
        else
          let s := (blocksOf off (packetBytes p)).foldl (fun s b => staleShadow (countAccess s b) b) s
          let s := (linesOf off (packetBytes p)).zipIdx.foldl (fun s e =>
            clearBad (lineStore s e.1 (lineOf (slice p.payload (64 * e.2) 64))) e.1) s
          finishPeer (bump s (rk pPLC 0x228) 48 1) p 0 []

/-! ### A request arrives -/

/-- Answers a stale epoch: not performed and not recorded in the window. -/
def answerStale (s : State) (p : Packet) : State := answer s p stStaleEpoch []

/-- A request packet for this controller on a live port. -/
def arrive (s : State) (n : Nat) (p : Packet) (hold : Bool) : State :=
  if !portData s n || !isLocal s p.dst || isHostAgent s p.dst then s
  else
    let s0 := s
    let s := takeIn s n p
    match epochIs s p.epoch with
    | .stale => answerStale s p
    | .unknown => bump s (rk pXBAR 0x158) 32 1
    | .ok =>
      let w := rxWindow s p.src
      match (if p.opc = 0 then Arrival.perform else judge 32 (w.newest.map (·.toNat)) w.seqs w.restarted p.seq.toNat) with
      | .expired => answer s p stReplayExpired []
      | .discard => bump s (rk pXBAR 0x148) 32 1
      | .again st r => answer (bump s (rk pXBAR 0x148) 32 1) p st r
      | .perform =>
        let s := markSeq s p .inProgress
        if !firstReadOk p then
          if p.cen && p.cls != 0 then failPeer s p stFormat pSYNC 1 else failPeer s p stFormat pXBAR 0x3F
        else if !agentMay s p.src p.part then failPeer s p stPerm pXBAR 0x3F
        else if !p.xl then (ingress s n p hold).getD s0
        else if p.opc = 0xB then
          if !alignOk p then failPeer s p stAlign pXBAR 0x3F else (applyTwin s p).getD s0
        else arriveHome s { pkt := p, origin := .peer p } hold

/-- A request row: the packet must hold the row's opcode. -/
def requestRow (port : Nat) (p : Packet) (hold is : Bool) (s : State) : Host.Outcome State Fault Refusal :=
  onOk (portOk port && p.ok) (if is then arrive s port p hold else s)

def execRead (port : Nat) (p : Packet) (hold : Bool) (s : State) : Host.Outcome State Fault Refusal :=
  requestRow port p hold (p.opc == 0) s
def execWrite (port : Nat) (p : Packet) (hold : Bool) (s : State) : Host.Outcome State Fault Refusal :=
  requestRow port p hold (p.opc == 1) s
def execWriteMasked (port : Nat) (p : Packet) (hold : Bool) (s : State) : Host.Outcome State Fault Refusal :=
  requestRow port p hold (p.opc == 2) s
def execAccumulate (port : Nat) (p : Packet) (hold : Bool) (s : State) : Host.Outcome State Fault Refusal :=
  requestRow port p hold (p.opc == 3) s
def execAtomicAdd (port : Nat) (p : Packet) (hold : Bool) (s : State) : Host.Outcome State Fault Refusal :=
  requestRow port p hold (p.opc == 4 && p.arg.toNat % 4 == 0) s
def execAtomicMin (port : Nat) (p : Packet) (hold : Bool) (s : State) : Host.Outcome State Fault Refusal :=
  requestRow port p hold (p.opc == 4 && p.arg.toNat % 4 == 1) s
def execAtomicMax (port : Nat) (p : Packet) (hold : Bool) (s : State) : Host.Outcome State Fault Refusal :=
  requestRow port p hold (p.opc == 4 && p.arg.toNat % 4 == 2) s
def execAtomicCas (port : Nat) (p : Packet) (hold : Bool) (s : State) : Host.Outcome State Fault Refusal :=
  requestRow port p hold (p.opc == 4 && p.arg.toNat % 4 == 3) s
/-- A TWIN_WRITE always has its place at the home, where nothing holds it. -/
def execTwinWrite (port : Nat) (p : Packet) (s : State) : Host.Outcome State Fault Refusal :=
  requestRow port p false (p.opc == 0xB) s

/-- A memory target accepts the oldest group queued for it (06 R169). -/
def execTierApply (t : Target) (s : State) : Host.Outcome State Fault Refusal := onOk t.ok (acceptOne s t)

/-- Dirty data held in O is applied at the tier (13 R372). -/
def execLineBufferWriteback (line : Nat) (s : State) : Host.Outcome State Fault Refusal := .next (writeBack s line)

/-! ### Snoops toward this controller's host (13 R376, R380) -/

/-- A SNOOP packet for an agent whose route entry is local. -/
def arriveSnoop (s : State) (n : Nat) (p : Packet) : State :=
  if !portData s n || !isLocal s p.dst || !isHostAgent s p.dst then s
  else
    let s := takeIn s n p
    match epochIs s p.epoch with
    | .stale => answerStale s p
    | .unknown => bump s (rk pXBAR 0x158) 32 1
    | .ok =>
      let w := rxWindow s p.src
      match judge 32 (w.newest.map (·.toNat)) w.seqs w.restarted p.seq.toNat with
      | .expired => answer s p stReplayExpired []
      | .discard => bump s (rk pXBAR 0x148) 32 1
      | .again st r => answer (bump s (rk pXBAR 0x148) 32 1) p st r
      | .perform =>
        let s := markSeq s p .inProgress
        if !firstReadOk p then failPeer s p stFormat pXBAR 0x3F
        else if !agentMay s p.src p.part then failPeer s p stPerm pXBAR 0x3F
        else if s.host.dead then finishPeer (logRecord s pHOST (packetFail p stTargetDead)) p stTargetDead []
        else hostSnoop s p

def execInvalidate (port : Nat) (p : Packet) (s : State) : Host.Outcome State Fault Refusal :=
  onOk (portOk port && p.ok) (if p.opc == 8 && p.arg == 0 then arriveSnoop s port p else s)
def execRecallShared (port : Nat) (p : Packet) (s : State) : Host.Outcome State Fault Refusal :=
  onOk (portOk port && p.ok) (if p.opc == 8 && p.arg == 1 then arriveSnoop s port p else s)

/-! ### Responses (R130, R138, R153) -/

/-- A commit changes the primary port of an agent that an admitted plan's route references name (09 R269). -/
def routeChanged (s : State) : Bool :=
  s.plans.any (fun e => e.2.routes.any (fun r =>
    let a := BitVec.ofNat 10 (bits r.toNat 0 10)
    (routeGet s.xbar.routeCur a).toNat % 16 != (routeGet s.xbar.routeOther a).toNat % 16))

/-- Commits a prepared epoch: the banks swap, and requests sent before are the old epoch's (R136). -/
def commitEpoch (s : State) : State :=
  let s := if routeChanged s then logEvt s pPLAN 0 else s
  s.setXbar (fun x => { x with
    routeCur := x.routeOther, routeOther := x.routeCur, epochCur := x.epochOther,
    epochOther := x.epochCur, otherState := 2, otherFrozen := true, prepared := false, drained := false, preparedBy := [],
    tx := x.tx.map (fun e => (e.1, { e.2 with pkts := e.2.pkts.map (fun u => { u with oldEpoch := true }) })) })

/-- The old epoch's requests reach zero (R136, step 4). -/
def noteDrained (s : State) : State :=
  if s.xbar.otherState = 2 ∧ ¬ s.xbar.drained ∧ s.xbar.tx.all (fun e => e.2.pkts.all (fun u => !u.oldEpoch)) then
    logEvt (s.setXbar (fun x => { x with drained := true })) pXBAR 1
  else s

/-- Sends an unfinished packet again with the current epoch and the same SEQ. -/
def resend (s : State) (a : BitVec 10) (u : Unfinished) : State :=
  let p := { u.pkt with epoch := s.xbar.epochCur }
  let s := setTx s a (fun t => { t with pkts := t.pkts.map (fun v =>
    if v.pkt.seq = u.pkt.seq then { v with pkt := p, resends := v.resends + 1, noRoute := false, oldEpoch := false }
    else v) })
  transmit s p

/-- Accelerators attached to this controller: agents that the current bank sends to a port, which are no controller. -/
def attached (s : State) : List (BitVec 10) :=
  ((s.work.comps.map (fun c => c.2.accels.map (·.agent))).flatten.filter (fun a =>
    decide (routeGet s.xbar.routeCur a % 16 < 10) && (routeGet s.xbar.routeCur a).getLsbD 12)).dedup

/-- Passes a step of an epoch change to the attached accelerators. -/
def passEpoch (s : State) (step : Nat) (e : Byte) : State :=
  (attached s).foldl (fun s a => sendCtl s (mkCtl s 8 a 0 (step + 256 * e.toNat))) s

/-- A prepared source that receives STALE_EPOCH commits, and passes the step on as it passes every step (R136, R138). -/
def commitStale (s : State) : State :=
  if s.xbar.otherState = 1 ∧ s.xbar.otherFrozen ∧ s.xbar.prepared then passEpoch (commitEpoch s) 3 s.xbar.epochOther
  else s

/-- A source that receives STALE_EPOCH: a prepared one commits; the packet is sent again at once (R138). -/
def staleAnswer (s : State) (a : BitVec 10) (u : Unfinished) : State :=
  let s := commitStale s
  noteDrained (resend (bump s (rk pXBAR 0x150) 32 1) a u)

def orphan (s : State) : State := bump s (rk pXBAR 0x160) 32 1

/-- A packet of this controller completes with an answer from its destination. -/
def answered (s : State) (a : BitVec 10) (u : Unfinished) (st : Status) (data : List Byte) : State :=
  let s := (takeUnfinished s a u.pkt.seq).2
  let s := if st = stReplayExpired then logErr s pXBAR 4 (packetFail u.pkt st) else s
  noteDrained (finishSource s u st data (st == stReplayExpired))

/-- A response packet for this controller: matched by SRC and SEQ, or counted as an orphan. -/
def arriveResponse (s : State) (n : Nat) (p : Packet) (req : Nat) : State :=
  if !portData s n || !(p.dst == s.xbar.agentId) then s
  else
    let s := takeIn s n p
    match (txStream s p.src).pkts.find? (fun u => u.pkt.seq == p.seq && u.pkt.opc.toNat == req) with
    | none => orphan s
    | some u =>
      if p.opc = 7 ∧ p.status = stStaleEpoch then staleAnswer s p.src u
      else answered s p.src u (if p.opc = 7 then p.status else 0) p.payload

def execReadRsp (port : Nat) (p : Packet) (s : State) : Host.Outcome State Fault Refusal :=
  onOk (portOk port && p.ok) (if p.opc == 5 then arriveResponse s port p 0 else s)
def execAtomicRsp (port : Nat) (p : Packet) (s : State) : Host.Outcome State Fault Refusal :=
  onOk (portOk port && p.ok) (if p.opc == 6 then arriveResponse s port p 4 else s)
def execErrRsp (port : Nat) (p : Packet) (s : State) : Host.Outcome State Fault Refusal :=
  onOk (portOk port && p.ok) (if p.opc == 7 then arriveResponse s port p (p.arg.toNat % 16) else s)
/-- A snoop answer: dirty data with DIRTY set, nothing otherwise (R152). -/
def execSnoopRsp (port : Nat) (p : Packet) (s : State) : Host.Outcome State Fault Refusal :=
  onOk (portOk port && p.ok) (if p.opc == 9 then
    arriveResponse s port { p with payload := if p.arg.getLsbD 0 then p.payload else [] } 8 else s)

/-! ### Packets for others (R133 to R137) -/

/-- Tells a source that a destination cannot be reached. -/
def noRouteTo (s : State) (src dst : BitVec 10) (part : BitVec 6) : State :=
  let s := logEvt s pXBAR 2
  (sendCtlBy s s.xbar.routeCur (mkCtl s 9 src part dst.toNat)).2

def isResponse (p : Packet) : Bool := p.cls == 1

/-- A packet that is not addressed to this controller goes on by its bank; a malformed request is answered by the
first controller that reads it (R127). -/
def forward (s : State) (n : Nat) (p : Packet) : State :=
  if !portData s n || isLocal s p.dst then s
  else
    let s := freeCells s n (subClass p) (cellsOf p)
    let go (bank : NatMap W32) : State :=
      match routePort s (routeGet bank p.dst) with
      | some (m, act) => portSend s m { p with dl := applyDL p.dl act }
      | none => noRouteTo s p.src p.dst p.part
    if isResponse p then go s.xbar.routeCur
    else if !firstReadOk p then answer (logRecord s pXBAR (packetFail p stFormat)) p stFormat []
    else match epochIs s p.epoch with
      | .ok => go (bankOf s p.epoch)
      | .stale => answerStale s p
      | .unknown => bump s (rk pXBAR 0x158) 32 1

def execPacketForward (port : Nat) (p : Packet) (s : State) : Host.Outcome State Fault Refusal :=
  onOk (portOk port && p.ok) (forward s port p)

/-! ### Acknowledgements (R128, R132, R138) -/

/-- A control message for this controller is taken in on a live port. -/
def takeCtl (s : State) (n : Nat) (m : CtlMsg) : State :=
  match ctlClass m with
  | some i => heardFrom (freeCells s n i 1) m.src
  | none => s

/-- SEQs that an ACK names. -/
def ackSeqs (base bitmap w : Nat) : List Nat :=
  ((List.range 64).filter (fun i => bit bitmap i)).map (fun i => (base + i) % 2 ^ w)

def ackOne (s : State) (a : BitVec 10) (st : Status) (seq : Nat) : State :=
  match (txStream s a).pkts.find? (fun u => u.pkt.seq.toNat == seq && u.pkt.opc != 0 && u.pkt.opc != 4 &&
      u.pkt.opc != 8) with
  | none => orphan s
  | some u => if st = stStaleEpoch then staleAnswer s a u else answered s a u st []

def execAck (port : Nat) (m : CtlMsg) (s : State) : Host.Outcome State Fault Refusal :=
  onOk (portOk port) (if portLive s port && m.ctype == 3 && m.dst == s.xbar.agentId then
    let st := BitVec.ofNat 8 (cfld m 20 1)
    (ackSeqs (cfld m 8 4) (cfld m 12 8) 32).foldl (fun s q => ackOne s m.src st q) (takeCtl s port m)
  else s)

/-! ### Replay and the dead-target bound (R141, R155, R156) -/

/-- The composition for which a request was sent (14 R405). -/
def jobOf (s : State) (o : Origin) : Option (BitVec 12) :=
  let byWick (w : Nat) : Option (BitVec 12) := (s.plan (s.wick w).handle.toNat).map (·.comp)
  let byQueue (q : Nat) : Option (BitVec 12) := some (BitVec.ofNat 12 (bits (s.queue q).cfg.toNat 25 12))
  let byAgent (a : BitVec 10) : Option (BitVec 12) :=
    (s.work.comps.find? (fun c => c.2.accels.any (fun x => x.agent == a) || c.2.host == a)).map
      (fun c => BitVec.ofNat 12 c.1)
  match o with
  | .wickLoad w _ _ _ _ _ => byWick w
  | .wickVLoad w _ => byWick w
  | .wickAmo w _ _ => byWick w
  | .wickPosted w _ _ => byWick w
  | .wickSem w _ _ _ => byWick w
  | .wickCadd w _ => byWick w
  | .transfer id => (s.work.xfers.find? (fun x => x.id = id)).bind (fun x => match x.queue, x.handle with
      | some (q, _), _ => byQueue q
      | none, some h => (s.plan h.toNat).map (·.comp)
      | none, none => none)
  | .ingress p => byAgent p.src
  | .part j _ => (s.xbar.joins.find? (fun e => e.id = j)).bind (fun e => byAgent e.whole.src)
  | .hostRead _ => byAgent (BitVec.ofNat 10 (bits (regGet s (rk pHOST 0x108)).toNat 0 10))
  | .hostWrite _ => byAgent (BitVec.ofNat 10 (bits (regGet s (rk pHOST 0x108)).toNat 0 10))
  | .post h => (s.plan h).map (·.comp)
  | .queueFence q _ => byQueue q
  | _ => none

/-- A teardown request goes out on both management ports (14 R405, 19 R526), unless the Lamplighter restarts or the
watchdog has given up. -/
def sendTeardown (s : State) (c : BitVec 12) : State :=
  if s.lamp.restarting || s.lamp.gaveUp then s
  else (List.range 2).foldl (fun s n => emit s (.frame 2 n none 0 [.bytes (leBytes 2 c.toNat)])) s

/-- Raises a teardown request for a composition (14 R405). -/
def raiseTeardown (s : State) (p : Packet) (c : BitVec 12) : State :=
  let s := logRecord (logEvt s pWORK 0) pWORK (packetFail p stTargetDead)
  let s := s.setComp c.toNat (fun k => { k with teardown := true })
  sendTeardown (s.setXbar (fun x => { x with
    teardowns := if x.teardowns.contains c then x.teardowns else x.teardowns ++ [c] })) c

/-- A packet not completed within the replay timeout is sent again. -/
def execReplayTimeout (dst : BitVec 10) (ctl : Bool) (seq : W32) (s : State) : Host.Outcome State Fault Refusal :=
  .next (
    if ctl then
      match (txStream s dst).ctls.find? (fun u => u.msg.cseq == seq.setWidth 16) with
      | none => s
      | some u =>
        let m := { u.msg with epoch := s.xbar.epochCur }
        let s := setTx s dst (fun t => { t with ctls := t.ctls.map (fun v =>
          if v.msg.cseq = m.cseq then { v with msg := m, resends := v.resends + 1, noRoute := false } else v) })
        sendCtl (bump s (rk pXBAR 0x140) 32 1) m
    else
      match (txStream s dst).pkts.find? (fun u => u.pkt.seq == seq && !u.held) with
      | none => s
      | some u => noteDrained (resend (bump s (rk pXBAR 0x140) 32 1) dst u))

/-- A packet reaches the dead-target bound: PATH_LOST or TARGET_DEAD, or a teardown request for a job-critical one. -/
def execDeadTargetBound (dst : BitVec 10) (ctl : Bool) (seq : W32) (s : State) : Host.Outcome State Fault Refusal :=
  .next (
    if ctl then
      match takeUnfinishedCtl s dst (seq.setWidth 16) with
      | (none, _) => s
      | (some u, t) =>
        let st := if u.noRoute then stPathLost else stTargetDead
        let p := dirPacket t 0 dst u.msg.part 0 0 []
        let f : Fail := { status := st, part := some u.msg.part, agent := some dst }
        let t := logErr t pXBAR (if u.noRoute then 2 else 1) f
        let t := if u.msg.ctype = 4 then noteFault t dst u.msg.part (cfld u.msg 8 4) st else t
        match u.origin with
        | .wickSem w d _ _ => semDone t w d st 0 false
        | o => complete t o p st [] true
    else
      match (txStream s dst).pkts.find? (fun u => u.pkt.seq == seq && !u.held) with
      | none => s
      | some u =>
        let st := if u.noRoute then stPathLost else stTargetDead
        match (if u.pkt.jc then jobOf s u.origin else none) with
        | some c =>
          raiseTeardown (setTx s dst (fun t => { t with pkts := t.pkts.map (fun v =>
            if v.pkt.seq = seq then { v with held := true } else v) })) u.pkt c
        | none =>
          let s := (takeUnfinished s dst seq).2
          let s := logErr s pXBAR (if u.noRoute then 2 else 1) (packetFail u.pkt st)
          noteDrained (finishSource s u st [] true))

/-! ### Credits (R144 to R146) -/

/-- A CREDIT message's counts are the credit given so far, the first being the peer's allocations; queued packets go. -/
def execCredit (port : Nat) (counts : List (BitVec 16)) (s : State) : Host.Outcome State Fault Refusal :=
  onOk (portOk port && countsOk counts) (if portLive s port then
    portDrain (s.setPort port (fun t => { t with
      peerReq := if t.credit.all (· == 0) then (counts.getD 0 0).toNat + (counts.getD 1 0).toNat else t.peerReq
      credit := counts })) port else s)

/-- A receiver's CREDIT: its cumulative counts of cells freed, its allocations included. -/
def creditBody (t : Port) : Nat := packN 16 (t.freed.map (·.toNat))

def execCreditSend (port : Nat) (s : State) : Host.Outcome State Fault Refusal :=
  onOk (portOk port) (if portLive s port && (s.port port).creditDue then
    emit (s.setPort port (fun t => { t with creditDue := false }))
      (.ctl port { mkCtl s 1 0 0 (creditBody (s.port port)) with src := 0, epoch := 0 })
  else s)

/-- A MARK's counts of cells sent, against those received: the difference was lost and is freed. -/
def execMark (port : Nat) (tag : BitVec 8) (counts : List (BitVec 16)) (s : State) :
    Host.Outcome State Fault Refusal :=
  onOk (portOk port && countsOk counts) (if portLive s port then
    let t := s.port port
    let lost := (List.range 10).map (fun i => counts.getD i 0 - t.received.getD i 0)
    let n := (lost.map (·.toNat)).sum
    let s := s.setPort port (fun t => { t with
      received := (List.range 12).map (fun i => if i < 10 then counts.getD i 0 else t.received.getD i 0),
      freed := (List.range 12).map (fun i => t.freed.getD i 0 + lost.getD i 0), framingLost := false,
      cwSeqRx := tag, creditDue := t.creditDue || n != 0 })
    if n = 0 then s else bump s (rk (pLNT port) 0x320) 32 n
  else s)

/-- At each mark stripe the transmitter sends its counts of cells sent, with the stripe's CW_SEQ; the next mark stripe
comes 64 codewords later (log entry 87). -/
def execMarkSend (port : Nat) (s : State) : Host.Outcome State Fault Refusal :=
  onOk (portOk port) (if portLive s port then
    let t := s.port port
    let q := t.cwSeqTx.toNat / 64 * 64
    emit (s.setPort port (fun t => { t with cwSeqTx := BitVec.ofNat 8 (q + 64) }))
      (.ctl port { mkCtl s 2 0 0 (packN 16 (t.sent.map (·.toNat))) with src := 0, epoch := 0, tag := BitVec.ofNat 8 q })
  else s)

end Sys2Proof.Machine
end

