-- ==== Sys2Proof/Machine/SyncOps.lean ====
section
/-! DEFINITION. Sync messages on the ports, the arrays of counters and semaphores in BAR0, and map epochs (05 R132, R136
to R139, R155, R159; 06 R171 to R176; 17 R482 to R484). -/
namespace Sys2Proof.Machine

/-! ### Semaphores (06 R174, R175) -/

/-- A SEM_RSP: the value before the operation, and TAKEN. -/
def semRsp (s : State) (m : CtlMsg) (st : Status) (val : W64) (taken : Bool) : CtlMsg :=
  { mkCtl s 6 m.src m.part (cfld m 8 4 + 2 ^ 32 * st.toNat + 2 ^ 40 * b2n taken + 2 ^ 64 * val.toNat) with
    src := m.dst, cseq := m.cseq }

/-- What a window keeps of a SEM_OP: the value and TAKEN. -/
def semResult (val : W64) (taken : Bool) : List Byte := leBytes 8 val.toNat ++ [BitVec.ofNat 8 (b2n taken)]

/-- Answers a peer's SEM_OP and records the answer. -/
def answerSem (s : State) (m : CtlMsg) (st : Status) (val : W64) (taken : Bool) : State :=
  sendCtl (markCseq s m (.applied st (semResult val taken))) (semRsp s m st val taken)

/-- Answers whoever holds a WAIT_DEC. -/
def answerHeld (s : State) (h : HeldWait) (val : W64) (taken : Bool) : State :=
  match h.peer, h.wick with
  | some m, _ => answerSem s m 0 val taken
  | none, some (w, d) => semDone s w d 0 val taken
  | none, none => s

def dropFirst (p : HeldWait → Bool) : List HeldWait → List HeldWait
  | [] => []
  | h :: r => if p h then r else h :: dropFirst p r

/-- Serves the held WAIT_DECs of a semaphore in their order, while the head can be taken. -/
def serveSem : Nat → State → Nat → State
  | 0, s, _ => s
  | n + 1, s, k =>
    match s.sync.held.find? (fun h => h.sem = k) with
    | none => s
    | some h =>
      let v := semGet s k
      if h.operand ≤ v then
        let s := semSet (s.setSync (fun y => { y with held := dropFirst (fun h => h.sem = k) y.held })) k (v - h.operand)
        serveSem n (answerHeld s h v true) k
      else s

def serve (s : State) (k : Nat) : State := serveSem s.sync.held.length s k

/-- What a semaphore operation answers at once: the prior value and TAKEN; none if it is held. -/
def semOp (s : State) (k op : Nat) (x : W64) (hold : HeldWait) : Option (W64 × Bool) × State :=
  let v := semGet s k
  match op with
  | 0 => (some (v, false), s)
  | 1 => (some (v, false), serve (semSet s k (v + x)) k)
  | 2 =>
    if x ≤ v ∧ s.sync.held.all (fun h => h.sem ≠ k) then (some (v, true), semSet s k (v - x))
    else if 4096 ≤ s.sync.held.length then (some (v, false), bump s (rk pSYNC 0x110) 32 1)
    else (none, s.setSync (fun y => { y with held := y.held ++ [hold] }))
  | 3 => if x ≤ v then (some (v, true), semSet s k (v - x)) else (some (v, false), s)
  | _ => (some (v, false), serve (semSet s k x) k)

/-! ### Messages that arrive (05 R132, R142) -/

/-- Answers a control request with a status alone. -/
def answerCtl (s : State) (m : CtlMsg) (st : Status) : State :=
  if m.ctype = 5 then sendCtl s (semRsp s m st 0 false) else sendCtl s (csackOf s m st)

/-- Records a status and answers with it. -/
def finishCtl (s : State) (m : CtlMsg) (st : Status) : State := answerCtl (markCseq s m (.applied st [])) m st

/-- A CNT_ADD or SEM_OP for this controller: epoch, duplicate window, partition, form; then its effect. -/
def arriveCtl (s : State) (n : Nat) (m : CtlMsg) (owner : BitVec 6) (id : Nat) (formBad : Option Nat)
    (act : State → State) : State :=
  if !portLive s n || !isLocal s m.dst then s
  else
    let s := takeCtl s n m
    match epochIs s m.epoch with
    | .stale => answerCtl s m stStaleEpoch
    | .unknown => bump s (rk pXBAR 0x158) 32 1
    | .ok =>
      let w := rxWindow s m.src
      match judge 16 (w.cnewest.map (·.toNat)) w.cseqs w.restarted m.cseq.toNat with
      | .expired => answerCtl s m stReplayExpired
      | .discard => bump s (rk pXBAR 0x148) 32 1
      | .again st r =>
        let s := bump s (rk pXBAR 0x148) 32 1
        if m.ctype = 5 then sendCtl s (semRsp s m st (BitVec.ofNat 64 (leNat (slice r 0 8))) (r.getD 8 0 != 0))
        else answerCtl s m st
      | .perform =>
        let s := markCseq s m .inProgress
        let f : Fail := { status := stPerm, part := some m.part, agent := some m.src, info := id }
        if !agentMay s m.src m.part then finishCtl (logRecord s pXBAR f) m stPerm
        else if owner ≠ m.part then finishCtl (ownerFault s m.part (some m.src) id) m stPerm
        else match formBad with
          | some b => finishCtl (if b = 0x3F then logRecord s pXBAR { f with status := stFormat }
              else logErr s pSYNC b { f with status := stFormat }) m stFormat
          | none => act s

/-- CNT_ADD: the increment is added, then acknowledged (06 R171). -/
def execCntAdd (port : Nat) (m : CtlMsg) (s : State) : Host.Outcome State Fault Refusal :=
  let k := cfld m 8 4 % 2 ^ 17
  onOk (portOk port) (if m.ctype == 4 then
    arriveCtl s port m (counterOwner s k) k
      (if m.rsvd ∨ 2 ^ 17 ≤ cfld m 8 4 then some 0x3F else none)
      (fun s => finishCtl (hubAdd s k (BitVec.ofNat 64 (cfld m 12 8))) m 0)
  else s)

/-- A SEM_OP row: the message must hold the row's operation. -/
def semRow (port : Nat) (m : CtlMsg) (op : Nat) (s : State) : Host.Outcome State Fault Refusal :=
  let k := cfld m 8 4 % 2 ^ 15
  onOk (portOk port) (if m.ctype == 5 && decide (cfld m 12 1 = op) then
    arriveCtl s port m (semOwner s k) k (if m.rsvd ∨ 2 ^ 15 ≤ cfld m 8 4 then some 0x3F else none)
      (fun s =>
        let x := BitVec.ofNat 64 (cfld m 16 8)
        match semOp s k op x { sem := k, operand := x, part := m.part, peer := some m, wick := none } with
        | (some (v, t), s) => answerSem s m 0 v t
        | (none, s) => s)
  else s)

def execSemRead (port : Nat) (m : CtlMsg) (s : State) : Host.Outcome State Fault Refusal := semRow port m 0 s
def execSignal (port : Nat) (m : CtlMsg) (s : State) : Host.Outcome State Fault Refusal := semRow port m 1 s
def execWaitDec (port : Nat) (m : CtlMsg) (s : State) : Host.Outcome State Fault Refusal := semRow port m 2 s
def execTryDec (port : Nat) (m : CtlMsg) (s : State) : Host.Outcome State Fault Refusal := semRow port m 3 s
/-- SET; a reserved operation arrives the same way and is answered FORMAT_ERROR (06 R174). -/
def execSet (port : Nat) (m : CtlMsg) (s : State) : Host.Outcome State Fault Refusal :=
  if 4 < cfld m 12 1 then
    let k := cfld m 8 4 % 2 ^ 15
    onOk (portOk port) (if m.ctype == 5 then arriveCtl s port m (semOwner s k) k (some 2) id else s)
  else semRow port m 4 s

/-- A WAIT_DEC held for half the dead-target bound: answered with TAKEN = 0; its engine sends it again (06 R175). -/
def execWaitDecTimeout (sem : Nat) (s : State) : Host.Outcome State Fault Refusal :=
  onOk (semaphoreOk sem) (match s.sync.held.find? (fun h => h.sem = sem) with
  | none => s
  | some h =>
    let s := bump (s.setSync (fun y => { y with held := dropFirst (fun h => h.sem = sem) y.held })) (rk pSYNC 0x110) 32 1
    let s := serve s sem
    match h.peer, h.wick with
    | some m, _ => answerSem s m 0 (semGet s sem) false
    | none, _ => match semOp s sem 2 h.operand h with
      | (some (v, true), s) => answerHeld s h v true
      | (_, s) => s)

/-- A SEM_RSP completes a SEM_OP; an untaken WAIT_DEC is sent again as a new message (06 R175). -/
def execSemRsp (port : Nat) (m : CtlMsg) (s : State) : Host.Outcome State Fault Refusal :=
  onOk (portOk port) (if portLive s port && m.ctype == 6 && m.dst == s.xbar.agentId then
    let s := takeCtl s port m
    match (txStream s m.src).ctls.find? (fun u => u.msg.cseq == m.cseq && u.msg.ctype == 5) with
    | none => orphan s
    | some u =>
      let st := BitVec.ofNat 8 (cfld m 12 1)
      if st = stStaleEpoch then
        let s := bump s (rk pXBAR 0x150) 32 1
        let s := commitStale s
        let msg := { u.msg with epoch := s.xbar.epochCur }
        sendCtl (setTx s m.src (fun t => { t with ctls := t.ctls.map (fun v =>
          if v.msg.cseq = msg.cseq then { v with msg := msg } else v) })) msg
      else
        let s := (takeUnfinishedCtl s m.src m.cseq).2
        let taken := bit (cfld m 13 1) 0
        let s := if st = stReplayExpired then logErr s pXBAR 4
            { status := st, part := some u.msg.part, agent := some m.src, info := cfld u.msg 8 4 % 2 ^ 15 } else s
        match u.origin with
        | .wickSem w d op isWait =>
          if st = 0 ∧ isWait ∧ ¬ taken then
            launchCtl s { u.msg with epoch := s.xbar.epochCur } (.wickSem w d op isWait)
          else semDone s w d st (BitVec.ofNat 64 (cfld m 16 8)) taken
        | _ => s
  else s)

/-- A CSACK completes CNT_ADDs, with a status or with none (05 R132). -/
def csackOne (s : State) (a : BitVec 10) (st : Status) (seq : Nat) : State :=
  match (txStream s a).ctls.find? (fun u => u.msg.cseq.toNat == seq && u.msg.ctype == 4) with
  | none => orphan s
  | some u =>
    if st = stStaleEpoch then
      let s := bump s (rk pXBAR 0x150) 32 1
      let s := commitStale s
      let msg := { u.msg with epoch := s.xbar.epochCur }
      sendCtl (setTx s a (fun t => { t with ctls := t.ctls.map (fun v =>
        if v.msg.cseq = msg.cseq then { v with msg := msg } else v) })) msg
    else
      let s := (takeUnfinishedCtl s a u.msg.cseq).2
      let f : Fail := { status := st, part := some u.msg.part, agent := some a, info := cfld u.msg 8 4 }
      let s := if st = stReplayExpired then logErr s pXBAR 4 f else s
      let s := noteFault s a u.msg.part (cfld u.msg 8 4) st
      complete s u.origin (dirPacket s 0 a u.msg.part 0 0 []) st [] true

def execCsack (port : Nat) (m : CtlMsg) (s : State) : Host.Outcome State Fault Refusal :=
  onOk (portOk port) (if portLive s port && m.ctype == 0xB && m.dst == s.xbar.agentId then
    (ackSeqs (cfld m 8 2) (cfld m 10 8) 16).foldl (fun s q => csackOne s m.src (BitVec.ofNat 8 (cfld m 18 1)) q)
      (takeCtl s port m)
  else s)

/-- A NO_ROUTE notes that a destination is unreachable (05 R155). -/
def execNoRoute (port : Nat) (m : CtlMsg) (s : State) : Host.Outcome State Fault Refusal :=
  onOk (portOk port) (if portLive s port && m.ctype == 9 && m.dst == s.xbar.agentId then
    let a := BitVec.ofNat 10 (cfld m 8 2)
    setTx (freeCells s port 8 1) a (fun t => { t with pkts := t.pkts.map (fun u => { u with noRoute := true }),
                                                      ctls := t.ctls.map (fun u => { u with noRoute := true }) })
  else s)

/-! ### CNT_ADDs of this controller -/

/-- Adds to a hub counter of a controller for an engine of this one: over the package ring at home, by CNT_ADD
elsewhere. What a local failure brings is told as a completion is. -/
def sendCntAdd (s : State) (agent : BitVec 10) (part : BitVec 6) (k : Nat) (v : W64) (o : Origin) : State :=
  if agent = s.xbar.agentId then
    let s := bump s (rk pSYNC 0x120) 48 1
    let p := dirPacket s 0 agent part 0 0 []
    if counterOwner s k ≠ part then
      complete (noteFault (ownerFault s part (some agent) k) agent part k stPerm) o p stPerm [] true
    else complete (hubAdd s k v) o p 0 [] true
  else launchCtl s (mkCtl s 4 agent part (k + 2 ^ 32 * v.toNat)) o

/-! ### The arrays in BAR0 (17 R482 to R484) -/

def hubOff (k : Nat) : Nat := 0x1000000 + 8 * k
def semOff (k : Nat) : Nat := 0x1100000 + 8 * k
def localOff (sc n : Nat) : Nat := 0x1180000 + 0x2000 * sc + 8 * n

def execHubCounterWrite (src : RegSrc) (k size : Nat) (v : W64) (s : State) : Host.Outcome State Fault Refusal :=
  onOk (src.ok && counterOk k) (
    if size ≠ 8 then dropWrite s src (hubOff k)
    else if counterOwner s k ≠ srcPart src then ownerFault s (srcPart src) none k
    else hubAdd s k v)

def execLocalCounterWrite (src : RegSrc) (sc n size : Nat) (v : W64) (s : State) : Host.Outcome State Fault Refusal :=
  onOk (src.ok && sconceOk sc && localOk n) (
    if size ≠ 8 then dropWrite s src (localOff sc n)
    else if sconceOwner s sc ≠ srcPart src then ownerFault s (srcPart src) none n
    else localAdd s sc n v)

/-- A virtual function sees only what its partition owns (17 R479). -/
def seesPart (src : RegSrc) (owner : BitVec 6) : Bool :=
  match src with
  | .vf n => owner == BitVec.ofNat 6 n
  | _ => true

def execSemaphoreRead (src : RegSrc) (k : Nat) (s : State) : Host.Outcome State Fault Refusal :=
  onOk (src.ok && semaphoreOk k)
    (emit s (.regRead src (semOff k) (if seesPart src (semOwner s k) then semGet s k else 0)))

def execSemaphoreWrite (src : RegSrc) (k size : Nat) (v : W64) (s : State) : Host.Outcome State Fault Refusal :=
  onOk (src.ok && semaphoreOk k) (
    if size ≠ 8 then dropWrite s src (semOff k)
    else if semOwner s k ≠ srcPart src then ownerFault s (srcPart src) none k
    else serve (semSet s k (semGet s k + v)) k)

/-! ### Map epochs (05 R136 to R139) -/

/-- A reset of R422 holds the block of a page: a sconce, or, at level 4, the work engine and the translation unit. -/
def inReset (s : State) (p : Nat) : Bool :=
  if 90 ≤ p then (s.sconce (p - 90)).resetting
  else (p == pWORK || p == pXLT) && (computeReset s).isSome

/-- A write of a page's register by a virtual function that does not see it, or while the page is in reset, is dropped
(17 R472, R479, R481). Only the physical function and the Lamplighter reach the XBAR page. -/
def pfOnly (s : State) (src : RegSrc) (off : Nat) (f : State → State) : State :=
  match src with
  | .vf _ => dropWrite s src off
  | _ => if !mainUp s then s else if ((pageOf off).map (inReset s)).getD false then dropWrite s src off else f s

def refuseEpoch (s : State) : State := refuse s pXBAR 3 0x118

/-- Every attached accelerator has answered PREPARED. -/
def notePrepared (s : State) : State :=
  if s.xbar.otherState = 1 ∧ s.xbar.otherFrozen ∧ ¬ s.xbar.prepared ∧
      (attached s).all (fun a => s.xbar.preparedBy.contains a) then
    logEvt (s.setXbar (fun x => { x with prepared := true })) pXBAR 0
  else s

def execPrepare (src : RegSrc) (epoch : Byte) (s : State) : Host.Outcome State Fault Refusal :=
  onOk src.ok (pfOnly s src (rk pXBAR 0x118) (fun s =>
    if s.xbar.otherState ≠ 0 ∨ epoch ≠ s.xbar.epochCur + 1 then refuseEpoch s
    else
      let s := s.setXbar (fun x => { x with
        epochOther := epoch, otherState := 1, otherFrozen := true, prepared := false, preparedBy := [] })
      notePrepared (passEpoch s 1 epoch)))

def execPrepared (port : Nat) (m : CtlMsg) (s : State) : Host.Outcome State Fault Refusal :=
  onOk (portOk port) (if portLive s port && m.ctype == 8 && cfld m 8 1 == 2 && m.dst == s.xbar.agentId then
    let s := freeCells s port 8 1
    if s.xbar.otherState = 1 ∧ cfld m 9 1 = s.xbar.epochOther.toNat then
      notePrepared (s.setXbar (fun x => { x with preparedBy := x.preparedBy ++ [m.src] }))
    else s
  else s)

/-- A commit that adds agents starts the streams to and from them at SEQ 0 and CSEQ 0 (R139). -/
def restartStreams (s : State) (added : List (BitVec 10)) : State :=
  added.foldl (fun s a => setRx (setTx s a (fun t => { t with nextSeq := 0, nextCseq := 0 })) a
    (fun _ => RxWindow.fresh)) s

def execCommit (src : RegSrc) (epoch : Byte) (added : List (BitVec 10)) (s : State) :
    Host.Outcome State Fault Refusal :=
  onOk src.ok (pfOnly s src (rk pXBAR 0x118) (fun s =>
    if s.xbar.otherState ≠ 1 ∨ ¬ s.xbar.prepared ∨ epoch ≠ s.xbar.epochOther then refuseEpoch s
    else noteDrained (passEpoch (restartStreams (commitEpoch s) added) 3 epoch)))

def execRetire (src : RegSrc) (epoch : Byte) (s : State) : Host.Outcome State Fault Refusal :=
  onOk src.ok (pfOnly s src (rk pXBAR 0x118) (fun s =>
    if s.xbar.otherState ≠ 2 ∨ ¬ s.xbar.drained ∨ epoch ≠ s.xbar.epochOther then refuseEpoch s
    else
      let s := passEpoch s 5 epoch
      s.setXbar (fun x => { x with routeOther := [], otherState := 0, otherFrozen := false, drained := false })))

/-- A write of ROUTE_DATA: the entry of the bank that is not current, unless it is frozen. -/
def execRouteData (src : RegSrc) (v : W64) (s : State) : Host.Outcome State Fault Refusal :=
  onOk src.ok (pfOnly s src (rk pXBAR 0x128) (fun s =>
    let sel := (regGet s (rkBank pXBAR 0x120 (srcBank src))).toNat
    if !bit sel 16 || s.xbar.otherFrozen then refuse s pXBAR 0 0x128
    else s.setXbar (fun x => { x with routeOther := tput x.routeOther (bits sel 0 10) (BitVec.ofNat 32 (bits v.toNat 0 13)) })))

end Sys2Proof.Machine
end

