-- ==== Sys2Proof/Machine/Mirror.lean ====
section
/-! DEFINITION. A rebuild in progress: the blocks that SEND copies one by one, the marks that RECEIVE clears as its
counter advances, and how either ends (15 R432 to R437, R443). -/
namespace Sys2Proof.Machine

/-- Blocks of an extent. -/
abbrev extentBlocks : Nat := 16384

/-- The local extent that holds the data of source extent `x` of a rebuild: of the own home, or as the guest map says;
`serve` is what SERVE must say. -/
def rebuildExtent (s : State) (home : BitVec 6) (x : Nat) (serve : Bool) : Option Nat :=
  if home = s.store.homeId then some x
  else ((s.store.guest.map (·.2)).find? (fun g => g.getLsbD 38 && g.getLsbD 39 == serve &&
    decide (bits g.toNat 16 6 = home.toNat ∧ bits g.toNat 22 16 = x))).map (fun g => bits g.toNat 0 16)

/-- The local block of block `j` of a rebuild. -/
def rebuildBlock (s : State) (r : Rebuild) (j : Nat) : Nat :=
  extentBlocks * (rebuildExtent s r.srcHome (r.extent.toNat + j / extentBlocks) r.send).getD 0 + j % extentBlocks

def rebuildTotal (r : Rebuild) : Nat := r.count * extentBlocks

/-- REBUILD_STAT of a rebuild that is over. -/
def rebuildWord (r : Rebuild) (st : Status) : W64 :=
  BitVec.ofNat 64 (2 * b2n (!r.send) + 2 ^ 8 * st.toNat + 2 ^ 16 * r.done + 2 ^ 48 * (r.done / extentBlocks))

/-- A rebuild is over: REBUILD_STAT, and REBUILD_STOPPED with its record or REBUILD_DONE. -/
def closeRebuild (s : State) (r : Rebuild) (st : Status) : State :=
  let s := s.setStore (fun z => { z with rebuild := none, rebuildStat := rebuildWord r st })
  if st = 0 then logEvt s pPLC 3
  else logErr s pPLC 5 { status := st, kind := 2, addr := 64 * tweakOf s.store r.badLine, part := some 0,
                         agent := some r.peer }

/-- Its command completes: blocks restored, and whole extents. -/
def finishRebuild (s : State) (r : Rebuild) (st : Status) : State :=
  endCommand (closeRebuild s r st) r.q r.tag st (BitVec.ofNat 64 (r.done % 2 ^ 32 + 2 ^ 32 * (r.done / extentBlocks)))

/-- The ciphertext of a line as it is stored; what a line that nothing has written holds is free. -/
def storedLine (s : State) (l : Nat) : List Byte × State :=
  if s.store.written.contains l then (bytesOf (lineStored s l), s)
  else (List.range 8).foldl (fun acc _ => let (f, s) := draw acc.2; (acc.1 ++ leBytes 8 f.toNat, s)) ([], s)

/-- Ciphertext of four lines from a line on. -/
def storedLines (s : State) (l : Nat) : List Byte × State :=
  (List.range 4).foldl (fun acc i => let (d, s) := storedLine acc.2 (l + i); (acc.1 ++ d, s)) ([], s)

/-- A block that SEND cannot read: its status and the line. -/
def unreadable (s : State) (b : Nat) : Option (Status × Nat) :=
  let k := blockGet s b
  if k.lost then some (stLost, 1024 * b)
  else match (linesOf (65536 * b) 65536).find? (lineForfeit s) with
    | some l => some (stForfeit, l)
    | none =>
      if targetLost s (targetOf b k.loc) then some (stUncorr, 1024 * b)
      else (readBadLine s (65536 * b) 65536).map (fun l => (stUncorr, l))

/-- SEND begins the next block: its 256 TWIN_WRITEs go to the spare (R435). -/
def sendBlock (s : State) (r : Rebuild) : State :=
  let b := rebuildBlock s r r.copied
  match unreadable s b with
  | some (st, l) => finishRebuild s { r with badLine := l } st
  | none =>
    let s := s.setStore (fun z => { z with rebuild := some { r with copied := r.copied + 1, open_ := 256 } })
    (List.range 256).foldl (fun s i =>
      let l := 1024 * b + 4 * i
      let (d, s) := storedLines s l
      let p := { twinPacket s (dirPacket s 0xB r.peer 0 l 0 []) r.peer l 4 with payload := d, ekind := 3, eidx := 32 }
      bump (sendNew s p (.rebuild r.id)) (rk pPLC 0x220) 48 1) s

/-- SEND goes on: a block that the spare has acknowledged whole adds 1 to its counter, and the next begins. -/
def stepSend (s : State) (r : Rebuild) : State :=
  if r.bad ≠ 0 then finishRebuild s r r.bad
  else if r.open_ ≠ 0 then s
  else
    let s := if r.done < r.copied then sendCntAdd s r.peer 0 r.counter 1 (.engine .work) else s
    let r := { r with done := r.copied }
    let s := s.setStore (fun z => { z with rebuild := some r })
    if r.copied < rebuildTotal r then sendBlock s r else s

/-- RECEIVE goes on: block `j` loses its mark when the counter exceeds `j` (R434). -/
def stepReceive (s : State) (r : Rebuild) : State :=
  let n := min (hubGet s r.counter).toNat (rebuildTotal r)
  let s := (List.range (n - r.done)).foldl (fun s i =>
    blockSet s (rebuildBlock s r (r.done + i)) (fun k => { k with lost := false })) s
  let r := { r with done := max r.done n }
  let s := s.setStore (fun z => { z with rebuild := some r })
  if rebuildTotal r ≤ n then finishRebuild s r 0 else s

def stepRebuild (s : State) : State :=
  match s.store.rebuild with
  | none => s
  | some r => if r.send then stepSend s r else stepReceive s r

end Sys2Proof.Machine
end

