-- ==== Sys2Proof/Machine/Vector.lean ====
section
/-! DEFINITION. Vector arithmetic, masks, lane moves, special functions, conversions and the dot unit (08 R238 to
R246; 07 R193 to R212, R535). -/
namespace Sys2Proof.Machine

/-! ### Predicated lanes (R238) -/

/-- A lane result: its 32 bits and the flags it raises. -/
abbrev LaneRes := Nat × FFlags

/-- The flags raised by the lanes that a mask enables. -/
def lanesFlags (m : W16) (rs : List LaneRes) : FFlags :=
  ((List.range 16).zip rs).foldl (fun f e => if m.getLsbD e.1 then f ||| e.2.2 else f) 0

/-- The lanes of a result under a mask; the others keep the old value. -/
def mergeLanes (m : W16) (old : W512) (rs : List LaneRes) : W512 :=
  ofLanes ((List.range 16).map (fun i => if m.getLsbD i then (rs.getD i (0, 0)).1 else laneAt old i))

/-- Writes lane results into vD under the mask that PK names. -/
def vecWrite (i : W32) (f : Wick → Nat → LaneRes) (k : Wick) : Wick :=
  let m := rdK k (wPK i)
  let rs := (List.range 16).map (f k)
  raise (wrV k (wD i) (mergeLanes m (rdV k (wD i)) rs)) (lanesFlags m rs)

/-- vD = f(vA, vB) in each enabled lane. -/
def valu2 (w : Nat) (i : W32) (f : Nat → Nat → LaneRes) (s : State) : State :=
  wickDo w (vecWrite i (fun k l => f (laneAt (rdV k (wA i)) l) (laneAt (rdV k (wB i)) l))) s
/-- vD = f(vA, vB, vD). -/
def valu3 (w : Nat) (i : W32) (f : Nat → Nat → Nat → LaneRes) (s : State) : State :=
  wickDo w (vecWrite i (fun k l =>
    f (laneAt (rdV k (wA i)) l) (laneAt (rdV k (wB i)) l) (laneAt (rdV k (wD i)) l))) s
/-- vD = f(vA). -/
def valu1 (w : Nat) (i : W32) (f : Nat → LaneRes) (s : State) : State :=
  wickDo w (vecWrite i (fun k l => f (laneAt (rdV k (wA i)) l))) s

/-- A 32-bit integer lane operation. -/
def int2 (f : W32 → W32 → W32) (a b : Nat) : LaneRes := ((f (BitVec.ofNat 32 a) (BitVec.ofNat 32 b)).toNat, 0)

def execFadd (w : Nat) (word : W32) (s : State) : Host.Outcome State Fault Refusal :=
  wickRun .fadd w word s (valu2 w word f32Add)
def execFsub (w : Nat) (word : W32) (s : State) : Host.Outcome State Fault Refusal :=
  wickRun .fsub w word s (valu2 w word (fun a b => f32Add a (f32Neg b)))
def execFmul (w : Nat) (word : W32) (s : State) : Host.Outcome State Fault Refusal :=
  wickRun .fmul w word s (valu2 w word f32Mul)
def execFma (w : Nat) (word : W32) (s : State) : Host.Outcome State Fault Refusal :=
  wickRun .fma w word s (valu3 w word f32Fma)
def execFnma (w : Nat) (word : W32) (s : State) : Host.Outcome State Fault Refusal :=
  wickRun .fnma w word s (valu3 w word f32Fnma)
def execFmin (w : Nat) (word : W32) (s : State) : Host.Outcome State Fault Refusal :=
  wickRun .fmin w word s (valu2 w word (fun a b => (f32Code (fmin (f32 a) (f32 b)), 0)))
def execFmax (w : Nat) (word : W32) (s : State) : Host.Outcome State Fault Refusal :=
  wickRun .fmax w word s (valu2 w word (fun a b => (f32Code (fmax (f32 a) (f32 b)), 0)))
def execFabs (w : Nat) (word : W32) (s : State) : Host.Outcome State Fault Refusal :=
  wickRun .fabs w word s (valu1 w word (fun a => (f32Abs a, 0)))
def execFneg (w : Nat) (word : W32) (s : State) : Host.Outcome State Fault Refusal :=
  wickRun .fneg w word s (valu1 w word (fun a => (f32Neg a, 0)))
def execIadd (w : Nat) (word : W32) (s : State) : Host.Outcome State Fault Refusal :=
  wickRun .iadd w word s (valu2 w word (int2 (· + ·)))
def execIsub (w : Nat) (word : W32) (s : State) : Host.Outcome State Fault Refusal :=
  wickRun .isub w word s (valu2 w word (int2 (· - ·)))
def execImul (w : Nat) (word : W32) (s : State) : Host.Outcome State Fault Refusal :=
  wickRun .imul w word s (valu2 w word (int2 (· * ·)))
def execValuAnd (w : Nat) (word : W32) (s : State) : Host.Outcome State Fault Refusal :=
  wickRun .valuAnd w word s (valu2 w word (int2 (· &&& ·)))
def execValuOr (w : Nat) (word : W32) (s : State) : Host.Outcome State Fault Refusal :=
  wickRun .valuOr w word s (valu2 w word (int2 (· ||| ·)))
def execValuXor (w : Nat) (word : W32) (s : State) : Host.Outcome State Fault Refusal :=
  wickRun .valuXor w word s (valu2 w word (int2 (· ^^^ ·)))
def execValuShl (w : Nat) (word : W32) (s : State) : Host.Outcome State Fault Refusal :=
  wickRun .valuShl w word s (valu2 w word (int2 (fun a b => a <<< (b.toNat % 32))))
def execValuShr (w : Nat) (word : W32) (s : State) : Host.Outcome State Fault Refusal :=
  wickRun .valuShr w word s (valu2 w word (int2 (fun a b => a >>> (b.toNat % 32))))
def execValuSar (w : Nat) (word : W32) (s : State) : Host.Outcome State Fault Refusal :=
  wickRun .valuSar w word s (valu2 w word (int2 (fun a b => a.sshiftRight (b.toNat % 32))))
def execImin (w : Nat) (word : W32) (s : State) : Host.Outcome State Fault Refusal :=
  wickRun .imin w word s (valu2 w word (int2 (fun a b => if b.slt a then b else a)))
def execImax (w : Nat) (word : W32) (s : State) : Host.Outcome State Fault Refusal :=
  wickRun .imax w word s (valu2 w word (int2 (fun a b => if a.slt b then b else a)))
def execMov (w : Nat) (word : W32) (s : State) : Host.Outcome State Fault Refusal :=
  wickRun .mov w word s (valu1 w word (fun a => (a, 0)))
def execCvtif (w : Nat) (word : W32) (s : State) : Host.Outcome State Fault Refusal :=
  wickRun .cvtif w word s (valu1 w word (fun a => toFP32 (fint (sval 32 a))))
def execCvtfi (w : Nat) (word : W32) (s : State) : Host.Outcome State Fault Refusal :=
  wickRun .cvtfi w word s (valu1 w word (fun a =>
    let (v, g) := toInt 32 .rne (f32 a); ((BitVec.ofInt 32 v).toNat, g)))

/-! ### Masks (R240) -/

/-- The mask of the enabled lanes where a relation holds. -/
def cmpMask (m : W16) (a b : W512) (f : Nat → Nat → Bool) : W16 :=
  BitVec.ofNat 16 (packN 1 ((List.range 16).map (fun l => b2n (m.getLsbD l && f (laneAt a l) (laneAt b l)))))

def vcmp (w : Nat) (i : W32) (f : Nat → Nat → Bool) (s : State) : State :=
  wickDo w (fun k => wrK k (wD i) (cmpMask (rdK k (wPK i)) (rdV k (wA i)) (rdV k (wB i)) f)) s

/-- An FP32 relation, false with a NaN operand. -/
def fcmpIs (ok : Ordering → Bool) (a b : Nat) : Bool :=
  f32 a != .nan && f32 b != .nan && ok (fcmp (f32 a) (f32 b))

def kop (w : Nat) (i : W32) (f : W16 → W16 → W16) (s : State) : State :=
  wickDo w (fun k => wrK k (wD i) (f (rdK k (wA i)) (rdK k (wB i)))) s

def execFeq (w : Nat) (word : W32) (s : State) : Host.Outcome State Fault Refusal :=
  wickRun .feq w word s (vcmp w word (fcmpIs (· == .eq)))
def execFlt (w : Nat) (word : W32) (s : State) : Host.Outcome State Fault Refusal :=
  wickRun .flt w word s (vcmp w word (fcmpIs (· == .lt)))
def execFle (w : Nat) (word : W32) (s : State) : Host.Outcome State Fault Refusal :=
  wickRun .fle w word s (vcmp w word (fcmpIs (· != .gt)))
def execFunord (w : Nat) (word : W32) (s : State) : Host.Outcome State Fault Refusal :=
  wickRun .funord w word s (vcmp w word (fun a b => f32 a == .nan || f32 b == .nan))
def execIeq (w : Nat) (word : W32) (s : State) : Host.Outcome State Fault Refusal :=
  wickRun .ieq w word s (vcmp w word (fun a b => a == b))
def execIlt (w : Nat) (word : W32) (s : State) : Host.Outcome State Fault Refusal :=
  wickRun .ilt w word s (vcmp w word (fun a b => (BitVec.ofNat 32 a).slt (BitVec.ofNat 32 b)))
def execIltu (w : Nat) (word : W32) (s : State) : Host.Outcome State Fault Refusal :=
  wickRun .iltu w word s (vcmp w word (fun a b => decide (a < b)))
def execKand (w : Nat) (word : W32) (s : State) : Host.Outcome State Fault Refusal :=
  wickRun .kand w word s (kop w word (· &&& ·))
def execKor (w : Nat) (word : W32) (s : State) : Host.Outcome State Fault Refusal :=
  wickRun .kor w word s (kop w word (· ||| ·))
def execKxor (w : Nat) (word : W32) (s : State) : Host.Outcome State Fault Refusal :=
  wickRun .kxor w word s (kop w word (· ^^^ ·))
def execKandn (w : Nat) (word : W32) (s : State) : Host.Outcome State Fault Refusal :=
  wickRun .kandn w word s (kop w word (fun a b => a &&& ~~~ b))
def execKfroms (w : Nat) (word : W32) (s : State) : Host.Outcome State Fault Refusal :=
  wickRun .kfroms w word s (wickDo w (fun k => wrK k (wD word) ((rdS k (wA word)).setWidth 16)))
def execKtos (w : Nat) (word : W32) (s : State) : Host.Outcome State Fault Refusal :=
  wickRun .ktos w word s (wickDo w (fun k => wrS k (wD word) ((rdK k (wA word)).setWidth 64)))
def execKpop (w : Nat) (word : W32) (s : State) : Host.Outcome State Fault Refusal :=
  wickRun .kpop w word s (wickDo w (fun k =>
    wrS k (wD word) (BitVec.ofNat 64 (Sys2Proof.Machine.popc 16 (rdK k (wA word)).toNat))))

/-! ### Lane moves and reductions (R241) -/

/-- The low 32 bits of a scalar. -/
def lowWord (v : W64) : Nat := v.toNat % 2 ^ 32

/-- One level of the REDSUM tree: lane i with lane i + n. -/
def redLevel (n : Nat) (l : List LaneRes) : List LaneRes :=
  (List.range n).map (fun i =>
    let (a, f) := l.getD i (0, 0)
    let (b, g) := l.getD (i + n) (0, 0)
    let (r, h) := f32Add a b
    (r, f ||| g ||| h))

/-- The FP32 sum of 16 lanes by the fixed tree, with the flags of its additions. -/
def redSum (l : List Nat) : LaneRes :=
  (redLevel 1 (redLevel 2 (redLevel 4 (redLevel 8 (l.map (fun x => (x, 0))))))).getD 0 (0, 0)

def redMax (l : List Nat) : Nat := f32Code ((l.map f32).tail.foldl fmax (f32 (l.headD 0)))

/-- A reduction of vA into every lane of vD. -/
def reduce (w : Nat) (i : W32) (f : List Nat → LaneRes) (s : State) : State :=
  wickDo w (fun k =>
    let (r, g) := f (lanesOf (rdV k (wA i)))
    raise (wrV k (wD i) (ofLanes (List.replicate 16 r))) g) s

def execBcst (w : Nat) (word : W32) (s : State) : Host.Outcome State Fault Refusal :=
  wickRun .bcst w word s (wickDo w (vecWrite word (fun k _ => (lowWord (rdS k (wA word)), 0))))
def execExt (w : Nat) (word : W32) (s : State) : Host.Outcome State Fault Refusal :=
  wickRun .ext w word s (wickDo w (fun k =>
    wrS k (wD word) (BitVec.ofNat 64 (laneAt (rdV k (wA word)) (wB word)))))
def execIns (w : Nat) (word : W32) (s : State) : Host.Outcome State Fault Refusal :=
  wickRun .ins w word s (wickDo w (fun k =>
    wrV k (wD word) (ofLanes ((lanesOf (rdV k (wD word))).set (wB word) (lowWord (rdS k (wA word)))))))
def execLane (w : Nat) (word : W32) (s : State) : Host.Outcome State Fault Refusal :=
  wickRun .lane w word s (wickDo w (vecWrite word (fun _ l => (l, 0))))
def execRedsum (w : Nat) (word : W32) (s : State) : Host.Outcome State Fault Refusal :=
  wickRun .redsum w word s (reduce w word redSum)
def execRedmax (w : Nat) (word : W32) (s : State) : Host.Outcome State Fault Refusal :=
  wickRun .redmax w word s (reduce w word (fun l => (redMax l, 0)))
def execRediadd (w : Nat) (word : W32) (s : State) : Host.Outcome State Fault Refusal :=
  wickRun .rediadd w word s (reduce w word (fun l => (l.sum % 2 ^ 32, 0)))

/-! ### Special functions (R242) -/

def execExp (w : Nat) (word : W32) (s : State) : Host.Outcome State Fault Refusal :=
  wickRun .exp w word s (valu1 w word f32Exp)
def execRcp (w : Nat) (word : W32) (s : State) : Host.Outcome State Fault Refusal :=
  wickRun .rcp w word s (valu1 w word f32Recip)
def execRsq (w : Nat) (word : W32) (s : State) : Host.Outcome State Fault Refusal :=
  wickRun .rsq w word s (valu1 w word f32Rsqrt)

/-! ### Conversions (R243, R244) -/

/-- Narrows values in order, taking rounding bits where stochastic: codes, flags, the generator afterwards. -/
def narrowAll (fmt : Nat) (stoch sat : Bool) (g : W32) (vs : List FVal) : List Nat × FFlags × W32 :=
  vs.foldl (fun (acc : List Nat × FFlags × W32) v =>
    let (r, h) := genRnd stoch acc.2.2
    let (c, f) := narrowTo fmt r sat v
    (acc.1 ++ [c], acc.2.1 ||| f, h)) ([], 0, g)

/-- Replaces bits [lo + n - 1 : lo] of a vector. -/
def setBits (v : W512) (lo n x : Nat) : W512 :=
  BitVec.ofNat 512 (v.toNat % 2 ^ lo + x % 2 ^ n * 2 ^ lo + v.toNat / 2 ^ (lo + n) * 2 ^ (lo + n))

/-- Bytes of a narrow element of VCVT and STN, by the format field (0 BF16, 1 FP16, then 8-bit formats). -/
def narrowSize (f : Nat) : Nat := if f < 2 then 2 else 1

/-- The 16 elements of a part of a register. -/
def partElems (v : W512) (f p : Nat) : List Nat :=
  let n := 8 * narrowSize f
  (List.range 16).map (fun i => bits v.toNat (16 * n * p + n * i) n)

def cvtWiden (i : W32) (k : Wick) : Wick :=
  let f := bits (wFN i) 0 3
  wrV k (wD i) (ofLanes ((partElems (rdV k (wA i)) f (bits (wFN i) 3 2)).map (fun c => f32Code (widenFrom (f + 1) c))))

def cvtNarrow (i : W32) (k : Wick) : Wick :=
  let f := bits (wFN i) 0 3
  let n := 8 * narrowSize f
  let (cs, fl, g) := narrowAll (f + 1) (bit (wPK i) 0) (!bit (wPK i) 1) k.gen ((lanesOf (rdV k (wA i))).map f32)
  raise { wrV k (wD i) (setBits (rdV k (wD i)) (16 * n * bits (wFN i) 3 2) (16 * n) (packN n cs)) with gen := g } fl

/-- Bits of an SB element. -/
def sbWidth (sb4 : Bool) : Nat := if sb4 then 4 else 8

/-- 32 FP32 values of vA and vA + 1 into a part of vD and a byte of sB. -/
def toSb (i : W32) (k : Wick) : Wick :=
  let sb4 := bit (wFN i) 0
  let n := sbWidth sb4
  let b := bits (wFN i) 3 3
  let xs := (lanesOf (rdV k (wA i)) ++ lanesOf (rdV k (wA i + 1))).map f32
  let (sc, cs, fl, g) := toBlock sb4 (bit (wPK i) 0) k.gen xs
  let k' := wrV k (wD i) (setBits (rdV k (wD i)) (32 * n * bits (wFN i) 1 2) (32 * n) (packN n cs))
  let sv := (rdS k (wB i)).toNat
  let k' := wrS k' (wB i) (BitVec.ofNat 64
    (sv % 2 ^ (8 * b) + sc * 2 ^ (8 * b) + sv / 2 ^ (8 * b + 8) * 2 ^ (8 * b + 8)))
  raise { k' with gen := g } fl

/-- A part of vA and a byte of sB into the 32 lanes of vD and vD + 1. -/
def fromSb (i : W32) (k : Wick) : Wick :=
  let sb4 := bit (wFN i) 0
  let n := sbWidth sb4
  let sc := bits (rdS k (wB i)).toNat (8 * bits (wFN i) 3 3) 8
  let rs := (List.range 32).map (fun e =>
    toFP32 (sbVal sb4 sc (bits (rdV k (wA i)).toNat (32 * n * bits (wFN i) 1 2 + n * e) n)))
  let k' := wrV (wrV k (wD i) (ofLanes ((rs.take 16).map (·.1)))) (wD i + 1) (ofLanes ((rs.drop 16).map (·.1)))
  raise k' (rs.foldl (fun f r => f ||| r.2) 0)

def execVcvtWiden (w : Nat) (word : W32) (s : State) : Host.Outcome State Fault Refusal :=
  wickRun .vcvtWiden w word s (wickDo w (cvtWiden word))
def execVcvtNarrow (w : Nat) (word : W32) (s : State) : Host.Outcome State Fault Refusal :=
  wickRun .vcvtNarrow w word s (wickDo w (cvtNarrow word))
def execVsbToSb (w : Nat) (word : W32) (s : State) : Host.Outcome State Fault Refusal :=
  wickRun .vsbToSb w word s (wickDo w (toSb word))
def execVsbFromSb (w : Nat) (word : W32) (s : State) : Host.Outcome State Fault Refusal :=
  wickRun .vsbFromSb w word s (wickDo w (fromSb word))

/-! ### The dot unit and accumulators (R193, R245, R246) -/

/-- Adds the row products of two operands of 8 rows into an accumulator: its new value and the flags. -/
def dotInto (acc : BitVec 2048) (a b : Nat → List FVal) : BitVec 2048 × FFlags :=
  let rs := (List.range 64).map (fun n => dotOut (bits acc.toNat (32 * n) 32) (a (n / 8)) (b (n % 8)))
  (BitVec.ofNat 2048 (packN 32 (rs.map (·.1))), rs.foldl (fun f r => f ||| r.2) 0)

/-- The element formats (codes of 02 R60) of A and B for a DOT's FMT. -/
def dotFormats : Nat → Nat × Nat
  | 0 => (1, 1)
  | 1 => (2, 2)
  | 2 => (3, 3)
  | 3 => (4, 4)
  | 4 => (3, 4)
  | 5 => (4, 3)
  | _ => (5, 5)

/-- Row `r` of an operand in one register: 8 bytes of elements. -/
def dotRow (fmt : Nat) (v : W512) (r : Nat) : List FVal :=
  let n := 8 * fmtBytes fmt
  (List.range (64 / n)).map (fun e => dotInput fmt (bits v.toNat (64 * r + n * e) n))

/-- Row `r` of an SB operand in consecutive registers, scaled by byte `r` of its scale register. -/
def sbRow (sb4 : Bool) (k : Wick) (reg sc : Nat) (r : Nat) : List FVal :=
  let n := sbWidth sb4
  let perReg := 512 / (32 * n)
  let v := (rdV k (reg + r / perReg)).toNat
  (List.range 32).map (fun e =>
    dotInputSB sb4 (bits (rdS k sc).toNat (8 * r) 8) (bits v (32 * n * (r % perReg) + n * e) n))

def dotDo (i : W32) (a b : Wick → Nat → List FVal) (k : Wick) : Wick :=
  let (v, f) := dotInto (rdAcc k (wACC i)) (a k) (b k)
  raise (wrAcc k (wACC i) v) f

def execDot (w : Nat) (word : W32) (s : State) : Host.Outcome State Fault Refusal :=
  wickRun .dot w word s (wickDo w (dotDo word
    (fun k => dotRow (dotFormats (wFMT word)).1 (rdV k (wA word)))
    (fun k => dotRow (dotFormats (wFMT word)).2 (rdV k (wB word)))))
def execDotsb (w : Nat) (word : W32) (s : State) : Host.Outcome State Fault Refusal :=
  wickRun .dotsb w word s (wickDo w (dotDo word
    (fun k => sbRow (bit (wFMT word) 0) k (wA word) (wSCA word))
    (fun k => sbRow (bit (wFMT word) 0) k (wB word) (wSCB word))))

/-- Quarter `q` of an accumulator as a vector, and the accumulator with it replaced. -/
def accQuarter (v : BitVec 2048) (q : Nat) : W512 := BitVec.ofNat 512 (bits v.toNat (512 * q) 512)
def setAccQuarter (v : BitVec 2048) (q : Nat) (x : W512) : BitVec 2048 :=
  BitVec.ofNat 2048 (v.toNat % 2 ^ (512 * q) + x.toNat * 2 ^ (512 * q) +
    v.toNat / 2 ^ (512 * q + 512) * 2 ^ (512 * q + 512))

def execAzero (w : Nat) (word : W32) (s : State) : Host.Outcome State Fault Refusal :=
  wickRun .azero w word s (wickDo w (fun k => wrAcc k (wD word) 0))
def execAread (w : Nat) (word : W32) (s : State) : Host.Outcome State Fault Refusal :=
  wickRun .aread w word s (wickDo w (fun k => wrV k (wD word) (accQuarter (rdAcc k (wA word)) (wB word))))
def execAwrite (w : Nat) (word : W32) (s : State) : Host.Outcome State Fault Refusal :=
  wickRun .awrite w word s (wickDo w (fun k =>
    wrAcc k (wD word) (setAccQuarter (rdAcc k (wD word)) (wB word) (rdV k (wA word)))))

end Sys2Proof.Machine
end

