-- ==== Sys2Proof/Machine/Tiles.lean ====
section
/-! DEFINITION. Tiles: descriptors, checks, conversion, swizzle, delivery into scratch, the Reservoir, the store or an
agent's window, counts, and late blocks served from shadows (02 R54, R59 to R65; 06 R170, R171; 07 R203 to R209). -/
namespace Sys2Proof.Machine

/-- A tile descriptor (R59). -/
structure Tile where
  src    : Nat
  space  : Nat
  dst    : Nat
  rows   : Nat
  cols   : Nat
  sstr   : Nat
  dstr   : Nat
  sf     : Nat
  df     : Nat
  stoch  : Bool
  nonsat : Bool
  trans  : Bool
  swz    : Nat
  budget : Nat
  fall   : Nat
  cid    : Nat
  cen    : Bool
  scale  : Nat
deriving DecidableEq, Repr

/-- Bytes of a row of elements in a format. -/
def rowBytes (f cols : Nat) : Nat :=
  if f = 6 then 33 * (cols / 32) else if f = 7 then 17 * (cols / 32) else fmtBytes f * cols

def isBlockFmt (f : Nat) : Bool := f == 6 || f == 7

def Tile.drows (t : Tile) : Nat := if t.trans then t.cols else t.rows
def Tile.dcols (t : Tile) : Nat := if t.trans then t.rows else t.cols
def Tile.srow (t : Tile) : Nat := rowBytes t.sf t.cols
def Tile.drow (t : Tile) : Nat := rowBytes t.df t.dcols
/-- A stride of 0 means packed (log entry 23). -/
def Tile.sstride (t : Tile) : Nat := if t.sstr = 0 then t.srow else t.sstr
def Tile.dstride (t : Tile) : Nat := if t.dstr = 0 then t.drow else t.dstr
def Tile.sfoot (t : Tile) : Nat := (t.rows - 1) * t.sstride + t.srow
def Tile.dfoot (t : Tile) : Nat := (t.drows - 1) * t.dstride + t.drow
/-- Bytes that a tile delivers (R64). -/
def Tile.bytes (t : Tile) : Nat := t.drows * t.drow

/-- Bytes of a swizzle chunk (R61). -/
def swzChunk (m : Nat) : Nat := if m = 1 then 16 else 32

def tileOf (d : W512) : Tile :=
  let dst := fld d 8 8
  let fm := fld d 28 4
  { src := fld d 0 8, space := bits dst 60 4, dst := bits dst 0 60, rows := fld d 16 2 + 1, cols := fld d 18 2 + 1,
    sstr := fld d 20 4, dstr := fld d 24 4, sf := bits fm 0 4, df := bits fm 4 4, stoch := bit fm 8, nonsat := bit fm 10,
    trans := bit fm 11, swz := bits fm 12 3, budget := fld d 32 2, fall := bits (fld d 32 4) 16 2,
    cid := bits (fld d 36 4) 0 17, cen := bit (fld d 36 4) 31, scale := fld d 40 4 }

/-- What the form of a descriptor must meet (R59 to R61); a tile that breaks it fails with FORMAT_ERROR. -/
def tileForm (d : W512) : Bool :=
  let t := tileOf d
  let fm := fld d 28 4
  let width := if t.space = 0 then 29 else if t.space = 1 then 27 else if t.space = 2 then 57 else 58
  decide (t.src < 2 ^ 57 ∧ t.space < 4 ∧ t.dst < 2 ^ width) && decide (bits fm 9 1 = 0 ∧ bits fm 15 17 = 0) &&
  decide (t.sf ≤ 8 ∧ t.df ≤ 8 ∧ t.swz < 3) && (decide (t.sf = 8) == decide (t.df = 8)) &&
  !(t.trans && (isBlockFmt t.sf || isBlockFmt t.df)) &&
  !((isBlockFmt t.sf || isBlockFmt t.df) && t.cols % 32 != 0) &&
  decide (bits (fld d 32 4) 18 14 = 0 ∧ t.fall < 3 ∧ bits (fld d 36 4) 17 14 = 0 ∧ bits d.toNat 352 160 = 0) &&
  (t.swz == 0 || t.drow % (8 * swzChunk t.swz) == 0) && decide (t.sfoot ≤ 65536 ∧ t.dfoot ≤ 65536)

/-- Size of a source element for the alignment of R62. -/
def elemAlign (f : Nat) : Nat := if f = 0 then 4 else if f = 1 ∨ f = 2 then 2 else 1

/-- Destination address within its space. -/
def Tile.daddr (t : Tile) : Nat :=
  if t.space = 0 then t.dst % 2 ^ 17 else if t.space = 3 then t.dst % 2 ^ 48 else t.dst
def Tile.dwick (t : Tile) : Nat := bits t.dst 17 12
def Tile.dagent (t : Tile) : BitVec 10 := BitVec.ofNat 10 (bits t.dst 48 10)

/-- First bytes of the source and destination rows. -/
def Tile.srcRow (t : Tile) (r : Nat) : Nat := t.src + r * t.sstride
def Tile.dstRow (t : Tile) (r : Nat) : Nat := t.daddr + r * t.dstride

/-- Translates the pages of a tile's rows in row-major order (R63). -/
def translateRows (w : Who) (tl : Tlb) (use : Use) (rows : List (Nat × Nat)) : Eng (List (Nat × Leaf)) := do
  let ps ← rows.mapM (fun (a, n) => translateAll w tl use a n)
  return ps.flatten.dedup

/-- The counter that a tile names is the partition's (06 R170, R173). -/
def tileCounterOk (w : Who) (t : Tile) : Eng Unit := do
  let s ← get
  if !t.cen ∨ t.space = 3 then return
  if t.space = 0 then
    if 1024 ≤ t.cid then failLog stFormat (fun s => logErr s pSYNC 1 { w.fail stFormat 0 0 with info := t.cid })
    else if sconceOwner s (t.dwick / 64) ≠ w.part then
      failLog stPerm (fun s => logErr s pSYNC 0 { w.fail stPerm 0 0 with info := t.cid })
  else if counterOwner s t.cid ≠ w.part then
    failLog stPerm (fun s => logErr s pSYNC 0 { w.fail stPerm 0 0 with info := t.cid })

/-- The engine accepts a tile: form, alignment, destination, and every page of both sides (R62, R63, R77). -/
def acceptTile (w : Who) (tl : Tlb) (d : W512) (t : Tile) : Eng (List (Nat × Leaf) × List (Nat × Leaf)) := do
  if !tileForm d then failAt w stFormat 0 0
  if t.src % elemAlign t.sf ≠ 0 ∨ t.daddr % 16 ≠ 0 then failAt w stAlign 1 t.src
  tileCounterOk w t
  let s ← get
  if t.space = 0 then
    if sconceOwner s (t.dwick / 64) ≠ w.part then failAt w stPerm 0 t.daddr
    if Config.scratchBytes < t.daddr + t.dfoot then failAt w stXlate 0 t.daddr
  if t.space = 1 then
    if Config.reservoirBytes < t.daddr + t.dfoot then failAt w stXlate 0 t.daddr
    if !reservoirOwned s w.part t.daddr t.dfoot then failAt w stPerm 0 t.daddr
  let sp ← translateRows w tl .read ((List.range t.rows).map (fun r => (t.srcRow r, t.srow)))
  let dp ← if t.space = 2 then translateRows w tl .write ((List.range t.drows).map (fun r => (t.dstRow r, t.drow)))
           else pure []
  return (sp, dp)

/-! ### Source elements -/

/-- The home block behind a source byte, if this controller serves it. -/
def blockAt (s : State) (ps : List (Nat × Leaf)) (a : Nat) : Option Nat :=
  let (base, leaf) := pageFor ps a
  match homeOffset s (saUnder base leaf a) with
  | .ok off => some (off / 65536)
  | .error _ => none

/-- A block whose shadow may be served for a source format. -/
def freshShadow (s : State) (b sf : Nat) : Bool :=
  match (blockGet s b).shadow with
  | some h => !h.stale && h.srcFmt.toNat == sf && tierOf (blockGet s b).loc != 0
  | none => false

/-- An element of a block as its shadow holds it. -/
def shadowElem (s : State) (b i : Nat) : FVal :=
  match (blockGet s b).shadow with
  | some h =>
    let n := if h.sb4 then 17 else 33
    let at_ := 65536 * b + n * (i / 32)
    let sc := (cellGet s.store.shadowMem at_).toNat
    let j := i % 32
    if h.sb4 then sbVal true sc (bits (cellGet s.store.shadowMem (at_ + 1 + j / 2)).toNat (4 * (j % 2)) 4)
    else sbVal false sc (cellGet s.store.shadowMem (at_ + 1 + j)).toNat
  | none => .nan

/-- Reads a source row, blocks of `late` left as zeros. -/
def readRow (w : Who) (ps : List (Nat × Leaf)) (late : List Nat) (a n : Nat) : Eng (List Byte) := do
  let parts ← (linePieces a n).mapM (fun (x, k) => do
    let s ← get
    if ((blockAt s ps x).map late.contains).getD false then return zeros k
    else readPages w ps x k)
  return parts.flatten

/-- The values of a plain or block-format row. -/
def rowVals (f : Nat) (bytes : List Byte) (cols : Nat) : List FVal :=
  (List.range cols).map (fun c =>
    if f = 6 then sbVal false (bytes.getD (33 * (c / 32)) 0).toNat (bytes.getD (33 * (c / 32) + 1 + c % 32) 0).toNat
    else if f = 7 then
      sbVal true (bytes.getD (17 * (c / 32)) 0).toNat
        (bits (bytes.getD (17 * (c / 32) + 1 + c % 32 / 2) 0).toNat (4 * (c % 2)) 4)
    else widenFrom f (leNat (slice bytes (fmtBytes f * c) (fmtBytes f))))

/-- SCALE: each element widened to FP32, then multiplied with one rounding; 0.0 means 1.0. -/
def scaleVal (scale : Nat) (v : FVal) : FVal :=
  let x := f32Code v
  if scale = 0 then f32 x else f32 (f32Mul x scale).1

/-- A row of values as destination bytes, and the generator after it. -/
def rowOut (df : Nat) (stoch sat : Bool) (g : W32) (vs : List FVal) : List Byte × W32 :=
  if isBlockFmt df then
    (List.range (vs.length / 32)).foldl (fun (acc : List Byte × W32) i =>
      let (sc, cs, _, g) := toBlock (df == 7) stoch acc.2 ((vs.drop (32 * i)).take 32)
      (acc.1 ++ sbBytes (df == 7) sc cs, g)) ([], g)
  else
    let (cs, _, g) := narrowAll df stoch sat g vs
    ((cs.map (leBytes (fmtBytes df))).flatten, g)

/-- The transpose of rows of elements of `n` bytes. -/
def transposeRows (n cols : Nat) (rows : List (List Byte)) : List (List Byte) :=
  (List.range cols).map (fun c => (rows.map (fun r => slice r (n * c) n)).flatten)

/-- The swizzle of a destination row (R61): chunk `c` of each group lies at `c xor (r mod 8)`. -/
def swizzleRow (m r : Nat) (row : List Byte) : List Byte :=
  if m = 0 then row
  else
    let k := swzChunk m
    ((List.range (row.length / k)).map (fun i =>
      slice row (k * (i / 8 * 8 + (i % 8 ^^^ r % 8))) k)).flatten

/-! ### Moving a tile -/

/-- Keeps what a failed operation has recorded, and nothing else that it did. -/
def keepLogs (s t : State) : State :=
  { s with errs := t.errs, regs := t.regs, free := t.free, out := t.out, xlt := t.xlt,
           sync := { s.sync with detected := t.sync.detected } }

/-- All of an operation or none of it: on a failure only its records stay. -/
def allOrNone {α : Type} (e : Eng α) : Eng α := do
  let s ← get
  tryCatch e (fun f => do
    modify (fun t => keepLogs s t)
    throw f)

/-- Counts a tile's fetch and its store destination once per home block touched (02 R42). -/
def countTile (ps : List (Nat × Leaf)) (rows : List (Nat × Nat)) (s : State) : State :=
  let bs := (rows.map (fun (a, n) => (linePieces a n).filterMap (fun (x, _) => blockAt s ps x))).flatten.dedup
  bs.foldl countAccess s

/-- The destination bytes that this home receives. -/
def localBytes (s : State) (ps : List (Nat × Leaf)) (rows : List (Nat × Nat)) : Nat :=
  ((rows.map (fun (a, n) => ((linePieces a n).map (fun (x, k) =>
    if (blockAt s ps x).isSome then k else 0)).sum)).sum)

/-- Reads, converts and delivers a tile whose pages are translated; `late` names the home blocks served from their
shadows. Returns the generator. -/
def moveTile (w : Who) (t : Tile) (sp dp : List (Nat × Leaf)) (late : List Nat) (g : W32) : Eng W32 := do
  let w := { w with tile := true }
  let srows := (List.range t.rows).map (fun r => (t.srcRow r, t.srow))
  let drows := (List.range t.drows).map (fun r => (t.dstRow r, t.drow))
  modify (countTile sp srows)
  let raw ← srows.mapM (fun (a, n) => readRow w sp late a n)
  let s ← get
  let (rows, g) :=
    if t.sf = 8 then (raw, g)
    else
      (List.zip srows raw).foldl (fun (acc : List (List Byte) × W32) e =>
        let vs := (rowVals t.sf e.2 t.cols).zipIdx.map (fun v =>
          let a := e.1.1 + fmtBytes t.sf * v.2
          match blockAt s sp a with
          | some b => if late.contains b then
              let (base, leaf) := pageFor sp a
              shadowElem s b (saUnder base leaf a % 65536 / fmtBytes t.sf) else v.1
          | none => v.1)
        let (o, g) := rowOut t.df t.stoch (!t.nonsat) acc.2 (vs.map (scaleVal t.scale))
        (acc.1 ++ [o], g)) ([], g)
  let rows := if t.trans then transposeRows (fmtBytes t.df) t.cols rows else rows
  let rows := rows.zipIdx.map (fun e => swizzleRow t.swz e.2 e.1)
  let out := List.zip (drows.map (·.1)) rows
  match t.space with
  | 0 =>
    if (s.sconce (t.dwick / 64)).resetting then failAt w stReset 0 t.daddr
    modify (fun s =>
      let s := out.foldl (fun s e => scratchWrite s t.dwick e.1 e.2) s
      if t.cen then localAdd s (t.dwick / 64) t.cid (BitVec.ofNat 64 t.bytes) else s)
  | 1 =>
    modify (fun s =>
      let s := out.foldl (fun s e => reservoirWrite s e.1 e.2) s
      if t.cen then hubAdd s t.cid (BitVec.ofNat 64 t.bytes) else s)
  | 2 =>
    modify (countTile dp drows)
    out.forM (fun e => writePages w dp e.1 e.2)
    modify (fun s =>
      let n := localBytes s dp drows
      if t.cen ∧ n ≠ 0 then hubAdd s t.cid (BitVec.ofNat 64 n) else s)
  | _ =>
    let s ← get
    let st := remoteStatusOf s t.dagent.toNat
    if st ≠ 0 then
      let f := w.fail st 0 t.daddr
      failLog st (fun s => noteFault (if st = stTargetDead then logErr s pXBAR 1 f
        else if st = stPathLost then logErr s pXBAR 2 f else s) t.dagent w.part t.cid (if t.cen then st else 0))
    else modify (fun s => { s with
      remote := out.foldl (fun m e => cellWrite m (windowAddr t.dagent.toNat e.1) e.2) s.remote })
  return g

/-- A tile from acceptance to delivery in one go, with a relocation of its two addresses. -/
def runTile (w : Who) (tl : Tlb) (d : W512) (g : W32) : Eng W32 := do
  let t := tileOf d
  let (sp, dp) ← acceptTile w tl d t
  allOrNone (moveTile w t sp dp [] g)

/-! ### Generators of engines (07 R208) -/

def engGenOf (s : State) : Engine → W32
  | .copy n => genGet s n
  | .mover sc ch => genSeed ((s.sconce sc).moverGen.getD ch 1)
  | _ => genGet s 32

def setEngGen (s : State) (e : Engine) (g : W32) : State :=
  match e with
  | .copy n => genSet s n g
  | .mover sc ch => s.setSconce sc (fun c => { c with moverGen := listSet c.moverGen ch (fun _ => g) })
  | _ => genSet s 32 g

/-- The translation cache that an engine uses (03 R75): movers translate through the L2. -/
def tlbOf : Engine → Tlb
  | .copy n => .copy n
  | .wick w => .wick w
  | _ => .l2

/-! ### Bytes that a command delivers as a tile -/

/-- Delivers rows, each at an offset, as one raw tile to an address with a space (0 scratch, 1 Reservoir, 2 store,
3 agent), counting them there; `foot` is the tile's footprint. -/
def putRows (w : Who) (tl : Tlb) (dst foot : Nat) (rows : List (Nat × List Byte)) (cid : Nat) (cen : Bool) :
    Eng Unit := do
  let space := bits dst 60 4
  let a := if space = 3 then bits dst 0 48 else if space = 0 then bits dst 0 17 else bits dst 0 60
  let n := (rows.map (fun r => r.2.length)).sum
  let wick := bits dst 17 12
  let t : Tile := { (tileOf 0) with space := space, dst := bits dst 0 60, cid := cid, cen := cen }
  tileCounterOk w t
  if a % 16 ≠ 0 then failAt w stAlign (if space = 2 then 1 else 0) a
  let s ← get
  match space with
  | 0 =>
    if sconceOwner s (wick / 64) ≠ w.part then failAt w stPerm 0 a
    if Config.scratchBytes < a + foot then failAt w stXlate 0 a
    if (s.sconce (wick / 64)).resetting then failAt w stReset 0 a
    modify (fun s =>
      let s := rows.foldl (fun s r => scratchWrite s wick (a + r.1) r.2) s
      if cen then localAdd s (wick / 64) cid (BitVec.ofNat 64 n) else s)
  | 1 =>
    if Config.reservoirBytes < a + foot then failAt w stXlate 0 a
    if ¬ reservoirOwned s w.part a foot then failAt w stPerm 0 a
    modify (fun s =>
      let s := rows.foldl (fun s r => reservoirWrite s (a + r.1) r.2) s
      if cen then hubAdd s cid (BitVec.ofNat 64 n) else s)
  | 2 =>
    let ps ← translateRows w tl .write (rows.map (fun r => (a + r.1, r.2.length)))
    modify (countTile ps (rows.map (fun r => (a + r.1, r.2.length))))
    rows.forM (fun r => writePages { w with tile := true } ps (a + r.1) r.2)
    modify (fun s =>
      let k := localBytes s ps (rows.map (fun r => (a + r.1, r.2.length)))
      if cen ∧ k ≠ 0 then hubAdd s cid (BitVec.ofNat 64 k) else s)
  | _ =>
    let agent := BitVec.ofNat 10 (bits dst 48 10)
    let st := remoteStatusOf s agent.toNat
    if st ≠ 0 then
      let f := w.fail st 0 a
      failLog st (fun s => noteFault (if st = stTargetDead then logErr s pXBAR 1 f
        else if st = stPathLost then logErr s pXBAR 2 f else s) agent w.part cid (if cen then st else 0))
    else modify (fun s => { s with
      remote := rows.foldl (fun m r => cellWrite m (windowAddr agent.toNat (a + r.1)) r.2) s.remote })

/-- Delivers bytes as one raw tile. -/
def putTile (w : Who) (tl : Tlb) (dst : Nat) (d : List Byte) (cid : Nat) (cen : Bool) : Eng Unit :=
  putRows w tl dst d.length [(0, d)] cid cen

/-- Delivers bytes as tiles of up to 64 KiB, each whole or not at all. -/
def putBytes (w : Who) (tl : Tlb) (dst : Nat) (d : List Byte) (cid : Nat) (cen : Bool) : Eng Unit :=
  (List.range ((d.length + 65535) / 65536)).forM (fun i =>
    allOrNone (putTile w tl (dst + 65536 * i) (slice d (65536 * i) 65536) cid cen))

/-- Runs a part of a command whose failure does not end the command: its result, or the status with which it failed. -/
def attempt {α : Type} (e : Eng α) : Eng (Except Status α) :=
  tryCatch (do
    let a ← e
    return .ok a) (fun f => match f with
      | .stat st => return .error st
      | .wait => waitNow)

end Sys2Proof.Machine
end

