-- ==== Sys2Proof/Machine/WickMem.lean ====
section
/-! DEFINITION. Scratch and store accesses of a wick (08 R230 to R235; 06 R164 to R166, R176, R177; 01 R24). -/
namespace Sys2Proof.Machine

/-! ### Addresses and the range tracker (R230; 06 R166) -/

/-- The address of a form-I memory instruction: A + IMM × size. -/
def memAddr (k : Wick) (i : W32) (size : Nat) : Nat := (rdS k (wA i) + BitVec.ofInt 64 (wIMM i * size)).toNat

/-- Bytes of a scalar access. -/
def f3Size (i : W32) : Nat := 2 ^ (wF3 i % 4)

/-- Two ranges have a byte in common. -/
def rangeHits : Range → Range → Bool
  | .scratch w a n, .scratch v b m => w == v && decide (a < b + m ∧ b < a + n)
  | .store a n, .store b m => decide (a < b + m ∧ b < a + n)
  | .reservoir a n, .reservoir b m => decide (a < b + m ∧ b < a + n)
  | _, _ => false

/-- An access that the range tracker holds: a read of a range that a transfer writes, or a write of either range. -/
def tracked (k : Wick) (r : Range) (writes : Bool) : Bool :=
  k.track.any (fun t => rangeHits r t.dst || (writes && rangeHits r t.src))

/-- A scratch access: address bits [63:17], alignment, the end of scratch (for a block load or store, which has no
alignment), the range tracker, and failing words of a read; then `go`. -/
def scratchAccess (w a n align : Nat) (writes : Bool) (go : State → State) (s : State) : State :=
  if Config.scratchBytes ≤ a then stopWick s w stXlate 0 a
  else if a % align ≠ 0 then stopWick s w stAlign 0 a
  else if Config.scratchBytes < a + n then stopWick s w stXlate 0 a
  else if tracked (s.wick w) (.scratch w a n) writes then s
  else if !writes && scratchBad s w a n then stopUncorr s w
  else go s

/-! ### Scratch (R231, R232, R235) -/

/-- A load from scratch into registers. -/
def scratchLoad (w a n align : Nat) (f : List Byte → Wick → Wick) : State → State :=
  scratchAccess w a n align false (fun s => wickDo w (f (scratchRead s w a n)) s)

/-- A store of pieces (offset, bytes) into scratch, and the change of registers that goes with it. -/
def scratchStore (w a n align : Nat) (pieces : List (Nat × List Byte)) (f : Wick → Wick) : State → State :=
  scratchAccess w a n align true (fun s =>
    let s := pieces.foldl (fun s p => scratchWrite s w (a + p.1) p.2) s
    wickDo w f (spotOutput s w))

def execLds (w : Nat) (word : W32) (s : State) : Host.Outcome State Fault Refusal :=
  wickRun .lds w word s (fun s =>
    let n := f3Size word
    scratchLoad w (memAddr (s.wick w) word n) n n
      (fun d k => wrS k (wD word) (extendLoad n (bit (wF3 word) 2) (leNat d))) s)

def execSts (w : Nat) (word : W32) (s : State) : Host.Outcome State Fault Refusal :=
  wickRun .sts w word s (fun s =>
    let n := f3Size word
    let k := s.wick w
    scratchStore w (memAddr k word n) n n [(0, leBytes n (rdS k (wD word)).toNat)] id s)

def execLdv (w : Nat) (word : W32) (s : State) : Host.Outcome State Fault Refusal :=
  wickRun .ldv w word s (fun s =>
    scratchLoad w (memAddr (s.wick w) word 64) 64 64 (fun d k => wrV k (wD word) (lineOf d)) s)

/-- The lanes that a mask enables, as pieces of 4 bytes. -/
def lanePieces (m : W16) (v : W512) : List (Nat × List Byte) :=
  ((List.range 16).filter (fun i => m.getLsbD i)).map (fun i => (4 * i, leBytes 4 (laneAt v i)))

def execStv (w : Nat) (word : W32) (s : State) : Host.Outcome State Fault Refusal :=
  wickRun .stv w word s (fun s =>
    let k := s.wick w
    scratchStore w (memAddr k word 64) 64 64 (lanePieces (rdK k (wF3 word)) (rdV k (wD word))) id s)

/-- Bytes of an SB block in memory (07 R203). -/
def sbSize (sb4 : Bool) : Nat := if sb4 then 17 else 33

/-- Eight SB blocks into the rows of a register group and the scale bytes of sB. -/
def unpackSb (sb4 : Bool) (i : W32) (d : List Byte) (k : Wick) : Wick :=
  let m := sbSize sb4
  let per := 64 / (m - 1)
  let k := (List.range (8 / per)).foldl (fun k r => wrV k (wD i + r)
    (lineOf ((List.range per).map (fun j => slice d (m * (per * r + j) + 1) (m - 1))).flatten)) k
  wrS k (wB i) (BitVec.ofNat 64 (leNat ((List.range 8).map (fun b => d.getD (m * b) 0))))

/-- The reverse: eight SB blocks from a register group and the scales in sB. -/
def packSb (sb4 : Bool) (i : W32) (k : Wick) : List Byte :=
  let m := sbSize sb4
  let per := 64 / (m - 1)
  ((List.range 8).map (fun b =>
    BitVec.ofNat 8 (bits (rdS k (wB i)).toNat (8 * b) 8) ::
      slice (bytesOf (rdV k (wD i + b / per))) ((m - 1) * (b % per)) (m - 1))).flatten

def execLdsb (w : Nat) (word : W32) (s : State) : Host.Outcome State Fault Refusal :=
  wickRun .ldsb w word s (fun s =>
    let sb4 := bit (wFN word) 0
    scratchLoad w (rdS (s.wick w) (wA word)).toNat (8 * sbSize sb4) 1 (unpackSb sb4 word) s)

def execStsb (w : Nat) (word : W32) (s : State) : Host.Outcome State Fault Refusal :=
  wickRun .stsb w word s (fun s =>
    let sb4 := bit (wFN word) 0
    let k := s.wick w
    scratchStore w (rdS k (wA word)).toNat (8 * sbSize sb4) 1 [(0, packSb sb4 word k)] id s)

/-! ### Store accesses -/

def wickWho (s : State) (w : Nat) : Who :=
  { eng := .wick w, part := (s.wick w).part, ctx := (s.wick w).ctx, info := w }

/-- A store access: address, alignment, the range tracker and translation; then `go` with the store address and its
leaf. A translation that fails has its record. -/
def storeAccess (w a n align : Nat) (use : Use) (writes : Bool) (failed : Status → State → State)
    (go : Nat → Leaf → State → State) (s : State) : State :=
  if 2 ^ 57 ≤ a then stopWick s w stXlate 1 a
  else if a % align ≠ 0 then stopWick s w stAlign 1 a
  else if tracked (s.wick w) (.store a n) writes then s
  else match runEng (translate (wickWho s w) (.wick w) use a) s with
    | none => s
    | some (.error st, t) => failed st t
    | some (.ok (base, leaf), t) => go (saUnder base leaf a) leaf t

/-- The home offset of an access that the sliver port serves: the wick's own sliver, leaf C = 0 (R231). -/
def ownSliver (s : State) (w : Nat) (p : Packet) : Option Nat :=
  if p.coh || !isLocal s p.dst then none
  else match homeOffset s p.addr.toNat with
    | .ok off => match (blockGet s (off / 65536)).loc with
      | .stacked v _ => if v = w then some off else none
      | _ => none
    | .error _ => none

/-- An access over the sliver port: the key pipeline and the tier alone; the block is marked touched (02 R42). -/
def sliverAccess (s : State) (r : Req) (off w : Nat) : Except (Status × State) (List Byte × State) :=
  let p := r.pkt
  let t : Target := .sconce (w / 64)
  if p.cen && counterOwner s p.counter.toNat != p.part then
    .error (stPerm, ownerFault s p.part (some p.src) p.counter.toNat)
  else
    let s := s.setStore (fun z => { z with touched := setInsert z.touched (off / 65536) })
    let st := stageStatus s p off
    if st ≠ 0 then
      .error (st, noteFault (logStage s p off t st) p.dst p.part p.counter.toNat (if p.cen then st else 0))
    else
      let (data, s) := applyData s t [p] off
      let s := if writesMemory p then staleShadow s (off / 65536) else s
      .ok (data.headD [], completeGroup (noteInflight s off true) [(r, data.headD [])] off)

/-- The packet of a wick for a store address. -/
def wickPacket (s : State) (w opc : Nat) (leaf : Leaf) (sa arg : Nat) (payload : List Byte) : Packet :=
  mkReq s opc (.wick w) (s.wick w).part (s.wick w).ctx leaf sa arg payload

/-- CNTSEL's counter fields (R236). -/
def withCntsel (k : Wick) (p : Packet) : Packet :=
  { p with counter := k.cntsel.extractLsb' 0 17, cen := k.cntsel.getLsbD 17, cunit := k.cntsel.getLsbD 18 }

/-- A packet whose response the wick waits for: over the sliver port, or to its home. -/
def sendWait (s : State) (w : Nat) (p : Packet) (o : Origin) (own : List Byte → Wick → Wick) : State :=
  let s := s.setWick w (fun k => { k with wait := .response })
  match ownSliver s w p with
  | some off => match sliverAccess s { pkt := p, origin := .engine (.wick w) } off w with
    | .error (st, t) => haltWick t w st
    | .ok (d, t) => wickGot t w (own d)
  | none => submit s { pkt := p, origin := o } false

/-- A posted packet of a wick, with its place in the order of issue. -/
def sendPosted (s : State) (w : Nat) (p : Packet) (stop : Bool) : State :=
  let o := Origin.wickPosted w s.xbar.issued stop
  let s := s.setXbar (fun x => { x with issued := x.issued + 1 })
  match ownSliver s w p with
  | some off => match sliverAccess s { pkt := p, origin := o } off w with
    | .error (st, t) => complete t o p st [] true
    | .ok (_, t) => t
  | none => submit s { pkt := p, origin := o } false

/-- A posted store that translation stops: its status goes to MSTAT and to the next fence, and the wick goes on
(R255). -/
def postedFailed (w : Nat) (st : Status) (s : State) : State :=
  let o := s.xbar.issued
  let s := noteFence (s.setXbar (fun x => { x with issued := x.issued + 1 })) w o st
  advance (s.setWick w (fun k => noteMstat k st)) w

/-- A store updates the buffered copy of its line (06 R165). -/
def bufStore (k : Wick) (line : Nat) (d : List Byte) (m : List Bool) : Wick :=
  { k with buf := k.buf.map (fun e => if e.1 = line then
      (e.1, lineOf ((List.range 64).map (fun i =>
        if m.getD i false then d.getD i 0 else (bytesOf e.2).getD i 0))) else e) }

/-- A line leaves the read buffer. -/
def bufDrop (k : Wick) (line : Nat) : Wick := { k with buf := k.buf.filter (·.1 ≠ line) }

/-- Whether a load of a buffered line is served from the buffer: the manual allows it and does not demand it. -/
def mayServe (s : State) : Bool × State := let (f, s) := draw s; (f.getLsbD 0, s)

/-- A load: from the read buffer, over the sliver port, or from the home. -/
def loadStore (w a n : Nat) (acquire : Bool) (o : Nat → Origin) (set : List Byte → Wick → Wick) : State → State :=
  storeAccess w a n n .read false (fun st s => haltWick s w st) (fun sa leaf s =>
    let p := wickPacket s w 0 leaf (sa / 64 * 64) 64 []
    let own := (ownSliver s w p).isSome
    match (if own || acquire then none else (s.wick w).buf.find? (·.1 = sa / 64)) with
    | some e =>
      let (yes, s) := mayServe s
      if yes then wickDo w (set (slice (bytesOf e.2) (sa % 64) n)) s
      else sendWait s w p (o (sa % 64)) (fun d => set (slice d (sa % 64) n))
    | none => sendWait s w p (o (sa % 64)) (fun d k =>
        let k := set (slice d (sa % 64) n) k
        if acquire then { k with buf := [] } else k))

def execLdm (w : Nat) (word : W32) (s : State) : Host.Outcome State Fault Refusal :=
  wickRun .ldm w word s (fun s =>
    let n := f3Size word
    let sx := bit (wF3 word) 2
    loadStore w (memAddr (s.wick w) word n) n false (fun o => .wickLoad w (wD word) n o sx false)
      (fun d k => wrS k (wD word) (extendLoad n sx (leNat d))) s)

def execLda (w : Nat) (word : W32) (s : State) : Host.Outcome State Fault Refusal :=
  wickRun .lda w word s (fun s =>
    let n := f3Size word
    let sx := bit (wF3 word) 2
    loadStore w (memAddr (s.wick w) word n) n true (fun o => .wickLoad w (wD word) n o sx true)
      (fun d k => wrS k (wD word) (extendLoad n sx (leNat d))) s)

def execLdmv (w : Nat) (word : W32) (s : State) : Host.Outcome State Fault Refusal :=
  wickRun .ldmv w word s (fun s =>
    loadStore w (memAddr (s.wick w) word 64) 64 false (fun _ => .wickVLoad w (wD word))
      (fun d k => wrV k (wD word) (lineOf d)) s)

/-- A line's payload with bytes at an offset, and the enabled bytes. -/
def linePayload (o : Nat) (pieces : List (Nat × List Byte)) : List Byte × List Bool :=
  let at_ (i : Nat) : Option Byte := pieces.findSome? (fun p =>
    if o + p.1 ≤ i ∧ i < o + p.1 + p.2.length then some (p.2.getD (i - o - p.1) 0) else none)
  ((List.range 64).map (fun i => (at_ i).getD 0), (List.range 64).map (fun i => (at_ i).isSome))

/-- The payload of a WRITE_MASKED (05 R128). -/
def maskedPayload (d : List Byte) (m : List Bool) : List Byte :=
  d ++ leBytes 8 (packN 1 (m.map b2n)) ++ zeros 24

/-- A posted WRITE_MASKED of pieces of one line. -/
def postMasked (w a n : Nat) (pieces : List (Nat × List Byte)) : State → State :=
  storeAccess w a n n .write true (postedFailed w) (fun sa leaf s =>
    let (d, m) := linePayload (sa % 64) pieces
    let p := withCntsel (s.wick w) (wickPacket s w 2 leaf (sa / 64 * 64) 0 (maskedPayload d m))
    let s := s.setWick w (fun k => bufStore k (sa / 64) d m)
    advance (sendPosted (spotOutput s w) w p false) w)

def execStm (w : Nat) (word : W32) (s : State) : Host.Outcome State Fault Refusal :=
  wickRun .stm w word s (fun s =>
    let n := f3Size word
    let k := s.wick w
    postMasked w (memAddr k word n) n [(0, leBytes n (rdS k (wD word)).toNat)] s)

def execStmv (w : Nat) (word : W32) (s : State) : Host.Outcome State Fault Refusal :=
  wickRun .stmv w word s (fun s =>
    let k := s.wick w
    let a := memAddr k word 64
    if wF3 word ≠ 0 then postMasked w a 64 (lanePieces (rdK k (wF3 word)) (rdV k (wD word))) s
    else storeAccess w a 64 64 .write true (postedFailed w) (fun sa leaf s =>
      let d := bytesOf (rdV (s.wick w) (wD word))
      let p := withCntsel (s.wick w) (wickPacket s w 1 leaf sa 0 d)
      let s := s.setWick w (fun k => bufStore k (sa / 64) d (List.replicate 64 true))
      advance (sendPosted (spotOutput s w) w p false) w) s)

/-- STN: the enabled lanes narrowed, as pieces; the flags and the generator after them. -/
def narrowStore (i : W32) (k : Wick) : List (Nat × List Byte) × Wick :=
  let f := bits (wFN i) 0 3
  let n := narrowSize f
  let on := (List.range 16).filter (fun l => (rdK k (wPK i)).getLsbD l)
  let (cs, fl, g) := narrowAll (f + 1) (bit (wFN i) 3) (!bit (wFN i) 4) k.gen
    (on.map (fun l => f32 (laneAt (rdV k (wD i)) l)))
  ((List.zip on cs).map (fun e => (n * e.1, leBytes n e.2)), raise { k with gen := g } fl)

def execStn (w : Nat) (word : W32) (s : State) : Host.Outcome State Fault Refusal :=
  wickRun .stn w word s (fun s =>
    let k := s.wick w
    let n := 16 * narrowSize (bits (wFN word) 0 3)
    let a := (rdS k (wA word)).toNat
    let (pieces, k') := narrowStore word k
    let regs (k : Wick) : Wick := { k with flags := k'.flags, gen := k'.gen }
    if bit (wFN word) 5 then
      storeAccess w a n n .write true (fun st s => postedFailed w st (s.setWick w regs)) (fun sa leaf s =>
        let (d, m) := linePayload (sa % 64) pieces
        let p := withCntsel (s.wick w) (wickPacket s w 2 leaf (sa / 64 * 64) 0 (maskedPayload d m))
        let s := s.setWick w (fun k => bufStore (regs k) (sa / 64) d m)
        advance (sendPosted (spotOutput s w) w p false) w) s
    else scratchStore w a n n pieces regs s)

def execVacc (w : Nat) (word : W32) (s : State) : Host.Outcome State Fault Refusal :=
  wickRun .vacc w word s (fun s =>
    let k := s.wick w
    storeAccess w (rdS k (wA word)).toNat 64 64 .accum true (postedFailed w) (fun sa leaf s =>
      let arg := bits (wFN word) 0 3 + 16 * b2n (bit (wFN word) 3)
      let p := withCntsel (s.wick w) (wickPacket s w 3 leaf sa arg (bytesOf (rdV (s.wick w) (wD word))))
      let s := s.setWick w (fun k => bufDrop k (sa / 64))
      advance (sendPosted (spotOutput s w) w p false) w) s)

def execAmo (w : Nat) (word : W32) (s : State) : Host.Outcome State Fault Refusal :=
  wickRun .amo w word s (fun s =>
    let k := s.wick w
    let fn := wFN word
    let n := 4 * 2 ^ bits fn 2 1
    storeAccess w (rdS k (wA word)).toNat n n .accum true (fun st s => haltWick s w st) (fun sa leaf s =>
      let arg := bits fn 0 2 + 4 * bits fn 2 1 + 16 * bits fn 3 3
      let p := withCntsel (s.wick w) (wickPacket s w 4 leaf sa arg
        (leBytes 16 ((rdS k (wB word)).toNat % 2 ^ (8 * n)) ++ leBytes 16 ((rdS k (wD word)).toNat % 2 ^ (8 * n))))
      sendWait (spotOutput s w) w p (.wickAmo w (wD word) n) (fun d k =>
        bufDrop (wrS k (wD word) (BitVec.ofNat 64 (leNat d))) (sa / 64))) s)

/-! ### Fences and releases (05 R157; 06 R176; R252) -/

/-- Whether a request belongs to the packets of a wick that its fences wait for. -/
def ofWick (w : Nat) : Origin → Bool
  | .wickPosted v _ _ => v == w
  | .wickCadd v _ => v == w
  | _ => false

/-- Whoever waits for a request that has not completed. -/
def originsOf (s : State) : List Origin :=
  (s.xbar.tx.map (fun e => e.2.pkts.map (·.origin) ++ e.2.ctls.map (·.origin) ++ e.2.waiting.map (·.origin))).flatten ++
  (s.xbar.windows.map (fun e => e.2.flatten.map (·.origin))).flatten ++ s.store.deferred.map (·.origin) ++
  (s.store.twins.map (fun t => t.reqs.map (fun r => r.1.origin))).flatten ++
  s.dir.txns.filterMap (fun t => t.req.map (fun r => r.1.origin)) ++ s.dir.waiting.map (fun r => r.1.origin)

/-- Packets of a wick that have not completed. -/
def wickOpen (s : State) (w : Nat) : Bool := (originsOf s).any (ofWick w)

/-- The status of a wick's fence now, and the state in which its next fence starts anew. -/
def takeFence (s : State) (w : Nat) : Status × State :=
  (((tfind s.xbar.fenceBad w).map (·.2)).getD 0, s.setXbar (fun x => { x with fenceBad := tdel x.fenceBad w }))

/-- A release of a wick whose packets have all completed: performed by `go`, or not performed (06 R176). -/
def releaseNow (s : State) (w : Nat) (go : State → State) : State :=
  let (st, s) := takeFence s w
  if st ≠ 0 then haltWick (bump s (rk pSYNC 0x128) 32 1) w st else go s

/-- A release: it waits as `wait` says while packets of the wick are open. -/
def release (s : State) (w : Nat) (wait : WWait) (go : State → State) : State :=
  if wickOpen s w then s.setWick w (fun k => { k with wait := wait }) else releaseNow s w go

/-- The store of a store-release is sent. -/
def performStr (w : Nat) (p : Packet) (s : State) : State :=
  sendPosted (advance (spotOutput (s.setWick w (fun k =>
    { bufStore k (p.addr.toNat / 64) p.payload (maskOf p) with wait := .none })) w) w) w p true

def execStr (w : Nat) (word : W32) (s : State) : Host.Outcome State Fault Refusal :=
  wickRun .str w word s (fun s =>
    let n := f3Size word
    let k := s.wick w
    storeAccess w (memAddr k word n) n n .write true (fun st s => haltWick s w st) (fun sa leaf s =>
      let (d, m) := linePayload (sa % 64) [(0, leBytes n (rdS k (wD word)).toNat)]
      let p := withCntsel (s.wick w) (wickPacket s w 2 leaf (sa / 64 * 64) 0 (maskedPayload d m))
      release s w (.release { pkt := p, origin := .engine (.wick w) }) (performStr w p)) s)

end Sys2Proof.Machine
end

