-- ==== Sys2Proof/Machine/WickSync.lean ====
section
/-! DEFINITION. Counters, semaphores, fences and acquires of a wick (08 R250 to R252; 06 R172 to R177; 05 R157;
12 R350). -/
namespace Sys2Proof.Machine

/-! ### Counter waits -/

/-- The value of a counter that a wick names: a local counter of its sconce, by its low ten bits (06 R170), or a hub
counter. -/
def wickCounter (s : State) (w : Nat) (loc : Bool) (id : Nat) : W64 :=
  if loc then localGet s (w / 64) (id % 1024) else hubGet s id

/-- A wait that somebody still makes. -/
def liveWait (s : State) (e : Waiter × Nat × Bool × W64) : Bool :=
  match e.1 with
  | .wick w => match (s.wick w).wait with
    | .counter _ _ _ _ => decide ((s.wick w).state = .running)
    | _ => false
  | .gate h => match s.plan h with
    | some p => decide (p.run = .gate)
    | none => false
  | .queue q tag => (s.queue q).active.any (fun a => fld a.raw 0 1 = 4 ∧ fld a.raw 4 4 = tag.toNat)

/-- The sync block holds a wait; waits that nobody makes any more go. -/
def addWait (s : State) (e : Waiter × Nat × Bool × W64) : State :=
  s.setSync (fun y => { y with waits := (y.waits.filter (liveWait s)) ++ [e] })

def dropWait (s : State) (e : Waiter) : State :=
  s.setSync (fun y => { y with waits := y.waits.filter (fun x => x.1 ≠ e) })

/-- A hub counter of an aborted group ends every wait on it (12 R350). -/
def waitAborted (s : State) (loc : Bool) (id : Nat) : Bool := !loc && (abortedGroup s id).isSome

/-- CWAIT goes on: sD = 1 is an acquire. -/
def cwaitDone (s : State) (w d : Nat) (reached : Bool) : State :=
  let s := dropWait s (.wick w)
  advance (s.setWick w (fun k =>
    let k := wrS { k with wait := .none } d (BitVec.ofNat 64 (b2n reached))
    if reached then { k with buf := [] } else k)) w

def execCwait (w : Nat) (word : W32) (s : State) : Host.Outcome State Fault Refusal :=
  wickRun .cwait w word s (fun s =>
    let k := s.wick w
    let loc := bit (wFN word) 4
    let id := (rdS k (wA word)).toNat % 2 ^ 17
    let target := rdS k (wB word)
    if waitAborted s loc id then haltWick s w stAborted
    else if target ≤ wickCounter s w loc id then cwaitDone s w (wD word) true
    else addWait (s.setWick w (fun k => { k with wait := .counter loc id target (wD word) })) (.wick w, id, loc, target))

/-- A waiting CWAIT's counter has reached its target. -/
def wickTarget (s : State) (w : Nat) : State :=
  let k := s.wick w
  match k.wait with
  | .counter loc id target d =>
    if k.state ≠ .running then s
    else if waitAborted s loc id then haltWick (dropWait s (.wick w)) w stAborted
    else if target ≤ wickCounter s w loc id then cwaitDone s w d true else s
  | _ => s

/-- The bound in sD passes before the counter reaches its target; a bound of 0 never passes. -/
def execCwaitBound (w : Nat) (s : State) : Host.Outcome State Fault Refusal :=
  onOk (wickOk w) (
    let k := s.wick w
    match k.wait with
    | .counter loc id target d =>
      if k.state = .running ∧ rdS k d ≠ 0 ∧ ¬ (target ≤ wickCounter s w loc id) then cwaitDone s w d false else s
    | _ => s)

def execCread (w : Nat) (word : W32) (s : State) : Host.Outcome State Fault Refusal :=
  wickRun .cread w word s (fun s => wickDo w (fun k => wrS k (wD word)
    (wickCounter s w (bit (wFN word) 4) ((rdS k (wA word)).toNat % 2 ^ 17))) s)

/-! ### Releases by message (R250, R252; 06 R176) -/

/-- The wick's addition to a counter, its fence done. `tag` 1 marks a local counter of the sconce: no message is
sent. -/
def performCadd (s : State) (w : Nat) (m : CtlMsg) : State :=
  let k := s.wick w
  let id := cfld m 8 4
  let v := BitVec.ofNat 64 (cfld m 12 8)
  let s := advance (spotOutput (s.setWick w (fun k => { k with wait := .none })) w) w
  if m.tag = 1 then
    if 1024 ≤ id then
      haltWick (logErr s pSYNC 1 { (wickWho s w).fail stFormat 0 0 with info := id }) w stFormat
    else if sconceOwner s (w / 64) ≠ k.part then haltWick (ownerFault s k.part none id) w stPerm
    else localAdd s (w / 64) id v
  else
    let o := Origin.wickCadd w s.xbar.issued
    sendCntAdd (s.setXbar (fun x => { x with issued := x.issued + 1 })) m.dst k.part id v o

/-- The wick's semaphore operation, its fence done where it is a release: over the package ring at home, by SEM_OP
elsewhere. -/
def performSem (s : State) (w d : Nat) (m : CtlMsg) : State :=
  let k := s.wick w
  let id := cfld m 8 4
  let op := cfld m 12 1
  let x := BitVec.ofNat 64 (cfld m 16 8)
  let s := (spotOutput s w).setWick w (fun k => { k with wait := .semaphore d })
  if m.dst = s.xbar.agentId then
    let s := bump s (rk pSYNC 0x120) 48 1
    if semOwner s id ≠ k.part then haltWick (ownerFault s k.part none id) w stPerm
    else match semOp s id op x { sem := id, operand := x, part := k.part, peer := none, wick := some (w, d) } with
      | (some (v, taken), s) =>
        if op = 2 ∧ ¬ taken then s.setWick w (fun k => { k with wait := .none })
        else semDone s w d 0 v taken
      | (none, s) => s
  else launchCtl s m (.wickSem w d (BitVec.ofNat 8 op) (op == 2))

/-- A message of a wick is performed: a CNT_ADD or a SEM_OP. -/
def performCtl (s : State) (w d : Nat) (m : CtlMsg) : State :=
  if m.ctype = 4 then performCadd s w m else performSem s w d m

/-- A message of a wick that is a release, or one that is not. -/
def issueCtl (s : State) (w d : Nat) (m : CtlMsg) (isRelease : Bool) : State :=
  if isRelease then
    release s w (.ctlRelease m (.wickSem w d 0 false)) (fun s => performCtl s w d m)
  else performCtl s w d m

def execCadd (w : Nat) (word : W32) (s : State) : Host.Outcome State Fault Refusal :=
  wickRun .cadd w word s (fun s =>
    let k := s.wick w
    let a := (rdS k (wA word)).toNat
    let m := mkCtl s 4 (BitVec.ofNat 10 (bits a 17 10)) k.part (a % 2 ^ 17 + 2 ^ 32 * (rdS k (wB word)).toNat)
    issueCtl s w 0 { m with tag := if bit (wFN word) 4 then 1 else 0 } true)

def execSemop (w : Nat) (word : W32) (s : State) : Host.Outcome State Fault Refusal :=
  wickRun .semop w word s (fun s =>
    let k := s.wick w
    let a := (rdS k (wA word)).toNat
    let op := bits (wFN word) 4 3
    let m := mkCtl s 5 (BitVec.ofNat 10 (bits a 15 10)) k.part
      (a % 2 ^ 15 + 2 ^ 32 * op + 2 ^ 64 * (rdS k (wB word)).toNat)
    issueCtl s w (wD word) m (op == 1 || op == 4))

/-! ### Fences, acquires, MWAIT -/

/-- A fence's status into sD. -/
def fenceDone (s : State) (w d : Nat) : State :=
  let (st, s) := takeFence s w
  wickDo w (fun k => wrS { k with wait := .none } d (st.setWidth 64)) s

def execWickFence (w : Nat) (word : W32) (s : State) : Host.Outcome State Fault Refusal :=
  wickRun .wickFence w word s (fun s =>
    if wickOpen s w then s.setWick w (fun k => { k with wait := .fence (wD word) }) else fenceDone s w (wD word))

/-- Every packet that an engine sent before its fence has completed. Engines other than wicks carry their commands to
their end before a fence of theirs is looked at, so none of them waits here. -/
def execFenceComplete (eng : Engine) (s : State) : Host.Outcome State Fault Refusal :=
  onOk eng.ok (match eng with
  | .wick w =>
    if wickOpen s w || (s.wick w).state != .running then s
    else match (s.wick w).wait with
      | .fence d => fenceDone s w d
      | .release r => releaseNow s w (performStr w r.pkt)
      | .ctlRelease m (.wickSem _ d _ _) => releaseNow s w (fun s => performCtl s w d m)
      | _ => s
  | _ => s)

def execAcquire (w : Nat) (word : W32) (s : State) : Host.Outcome State Fault Refusal :=
  wickRun .acquire w word s (wickDo w (fun k => { k with buf := [] }))

/-- MWAIT returns: every transfer that the wick issued has finished. -/
def mwaitDone (s : State) (w d : Nat) : State :=
  wickDo w (fun k => wrS { k with wait := .none } d (BitVec.ofNat 64 (k.mstat.toNat % 256))) s

def execMwait (w : Nat) (word : W32) (s : State) : Host.Outcome State Fault Refusal :=
  wickRun .mwait w word s (fun s =>
    if (s.wick w).track = [] then mwaitDone s w (wD word)
    else s.setWick w (fun k => { k with wait := .moverEmpty (wD word) }))

end Sys2Proof.Machine
end

