-- ==== Sys2Proof/Machine/Movers.lean ====
section
/-! DEFINITION. Transfers of sconce movers and tiles of streams: issue, completion, deadlines (02 R63 to R65; 06 R166;
08 R247 to R249; 09 R266 to R268; 14 R398). -/
namespace Sys2Proof.Machine

/-! ### Transfers in flight -/

def findXfer (s : State) (id : Nat) : Option Xfer := s.work.xfers.find? (fun x => x.id = id)
def setXfer (s : State) (id : Nat) (f : Xfer → Xfer) : State :=
  s.setWork (fun k => { k with xfers := k.xfers.map (fun x => if x.id = id then f x else x) })
def dropXfer (s : State) (id : Nat) : State :=
  s.setWork (fun k => { k with xfers := k.xfers.filter (fun x => x.id ≠ id) })

/-- Transfers queued on an engine. -/
def onEngine (s : State) (e : Engine) : List Xfer := s.work.xfers.filter (fun x => x.eng = e)

/-- A mover channel performs one transfer at a time, in queue order (07 R198). -/
def isTurn (s : State) (x : Xfer) : Bool :=
  match x.eng with
  | .mover _ _ => (onEngine s x.eng).head?.map (·.id) == some x.id
  | _ => true

/-- A channel's queue holds up to 32 transfers. -/
def channelFull (s : State) (e : Engine) : Bool :=
  match e with
  | .mover _ _ => decide (32 ≤ (onEngine s e).length)
  | _ => false

/-- The tag of a queue command in progress. -/
def tagOf (s : State) (q : Nat) (idx : W32) : Nat :=
  (((s.queue q).active.find? (fun a => a.idx = idx)).map (fun a => fld a.raw 4 4)).getD 0

/-- AUX of a record for a queue command (15 R409). -/
def queueAux (q tag : Nat) : Nat := q + 2 ^ 32 * tag

def whoOf (s : State) (x : Xfer) : Who :=
  { eng := x.eng, part := x.part, ctx := x.ctx, info := x.wick.getD 0,
    aux := match x.queue with
      | some (q, i) => queueAux q (tagOf s q i)
      | none => 0 }

/-- A new transfer without pages. -/
def newXfer (s : State) (eng : Engine) (part : BitVec 6) (ctx : BitVec 20) (desc : W512) : Xfer :=
  { id := s.work.nextXfer, eng := eng, wick := none, handle := none, stream := none, queue := none, desc := desc,
    raw := false, ctx := ctx, part := part, srcPages := [], dstPages := [], late := false, shadow := false,
    lateBlocks := [], params := 0, srcScratch := 0, dstAddr := 0, open_ := 0, bad := 0, moved := false }

def addXfer (s : State) (x : Xfer) : State :=
  s.setWork (fun k => { k with xfers := k.xfers ++ [x], nextXfer := k.nextXfer + 1 })

/-! ### Streams of a plan's step (09 R266 to R268) -/

/-- Replaces `n` bytes at byte `i` of a 64 B structure. -/
def setFld (d : W512) (i n v : Nat) : W512 :=
  BitVec.ofNat 512 (d.toNat % 2 ^ (8 * i) + v % 2 ^ (8 * n) * 2 ^ (8 * i) + d.toNat / 2 ^ (8 * (i + n)) * 2 ^ (8 * (i + n)))

/-- The relocation value that a stream's field selects. -/
def relValue (p : Plan) (r : BitVec 3) : Nat := if r.getLsbD 2 then (p.rel.getD (r.toNat % 4) 0).toNat else 0

/-- Relocates a destination: a store address modulo 2^57, an agent's window address within the window. -/
def relocDst (dst rel : Nat) : Nat :=
  let space := bits dst 60 4
  if space = 2 then space * 2 ^ 60 + (bits dst 0 57 + rel) % 2 ^ 57
  else if space = 3 then space * 2 ^ 60 + bits dst 48 12 * 2 ^ 48 + (bits dst 0 48 + rel) % 2 ^ 48
  else dst

/-- The descriptor of a stream's tile as it is issued: relocated, with the stream's deadline. -/
def streamTile (p : Plan) (st : PStream) (i : Nat) : W512 :=
  let d := p.tiles.getD (st.tileFirst + i) 0
  let d := setFld d 0 8 ((fld d 0 8 + relValue p st.srcRel) % 2 ^ 57)
  let d := setFld d 8 8 (relocDst (fld d 8 8) (relValue p st.dstRel))
  if st.deadline = 0xFF then d else setFld d 32 4 ((p.deadlines.getD st.deadline.toNat 0).toNat % 2 ^ 18)

def streamEngine (st : PStream) : Engine :=
  if st.engine = 0 then .mover st.unit.toNat st.channel.toNat else .copy st.unit.toNat

/-- The run's status keeps its first failure (R277). -/
def planFail (p : Plan) (st : Status) : Plan := { p with status := if p.status = 0 then st else p.status }

/-- A tile of a plan's stream has ended (R268). -/
def streamTold (p : Plan) (j : Nat) (st : Status) (late : Bool) : Plan :=
  let go := st = 0 ∨ st = stDeadline
  let p := { p with
    streamRuns := p.streamRuns.map (fun r => if r.idx = j then
      { r with inFlight := r.inFlight - 1, ended := r.ended || !decide go } else r)
    misses := if st = stDeadline then p.misses + 1 else p.misses
    lates := if st = 0 ∧ late then p.lates + 1 else p.lates }
  if go then p else planFail p st

/-- A tile of a TILE_STREAM has ended. -/
def tstreamTold (t : TStream) (st : Status) (late : Bool) : TStream :=
  { t with
    inFlight := t.inFlight - 1
    bad := if t.bad = 0 ∧ st ≠ stDeadline then st else t.bad
    misses := if st = stDeadline then t.misses + 1 else t.misses
    lates := if st = 0 ∧ late then t.lates + 1 else t.lates }

/-- A transfer has ended with a status: its wick's tracker entry frees and MSTAT takes a failure (08 R249, R252); its
stream counts it. -/
def finishXfer (s : State) (id : Nat) (st : Status) : State :=
  match findXfer s id with
  | none => s
  | some x =>
    let s := dropXfer s id
    let s := match x.wick with
      | some w =>
        let s := s.setWick w (fun k =>
          let k := { k with track := k.track.filter (fun t => t.id ≠ id) }
          if st = 0 then k else noteMstat k st)
        match (s.wick w).wait with
        | .moverEmpty d => if (s.wick w).state = .running ∧ (s.wick w).track = [] then mwaitDone s w d else s
        | _ => s
      | none => s
    let s := match x.handle, x.stream with
      | some h, some j => s.setPlan h.toNat (fun p => streamTold p j st x.late)
      | _, _ => s
    match x.queue with
    | some (q, i) => s.setWork (fun k => { k with tstreams := k.tstreams.map (fun t =>
        if t.q = q ∧ t.tag = i then tstreamTold t st x.late else t) })
    | none => s

/-- Issues a tile: none if it cannot be accepted yet; a tile that its checks refuse ends at once (R62, R63, R77). -/
def issueTile (s : State) (x : Xfer) : Option State :=
  if channelFull s x.eng then none
  else
    let s1 := addXfer s x
    match runEng (acceptTile (whoOf s1 x) (tlbOf x.eng) x.desc (tileOf x.desc)) s1 with
    | none => none
    | some (.error st, t) => some (finishXfer t x.id st)
    | some (.ok (sp, dp), t) => some (setXfer t x.id (fun y => { y with srcPages := sp, dstPages := dp }))

/-- Issues tiles of a plan's stream while fewer than 8 are unfinished. -/
def refillPlan : Nat → State → Nat → Nat → State
  | 0, s, _, _ => s
  | n + 1, s, h, j =>
    match s.plan h with
    | none => s
    | some p =>
      match p.streamRuns.find? (fun r => r.idx = j) with
      | none => s
      | some r =>
        let st := p.streams.getD j ⟨0, 0, 0, 0, 0, 0, 0, 0, 0⟩
        if p.run ≠ .running ∨ r.ended ∨ 8 ≤ r.inFlight ∨ st.tileCount ≤ r.next then s
        else
          let x := { newXfer s (streamEngine st) p.part p.ctx (streamTile p st r.next) with
            handle := some (BitVec.ofNat 8 h), stream := some j }
          let s1 := s.setPlan h (fun p => { p with streamRuns := p.streamRuns.map (fun r =>
            if r.idx = j then { r with next := r.next + 1, inFlight := r.inFlight + 1 } else r) })
          match issueTile s1 x with
          | none => s
          | some t => refillPlan n t h j

/-- What a TILE_STREAM's next descriptor is, read in its command's context. -/
def readTile (s : State) (t : TStream) (eng : Engine) (part : BitVec 6) (ctx : BitVec 20) :
    Option (Except Status W512 × State) :=
  let w : Who := { eng := eng, part := part, ctx := ctx, aux := queueAux t.q (tagOf s t.q t.tag) }
  runEng (do
    let d ← readDva w (tlbOf eng) (t.dva + 64 * t.next) 64
    return lineOf d) s

/-- The copy engine that carries a queue's commands (the manual names none). -/
def copyOf (q : Nat) : Nat := q % Config.copyEngines

/-- Issues tiles of a TILE_STREAM while fewer than 8 are unfinished and the engine is not in reset. -/
def refillQueue : Nat → State → Nat → W32 → BitVec 6 → BitVec 20 → State
  | 0, s, _, _, _, _ => s
  | n + 1, s, q, i, part, ctx =>
    match s.work.tstreams.find? (fun t => t.q = q ∧ t.tag = i) with
    | none => s
    | some t =>
      if t.bad ≠ 0 ∨ 8 ≤ t.inFlight ∨ t.count ≤ t.next ∨ copyOf q ∈ s.work.copyReset then s
      else
        let eng := Engine.copy (copyOf q)
        let set (s : State) (f : TStream → TStream) : State :=
          s.setWork (fun k => { k with tstreams := k.tstreams.map (fun u =>
            if u.q = q ∧ u.tag = i then f u else u) })
        match readTile s t eng part ctx with
        | none => s
        | some (.error st, s) => set s (fun u => { u with bad := st })
        | some (.ok d, s1) =>
          let s1 := set s1 (fun u => { u with next := u.next + 1, inFlight := u.inFlight + 1 })
          let x := { newXfer s1 eng part ctx d with queue := some (q, i) }
          match issueTile s1 x with
          | none => s
          | some s2 => refillQueue n s2 q i part ctx

/-- Streams go on after a tile of theirs has ended. -/
def refillAfter (s : State) (x : Xfer) : State :=
  match x.handle, x.stream, x.queue with
  | some h, some j, _ => refillPlan 9 s h.toNat j
  | _, _, some (q, i) => refillQueue 9 s q i x.part x.ctx
  | _, _, _ => s

/-- A TILE_STREAM none of whose tiles is unfinished and which issues no more completes with the counts of R277. -/
def endTstreams (s : State) : State :=
  let isOver (t : TStream) : Bool := t.inFlight == 0 && (t.bad != 0 || decide (t.count ≤ t.next))
  let done := s.work.tstreams.filter isOver
  let s := s.setWork (fun k => { k with tstreams := k.tstreams.filter (fun t => !isOver t) })
  done.foldl (fun s t => endCommand s t.q t.tag t.bad
    (BitVec.ofNat 64 (2 ^ 16 * sat16 t.misses + 2 ^ 32 * sat16 t.lates))) s

/-! ### Performing a transfer -/

/-- A mover's record (07 R191: a word that the mover cannot read). -/
def moverUncorr (s : State) (x : Xfer) (sc a : Nat) : State :=
  logErr s (pSCN sc) 2 ((whoOf s x).fail stUncorr 0 a)

/-- Pieces of an MVX to the store: WRITEs of up to 4,096 B, ACCUMULATEs of up to 256 B (R248). -/
def mvxPieces (unit a n : Nat) : List (Nat × Nat) :=
  if n = 0 then [] else (List.range ((a + n - 1) / unit - a / unit + 1)).map (fun i =>
    let x := max a ((a / unit + i) * unit)
    (x, min (a + n) ((a / unit + i + 1) * unit) - x))

/-- A raw copy to the store: one packet per piece, each on its way to its home. -/
def mvxStore (s : State) (x : Xfer) (w sc : Nat) : State :=
  let p := x.params.toNat
  let n := bits p 0 17
  let acc := bit x.desc.toNat 4
  let ps := mvxPieces (if acc then 256 else 4096) x.dstAddr.toNat n
  if scratchBad s w x.srcScratch n then finishXfer (moverUncorr s x sc x.srcScratch) x.id stUncorr
  else
    let d := scratchRead s w x.srcScratch n
    let s := setXfer s x.id (fun y => { y with moved := true, open_ := ps.length })
    ps.foldl (fun s e =>
      let (base, leaf) := pageFor x.dstPages e.1
      let q := mkReq s (if acc then 3 else 1) x.eng x.part x.ctx leaf (saUnder base leaf e.1)
        (if acc then bits p 36 3 + 16 * bits p 39 1 else 0) (slice d (e.1 - x.dstAddr.toNat) e.2)
      submit s { pkt := { q with counter := BitVec.ofNat 17 (bits p 17 17), cen := bit p 34, cunit := bit p 35 },
                 origin := .transfer x.id } false) s

/-- A raw copy to a scratch of the sconce. -/
def mvxScratch (s : State) (x : Xfer) (w sc : Nat) : State :=
  let p := x.params.toNat
  let n := bits p 0 17
  let k := bits p 17 17
  let v := bits x.dstAddr.toNat 17 12
  let a := bits x.dstAddr.toNat 0 17
  let who := whoOf s x
  if bit p 34 ∧ 1024 ≤ k then
    finishXfer (logErr s pSYNC 1 { who.fail stFormat 0 0 with info := k }) x.id stFormat
  else if bit p 34 ∧ sconceOwner s sc ≠ x.part then finishXfer (ownerFault s x.part none k) x.id stPerm
  else if (s.sconce sc).resetting then
    finishXfer (logRecord s (pSCN sc) (who.site (who.fail stReset 0 a))) x.id stReset
  else if scratchBad s w x.srcScratch n then finishXfer (moverUncorr s x sc x.srcScratch) x.id stUncorr
  else
    let s := scratchWrite s v a (scratchRead s w x.srcScratch n)
    let s := if bit p 34 then localAdd s sc k (BitVec.ofNat 64 (if bit p 35 then 1 else n)) else s
    finishXfer s x.id 0

/-- Performs a raw copy, or ends it once every packet of it has completed. -/
def performRaw (s : State) (x : Xfer) : State :=
  match x.wick with
  | none => s
  | some w =>
    let s := if x.moved then s
      else if bit x.desc.toNat 3 then mvxScratch s x w (w / 64) else mvxStore s x w (w / 64)
    match findXfer s x.id with
    | some y => if y.moved ∧ y.open_ = 0 then finishXfer s x.id y.bad else s
    | none => s

/-- Performs a tile: it delivers all of its bytes or none (R64). -/
def performTile (s : State) (x : Xfer) : State :=
  match runEng (allOrNone (moveTile (whoOf s x) (tileOf x.desc) x.srcPages x.dstPages x.lateBlocks
      (engGenOf s x.eng))) s with
  | none => s
  | some (.error st, t) => finishXfer t x.id st
  | some (.ok g, t) =>
    let t := if (tileOf x.desc).stoch then setEngGen t x.eng g else t
    finishXfer (if x.shadow then bump t (rk pPLC 0x150) 32 1 else t) x.id 0

/-- A transfer at the head of its channel is performed; its stream goes on. -/
def performXfer (s : State) (x : Xfer) : State :=
  if !isTurn s x then s
  else endTstreams (refillAfter (if x.raw then performRaw s x else performTile s x) x)

def execTileComplete (id : Nat) (s : State) : Host.Outcome State Fault Refusal :=
  .next (match findXfer s id with
    | some x => if x.raw ∨ frozen s then s else performXfer s x
    | none => s)

def execMoverTransferDone (w id : Nat) (s : State) : Host.Outcome State Fault Refusal :=
  onOk (wickOk w) (match findXfer s id with
    | some x => if x.wick = some w ∧ !frozen s then performXfer s x else s
    | none => s)

/-! ### Deadlines (02 R65) -/

/-- Home blocks of this controller that a tile reads. -/
def tileBlocks (s : State) (x : Xfer) : List Nat :=
  let t := tileOf x.desc
  (((List.range t.rows).map (fun r => (linePieces (t.srcRow r) t.srow).filterMap (fun e =>
    blockAt s x.srcPages e.1))).flatten).dedup

/-- A tile's budget ends with `late` blocks unread. -/
def deadline (s : State) (x : Xfer) (late : List Nat) : State :=
  let t := tileOf x.desc
  let s := bump s (rk pPLC 0x148) 32 1
  if t.fall = 0 then setXfer s x.id (fun y => { y with late := true })
  else if t.fall = 1 ∧ late.all (fun b => freshShadow s b t.sf) then
    setXfer s x.id (fun y => { y with late := true, shadow := true, lateBlocks := late })
  else
    let w := whoOf s x
    endTstreams (refillAfter (finishXfer (logRecord s pXBAR (w.site (w.fail stDeadline 1 t.src))) x.id stDeadline) x)

def execDeadlineExpiry (id : Nat) (late : List Nat) (s : State) : Host.Outcome State Fault Refusal :=
  .next (match findXfer s id with
    | some x =>
      if !x.raw && !x.late && (tileOf x.desc).budget != 0 && late != [] && late.all (tileBlocks s x).contains then
        deadline s x late
      else s
    | none => s)

/-! ### MVT and MVX (08 R247 to R249) -/

/-- The plan lets the wick issue on a channel of its sconce's mover. -/
def channelGranted (s : State) (w ch : Nat) : Bool :=
  match s.plan (s.wick w).handle.toNat with
  | some p => p.claims.any (fun c => c.kind == 2 && decide (c.b1.toNat = w / 64 ∧ c.b2.toNat = ch) &&
      c.b.getLsbD (w % 64))
  | none => false

/-- A wick issues a transfer: held while its tracker or the channel is full, or while a range overlaps one in
flight. -/
def issueMove (s : State) (w : Nat) (src dst : Range) (x : Xfer) (start : State → Xfer → Option State) : State :=
  let k := s.wick w
  if 16 ≤ k.track.length ∨ channelFull s x.eng ∨ tracked k src false ∨ tracked k dst true then s
  else
    let s1 := s.setWick w (fun k => { k with track := k.track ++ [⟨x.id, src, dst⟩] })
    match start s1 { x with wick := some w, handle := some k.handle } with
    | none => s
    | some t => advance (spotOutput t w) w

def execMvt (w : Nat) (word : W32) (s : State) : Host.Outcome State Fault Refusal :=
  wickRun .mvt w word s (fun s =>
    let k := s.wick w
    let a := (rdS k (wA word)).toNat
    let ch := bits (wFN word) 0 3
    scratchAccess w a 64 64 false (fun s =>
      let d := lineOf (scratchRead s w a 64)
      let t := tileOf d
      if t.space ≠ 0 ∨ t.dwick / 64 ≠ w / 64 ∨ !channelGranted s w ch then stopAtPc s w stFormat
      else if t.src % elemAlign t.sf ≠ 0 ∨ t.daddr % 16 ≠ 0 then stopWick s w stAlign 1 t.src
      else issueMove s w (.store t.src t.sfoot) (.scratch t.dwick t.daddr t.dfoot)
        (newXfer s (.mover (w / 64) ch) k.part k.ctx d) issueTile) s)

/-- An MVX enters its channel: to the store, every page is translated first (02 R63). -/
def startRaw (s : State) (x : Xfer) : Option State :=
  let s1 := addXfer s x
  if bit x.desc.toNat 3 then some s1
  else
    match runEng (translateAll (whoOf s1 x) .l2 (if bit x.desc.toNat 4 then .accum else .write) x.dstAddr.toNat
        (bits x.params.toNat 0 17)) s1 with
    | none => none
    | some (.error st, t) => some (finishXfer t x.id st)
    | some (.ok ps, t) => some (setXfer t x.id (fun y => { y with dstPages := ps }))

def execMvx (w : Nat) (word : W32) (s : State) : Host.Outcome State Fault Refusal :=
  wickRun .mvx w word s (fun s =>
    let k := s.wick w
    let fn := wFN word
    let ch := bits fn 0 3
    let p := (rdS k (wD word)).toNat
    let n := bits p 0 17
    let a := (rdS k (wA word)).toNat
    let b := (rdS k (wB word)).toNat
    let toScratch := bit fn 3
    let unit := if toScratch then 16 else if bit fn 4 then 32 else 64
    if !channelGranted s w ch ∨ bits p 40 24 ≠ 0 ∨ n = 0 ∨ 65536 < n ∨
        (toScratch ∧ (bits b 17 12 / 64 ≠ w / 64 ∨ 2 ^ 29 ≤ b)) ∨
        (!toScratch ∧ bit fn 4 ∧ !accumOk (bits p 36 3 + 16 * bits p 39 1)) then stopAtPc s w stFormat
    else if Config.scratchBytes ≤ a then stopWick s w stXlate 0 a
    else if !toScratch ∧ 2 ^ 57 ≤ b then stopWick s w stXlate 1 b
    else if a % 16 ≠ 0 then stopWick s w stAlign 0 a
    else if b % unit ≠ 0 ∨ n % unit ≠ 0 then stopWick s w stAlign (if toScratch then 0 else 1) b
    else if Config.scratchBytes < a + n then stopWick s w stXlate 0 a
    else if toScratch ∧ Config.scratchBytes < bits b 0 17 + n then stopWick s w stXlate 0 (bits b 0 17)
    else
      let x := { newXfer s (.mover (w / 64) ch) k.part k.ctx (BitVec.ofNat 512 fn) with
        raw := true, params := BitVec.ofNat 64 p, srcScratch := a, dstAddr := BitVec.ofNat 64 b }
      issueMove s w (.scratch w a n)
        (if toScratch then .scratch (bits b 17 12) (bits b 0 17) n else .store b n) x startRaw)

end Sys2Proof.Machine
end

