-- ==== Sys2Proof/Machine/Runs.lean ====
section
/-! DEFINITION. How a run of a plan ends, what a plan claims, and collective groups that abort (09 R260, R274, R276 to
R279; 12 R348 to R350). -/
namespace Sys2Proof.Machine

/-! ### Claims (09 R260) -/

/-- Wicks that a claim names. -/
def claimWicks (c : Claim) : List Nat :=
  if c.kind = 1 then ((List.range 64).filter (fun i => c.b.getLsbD i)).map (fun i => 64 * c.b1.toNat + i) else []

def planWicks (p : Plan) : List Nat := (p.claims.map claimWicks).flatten

/-- Sconces that a plan's claims name. -/
def planSconces (p : Plan) : List Nat :=
  ((p.claims.filter (fun c => c.kind == 1 || c.kind == 2 || c.kind == 3)).map (fun c => c.b1.toNat)).dedup

/-- First and count of the resources of a claim of local counters, hub counters or semaphores. -/
def claimFirst (c : Claim) : Nat :=
  if c.kind = 3 then bits c.a.toNat 0 10 else if c.kind = 4 then bits c.a.toNat 0 17
  else if c.kind = 5 then bits c.a.toNat 0 15 else c.a.toNat
def claimCount (c : Claim) : Nat := c.b.toNat

/-- A plan claims a hub counter. -/
def planHub (p : Plan) (k : Nat) : Bool :=
  p.claims.any (fun c => c.kind == 4 && decide (claimFirst c ≤ k ∧ k < claimFirst c + claimCount c))

/-- A plan claims a hub counter that a group owns on this controller. -/
def planMeets (s : State) (p : Plan) (g : Group) : Bool :=
  p.claims.any (fun c => c.kind == 4 && g.members.any (fun m => m.agent == s.xbar.agentId &&
    decide (claimFirst c < m.first.toNat + m.count.toNat ∧ m.first.toNat < claimFirst c + claimCount c)))

/-- A fault of every ACTIVE group whose counters a plan claims is detected (12 R348). -/
def detectPlan (s : State) (p : Plan) (st : Status) : State :=
  let gs := s.sync.groups.filter (fun g => !g.aborted && planMeets s p g)
  if gs = [] then s
  else s.setSync (fun y => { y with detected := y.detected ++ gs.map (fun g => (g.part, g.gid, st)) })

/-! ### The end of a run (09 R276, R277) -/

/-- The result word of a run. -/
def runResult (p : Plan) : W64 :=
  BitVec.ofNat 64 (p.curStep % 2 ^ 16 + 2 ^ 16 * sat16 p.misses + 2 ^ 32 * sat16 p.lates)

/-- A plan's claims are free again (09 R274). -/
def freePlan (s : State) (h : Nat) (retire : Option (Nat × W32)) : State :=
  let s := dropWait { s with plans := tdel s.plans h } (.gate h)
  match retire with
  | some (q, i) => endCommand s q i 0 0
  | none => s

/-- The entry at the front of a queue starts, if it has the index: a function command that waits at the gate of its
service plan. -/
def startHead (s : State) (q : Nat) (i : W32) : State :=
  match (s.queue q).fetched with
  | e :: r => if e.idx = i then s.setQueue q (fun k => { k with
      fetched := r, active := k.active ++ [{ idx := e.idx, raw := e.raw, eng := none, sent := false }] }) else s
  | [] => s

/-- A run ends with a status: the PLAN_RUN, or the function command of a service plan, completes, the run index
advances, and a PLAN_RETIRE that waited goes on. -/
def endRun (s : State) (h : Nat) (st : Status) : State :=
  match s.plan h with
  | none => s
  | some p =>
    if p.run = .idle then s
    else
      let s := (dropWait s (.gate h)).setPlan h (fun p => { p with
        run := .idle, runIndex := p.runIndex + 1, runs := p.runs + 1, status := 0, misses := 0, lates := 0,
        streamRuns := [], runner := none })
      let s := bump s (rk pPLAN 0x148) 48 1
      let s := if st = 0 then s else detectPlan (logEvt s pPLAN 1) p st
      let s := match p.runner with
        | some (q, i) => endCommand (if p.service then startHead s q i else s) q i st (runResult p)
        | none => s
      match p.retire with
      | some r => freePlan s h (some r)
      | none => s

/-- Every wick of a plan that has not ended or stopped stops. -/
def haltPlan (s : State) (p : Plan) (st : Status) : State :=
  (planWicks p).foldl (fun s w => stopRunning s w st) s

/-- A spot check that is not compared (07 R217). -/
def skipSpot (s : State) (sc w : Nat) : State :=
  let s := s.setSconce sc (fun c => { c with spot := none })
  let k := s.wick w
  logErr (bump s (rk (pSCN sc) 0x130) 32 1) (pSCN sc) 1
    { status := stUncorr, island := some (BitVec.ofNat 8 sc), ctx := some k.ctx, part := some k.part, info := w }

/-- Checks of a plan's sconces that are still open are not compared. -/
def skipSpots (s : State) (p : Plan) : State :=
  (planSconces p).foldl (fun s sc => match (s.sconce sc).spot with
    | some sp => if (planWicks p).contains sp.wick then skipSpot s sc sp.wick else s
    | none => s) s

/-- A run ends from outside: its wicks stop, its transfers are dropped, its checks are skipped. -/
def stopRun (s : State) (h : Nat) (st : Status) : State :=
  match s.plan h with
  | none => s
  | some p =>
    if p.run = .idle then s
    else
      let s := if p.run = .running then skipSpots (haltPlan s p st) p else s
      let mine := s.work.xfers.filter (fun x => x.handle = some (BitVec.ofNat 8 h))
      let s := mine.foldl (fun s x => match x.wick with
        | some w => s.setWick w (fun k => { k with track := k.track.filter (fun t => t.id ≠ x.id) })
        | none => s) s
      let s := s.setWork (fun k => { k with xfers := k.xfers.filter (fun x => x.handle ≠ some (BitVec.ofNat 8 h)) })
      endRun s h st

/-! ### A group aborts (12 R349, R350) -/

def abortMsg (s : State) (g : Group) (a : BitVec 10) : CtlMsg :=
  mkCtl s 7 a g.part (g.gid.toNat + 2 ^ 16 * g.cause.toNat)

/-- Sends ABORT to every other member. -/
def sendAborts (s : State) (g : Group) : State :=
  g.members.foldl (fun s m => if m.agent = s.xbar.agentId then s else sendCtl s (abortMsg s g m.agent)) s

def findGroup (s : State) (part : BitVec 6) (gid : W16) : Option Group :=
  s.sync.groups.find? (fun g => g.part == part && g.gid == gid)

def setGroup (s : State) (part : BitVec 6) (gid : W16) (f : Group → Group) : State :=
  s.setSync (fun y => { y with groups := y.groups.map (fun g => if g.part = part ∧ g.gid = gid then f g else g) })

/-- The COUNTER_WAIT of a queue with a tag, by its index. -/
def counterWaitOf (s : State) (q : Nat) (tag : W32) : Option Active :=
  (s.queue q).active.find? (fun a => fld a.raw 0 1 = 4 ∧ fld a.raw 4 4 = tag.toNat)

/-- A wait on a counter of an aborted group ends. -/
def endWait (s : State) (e : Waiter) : State :=
  let s := dropWait s e
  match e with
  | .wick w => stopRunning s w stAborted
  | .gate h => stopRun s h stAborted
  | .queue q tag => match counterWaitOf s q tag with
    | some a => endCommand s q a.idx stAborted 0
    | none => s

/-- A group enters ABORTED: its members are told, one record is written, and every wait on its counters here ends. -/
def enterAborted (s : State) (part : BitVec 6) (gid : W16) (cause : Status) : State :=
  match findGroup s part gid with
  | none => s
  | some g =>
    if g.aborted then s
    else
      let g := { g with aborted := true, cause := cause, repeats := 0, abortedAt := s.lamp.moduleTime }
      let s := sendAborts (setGroup s part gid (fun _ => g)) g
      let s := (bump s (rk pSYNC 0x138) 32 1).setReg (rk pSYNC 0x148)
        (BitVec.ofNat 64 (gid.toNat + 2 ^ 16 * part.toNat + 2 ^ 24 * cause.toNat))
      let s := logRecord (logEvt s pSYNC 0) pSYNC
        { status := stAborted, part := some part, info := cause.toNat, aux := gid.toNat }
      let ws := s.sync.waits.filter (fun e => liveWait s e && !e.2.2.1 && g.owns s.xbar.agentId e.2.1)
      ws.foldl (fun s e => endWait s e.1) s

/-- Acts on the faults of groups detected so far, and on those that this brings. -/
def settleGroupsN : Nat → State → State
  | 0, s => s
  | n + 1, s =>
    match s.sync.detected with
    | [] => s
    | (p, g, st) :: rest => settleGroupsN n (enterAborted (s.setSync (fun y => { y with detected := rest })) p g st)

def settleGroups (s : State) : State :=
  settleGroupsN (s.sync.detected.length + (s.sync.groups.length + 1) * (s.plans.length + 1)) s

end Sys2Proof.Machine
end

