-- ==== Sys2Proof/Machine/Queues.lean ====
section
/-! DEFINITION. Queues: rings, tails, how an entry starts as a command, fences, counter waits and completions (14 R391,
R394 to R399; 05 R157; 06 R172, R176; 17 R479, R485). -/
namespace Sys2Proof.Machine

/-! ### A queue's configuration (R407) -/

def qN (k : Queue) : Nat := bits k.cfg.toNat 20 5
def qCtx (k : Queue) : BitVec 20 := BitVec.ofNat 20 (bits k.cfg.toNat 0 20)
def qComp (k : Queue) : Nat := bits k.cfg.toNat 25 12
def qVector (k : Queue) : Nat := bits k.cfg.toNat 37 11
def qEnabled (k : Queue) : Bool := bit k.cfg.toNat 48
def qIrq (k : Queue) : Bool := bit k.cfg.toNat 49
def ringBase (r : W64) : Nat := bits r.toNat 6 51 * 64
def ringHost (r : W64) : Bool := bit r.toNat 63

/-- A partition's range of queues holds a queue. -/
def inQueues (v : W64) (q : Nat) : Bool :=
  decide (bits v.toNat 0 18 ≤ q ∧ q < bits v.toNat 0 18 + bits v.toNat 18 19)

/-- The partition whose range holds a queue; every other queue is partition 0's (R388). -/
def queuePart (s : State) (q : Nat) : BitVec 6 :=
  ((s.work.partQueues.find? (fun e => e.1 != 0 && inQueues e.2 q)).map (fun e => BitVec.ofNat 6 e.1)).getD 0

/-- For whom a queue's rings are read and written: the work engine in the queue's default context. -/
def queueWho (s : State) (q tag : Nat) : Who :=
  { eng := .work, part := queuePart s q, ctx := qCtx (s.queue q), aux := queueAux q tag }

/-! ### Tails and entries (R395) -/

/-- A queue reads no further entries. -/
def stopQueue (s : State) (q : Nat) (st : Status) : State :=
  s.setQueue q (fun k => { k with stopped := true, stop := st })

/-- A new tail: none further ahead than the ring is long, and none that moves backwards. -/
def setTail (s : State) (q : Nat) (t : W32) : State :=
  let k := s.queue q
  if k.stopped ∨ t = k.tail then s
  else if 2 ^ qN k < (t - k.head).toNat ∨ 2 ^ 31 ≤ (t - k.tail).toNat then
    stopQueue (logErr s pWORK 0 ((queueWho s q 0).site ((queueWho s q 0).fail stFormat 0 0))) q stFormat
  else s.setQueue q (fun k => { k with tail := t })

/-- Reads the entry at the head. -/
def readEntry (s : State) (q : Nat) (hc : HostCpl) : Option (Except Status W512 × State) :=
  let k := s.queue q
  let a := ringBase k.ring + 64 * (k.head.toNat % 2 ^ qN k)
  let w := queueWho s q 0
  runEng (do
    let d ← if ringHost k.ring then readHost w hc a 64 else readDva w .l2 a 64
    return lineOf d) s

/-- Reads entries from the head to the tail; an entry that cannot be read stops the queue. -/
def fetchN : Nat → State → Nat → HostCpl → State
  | 0, s, _, _ => s
  | n + 1, s, q, hc =>
    match readEntry s q hc with
    | none => s
    | some (.error st, t) => stopQueue t q st
    | some (.ok d, t) =>
      fetchN n (t.setQueue q (fun k => { k with head := k.head + 1, fetched := k.fetched ++ [⟨k.head, d⟩] })) q hc

def fetchQueue (s : State) (q : Nat) (hc : HostCpl) : State :=
  let k := s.queue q
  if !qEnabled k ∨ k.stopped then s else fetchN (k.tail - k.head).toNat s q hc

/-! ### Commands (R396 to R398) -/

/-- A command that has started. -/
structure Cmd where
  q    : Nat
  idx  : W32
  raw  : W512
  part : BitVec 6
  ctx  : BitVec 20
  eng  : Engine
deriving DecidableEq, Repr

def opcodeOf (raw : W512) : Nat := fld raw 0 1
def Cmd.tag (c : Cmd) : Nat := fld c.raw 4 4
def Cmd.who (c : Cmd) : Who :=
  { eng := c.eng, part := c.part, ctx := c.ctx, aux := queueAux c.q c.tag }
/-- Who refuses a command for its form, handle or permissions: the work engine that dispatches it (15 R411). -/
def Cmd.issuer (c : Cmd) : Who := { c.who with eng := .work }
/-- The unsigned field of `n` bytes at byte `i` of a command. -/
def Cmd.f (c : Cmd) (i n : Nat) : Nat := fld c.raw i n

/-- A queue may start an entry: it is enabled, no COUNTER_WAIT holds it, and AFTER finds nothing before it. -/
def canStart (s : State) (q : Nat) (raw : W512) : Bool :=
  let k := s.queue q
  qEnabled k && k.active.all (fun a => opcodeOf a.raw != 4) &&
  (!bit raw.toNat 8 || (k.active.isEmpty && s.work.ended.all (fun e => e.q != q)))

/-- A mask over an entry's bits, from fields of first bit and width. -/
def maskBits (l : List (Nat × Nat)) : Nat := (l.map (fun e => (2 ^ e.2 - 1) * 2 ^ e.1)).sum

/-- The header's reserved bits, and the unused bits of bytes 16 to 63, are zero. -/
def entryForm (raw : W512) (fields : List (Nat × Nat)) : Bool :=
  let d := raw.toNat
  decide (bits d 10 6 = 0 ∧ bits d 16 16 = 0 ∧ bits d 84 11 = 0 ∧ bits d 96 32 = 0) &&
  decide ((BitVec.ofNat 512 d &&& ~~~(BitVec.ofNat 512 (maskBits fields + (2 ^ 128 - 1)))) = 0)

/-- Opcodes that only queues of partition 0 may give. -/
def isPfOp (o : Nat) : Bool := o == 0x0D || o == 0x0E || o == 0x2A || o == 0x2B

/-- What an entry's header says before its command does anything. -/
def headStatus (s : State) (c : Cmd) (fields : List (Nat × Nat)) : Status :=
  if isPfOp (opcodeOf c.raw) && c.part != 0 then stPerm
  else if !entryForm c.raw fields then stFormat
  else match ctxOf s c.ctx with
    | some x => if x.part != c.part then stPerm else if x.resetting then stReset else 0
    | none => 0

/-- Starts the entry at the front of a queue. -/
def startEntry (s : State) (q : Nat) (e : QEntry) (eng : Engine) : Cmd × State :=
  let k := s.queue q
  let n := match eng with
    | .copy n => some n
    | _ => none
  ({ q := q, idx := e.idx, raw := e.raw, part := queuePart s q,
     ctx := if bit e.raw.toNat 95 then qCtx k else BitVec.ofNat 20 (bits e.raw.toNat 64 20), eng := eng },
   s.setQueue q (fun k => { k with fetched := k.fetched.drop 1,
                                   active := k.active ++ [{ idx := e.idx, raw := e.raw, eng := n, sent := false }] }))

/-- A command ends. -/
def endCmd (s : State) (c : Cmd) (st : Status) (result : W64) : State := endCommand s c.q c.idx st result

/-- A command fails, with its record. -/
def failCmd (s : State) (c : Cmd) (st : Status) : State :=
  endCmd (logRecord s pWORK (c.issuer.site (c.issuer.fail st 0 0))) c st 0

/-- The same for a misaligned DVA. -/
def alignCmd (s : State) (c : Cmd) (dva : Nat) : State :=
  endCmd (logRecord s pWORK (c.issuer.site (c.issuer.fail stAlign 1 dva))) c stAlign 0

/-- Runs a command's work: none if it must wait. -/
def engCmd (c : Cmd) (m : Eng W64) (s : State) : Option State :=
  match runEng m s with
  | some (.ok r, t) => some (endCmd t c 0 r)
  | some (.error st, t) => some (endCmd t c st 0)
  | none => none

/-- Fails a command inside its work, with its record. -/
def failCmdE {α : Type} (c : Cmd) (st : Status) : Eng α := failAt c.issuer st 0 0

/-! ### Fences (R398; 05 R157) -/

/-- A FENCE ends once every earlier command has: with the first failure since the fence before it; with RELEASE it
sends its CNT_ADD first. -/
def stepFence (s : State) (q : Nat) (a : Active) : State :=
  let k := s.queue q
  let c := k.active.takeWhile (fun b => b.idx ≠ a.idx)
  if opcodeOf a.raw ≠ 3 ∨ a.sent ∨ c ≠ [] then s
  else
    let mine := fun (e : W32 × Status) => decide ((a.idx - e.1).toNat < 2 ^ 31)
    let st := firstBad ((k.failed.filter mine).map (·.2))
    let s := s.setQueue q (fun k => { k with failed := k.failed.filter (fun e => !mine e) })
    if !bit (fld a.raw 16 1) 0 then endCommand s q a.idx st 0
    else if st ≠ 0 then endCommand (bump s (rk pSYNC 0x128) 32 1) q a.idx st 0
    else
      let s := s.setQueue q (fun k => { k with active := k.active.map (fun b =>
        if b.idx = a.idx then { b with sent := true } else b) })
      sendCntAdd s (BitVec.ofNat 10 (bits (fld a.raw 24 2) 0 10)) (queuePart s q) (bits (fld a.raw 28 4) 0 17)
        (BitVec.ofNat 64 (fld a.raw 32 8)) (.queueFence q a.idx)

def stepFences (s : State) : State :=
  s.work.queues.foldl (fun s e => (s.queue e.1).active.foldl (fun s a => stepFence s e.1 a) s) s

/-! ### Advice commands end (02 R50) -/

/-- The record of an advice command that failed; a move that met data it could not correct, a LOST block and a block of
a revoked extent have their own. -/
def logAdvice (s : State) (a : AdviceCmd) : State :=
  if a.first = 0 ∨ a.first = stUncorr ∨ a.first = stLost ∨ a.first = stRevoked then s
  else
    let w := queueWho s a.q (tagOf s a.q a.tag)
    logRecord s pWORK (w.site (w.fail a.first 0 0))

def stepAdvice (s : State) : State :=
  let done := s.store.advice.filter (fun a => a.todo.isEmpty)
  let s := s.setStore (fun z => { z with advice := z.advice.filter (fun a => !a.todo.isEmpty) })
  done.foldl (fun s a => endCommand (logAdvice s a) a.q a.tag a.first (BitVec.ofNat 64 (a.bad % 2 ^ 16))) s

/-! ### Streams go on (09 R267; R398) -/

def stepStreams (s : State) : State :=
  let s := s.plans.foldl (fun s e =>
    if e.2.run = .running then e.2.streamRuns.foldl (fun s r => refillPlan 9 s e.1 r.idx) s else s) s
  endTstreams (s.work.tstreams.foldl (fun s t =>
    match (s.queue t.q).active.find? (fun a => a.idx = t.tag) with
    | some a => refillQueue 9 s t.q t.tag (queuePart s t.q)
        (if bit a.raw.toNat 95 then qCtx (s.queue t.q) else BitVec.ofNat 20 (bits a.raw.toNat 64 20))
    | none => s) s)

/-! ### Reserved entries -/

/-- An entry that names a command of R398. -/
def knownEntry (raw : W512) : Bool :=
  let op := fld raw 16 1
  let op2 := fld raw 17 1
  match opcodeOf raw with
  | 0x01 => true | 0x02 => true | 0x03 => true | 0x04 => true
  | 0x08 => decide (1 ≤ op ∧ op ≤ 6)
  | 0x09 => true | 0x0A => true | 0x0B => true | 0x0C => true
  | 0x0D => decide (1 ≤ op ∧ op ≤ 2)
  | 0x0E => true | 0x10 => true | 0x11 => true | 0x12 => true | 0x13 => true | 0x18 => true | 0x19 => true
  | 0x1A => decide (1 ≤ op2 ∧ op2 ≤ 6)
  | 0x1B => decide (1 ≤ op2 ∧ op2 ≤ 5)
  | 0x1C => true | 0x20 => true | 0x21 => true | 0x22 => true | 0x23 => true | 0x28 => true | 0x29 => true
  | 0x2A => decide (1 ≤ op ∧ op ≤ 3)
  | 0x2B => decide (1 ≤ op ∧ op ≤ 4)
  | _ => false

/-- Entries at the front of a queue that name no command complete at once, and nothing is done. -/
def refuseHeads : Nat → State → Nat → State
  | 0, s, _ => s
  | n + 1, s, q =>
    match (s.queue q).fetched with
    | [] => s
    | e :: _ =>
      if knownEntry e.raw || !canStart s q e.raw then s
      else
        let (c, s) := startEntry s q e .work
        refuseHeads n (failCmd s c (if isPfOp (opcodeOf e.raw) && c.part != 0 then stPerm else stFormat)) q

def refuseAll (s : State) : State :=
  s.work.queues.foldl (fun s e => refuseHeads (s.queue e.1).fetched.length s e.1) s

/-! ### Completions (R396, R397) -/

/-- The completion entry of a command. -/
def completionBytes (e : Ended) (n : Nat) : List Byte :=
  leBytes 4 (fld e.act.raw 4 4) ++ [e.status] ++ [BitVec.ofNat 8 (b2n (!bit (e.act.idx.toNat / 2 ^ n) 0))] ++ zeros 2 ++
    leBytes 8 e.result.toNat

/-- Writes a completion entry, then its MSI-X message; none if the write must wait. -/
def writeCompletion (s : State) (e : Ended) : Option State :=
  let k := s.queue e.q
  let a := ringBase k.cpl + 16 * (e.act.idx.toNat % 2 ^ qN k)
  let d := completionBytes e (qN k)
  let w := queueWho s e.q (fld e.act.raw 4 4)
  match runEng (if ringHost k.cpl then writeHost w .ok a d else writeDva w .l2 a d) s with
  | none => none
  | some (.error _, t) => some t
  | some (.ok _, t) =>
    some (if bit e.act.raw.toNat 9 && qIrq k then emit t (.msix (queuePart t e.q).toNat (qVector k)) else t)

/-- Completions are written in the order in which commands ended; one that must wait stays. -/
def stepEnded (s : State) : State :=
  let l := s.work.ended
  l.foldl (fun s e =>
    match writeCompletion s e with
    | some t => t
    | none => s.setWork (fun w => { w with ended := w.ended ++ [e] })) (s.setWork (fun w => { w with ended := [] }))

/-! ### Settling -/

/-- Tails that follow a counter, and entries up to them. -/
def stepTails (s : State) : State :=
  s.work.queues.foldl (fun s e =>
    let k := s.queue e.1
    let s := if qEnabled k && k.tailcnt.getLsbD 17 then
        setTail s e.1 ((hubGet s (bits k.tailcnt.toNat 0 17)).setWidth 32) else s
    fetchQueue s e.1 .ok) s

/-- One round of what follows from a command or an event by itself. -/
def settleOnce (s : State) : State :=
  stepTails (stepEnded (refuseAll (stepFences (stepAdvice (stepRebuild (stepStreams (settleGroups s)))))))

/-- What follows by itself: faults of groups, ended commands, fences, completions, tails, entries (log entry 40). -/
def settle (s : State) : State := settleOnce (settleOnce s)

/-- A queue command's row: it happens when the entry is the next of an enabled queue and may start. `fields` are the
bits of bytes 16 to 63 that the command uses. -/
def cmdRow (q : Nat) (e : W512) (isRow : Bool) (fields : List (Nat × Nat)) (eng : Engine)
    (body : Cmd → State → Option State) (s : State) : Host.Outcome State Fault Refusal :=
  onOk (queueOk q) (
    match (s.queue q).fetched with
    | [] => s
    | f :: _ =>
      if !isRow || f.raw != e || !canStart s q e || frozen s then s
      else
        let (c, s1) := startEntry s q f eng
        let st := headStatus s1 c fields
        if st ≠ 0 then settle (failCmd s1 c st)
        else match body c s1 with
          | some t => settle t
          | none => s)

/-! ### Doorbells and enabling -/

def dropDoorbell (s : State) : State := bump s (rk pHOST 0x150) 32 1

/-- A source reaches a queue. -/
def reachesQueue (s : State) (src : RegSrc) (q : Nat) : Bool :=
  match src with
  | .vf n => queuePart s q == BitVec.ofNat 6 n
  | _ => true

def execDoorbell (src : RegSrc) (q size : Nat) (v : W64) (hc : HostCpl) (s : State) :
    Host.Outcome State Fault Refusal :=
  onOk (src.ok && queueOk q) (
    let k := s.queue q
    if s.host.notFront then s
    else if size ≠ 8 ∨ !reachesQueue s src q ∨ !qEnabled k ∨ k.tailcnt.getLsbD 17 then dropDoorbell s
    else settle (fetchQueue (setTail s q (v.setWidth 32)) q hc))

/-- What ENABLE requires (R394). -/
def mayEnable (s : State) (q : Nat) (k : Queue) : Bool :=
  let p := queuePart s q
  let c := s.comp (qComp k)
  decide (6 ≤ qN k ∧ qN k ≤ 16) && (match ctxOf s (qCtx k) with
    | some x => x.part == p
    | none => false) && c.state == 1 && c.part == p && !partResetting s p

def enabledQueue (k : Queue) : Queue :=
  { k with head := 0, tail := 0, stopped := false, stop := 0, fetched := [], failed := [] }

/-- A write of Q_CFG: the physical function sets a disabled queue's fields; ENABLE enables or disables it. -/
def execQEnable (src : RegSrc) (v : W64) (s : State) : Host.Outcome State Fault Refusal :=
  onOk src.ok (
    let q := bits (regGet s (rkBank pWORK 0x168 (srcBank src))).toNat 0 18
    let k := s.queue q
    let on := bit v.toNat 48
    let isVf : Bool := match src with
      | .vf _ => true
      | _ => false
    if !reachesQueue s src q || inReset s pWORK then dropWrite s src (rk pWORK 0x180)
    else
      let fields : W64 := if qEnabled k ∨ isVf then k.cfg else v &&& (0x3FFFFFFFFFFFF : W64)
      let cfg : W64 := fields &&& ~~~(0x1000000000000 : W64) ||| (if on then (0x1000000000000 : W64) else 0)
      let k' := { k with cfg := cfg }
      if !qEnabled k ∧ !isVf ∧ ¬ (6 ≤ qN k' ∧ qN k' ≤ 16) then refuse s pWORK 1 0x180
      else if on ∧ !qEnabled k then
        if mayEnable s q k' then settle (s.setQueue q (fun _ => enabledQueue k')) else refuse s pWORK 1 0x180
      else if !on ∧ qEnabled k then s.setQueue q (fun _ => { k' with fetched := [] })
      else s.setQueue q (fun _ => k'))

/-! ### FENCE, COUNTER_WAIT -/

def execFence (q : Nat) (e : W512) (s : State) : Host.Outcome State Fault Refusal :=
  cmdRow q e (opcodeOf e == 3) [(128, 1), (192, 10), (224, 17), (256, 64)] .work (fun _ s => some s) s

/-- COUNTER_WAIT goes on: the counter has reached its target, its bound has passed, or its group has aborted. -/
def counterWaitDone (s : State) (q : Nat) (idx : W32) (tag : Nat) (st : Status) (reached : Bool) : State :=
  endCommand (dropWait s (.queue q (BitVec.ofNat 32 tag))) q idx st (BitVec.ofNat 64 (b2n reached))

def execCounterWait (q : Nat) (e : W512) (s : State) : Host.Outcome State Fault Refusal :=
  cmdRow q e (opcodeOf e == 4) [(128, 17), (192, 64), (256, 32)] .work (fun c s =>
    let k := c.f 16 4
    let target := BitVec.ofNat 64 (c.f 24 8)
    if 10 ^ 7 < c.f 32 4 then some (failCmd s c stFormat)
    else if counterOwner s k ≠ c.part then
      some (endCmd (logErr s pSYNC 0 { c.who.fail stPerm 0 0 with info := k }) c stPerm 0)
    else if (abortedGroup s k).isSome then some (counterWaitDone s q c.idx c.tag stAborted false)
    else if target ≤ hubGet s k then some (counterWaitDone s q c.idx c.tag 0 true)
    else some (addWait s (.queue q (BitVec.ofNat 32 c.tag), k, false, target))) s

def execCounterWaitBound (q : Nat) (tag : W32) (s : State) : Host.Outcome State Fault Refusal :=
  onOk (queueOk q) (match counterWaitOf s q tag with
  | none => s
  | some a =>
    if fld a.raw 32 4 ≠ 0 ∧ ¬ (BitVec.ofNat 64 (fld a.raw 24 8) ≤ hubGet s (fld a.raw 16 4)) then
      settle (counterWaitDone s q a.idx tag.toNat 0 false)
    else s)

end Sys2Proof.Machine
end

