-- ==== Sys2Proof/Machine/PlanForm.lean ====
section
/-! DEFINITION. The plan image: its header, sections and entries, and what each must be (09 R257 to R270). -/
namespace Sys2Proof.Machine

/-! ### CRC-32C (R257) -/

/-- One bit of the reflected Castagnoli division. -/
def crcBit (c : Nat) : Nat := if c % 2 = 1 then (c / 2) ^^^ 0x82F63B78 else c / 2
def crcByte (c : Nat) (b : Byte) : Nat := (List.range 8).foldl (fun c _ => crcBit c) (c ^^^ b.toNat)
def crc32c (d : List Byte) : Nat := (d.foldl crcByte 0xFFFFFFFF) ^^^ 0xFFFFFFFF

/-! ### Entries -/

/-- The first `k` entries of `n` bytes, each as a number. -/
def numsN : Nat → Nat → List Byte → List Nat
  | 0, _, _ => []
  | k + 1, n, d => leNat (d.take n) :: numsN k n (d.drop n)
/-- The entries of `n` bytes of a section. -/
def nums (n : Nat) (d : List Byte) : List Nat := numsN (d.length / n) n d

/-- Offset and length of section `i`, from the header. -/
def sectionAt (h i : Nat) : Nat × Nat := (bits h (8 * (48 + 8 * i)) 32, bits h (8 * (52 + 8 * i)) 32)
/-- Bytes of an entry of each section (R258). -/
def entrySizes : List Nat := [16, 64, 16, 4, 16, 64, 8, 8, 8]

def parseClaim (v : Nat) : Claim :=
  { kind := BitVec.ofNat 8 v, b1 := BitVec.ofNat 8 (v / 2 ^ 8), b2 := BitVec.ofNat 8 (v / 2 ^ 16),
    a := BitVec.ofNat 32 (v / 2 ^ 32), b := BitVec.ofNat 64 (v / 2 ^ 64) }

def parseStep (v : Nat) : PStep :=
  let f := fun (i n : Nat) => bits v (8 * i) (8 * n)
  { sconceBound := BitVec.ofNat 32 (f 0 4), hubBound := BitVec.ofNat 32 (f 4 4), gateBound := BitVec.ofNat 32 (f 8 4),
    kind := BitVec.ofNat 8 (f 12 1), serviceOp := BitVec.ofNat 8 (f 13 1), spot := bit (f 14 1) 0,
    gate := bit (f 14 1) 1, post := bit (f 14 1) 2, launchFirst := f 16 4, launchCount := f 20 4,
    streamFirst := f 24 4, streamCount := f 28 4, gateCounter := BitVec.ofNat 17 (f 32 4),
    postCounter := BitVec.ofNat 17 (f 36 4), gateBase := BitVec.ofNat 64 (f 40 8),
    gateStride := BitVec.ofNat 64 (f 48 8), postAgent := BitVec.ofNat 10 (f 56 2),
    postInc := BitVec.ofNat 32 (f 60 4) }

def parseLaunch (v : Nat) : Launch :=
  { wick := BitVec.ofNat 12 v, entry := BitVec.ofNat 12 (v / 2 ^ 16), codeOff := bits v 32 32, codeLen := bits v 64 32 }

def parseStream (v : Nat) : PStream :=
  { engine := BitVec.ofNat 8 v, unit := BitVec.ofNat 8 (v / 2 ^ 8), channel := BitVec.ofNat 8 (v / 2 ^ 16),
    ahead := BitVec.ofNat 8 (v / 2 ^ 24), tileFirst := bits v 32 32, tileCount := bits v 64 32,
    deadline := BitVec.ofNat 8 (v / 2 ^ 96), srcRel := BitVec.ofNat 3 (v / 2 ^ 104),
    dstRel := BitVec.ofNat 3 (v / 2 ^ 112) }

/-- The bytes of section `i` of an image. -/
def sectionOf (img : List Byte) (h i : Nat) : List Byte := slice img (sectionAt h i).1 (sectionAt h i).2

/-- A plan as its image spells it; `planForm` says whether the image may be admitted. -/
def buildPlan (img : List Byte) (h : Nat) (part : BitVec 6) (ctx : BitVec 20) : Plan :=
  let sec := fun i => nums (entrySizes.getD i 8) (sectionOf img h i)
  { ctx := ctx, part := part, service := bit h 48, multi := bit h 49, armed := !bit h 49,
    tag := BitVec.ofNat 64 (bits h 192 64), partMask := BitVec.ofNat 64 (bits h 256 64),
    seed := BitVec.ofNat 32 (bits h 160 32), claims := (sec 0).map parseClaim, steps := (sec 1).map parseStep,
    launches := (sec 2).map parseLaunch, code := sectionOf img h 3, streams := (sec 4).map parseStream,
    tiles := (sec 5).map (BitVec.ofNat 512), routes := (sec 6).map (BitVec.ofNat 64),
    deadlines := (sec 7).map (BitVec.ofNat 64), spots := (sec 8).map (BitVec.ofNat 64), run := .idle, curStep := 0,
    runIndex := 0, rel := [0, 0, 0, 0], status := 0, misses := 0, lates := 0, runs := 0, streamRuns := [],
    runner := none, comp := 0, retire := none }

/-! ### What an image must be -/

/-- Two ranges have nothing in common. -/
def apart (a n b k : Nat) : Bool := decide (a + n ≤ b ∨ b + k ≤ a)

/-- The section entries (R258, R259). -/
def sectionsForm (h len : Nat) : Bool :=
  let secs := (List.range 12).map (sectionAt h)
  (List.range 12).all (fun i =>
    let (o, n) := sectionAt h i
    if n = 0 ∨ 9 ≤ i then decide (o = 0 ∧ n = 0)
    else decide (o % 64 = 0 ∧ n % (entrySizes.getD i 8) = 0 ∧ 256 ≤ o ∧ o + n ≤ len)) &&
  decide (secs.Pairwise (fun x y => x.2 = 0 ∨ y.2 = 0 ∨ apart x.1 x.2 y.1 y.2 = true)) &&
  decide ((sectionAt h 0).2 ≠ 0) && decide ((sectionAt h 1).2 = 64 * bits h 128 32) &&
  decide ((sectionAt h 7).2 ≤ 8 * 255) && decide ((sectionAt h 8).2 ≤ 8 * 64)

/-- The length that a header gives, if an image of it can be read. -/
def imageLen (h : Nat) : Option Nat :=
  let n := bits h 64 32
  if n % 64 = 0 ∧ 256 ≤ n ∧ n ≤ 2 ^ 26 then some n else none

/-- The header of 256 B (R257); `me` is this controller. -/
def headerForm (h : Nat) (me : BitVec 10) : Bool :=
  let multi := bit h 49
  decide (bits h 0 32 = 0x4E414C50 ∧ bits h 32 16 = 1 ∧ bits h 50 14 = 0 ∧ bits h 320 64 = 0 ∧ bits h 1152 896 = 0) &&
  decide (1 ≤ bits h 128 32 ∧ bits h 128 32 ≤ 65536) && (!bit h 48 || decide (bits h 128 32 = 1)) &&
  (if multi then bit h (256 + me.toNat) && decide (me.toNat < 64) else decide (bits h 192 128 = 0))

/-- The whole image's CRC, its own field taken as zero. -/
def crcForm (img : List Byte) (h : Nat) : Bool :=
  decide (crc32c (img.take 12 ++ zeros 4 ++ img.drop 16) = bits h 96 32)

/-- One claim entry (R260). -/
def claimForm (v : Nat) : Bool :=
  let c := parseClaim v
  let b1 := c.b1.toNat
  let b2 := c.b2.toNat
  let a := c.a.toNat
  let b := c.b.toNat
  bits v 24 8 == 0 &&
  match c.kind.toNat with
  | 1 => decide (b1 < 64 ∧ b2 = 0 ∧ a = 0)
  | 2 => decide (b1 < 64 ∧ b2 < 8 ∧ 1 ≤ a ∧ a ≤ 256)
  | 3 => decide (b1 < 64 ∧ b2 = 0 ∧ a < 1024 ∧ 1 ≤ b ∧ a + b ≤ 1024)
  | 4 => decide (b1 = 0 ∧ b2 = 0 ∧ a < 131072 ∧ 1 ≤ b ∧ a + b ≤ 131072)
  | 5 => decide (b1 = 0 ∧ b2 = 0 ∧ a < 32768 ∧ 1 ≤ b ∧ a + b ≤ 32768)
  | 6 => decide (b1 = 0 ∧ b2 = 0 ∧ a % 4096 = 0 ∧ b % 4096 = 0 ∧ a + b ≤ Config.reservoirBytes)
  | 7 => decide (b1 < 10 ∧ b2 = 0 ∧ a % 2 = 0 ∧ 1 ≤ b ∧ b ≤ 1000)
  | 8 => decide (1 ≤ b1 ∧ b1 ≤ 2 ∧ b2 = 0 ∧ a = 0 ∧ 1 ≤ b ∧ b ≤ 1000)
  | 9 => decide (b1 < 8 ∧ b2 = 0 ∧ a = 0 ∧ 1 ≤ b ∧ b ≤ 1000)
  | 10 => decide (b1 < 32 ∧ b2 = 0 ∧ a = 0 ∧ 1 ≤ b ∧ b ≤ 1000)
  | _ => false

/-- A plan claims a wick, a mover channel, a local counter, a range of the Reservoir, a copy engine. -/
def planHasWick (p : Plan) (w : Nat) : Bool :=
  p.claims.any (fun c => c.kind == 1 && c.b1.toNat == w / 64 && c.b.getLsbD (w % 64))
def planHasChannel (p : Plan) (sc ch : Nat) : Bool :=
  p.claims.any (fun c => c.kind == 2 && c.b1.toNat == sc && c.b2.toNat == ch)
def planHasLocal (p : Plan) (sc k : Nat) : Bool :=
  p.claims.any (fun c => c.kind == 3 && c.b1.toNat == sc &&
    decide (claimFirst c ≤ k ∧ k < claimFirst c + claimCount c))
def planHasReservoir (p : Plan) (a n : Nat) : Bool :=
  p.claims.any (fun c => c.kind == 6 && decide (c.a.toNat ≤ a ∧ a + n ≤ c.a.toNat + c.b.toNat))
def planHasCopy (p : Plan) (n : Nat) : Bool := p.claims.any (fun c => c.kind == 10 && c.b1.toNat == n)

/-- A launch entry (R265). -/
def launchForm (p : Plan) (v : Nat) : Bool :=
  let l := parseLaunch v
  decide (bits v 12 4 = 0 ∧ bits v 28 4 = 0 ∧ bits v 96 32 = 0 ∧ l.codeOff % 64 = 0 ∧ l.codeLen % 4 = 0 ∧
    l.codeLen ≤ 16384) && (l.codeLen == 0 || decide (l.codeOff + l.codeLen ≤ p.code.length)) &&
  planHasWick p l.wick.toNat

/-- A tile of a stream: its form, its destination, and the counter and Reservoir bytes inside the claims (R59, R163,
R261, R266). -/
def planTileForm (p : Plan) (st : PStream) (d : W512) : Bool :=
  let t := tileOf d
  tileForm d && decide (fld d 32 4 = 0) &&
  (if st.engine = 0 then t.space == 0 && t.dwick / 64 == st.unit.toNat else t.space == 0 || t.space == 1) &&
  (if t.space = 0 then !t.cen || planHasLocal p (t.dwick / 64) t.cid
   else planHasReservoir p t.daddr t.dfoot && (!t.cen || planHub p t.cid))

/-- A stream entry (R266). -/
def streamForm (p : Plan) (v : Nat) : Bool :=
  let st := parseStream v
  decide (st.engine.toNat ≤ 1 ∧ st.ahead.toNat ≤ 8 ∧ 1 ≤ st.tileCount ∧ st.tileCount ≤ 65536 ∧
    st.tileFirst + st.tileCount ≤ p.tiles.length ∧ bits v 107 5 = 0 ∧ bits v 115 13 = 0) &&
  (st.deadline == 0xFF || decide (st.deadline.toNat < p.deadlines.length)) &&
  (if st.engine = 0 then planHasChannel p st.unit.toNat st.channel.toNat
   else st.channel == 0 && planHasCopy p st.unit.toNat) &&
  ((p.tiles.drop st.tileFirst).take st.tileCount).all (planTileForm p st)

def deadlineForm (v : Nat) : Bool := decide (1 ≤ bits v 0 16 ∧ bits v 16 2 < 3 ∧ bits v 18 46 = 0)
def routeForm (v : Nat) : Bool := decide (bits v 10 2 = 0 ∧ bits v 16 48 = 0)
def spotForm (p : Plan) (v : Nat) : Bool :=
  decide (bits v 16 48 = 0 ∧ (bits v 8 8 ≤ 20 ∨ bits v 8 8 = 0xFF)) && (planSconces p).contains (bits v 0 8)

/-- Launch and stream entries of a step. -/
def stepLaunches (p : Plan) (st : PStep) : List Launch := (p.launches.drop st.launchFirst).take st.launchCount

/-- A step entry (R264); `me` is this controller. -/
def stepForm (p : Plan) (me : BitVec 10) (v : Nat) : Bool :=
  let st := parseStep v
  decide (st.sconceBound ≠ 0 ∧ st.hubBound ≠ 0 ∧ bits v 115 13 = 0 ∧ bits v 273 15 = 0 ∧ bits v 305 15 = 0 ∧
    bits v 458 22 = 0) &&
  (if p.service then st.kind == 1 && decide (0x19 ≤ st.serviceOp.toNat ∧ st.serviceOp.toNat ≤ 0x1B)
   else st.kind == 0 && st.serviceOp == 0) &&
  decide (st.launchCount ≤ 4096 ∧ st.launchFirst + st.launchCount ≤ p.launches.length ∨ st.launchCount = 0) &&
  decide (st.streamCount ≤ 8192 ∧ st.streamFirst + st.streamCount ≤ p.streams.length ∨ st.streamCount = 0) &&
  decide ((stepLaunches p st).map (·.wick)).Nodup &&
  (!st.gate || planHub p st.gateCounter.toNat) &&
  (!st.post || st.postAgent != me || planHub p st.postCounter.toNat)

/-- Everything that the layouts ask of an image (R257 to R270). -/
def planForm (img : List Byte) (h : Nat) (me : BitVec 10) (p : Plan) : Bool :=
  let sec := fun i => nums (entrySizes.getD i 8) (sectionOf img h i)
  headerForm h me && sectionsForm h img.length && crcForm img h && (sec 0).all claimForm &&
  decide ((p.claims.filter (fun c => c.kind == 2)).map (fun c => (c.b1, c.b2))).Nodup &&
  (sec 1).all (stepForm p me) && (sec 2).all (launchForm p) && (sec 4).all (streamForm p) &&
  p.tiles.all (fun d => tileForm d && decide (fld d 32 4 = 0)) && (sec 6).all routeForm &&
  (sec 7).all deadlineForm && (sec 8).all (spotForm p)

/-- The plan of an image, if its layout is right. -/
def parsePlan (img : List Byte) (me : BitVec 10) (part : BitVec 6) (ctx : BitVec 20) : Option Plan :=
  let h := leNat (img.take 256)
  let p := buildPlan img h part ctx
  if planForm img h me p then some p else none

end Sys2Proof.Machine
end

