-- ==== Sys2Proof/Machine/Advice.lean ====
section
/-! DEFINITION. Advice commands: PREFETCH, PIN, UNPIN, COLD, MARK_SHADOW, UNMARK_SHADOW, and RECLAIM (02 R50 to R55;
13 R383; 14 R390, R398; 15 R432). -/
namespace Sys2Proof.Machine

/-! ### The blocks of a range -/

/-- Translates every block of a range before anything changes: its home offset, and the key of its leaf. A page of
another home has no block here. -/
def rangeBlocks (c : Cmd) (use : Use) (dva n : Nat) : Eng (List (Nat × BitVec 12)) :=
  (List.range n).mapM (fun i => do
    let a := dva + 65536 * i
    let (base, leaf) ← translate c.who .l2 use a
    let s ← get
    match homeOffset s (saUnder base leaf a) with
    | .ok off => return (off / 65536, leaf.key)
    | .error st => failAt c.who st 1 a)

/-- One block has ended with a status at once. -/
def blockDone (s : State) (c : Cmd) (b : Nat) (st : Status) : State := adviceDone s c.q c.idx b st

/-- Asks for the move of a block. -/
def adviseMove (s : State) (c : Cmd) (b tier : Nat) (wick : Option Nat) (rank : Nat) : State :=
  match requestMove s b tier wick rank (.advice c.q c.idx) with
  | (some st, s) => tellAdvice s rank b st c.q c.idx
  | (none, s) => s

def unpinBlock (s : State) (c : Cmd) (b : Nat) : State :=
  if (blockGet s b).pins = 0 then blockDone s c b stQuota
  else blockDone (blockSet s b (fun e => { e with pins := e.pins - 1 })) c b 0

/-- Units reserved for a block's shadow. -/
def reserved (s : State) (b : Nat) : Nat := ((blockGet s b).shadow.map shadowUnits).getD 0

/-- Marks a block shadowed under the key that its leaf names, if its shadow fits in the pool. -/
def markBlock (s : State) (c : Cmd) (b : Nat) (key : BitVec 12) (srcFmt : BitVec 2) (sb4 : Bool) : State :=
  let h : Shadow := { srcFmt := srcFmt, sb4 := sb4, stale := true, key := key }
  let use := s.store.shadowUse - reserved s b + shadowUnits h
  if shadowPool s < use then blockDone s c b stQuota
  else blockDone (blockSet (s.setStore (fun z => { z with shadowUse := use })) b
    (fun e => { e with shadow := some h })) c b 0

/-- Clears a block's mark and frees its shadow. -/
def unmarkBlock (s : State) (c : Cmd) (b : Nat) : State :=
  let use := s.store.shadowUse - reserved s b
  blockDone (blockSet (s.setStore (fun z =>
    { z with shadowUse := use, shadowMem := cellZero z.shadowMem (65536 * b) 65536 })) b
    (fun e => { e with shadow := none })) c b 0

/-- One block of an advice command: the home's checks, then the operation. -/
def adviseBlock (s : State) (c : Cmd) (op tier : Nat) (wick : Option Nat) (fmt : Nat) (e : Nat × BitVec 12) : State :=
  let b := e.1
  let x := extentStatus s (65536 * b) 65536 c.part
  if (blockGet s b).lost then
    blockDone (logRecord s pWORK (c.who.site (c.who.fail stLost 2 (saOf s (65536 * b))))) c b stLost
  else if x ≠ 0 then
    blockDone (if x = stRevoked then logErr s pWORK 2 (c.who.site (c.who.fail x 2 (saOf s (65536 * b)))) else s) c b x
  else match op with
  | 1 => adviseMove s c b (if tier = 0 then 0 else tier - 1) wick 2
  | 2 =>
    if (blockGet s b).pins = 255 then blockDone s c b stQuota
    else adviseMove s c b (if tier = 0 then 0 else tier - 1) wick 1
  | 3 => unpinBlock s c b
  | 4 =>
    if (blockGet s b).pins ≠ 0 then blockDone (bumpBusy s) c b stBusy
    else adviseMove s c b (if tier = 0 then 2 else tier - 1) none 2
  | 5 => markBlock s c b e.2 (BitVec.ofNat 2 fmt) (bit fmt 2)
  | _ => unmarkBlock s c b

/-- Starts an operation on blocks: the command ends when every block has. -/
def startAdvice (s : State) (c : Cmd) (op tier : Nat) (wick : Option Nat) (fmt : Nat) (bs : List (Nat × BitVec 12)) :
    State :=
  let s := s.setStore (fun z => { z with advice := z.advice ++
    [{ q := c.q, tag := c.idx, todo := bs.map (·.1), first := 0, bad := 0 }] })
  bs.foldl (fun s e => adviseBlock s c op tier wick fmt e) s

/-- What an advice command may name (R50, R51). -/
def adviceForm (op tier n : Nat) (named : Bool) (fmt : Nat) : Bool :=
  decide (tier ≤ 3 ∧ 1 ≤ n ∧ n ≤ 16384) && !(named && decide (2 ≤ tier ∨ 2 < op)) &&
  !(op == 2 && tier == 3) && !(op == 4 && tier == 1) && !((op == 3 || decide (4 < op)) && tier != 0) &&
  decide (fmt % 4 < 3)

def adviseRow (q : Nat) (e : W512) (op : Nat) (s : State) : Host.Outcome State Fault Refusal :=
  cmdRow q e (opcodeOf e == 8 && fld e 16 1 == op)
    [(128, 8), (136, 8), (144, 12), (159, 1), (160, 32), (192, 64), (256, if op = 5 then 3 else 0)] .work (fun c s =>
    let tier := c.f 17 1
    let w := c.f 18 2
    let n := c.f 20 4
    let dva := c.f 24 8
    let fmt := c.f 32 1 % 8
    if !adviceForm op tier n (bit w 15) fmt then some (failCmd s c stFormat)
    else if dva % 65536 ≠ 0 then some (alignCmd s c dva)
    else match runEng (rangeBlocks c .read dva n) s with
      | none => none
      | some (.error st, t) => some (endCmd t c st (BitVec.ofNat 64 (n % 2 ^ 16)))
      | some (.ok bs, t) =>
        some (startAdvice t c op tier (if bit w 15 then some (bits w 0 12) else none) fmt bs)) s

def execPrefetch (q : Nat) (e : W512) (s : State) : Host.Outcome State Fault Refusal := adviseRow q e 1 s
def execPin (q : Nat) (e : W512) (s : State) : Host.Outcome State Fault Refusal := adviseRow q e 2 s
def execUnpin (q : Nat) (e : W512) (s : State) : Host.Outcome State Fault Refusal := adviseRow q e 3 s
def execCold (q : Nat) (e : W512) (s : State) : Host.Outcome State Fault Refusal := adviseRow q e 4 s
def execMarkShadow (q : Nat) (e : W512) (s : State) : Host.Outcome State Fault Refusal := adviseRow q e 5 s
def execUnmarkShadow (q : Nat) (e : W512) (s : State) : Host.Outcome State Fault Refusal := adviseRow q e 6 s

/-! ### RECLAIM (13 R383; 15 R432) -/

/-- Writes zeros over a line under a key slot. -/
def zeroLine (s : State) (c : Cmd) (key : BitVec 12) (l : Nat) : State :=
  twinLines (staleShadow (lineWrite s key l 0) (l / 1024)) (dirPacket s 1 s.xbar.agentId c.part l 0 []) l

/-- Reclaims one block of a range: the lines reclaimed, the blocks left, the state. -/
def reclaimBlock (c : Cmd) (zero : Bool) (lo hi : Nat) (acc : Nat × Nat × State) (e : Nat × BitVec 12) :
    Nat × Nat × State :=
  let (n, left, s) := acc
  let b := e.1
  let k := blockGet s b
  let ls := (List.range 1024).map (· + 1024 * b)
  let clear (s : State) (ls : List Nat) : State :=
    clearForfeits (if zero then ls.foldl (fun s l => zeroLine s c e.2 l) s else s) ls
  let whole := lo == 0 && hi == 1024
  if k.lost then
    if whole ∧ zero then (n + 1024, left, blockSet (clear s ls) b (fun k => { k with lost := false, forfeit := false }))
    else (n, left + 1, s)
  else if k.forfeit then
    if whole then (n + 1024, left, blockSet (clear s ls) b (fun k => { k with forfeit := false }))
    else (n, left + 1, s)
  else
    let mine := ((ls.drop lo).take (hi - lo)).filter s.dir.forfeits.contains
    (n + mine.length, left, clear s mine)

/-- The blocks of a RECLAIM's range, once its translation, extents and keys allow it. -/
def reclaimBlocks (c : Cmd) (dva n : Nat) (zero : Bool) : Eng (List (Nat × BitVec 12)) := do
  let bs ← rangeBlocks c (if zero then .write else .read) (dva / 65536 * 65536) ((dva + n - 1) / 65536 - dva / 65536 + 1)
  let s ← get
  let st := if c.part = 0 then 0 else firstBad (bs.map (fun e => extentStatus s (65536 * e.1) 65536 c.part))
  if st ≠ 0 then failCmdE c st
  if zero && !bs.all (fun e => keyOk s e.2 c.part) then
    failLog stKey (fun s => logErr s pKEY 1 (c.who.fail stKey 1 dva))
  return bs

/-- Reclaims the blocks of a range in turn: the lines reclaimed, the blocks left, the state. -/
def reclaimAll (s : State) (c : Cmd) (dva n : Nat) (zero : Bool) (bs : List (Nat × BitVec 12)) : Nat × Nat × State :=
  bs.zipIdx.foldl (fun acc e =>
    let a := 65536 * (dva / 65536 + e.2)
    reclaimBlock c zero ((max dva a - a) / 64) ((min (dva + n) (a + 65536) - a) / 64) acc e.1) (0, 0, s)

def execReclaim (q : Nat) (e : W512) (s : State) : Host.Outcome State Fault Refusal :=
  cmdRow q e (opcodeOf e == 0x0C) [(128, 57), (192, 64), (256, 1)] .work (fun c s =>
    let dva := c.f 16 8
    let n := c.f 24 8
    let zero := bit (c.f 32 1) 0
    if n = 0 ∨ n % 64 ≠ 0 ∨ 2 ^ 30 < n then some (failCmd s c stFormat)
    else if dva % 64 ≠ 0 then some (alignCmd s c dva)
    else match runEng (reclaimBlocks c dva n zero) s with
      | none => none
      | some (.error st, t) => some (endCmd t c st 0)
      | some (.ok bs, t) =>
        let (lines, left, t) := reclaimAll t c dva n zero bs
        some (endCmd t c 0 (BitVec.ofNat 64 (lines % 2 ^ 32 + 2 ^ 32 * sat16 left)))) s

end Sys2Proof.Machine
end

