-- ==== Sys2Proof/Machine/Copies.lean ====
section
/-! DEFINITION. Queue commands that copy engines carry: COPY, TILE_STREAM, ACCUM_STREAM and the copies between host memory
and the store (02 R53; 12 R335; 14 R398). -/
namespace Sys2Proof.Machine

/-- A copy engine in reset takes no command. -/
def copyHeld (s : State) (q : Nat) : Bool := s.work.copyReset.contains (copyOf q)

/-- A queue command that a copy engine carries. -/
def copyRow (q : Nat) (e : W512) (isRow : Bool) (fields : List (Nat × Nat)) (body : Cmd → State → Option State)
    (s : State) : Host.Outcome State Fault Refusal :=
  cmdRow q e isRow fields (.copy (copyOf q)) (fun c s => if copyHeld s q then none else body c s) s

/-! ### Addresses with a space -/

/-- An address field with a space in [63:60]: space 1 Reservoir or 2 store, and no bit above the space's addresses. -/
def spaceOk (v : Nat) : Bool :=
  (bits v 60 4 == 1 && bits v 27 33 == 0) || (bits v 60 4 == 2 && bits v 57 3 == 0)
def spaceAddr (v : Nat) : Nat := bits v 0 60
def inReservoir (v : Nat) : Bool := bits v 60 4 == 1

/-! ### COPY (R398) -/

/-- The descriptor of a raw tile of one row from the store. -/
def rawTile (src dst n cid : Nat) (cen : Bool) : W512 :=
  BitVec.ofNat 512 (src % 2 ^ 57 + 2 ^ 64 * dst + 2 ^ 144 * (n - 1) + 2 ^ 224 * 0x88 + 2 ^ 288 * (cid + 2 ^ 31 * b2n cen))

/-- A raw tile whose source is the Reservoir. -/
def rsvTile (c : Cmd) (src dst n cid : Nat) (cen : Bool) : Eng Unit := do
  let d ← readRsv c.who src n
  putTile c.who (tlbOf c.eng) dst d cid cen

/-- The tiles of a COPY in address order; the first that fails ends the command. -/
def copyTiles (c : Cmd) (src dst n cid : Nat) (cen : Bool) : Eng W64 := do
  (List.range ((n + 65535) / 65536)).forM (fun i => do
    let o := 65536 * i
    let k := min 65536 (n - o)
    if inReservoir src then allOrNone (rsvTile c (spaceAddr src + o) (dst + o) k cid cen)
    else
      let s ← get
      let _ ← runTile c.who (tlbOf c.eng) (rawTile (spaceAddr src + o) (dst + o) k cid cen) (engGenOf s c.eng))
  return 0

def execCopy (q : Nat) (e : W512) (s : State) : Host.Outcome State Fault Refusal :=
  copyRow q e (opcodeOf e == 1) [(128, 64), (192, 64), (256, 32), (288, 17), (319, 1)] (fun c s =>
    let src := c.f 16 8
    let dst := c.f 24 8
    let n := c.f 32 4
    if !spaceOk src || !spaceOk dst || n == 0 || n % 16 != 0 then some (failCmd s c stFormat)
    else engCmd c (copyTiles c src dst n (bits (c.f 36 4) 0 17) (bit (c.f 36 4) 31)) s) s

/-! ### TILE_STREAM (R398) -/

def execTileStream (q : Nat) (e : W512) (s : State) : Host.Outcome State Fault Refusal :=
  copyRow q e (opcodeOf e == 2) [(128, 57), (192, 32), (224, 8)] (fun c s =>
    let dva := c.f 16 8
    let n := c.f 24 4
    if n = 0 ∨ 65536 < n ∨ 8 < c.f 28 1 then some (failCmd s c stFormat)
    else if dva % 64 ≠ 0 then some (alignCmd s c dva)
    else
      let t : TStream := { q := q, tag := c.idx, dva := dva, count := n, next := 0, inFlight := 0, bad := 0,
                           misses := 0, lates := 0 }
      some (endTstreams (refillQueue 9 (s.setWork (fun k => { k with tstreams := k.tstreams ++ [t] })) q c.idx c.part
        c.ctx))) s

/-! ### ACCUM_STREAM (12 R335) -/

/-- What formats an ACCUM_STREAM may pair. -/
def accumPair (sf df scale : Nat) : Bool :=
  decide (sf < 5 ∧ df < 5) && (if sf < 3 then decide (df < 3) else sf == df && scale == 0)

/-- The elements of one packet, converted: an integer as it stands, a floating one scaled and narrowed. -/
def accumBytes (sf df scale : Nat) (stoch : Bool) (g : W32) (src : List Byte) : List Byte × W32 :=
  if 3 ≤ sf then (src, g)
  else
    let n := accSize sf
    let vs := (List.range (src.length / n)).map (fun i => scaleVal scale (widenFrom sf (leNat (slice src (n * i) n))))
    let (cs, _, g) := narrowAll df stoch true g vs
    ((cs.map (leBytes (accSize df))).flatten, g)

/-- The packets of an ACCUM_STREAM in address order: the first failure is its status. -/
def accumPackets (c : Cmd) (src dst n sf df scale : Nat) (stoch : Bool) (ctr : Nat) (sp dp : List (Nat × Leaf)) :
    Eng Status :=
  (mvxPieces 256 dst n).foldlM (fun (bad : Status) e => do
    let o := (e.1 - dst) / accSize df * accSize sf
    let k := e.2 / accSize df * accSize sf
    let d ← if inReservoir src then readRsv c.who (spaceAddr src + o) k else readPages c.who sp (spaceAddr src + o) k
    let s ← get
    let (out, g) := accumBytes sf df scale stoch (engGenOf s c.eng) d
    if stoch then modify (fun s => setEngGen s c.eng g)
    let (base, leaf) := pageFor dp e.1
    let s ← get
    let p := mkReq s 3 c.eng c.part c.ctx leaf (saUnder base leaf e.1) (df + 16 * b2n stoch) out
    let p := { p with counter := BitVec.ofNat 17 (bits ctr 0 17), cen := bit ctr 31, cunit := bit ctr 30 }
    tryCatch (do let _ ← accessNow c.who p; return bad) (fun f => match f with
      | .stat st => return (if bad = 0 then st else bad)
      | .wait => waitNow)) 0

def execAccumStream (q : Nat) (e : W512) (s : State) : Host.Outcome State Fault Refusal :=
  copyRow q e (opcodeOf e == 0x1C)
    [(128, 64), (192, 57), (256, 32), (288, 8), (296, 8), (304, 1), (320, 17), (350, 2), (352, 32)] (fun c s =>
    let src := c.f 16 8
    let dst := c.f 24 8
    let n := c.f 32 4
    let sf := c.f 36 1
    let df := c.f 37 1
    let scale := c.f 44 4
    let stoch := bit (c.f 38 1) 0
    if !spaceOk src || n == 0 || n % 32 != 0 || !accumPair sf df scale then some (failCmd s c stFormat)
    else if spaceAddr src % accSize sf ≠ 0 ∨ dst % 32 ≠ 0 then
      some (alignCmd s c dst)
    else
      let k := n / accSize df * accSize sf
      engCmd c (do
        let sp ← if inReservoir src then pure [] else translateAll c.who (tlbOf c.eng) .read (spaceAddr src) k
        let dp ← translateAll c.who (tlbOf c.eng) .accum dst n
        let st ← accumPackets c src dst n sf df scale stoch (c.f 40 4) sp dp
        if st ≠ 0 then failNow st
        return 0) s) s

/-! ### Copies between host memory and the store (02 R53) -/

def hostLenOk (n : Nat) : Bool := decide (0 < n ∧ n % 64 = 0 ∧ n ≤ 2 ^ 30)

def execPrefetchFromHost (q : Nat) (e : W512) (hc : HostCpl) (s : State) : Host.Outcome State Fault Refusal :=
  copyRow q e (opcodeOf e == 9) [(128, 64), (192, 64), (256, 32)] (fun c s =>
    let n := c.f 32 4
    if !hostLenOk n then some (failCmd s c stFormat)
    else engCmd c (do
      hostCheck c.who (c.f 16 8) n
      let ps ← translateAll c.who (tlbOf c.eng) .write (c.f 24 8) n
      let d ← readHost c.who hc (c.f 16 8) n
      writePages c.who ps (c.f 24 8) d
      return 0) s) s

/-- EVICT_TO_HOST ends once the host has its data; with COLD set it goes on as a COLD of every block it touches. -/
def execEvictToHost (q : Nat) (e : W512) (hc : HostCpl) (s : State) : Host.Outcome State Fault Refusal :=
  copyRow q e (opcodeOf e == 0x0A) [(128, 64), (192, 64), (256, 32), (288, 1)] (fun c s =>
    let n := c.f 32 4
    let dva := c.f 24 8
    if !hostLenOk n then some (failCmd s c stFormat)
    else
      match runEng (do
        hostCheck c.who (c.f 16 8) n
        let d ← readDva c.who (tlbOf c.eng) dva n
        writeHost c.who hc (c.f 16 8) d
        if bit (c.f 36 1) 0 then
          rangeBlocks c .read (dva / 65536 * 65536) ((dva + n - 1) / 65536 - dva / 65536 + 1)
        else return []) s with
      | none => none
      | some (.error st, t) => some (endCmd t c st 0)
      | some (.ok bs, t) => some (if bit (c.f 36 1) 0 then startAdvice t c 4 0 none 0 bs else endCmd t c 0 0)) s

end Sys2Proof.Machine
end

