-- ==== Sys2Proof/Machine/Xlt.lean ====
section
/-! DEFINITION. Walks, shootdowns, contexts, address-translation invalidations and key slots (03 R68, R76 to R85, R90 to
R94; 14 R392, R393). -/
namespace Sys2Proof.Machine

/-! ### Status of a source's last command (17 R474) -/

/-- Kinds of commands whose last status each source sees. -/
abbrev lcShoot : Nat := 0
abbrev lcSlot : Nat := 1
abbrev lcOwn : Nat := 2
abbrev lcCal : Nat := 3
abbrev lcOpkey : Nat := 4
abbrev lcLost : Nat := 5

def lastCmdKey (kind bank : Nat) : Nat := 128 * kind + bank
/-- The status of a bank's last command, with bit 8 set once it has ended. -/
def lastCmd (s : State) (kind bank : Nat) : W16 := tget 0 s.lastCmd (lastCmdKey kind bank)
def setLastCmd (s : State) (kind bank : Nat) (v : W16) : State :=
  { s with lastCmd := tput s.lastCmd (lastCmdKey kind bank) v }
/-- A command of a bank has ended with a status. -/
def lastDone (s : State) (kind bank : Nat) (st : Status) : State :=
  setLastCmd s kind bank (BitVec.ofNat 16 (256 + st.toNat))

/-! ### Shootdowns (R78, R79) -/

/-- A cached translation that a shootdown covers. -/
def covered (ctx : BitVec 20) (all : Bool) (base blocks : Nat) (e : TlbEntry) : Bool :=
  e.ctx == ctx && (all || decide (e.base < base + 65536 * blocks ∧ base < e.base + e.leaf.size))

/-- Movers and copy engines that hold tiles of a context, pre-translated. -/
def shootEngines (s : State) (ctx : BitVec 20) : List Engine :=
  ((s.work.xfers.filter (fun x => x.ctx = ctx)).map (·.eng)).dedup

/-- Unfinished packets that a context's translation made. -/
def oldAccesses (s : State) (ctx : BitVec 20) : List (BitVec 10 × W32) :=
  (s.xbar.tx.map (fun e => (e.2.pkts.filter (fun u => u.pkt.xl && u.pkt.ctx == ctx)).map
    (fun u => (BitVec.ofNat 10 e.1, u.pkt.seq)))).flatten

/-- Accepts a shootdown: every matching cached entry is invalid, and the engines that must acknowledge are noted. -/
def startShoot (s : State) (ctx : BitVec 20) (all : Bool) (base blocks : Nat) (queue : Option (Nat × W32))
    (bank : Option Nat) (withdraw : Bool) : State :=
  let sh : Shootdown := { id := s.xlt.nextShoot, ctx := ctx, all := all, base := base, blocks := blocks,
                          engines := shootEngines s ctx, old := oldAccesses s ctx, queue := queue, bank := bank,
                          failed := false, withdraw := withdraw }
  s.setXlt (fun x => { x with nextShoot := x.nextShoot + 1, shoots := x.shoots ++ [sh],
                              tlb := x.tlb.filter (fun e => !covered ctx all base blocks e) })

def findShoot (s : State) (id : Nat) : Option Shootdown := s.xlt.shoots.find? (fun x => x.id = id)

/-- A shootdown completes. -/
def endShoot (s : State) (sh : Shootdown) (st : Status) : State :=
  let s := s.setXlt (fun x => { x with shoots := x.shoots.filter (fun y => y.id ≠ sh.id) })
  let s := match sh.queue with
    | some (q, i) => endCommand s q i st 0
    | none => s
  match sh.bank with
  | some b => lastDone s lcShoot b st
  | none => s

/-- Requests of a context that no tier has accepted yet. -/
def waitingAccess (s : State) (ctx : BitVec 20) : Bool :=
  let hit (r : Req) : Bool := r.pkt.ctx == ctx
  s.xbar.windows.any (fun w => w.2.any (fun g => g.any hit)) || s.store.deferred.any hit ||
  s.dir.waiting.any (fun e => hit e.1) || s.dir.txns.any (fun t => (t.req.map (fun r => hit r.1)).getD false) ||
  s.xbar.tx.any (fun e => e.2.waiting.any hit)

/-- The packets of a shootdown that are still unfinished. -/
def oldLeft (s : State) (sh : Shootdown) : Bool :=
  sh.old.any (fun e => (txStream s e.1).pkts.any (fun u => u.pkt.seq == e.2))

def execShootdown (q : Nat) (e : W512) (s : State) : Host.Outcome State Fault Refusal :=
  cmdRow q e (opcodeOf e == 0x0B) [(128, 20), (159, 1), (192, 57), (256, 32)] .work (fun c s =>
    let all := bit (c.f 16 4) 31
    let id := BitVec.ofNat 20 (bits (c.f 16 4) 0 20)
    if ((ctxOf s id).map (fun x => x.part != c.part)).getD false then some (failCmd s c stPerm)
    else if !all ∧ c.f 24 8 % 65536 ≠ 0 then
      some (alignCmd s c (c.f 24 8))
    else if 16 ≤ s.xlt.shoots.length then none
    else some (startShoot s id all (c.f 24 8) (c.f 32 4) (some (q, c.idx)) none false)) s

/-- A write of SHOOT_CMD: GO starts a shootdown from the source's staged registers. -/
def shootCmd (s : State) (src : RegSrc) (v : W64) : State :=
  pfOnly s src (rk pXLT 0x118) (fun s =>
    let b := srcBank src
    let c := (regGet s (rkBank pXLT 0x100 b)).toNat
    if !bit v.toNat 0 ∨ 16 ≤ s.xlt.shoots.length then s
    else startShoot (setLastCmd s lcShoot b 0) (BitVec.ofNat 20 (bits c 0 20)) (bit c 32)
      (bits (regGet s (rkBank pXLT 0x108 b)).toNat 16 41 * 65536)
      (bits (regGet s (rkBank pXLT 0x110 b)).toNat 16 41) none (some b) false)

def execShootCmdGo (src : RegSrc) (v : W64) (s : State) : Host.Outcome State Fault Refusal :=
  onOk src.ok (shootCmd s src v)

/-- A mover or copy engine that holds no tile of the context any more acknowledges. -/
def execShootdownAck (id : Nat) (eng : Engine) (s : State) : Host.Outcome State Fault Refusal :=
  onOk eng.ok (match findShoot s id with
  | none => s
  | some sh =>
    if sh.engines.contains eng && (onEngine s eng).all (fun x => x.ctx != sh.ctx) then
      s.setXlt (fun x => { x with shoots := x.shoots.map (fun y =>
        if y.id = id then { y with engines := y.engines.filter (fun g => g ≠ eng) } else y) })
    else s)

/-- Every engine has acknowledged and no access under an old translation is left. -/
def execShootdownComplete (id : Nat) (s : State) : Host.Outcome State Fault Refusal :=
  .next (match findShoot s id with
  | none => s
  | some sh =>
    if sh.engines.isEmpty && !oldLeft s sh && !waitingAccess s sh.ctx then
      settle (endShoot s sh (if sh.failed then stReset else 0))
    else s)

/-! ### Walks (R76) -/

/-- An L2 miss of a context is walked; an entry that the L2 holds needs no walk. -/
def execWalk (ctx : BitVec 20) (dva : W64) (s : State) : Host.Outcome State Fault Refusal :=
  .next (match ctxOf s ctx with
  | none => s
  | some cx =>
    if cx.resetting ∨ 2 ^ 57 ≤ dva.toNat ∨ (tlbFind s .l2 ctx dva.toNat).isSome then s
    else match runEng (walkNow { eng := .work, part := cx.part, ctx := ctx } cx dva.toNat) s with
      | some (_, t) => t
      | none => s)

/-- An ATS invalidation is honoured: the accesses that used its entries are complete. -/
def execAtsInvalidation (base len : W64) (s : State) : Host.Outcome State Fault Refusal :=
  .next (emit (s.setXlt (fun x => { x with atc := x.atc.filter (fun e =>
    ¬ (e.1.toNat < base.toNat + len.toNat ∧ base.toNat < e.1.toNat + 4096)) })) .atsDone)

/-! ### Contexts (R68; 14 R392, R393) -/

def inCtxRange (v : W64) (c : Nat) : Bool :=
  decide (bits v.toNat 0 20 ≤ c ∧ c < bits v.toNat 0 20 + bits v.toNat 20 21)

/-- The partition whose range holds a context id; every other id is partition 0's (14 R388). -/
def ctxPart (s : State) (c : BitVec 20) : BitVec 6 :=
  ((s.work.partCtx.find? (fun e => e.1 != 0 && inCtxRange e.2 c.toNat)).map (fun e => BitVec.ofNat 6 e.1)).getD 0

/-- A descriptor of 64 B as a context (R68). -/
def ctxFrom (d : W512) : Ctx :=
  let h := fld d 0 8
  { type := BitVec.ofNat 2 (bits h 0 2), part := BitVec.ofNat 6 (bits h 8 6), key := BitVec.ofNat 12 (bits h 16 12),
    ats := bit h 32, viewValid := bit h 33, memValid := bit h 34, root := BitVec.ofNat 56 (fld d 8 8),
    viewBase := BitVec.ofNat 57 (fld d 16 8), viewLen := BitVec.ofNat 64 (fld d 24 8),
    memBase := BitVec.ofNat 64 (fld d 32 8), memLen := BitVec.ofNat 64 (fld d 40 8),
    data := BitVec.ofNat 128 (fld d 48 16), resetting := false }

/-- TYPE_DATA of a KV session (10 R284). -/
def kvDataOk (t : Nat) : Bool := decide (bits t 0 6 = 0 ∧ bits t 56 8 = 0 ∧ bits t 65 63 = 0)

/-- The form of a descriptor (R68). -/
def ctxForm (d : W512) : Bool :=
  let h := fld d 0 8
  decide ((bits h 0 2 = 1 ∨ bits h 0 2 = 2) ∧ bits h 2 6 = 0 ∧ bits h 14 2 = 0 ∧ bits h 28 4 = 0 ∧ bits h 35 29 = 0) &&
  decide (fld d 8 8 % 4096 = 0 ∧ bits (fld d 8 8) 56 8 = 0 ∧ fld d 16 8 % 2 ^ 30 = 0 ∧ bits (fld d 16 8) 57 7 = 0) &&
  decide (fld d 24 8 % 2 ^ 30 = 0 ∧ fld d 32 8 % 4096 = 0 ∧ fld d 40 8 % 4096 = 0) &&
  (if bits h 0 2 = 1 then fld d 48 16 == 0 else kvDataOk (fld d 48 16))

def execCtxInstall (q : Nat) (e : W512) (s : State) : Host.Outcome State Fault Refusal :=
  cmdRow q e (opcodeOf e == 0x28) [(128, 20), (160, 27)] .work (fun c s =>
    let id := BitVec.ofNat 20 (c.f 16 4)
    let a := c.f 20 4
    if a % 64 ≠ 0 then some (endCmd (logRecord s pWORK (c.issuer.site (c.issuer.fail stAlign 0 a))) c stAlign 0)
    else if ctxPart s id ≠ c.part then some (failCmd s c stPerm)
    else engCmd c (do
      let d ← readRsv c.who a 64
      let d := lineOf d
      if (ctxFrom d).part ≠ c.part then failCmdE c stPerm
      let s ← get
      if (ctxOf s id).isSome then failCmdE c stBusy
      if !ctxForm d then failCmdE c stFormat
      modify (fun s => s.setXlt (fun x => { x with ctxs := tput x.ctxs id.toNat (ctxFrom d) }))
      return 0) s) s

/-- Something names a context: an admitted plan, an open table, a bound window, an enabled queue. -/
def ctxNamed (s : State) (c : BitVec 20) : Bool :=
  s.plans.any (fun e => e.2.ctx == c) || s.emb.tables.any (fun e => e.2.ctx == c) ||
  s.host.windows.any (fun e => e.2.committed && e.2.ctx == c) ||
  s.work.queues.any (fun e => qEnabled e.2 && qCtx e.2 == c)

/-- The entry of a context becomes invalid. -/
def dropCtx (s : State) (c : BitVec 20) : State := s.setXlt (fun x => { x with ctxs := tdel x.ctxs c.toNat })

def execCtxWithdraw (q : Nat) (e : W512) (s : State) : Host.Outcome State Fault Refusal :=
  cmdRow q e (opcodeOf e == 0x29) [(128, 20)] .work (fun c s =>
    let id := BitVec.ofNat 20 (c.f 16 4)
    if ctxPart s id ≠ c.part then some (failCmd s c stPerm)
    else if (ctxOf s id).isNone then some (endCmd s c 0 0)
    else if ctxNamed s id then some (failCmd s c stBusy)
    else if 16 ≤ s.xlt.shoots.length then none
    else some (startShoot (dropCtx s id) id true 0 0 (some (q, c.idx)) none true)) s

/-! ### Key slots (R84, R85) -/

/-- The wrapped pair that a source has staged. -/
def wrapBuf (s : State) (b : Nat) : BitVec 576 :=
  BitVec.ofNat 576 (packN 64 ((List.range 9).map (fun i => (regGet s (rkBank pKEY (0x200 + 8 * i) b)).toNat)))

def clearWrap (s : State) (b : Nat) : State :=
  (List.range 9).foldl (fun s i => s.setReg (rkBank pKEY (0x200 + 8 * i) b) 0) s

/-- A slot command on the source's selected slot; slot 0 and operation 0 change nothing. -/
def slotCmd (s : State) (src : RegSrc) (op : Nat) (owner : BitVec 6) : State :=
  pfOnly s src (rk pKEY 0x108) (fun s =>
    let b := srcBank src
    let k := BitVec.ofNat 12 (bits (regGet s (rkBank pKEY 0x100 b)).toNat 0 12)
    let x := keySlot s k
    if k = 0 ∨ op = 0 then lastDone s lcSlot b stFormat
    else
      let s := if op = 1 then clearWrap s b else s
      if x.busy then lastDone s lcSlot b stBusy
      else match op with
      | 1 =>
        if x.valid then lastDone s lcSlot b stBusy
        else match Config.unwrapKey (wrapBuf s b) with
          | none => lastDone (refuse s pKEY 0 0x108) lcSlot b stFormat
          | some p => lastDone (setKeySlot s k (fun x => { x with pair := p, valid := true, owner := owner })) lcSlot b 0
      | 2 => lastDone (setKeySlot s k (fun x => { x with valid := false, busy := true, clearing := true })) lcSlot b 0
      | _ =>
        if !x.valid then lastDone s lcSlot b stKey
        else lastDone (setKeySlot s k (fun x => { x with owner := owner, busy := true })) lcSlot b 0)

def execLoad (src : RegSrc) (owner : BitVec 6) (s : State) : Host.Outcome State Fault Refusal :=
  onOk src.ok (slotCmd s src 1 owner)
def execClear (src : RegSrc) (s : State) : Host.Outcome State Fault Refusal := onOk src.ok (slotCmd s src 2 0)
def execSetOwner (src : RegSrc) (owner : BitVec 6) (s : State) : Host.Outcome State Fault Refusal :=
  onOk src.ok (slotCmd s src 3 owner)

/-- The accesses before a CLEAR or SET_OWNER have drained. -/
def execKeyDrainDone (slot : BitVec 12) (s : State) : Host.Outcome State Fault Refusal :=
  .next (
    let x := keySlot s slot
    if x.busy then
      setKeySlot s slot (fun x => { x with busy := false, clearing := false, pair := if x.clearing then 0 else x.pair })
    else s)

end Sys2Proof.Machine
end

