-- ==== Sys2Proof/Machine/Calib.lean ====
section
/-! DEFINITION. Calibration: the user area, calibrated values, the power class, and the register commands that replace
the user area (16 R453, R457 to R461; 02 R66). -/
namespace Sys2Proof.Machine

/-! ### Entries of the user area (R459, R460) -/

abbrev itClass : Nat := 0x0001
abbrev itPools : Nat := 0x0002
abbrev itPorts : Nat := 0x0003
abbrev itRing : Nat := 0x0010
abbrev itBooster : Nat := 0x0011
abbrev itDdr : Nat := 0x0020
abbrev itStack : Nat := 0x0021
abbrev itTemp : Nat := 0x0030
abbrev itGain : Nat := 0x0040

def entItem (e : W64) : Nat := bits e.toNat 0 16
def entIndex (e : W64) : Nat := bits e.toNat 16 16
def entValue (e : W64) : Int := sval 32 (bits e.toNat 32 32)

/-- A value of `n` signed bits. -/
def fitsSigned (n : Nat) (v : Int) : Bool := decide (-(2 ^ (n - 1) : Int) ≤ v ∧ v < 2 ^ (n - 1))

/-- An entry has a known item, an index and a value within the item's ranges. -/
def entOk (e : W64) : Bool :=
  let i := entIndex e
  let v := entValue e
  match entItem e with
  | 0x0001 => i == 0 && decide (1 ≤ v ∧ v ≤ 3)
  | 0x0002 => i == 0 && decide (0 ≤ v ∧ v < 65536 ∧ v % 256 ≤ 96 ∧ v / 256 ≤ 32)
  | 0x0003 => i == 0 && decide (0 ≤ v ∧ v < 1024)
  | 0x0010 => decide (i < 100) && fitsSigned 10 v
  | 0x0011 => decide (i < 5) && fitsSigned 8 v
  | 0x0020 => decide (i < 768) && fitsSigned 8 v
  | 0x0021 => decide (i < 512) && fitsSigned 8 v
  | 0x0030 => decide (i < 66) && fitsSigned 16 v
  | 0x0040 => decide (i < 8) && fitsSigned 16 v
  | _ => false

/-- The user copy in use. -/
def userCopy (s : State) : UserCopy :=
  if s.lamp.noCopy then UserCopy.absent else if s.lamp.useB then s.lamp.userB else s.lamp.userA

/-- The value that the copy in use gives an item and index: of two entries the later. -/
def userEntry (s : State) (item idx : Nat) : Option Int :=
  (((userCopy s).entries.filter (fun e => entOk e && entItem e == item && entIndex e == idx)).getLast?).map entValue

/-! ### Calibrated values (R457, R458) -/

/-- Factory value and limits of an item; an item without a record is 0 and unlimited (log entry 60). -/
def factoryOf (s : State) (item idx : Nat) : Option Factory :=
  s.lamp.factory.find? (fun r => r.item.toNat == item && r.index.toNat == idx)

/-- A calibrated value, and whether the clamp changed it. -/
def calValue (s : State) (item idx : Nat) : Int × Bool :=
  let u := (userEntry s item idx).getD 0
  match factoryOf s item idx with
  | none => (u, false)
  | some r =>
    let v := sval 32 r.value.toNat + u
    let c := max (sval 32 r.min.toNat) (min v (sval 32 r.max.toNat))
    (c, decide (c ≠ v))

/-- The offsets of all sensors are combined (cold boot, compute reset). -/
def applyOffsets (s : State) : State :=
  s.setPower (fun p => { p with tempOffset := (List.range 66).foldl (fun m i =>
    tput m i (BitVec.ofInt 32 (calValue s itTemp i).1)) [] })

/-- The bias of the five boosters is combined (cold boot, laser switchover). -/
def applyBoosters (s : State) : State :=
  let vs := (List.range 5).map (calValue s itBooster)
  let s := { s with lantern := { s.lantern with booster := vs.map (fun v => BitVec.ofInt 16 v.1) } }
  if vs.any (·.2) then logErr s (pLNT 0) 3 { status := stFormat } else s

/-! ### Starts that read the user area -/

/-- Chooses the copy in use: a valid one, of two the later generation; records defaults and bad entries. -/
def readUserArea (s : State) : State :=
  let a := s.lamp.userA
  let b := s.lamp.userB
  let useB := b.valid && (!a.valid || decide (0 < serialAfter 32 b.generation.toNat a.generation.toNat))
  let s := s.setLamp (fun l => { l with useB := useB, noCopy := !a.valid && !b.valid })
  let s := if s.lamp.noCopy then logErr s pLMP 2 { status := stFormat } else s
  if (userCopy s).entries.any (fun e => !entOk e) then logErr s pLMP 3 { status := stFormat } else s

/-- The power class is chosen (R453). -/
def selectClass (s : State) : State :=
  let stored := ((userEntry s itClass 0).getD 0).toNat
  let l := s.lamp
  let set (s : State) (now refused : Nat) : State := s.setLamp (fun l => { l with
    classNow := BitVec.ofNat 2 now, classStored := BitVec.ofNat 2 stored, classRefused := BitVec.ofNat 2 refused })
  if stored = 0 then logErr (set s 1 0) pPWR 1 { status := stFormat }
  else if l.variantA ∧ stored ≠ 1 then logErr (set s 1 stored) pPWR 0 { status := stFormat }
  else set s stored 0

/-! ### Replacing the user area (R461) -/

/-- Header of a copy: its number of entries when magic, version and reserved bytes are right. -/
def copyHeader (v : Nat) : Option Nat :=
  let n := bits v 96 32
  if bits v 0 32 = 0x4C414355 ∧ bits v 32 16 = 1 ∧ bits v 48 16 = 0 ∧ n ≤ 8184 ∧ bits v 160 352 = 0 then some n else none

/-- A complete copy in the Reservoir: its entries, or the status with which it is refused. -/
def readCopy (s : State) (a : Nat) : Except Status (List W64) :=
  if a + 64 > Config.reservoirBytes ∨ !reservoirOwned s 0 a 64 then .error stFormat
  else if reservoirBad s a 64 then .error stUncorr
  else match copyHeader (leNat (reservoirRead s a 64)) with
    | none => .error stFormat
    | some n =>
      let len := 64 + 8 * n
      if a + len > Config.reservoirBytes ∨ !reservoirOwned s 0 a len then .error stFormat
      else if reservoirBad s a len then .error stUncorr
      else
        let d := reservoirRead s a len
        let zeroed := d.take 16 ++ zeros 4 ++ d.drop 20
        if crc32c zeroed ≠ leNat (slice d 16 4) then .error stFormat
        else .ok ((List.range n).map (fun i => BitVec.ofNat 64 (leNat (slice d (64 + 8 * i) 8))))

/-- A write of the user area begins: the copy takes the next generation. -/
def startCopy (s : State) (es : List W64) : State :=
  s.setLamp (fun l => { l with newCopy := some { valid := true, generation := (userCopy s).generation + 1, entries := es } })

/-- The current user area with one entry changed; none while a write is in progress or when no entry is left. -/
def changeEntry (s : State) (item idx value : Nat) : Option State :=
  let es := (userCopy s).entries.filter (fun e => !(entItem e == item && entIndex e == idx))
  if s.lamp.newCopy.isSome ∨ 8184 ≤ es.length then none
  else some (startCopy s (es ++ [BitVec.ofNat 64 (item + 2 ^ 16 * idx + 2 ^ 32 * (value % 2 ^ 32))]))

/-- A write of LMP.CAL_CMD. -/
def calWrite (s : State) (src : RegSrc) (v : W64) : State :=
  if !bit v.toNat 32 then s
  else if s.lamp.newCopy.isSome then lastDone s lcCal (srcBank src) stBusy
  else match readCopy s (64 * bits v.toNat 6 21) with
    | .error st => lastDone s lcCal (srcBank src) st
    | .ok es => lastDone (startCopy s es) lcCal (srcBank src) 0

/-- Firmware work waits while the Lamplighter restarts (17 R481): the write is held. -/
def holdWrite (s : State) (src : RegSrc) (off : Nat) (v : W64) (f : State → State) : State :=
  if s.lamp.gaveUp then dropWrite s src off
  else if s.lamp.restarting then s.setLamp (fun l => { l with heldWrites := l.heldWrites ++ [(src, off, v)] })
  else f s

def calCmd (s : State) (src : RegSrc) (v : W64) : State :=
  pfOnly s src (rk pLMP 0x200) (fun s => holdWrite s src (rk pLMP 0x200) v (fun s => calWrite s src v))

def execCalCmd (src : RegSrc) (v : W64) (s : State) : Host.Outcome State Fault Refusal := onOk src.ok (calCmd s src v)

/-- The new copy is written over the copy not in use, and becomes current. -/
def execCalWritten (s : State) : Host.Outcome State Fault Refusal :=
  .next (
    match s.lamp.newCopy with
    | none => s
    | some c =>
      let toB := !s.lamp.noCopy && !s.lamp.useB
      logEvt (s.setLamp (fun l => { l with
        userA := if toB then l.userA else c, userB := if toB then c else l.userB, useB := toB, noCopy := false,
        newCopy := none })) pLMP 1)

/-- A write of PWR.CLASS_REQ. -/
def classWrite (s : State) (src : RegSrc) (v : W64) : State :=
  pfOnly s src (rk pPWR 0x108) (fun s =>
    if bits v.toNat 0 2 = 0 then s else (changeEntry s itClass 0 (bits v.toNat 0 2)).getD s)

def execClassReq (src : RegSrc) (v : W64) (s : State) : Host.Outcome State Fault Refusal := onOk src.ok (classWrite s src v)

/-- A write of PLC.POOL_CFG. -/
def poolWrite (s : State) (src : RegSrc) (v : W64) : State :=
  pfOnly s src (rk pPLC 0x108) (fun s =>
    let n := bits v.toNat 0 16
    if 96 < n % 256 ∨ 32 < n / 256 then s
    else match changeEntry s itPools 0 n with
      | some t => t.setReg (rk pPLC 0x108) (BitVec.ofNat 64 n)
      | none => s)

def execPoolCfg (src : RegSrc) (v : W64) (s : State) : Host.Outcome State Fault Refusal := onOk src.ok (poolWrite s src v)

end Sys2Proof.Machine
end

