-- ==== Sys2Proof/Machine/Comps.lean ====
section
/-! DEFINITION. Compositions, extents, ownership, snuffs and metering snapshots (14 R388, R389, R400 to R406; 12 R348;
13 R381; 15 R432; 17 R492). -/
namespace Sys2Proof.Machine

/-! ### COMPOSE (R400) -/

/-- Another ACTIVE composition here has an agent. -/
def agentTaken (s : State) (comp : Nat) (a : BitVec 10) : Bool :=
  s.work.comps.any (fun e => e.1 != comp && e.2.state == 1 &&
    (e.2.host == a || e.2.accels.any (fun x => x.agent == a)))

def composeRow (q : Nat) (e : W512) (op : Nat) (fields : List (Nat × Nat)) (body : Cmd → Nat → Comp → State → State)
    (s : State) : Host.Outcome State Fault Refusal :=
  cmdRow q e (opcodeOf e == 0x2B && fld e 16 1 == op) ([(128, 8), (144, 12)] ++ fields) .work
    (fun c s => some (body c (c.f 18 2) (s.comp (c.f 18 2)) s)) s

def execCreate (q : Nat) (e : W512) (s : State) : Host.Outcome State Fault Refusal :=
  composeRow q e 1 [(160, 6), (176, 10)] (fun c k x s =>
    let host := BitVec.ofNat 10 (c.f 22 2)
    if x.state ≠ 0 ∨ agentTaken s k host then failCmd s c stBusy
    else endCmd (s.setComp k (fun _ => { Comp.free with
      state := 1, part := BitVec.ofNat 6 (c.f 20 1), host := host, created := true })) c 0 0) s

def execAddAgent (q : Nat) (e : W512) (s : State) : Host.Outcome State Fault Refusal :=
  composeRow q e 2 [(176, 10), (192, 8), (256, 48)] (fun c k x s =>
    let a := BitVec.ofNat 10 (c.f 22 2)
    let slot := c.f 24 1
    if x.state ≠ 1 then failCmd s c stFormat
    else if agentTaken s k a || x.host == a || x.accels.any (fun y => y.agent == a) then failCmd s c stBusy
    else if 64 ≤ x.accels.length then failCmd s c stQuota
    else if slot ≠ 0xFF ∧ (63 < slot ∨ x.accels.any (fun y => y.slot == some slot)) then failCmd s c stFormat
    else endCmd (s.setComp k (fun x => { x with accels := x.accels ++
      [{ agent := a, slot := if slot = 0xFF then none else some slot, base := BitVec.ofNat 48 (c.f 32 8) }] })) c 0 0) s

def execRemoveAgent (q : Nat) (e : W512) (s : State) : Host.Outcome State Fault Refusal :=
  composeRow q e 3 [(176, 10)] (fun c k x s =>
    let a := BitVec.ofNat 10 (c.f 22 2)
    if x.state ≠ 1 ∨ x.accels.all (fun y => y.agent ≠ a) then failCmd s c stFormat
    else endCmd (s.setComp k (fun x => { x with accels := x.accels.filter (fun y => y.agent ≠ a) })) c 0 0) s

/-- A composition owns an extent, has a queue enabled or an admitted plan. -/
def compInUse (s : State) (k : Nat) : Bool :=
  s.work.extents.any (fun e => e.2.owned && decide (e.2.comp.toNat = k)) ||
  s.work.queues.any (fun e => qEnabled e.2 && decide (qComp e.2 = k)) ||
  s.plans.any (fun e => decide (e.2.comp.toNat = k))

def execComposeEnd (q : Nat) (e : W512) (s : State) : Host.Outcome State Fault Refusal :=
  composeRow q e 4 [] (fun c k x s =>
    if x.state = 0 then failCmd s c stFormat
    else if compInUse s k then failCmd s c stBusy
    else endCmd (s.setComp k (fun x => { x with state := 0, accels := [], teardown := false })) c 0 0) s

/-! ### EXTENT (R403, R404) -/

/-- The key slots that an EXTENT command lists, up to the first 0. -/
def listedKeys (c : Cmd) : List (BitVec 12) :=
  (((List.range 16).map (fun i => c.f (24 + 2 * i) 2)).takeWhile (· ≠ 0)).map (BitVec.ofNat 12)

def extentRow (q : Nat) (e : W512) (op : Nat) (keys comp : Bool) (body : Cmd → List Nat → BitVec 12 → State → State)
    (s : State) : Host.Outcome State Fault Refusal :=
  cmdRow q e (opcodeOf e == 0x2A && fld e 16 1 == op)
    ([(128, 8), (144, 16), (160, 16), (176, 12)] ++
      (if keys then (List.range 16).map (fun i => (192 + 16 * i, 12)) else [])) .work (fun c s =>
    let first := c.f 18 2
    let n := c.f 20 2
    let k := BitVec.ofNat 12 (c.f 22 2)
    if n = 0 ∨ 4096 < n ∨ s.store.homeLen < (first + n) * 2 ^ 30 ∨ (comp ∧ (s.comp k.toNat).state ≠ 1) then
      some (failCmd s c stFormat)
    else some (body c ((List.range n).map (· + first)) k s)) s

def execGrant (q : Nat) (e : W512) (s : State) : Host.Outcome State Fault Refusal :=
  extentRow q e 1 false true (fun c xs k s =>
    if xs.any (fun x => (s.extent x).owned) then failCmd s c stBusy
    else
      let s := xs.foldl (fun s x => s.setExtent x (fun e => { e with owned := true, comp := k })) s
      endCmd (logEvt s pWORK 2) c 0 0) s

/-- Invalidates everywhere a line that no transaction holds: its dirty data is applied, the entry ends in I. -/
def revokeLine (s : State) (l : Nat) : State :=
  let s := writeBack s l
  let e := dirEntry s l
  if !hasEntry s l || e.busy then s
  else
    let dests := sharersOf (cohWindowOf s l) e none
    if dests = [] then putEntry s l (entryI e)
    else
      let id := s.dir.nextTxn
      let s := addTxn (s.setDir (fun d => { d with nextTxn := id + 1 }))
        { id := id, req := none, lines := [l], waitFor := dests.map (fun a => (l, a)), dirty := [], lost := [],
          alloc := [], sweep := none, deposit := none, took := true }
      dests.foldl (fun s a => sendSnoop s l a true e.part) (markBusy s l true)

/-- Lines of an extent with a directory entry. -/
def extentLines (s : State) (x : Nat) : List Nat := (s.dir.entries.map (·.1)).filter (fun l => l / 2 ^ 24 = x)

/-- Steps 1 and 2: the grant epoch, REVOKING, and the sweep of the extent's directory entries. -/
def beginRevoke (s : State) (x : Nat) : State :=
  let s := s.setExtent x (fun e => { e with epoch := e.epoch + 1, revoking := true })
  settleDir ((extentLines s x).foldl revokeLine s)

def revokeBody (hand : Bool) (c : Cmd) (xs : List Nat) (k : BitVec 12) (s : State) : State :=
  if xs.any (fun x => (s.extent x).revoking) then failCmd s c stBusy
  else
    let s := s.setWork (fun w => { w with extCmds := w.extCmds ++
      [{ q := c.q, tag := c.idx, hand := hand, comp := k, keys := if hand then listedKeys c else [], todo := xs }] })
    xs.foldl beginRevoke s

def execRevoke (q : Nat) (e : W512) (s : State) : Host.Outcome State Fault Refusal :=
  extentRow q e 2 false false (revokeBody false) s
def execHandover (q : Nat) (e : W512) (s : State) : Host.Outcome State Fault Refusal :=
  extentRow q e 3 true true (revokeBody true) s

/-- The LOST marks of an extent go with its revocation (15 R432). -/
def clearLost (s : State) (x : Nat) : State :=
  (s.store.blocks.filter (fun e => e.1 / 16384 = x ∧ e.2.lost)).foldl
    (fun s e => blockSet s e.1 (fun b => { b with lost := false })) s

/-- A listed slot passes to the new composition's partition: the first status that is not OK. -/
def handKeys (s : State) (keys : List (BitVec 12)) (p : BitVec 6) : Status × State :=
  keys.foldl (fun (acc : Status × State) k =>
    if (keySlot acc.2 k).valid then (acc.1, setKeySlot acc.2 k (fun x => { x with owner := p, busy := true }))
    else (if acc.1 = 0 then stKey else acc.1, acc.2)) (0, s)

/-- Step 4 of one extent; the command ends with its last extent. -/
def finishExtent (s : State) (x : Nat) (k : ExtentCmd) : State :=
  let s := if k.hand then s.setExtent x (fun e => { e with comp := k.comp, owned := true, revoking := false })
    else clearLost (s.setExtent x (fun e => { e with comp := 0, owned := false, revoking := false })) x
  let todo := k.todo.filter (· ≠ x)
  let rest := s.work.extCmds.filter (fun y => ¬ (y.q = k.q ∧ y.tag = k.tag))
  if todo = [] then
    let s := s.setWork (fun w => { w with extCmds := rest })
    let (st, s) := handKeys s k.keys (s.comp k.comp.toNat).part
    let s := if st = 0 then s
      else logErr s pKEY 1 ((queueWho s k.q 0).site { (queueWho s k.q (tagOf s k.q k.tag)).fail st 0 0 with ctx := none })
    settle (endCommand (logEvt s pWORK 2) k.q k.tag st 0)
  else s.setWork (fun w => { w with extCmds := rest ++ [{ k with todo := todo }] })

/-- An extent's last request has gone: step 4 runs, once its directory entries are gone and, for the last extent of a
hand-over, no listed slot still drains. -/
def execExtentDrain (ext : Nat) (s : State) : Host.Outcome State Fault Refusal :=
  .next (match s.work.extCmds.find? (fun k => k.todo.contains ext) with
  | none => s
  | some k =>
    let s1 := settleDir ((extentLines s ext).foldl revokeLine s)
    if extentLines s1 ext ≠ [] ∨ (s1.extent ext).inflight ≠ 0 then s1
    else if k.todo = [ext] ∧ k.keys.any (fun y => (keySlot s1 y).busy) then s1
    else finishExtent s1 ext k)

/-! ### Grants of resources (R388, R389; 03 R87) -/

/-- A grant's kind: 1 sconces, 2 blocks of hub counters, 3 blocks of semaphores, 4 Reservoir MiB. -/
def grantCount (kind : Nat) : Nat := if kind = 1 then 64 else 128

def grantOwner (s : State) (kind idx : Nat) : BitVec 6 :=
  match kind with
  | 1 => tget 0 s.work.sconceOwner idx
  | 2 => tget 0 s.work.cntOwner idx
  | 3 => tget 0 s.work.semOwner idx
  | _ => tget 0 s.work.rsvOwner idx

/-- An admitted plan claims a resource of a grant's unit. -/
def grantClaimed (s : State) (kind idx : Nat) : Bool :=
  let meets (c : Claim) (n : Nat) : Bool :=
    decide (claimFirst c < (idx + 1) * n ∧ idx * n < claimFirst c + claimCount c)
  s.plans.any (fun e => e.2.claims.any (fun c => match kind with
    | 1 => (c.kind == 1 || c.kind == 2 || c.kind == 3) && decide (c.b1.toNat = idx)
    | 2 => c.kind == 4 && meets c 1024
    | 3 => c.kind == 5 && meets c 256
    | _ => c.kind == 6 && meets c (2 ^ 20)))

/-- Zeroes a sconce's scratch, instruction memory and local counters. -/
def zeroSconce (s : State) (sc : Nat) : State :=
  { s with
    scratch := cellZero s.scratch (64 * sc * Config.scratchBytes) (64 * Config.scratchBytes)
    imem := cellZero s.imem (64 * sc * 16384) (64 * 16384)
    badScratch := s.badScratch.filter (fun w => ¬ (8 * w / Config.scratchBytes / 64 = sc))
    badImem := s.badImem.filter (fun w => ¬ (8 * w / 16384 / 64 = sc))
    sync := { s.sync with local_ := s.sync.local_.filter (fun e => e.1 / 1024 ≠ sc) } }

/-- The new owner holds zeros (03 R87; 06 R172). -/
def zeroGranted (s : State) (kind idx : Nat) : State :=
  match kind with
  | 1 => zeroSconce s idx
  | 2 => s.setSync (fun y => { y with hub := y.hub.filter (fun e => e.1 / 1024 ≠ idx) })
  | 3 => s.setSync (fun y => { y with sems := y.sems.filter (fun e => e.1 / 256 ≠ idx) })
  | _ => { s with reservoir := cellZero s.reservoir (idx * 2 ^ 20) (2 ^ 20),
                  badRsv := s.badRsv.filter (fun w => 8 * w / 2 ^ 20 ≠ idx) }

def setGrantOwner (s : State) (kind idx : Nat) (p : BitVec 6) : State :=
  s.setWork (fun w => match kind with
    | 1 => { w with sconceOwner := tput w.sconceOwner idx p }
    | 2 => { w with cntOwner := tput w.cntOwner idx p }
    | 3 => { w with semOwner := tput w.semOwner idx p }
    | _ => { w with rsvOwner := tput w.rsvOwner idx p })

/-- An OWN_CMD: refused with its status, or granted at once when nothing changes hands, or when its zeroing ends. -/
def ownCmd (s : State) (src : RegSrc) (kind idx : Nat) (p : BitVec 6) : State :=
  pfOnly s src (rk pWORK 0x100) (fun s =>
    let b := srcBank src
    let no (st : Status) : State := lastDone (refuse s pWORK 1 0x100) lcOwn b st
    if kind = 0 ∨ 4 < kind ∨ grantCount kind ≤ idx then no stFormat
    else if s.work.grant.isSome || grantClaimed s kind idx then no stBusy
    else if grantOwner s kind idx = p then lastDone s lcOwn b 0
    else (setGrantOwner (zeroGranted s kind idx) kind idx p).setWork (fun w =>
      { w with grant := some (kind, idx, p, b) }))

def execGrantSconce (src : RegSrc) (idx : BitVec 12) (part : BitVec 6) (s : State) :
    Host.Outcome State Fault Refusal := onOk src.ok (ownCmd s src 1 idx.toNat part)
def execGrantHubCounters (src : RegSrc) (idx : BitVec 12) (part : BitVec 6) (s : State) :
    Host.Outcome State Fault Refusal := onOk src.ok (ownCmd s src 2 idx.toNat part)
def execGrantSemaphores (src : RegSrc) (idx : BitVec 12) (part : BitVec 6) (s : State) :
    Host.Outcome State Fault Refusal := onOk src.ok (ownCmd s src 3 idx.toNat part)
def execGrantReservoir (src : RegSrc) (idx : BitVec 12) (part : BitVec 6) (s : State) :
    Host.Outcome State Fault Refusal := onOk src.ok (ownCmd s src 4 idx.toNat part)

/-- The zeroing of a grant ends: BUSY clears and the grant's source sees OK. -/
def execGrantZeroingDone (s : State) : Host.Outcome State Fault Refusal :=
  .next (match s.work.grant with
  | none => s
  | some (_, _, _, b) => lastDone (s.setWork (fun w => { w with grant := none })) lcOwn b 0)

/-! ### Ending a queue's commands from outside (R406; 15 R425, R427) -/

/-- What a command in progress has under way is dropped, and it ends with a status. -/
def cancelCommand (s : State) (q : Nat) (a : Active) (st : Status) : State :=
  let mine (x : Nat × W32) : Bool := decide (x = (q, a.idx))
  let s := s.setWork (fun w => { w with
    xfers := w.xfers.filter (fun x => !(x.queue.map mine).getD false)
    tstreams := w.tstreams.filter (fun t => !mine (t.q, t.tag)) })
  let s := s.setStore (fun z => { z with advice := z.advice.filter (fun d => !mine (d.q, d.tag)) })
  let s := match s.store.rebuild with
    | some r => if mine (r.q, r.tag) then closeRebuild s r st else s
    | none => s
  let s := s.setXlt (fun x => { x with shoots := x.shoots.map (fun h =>
    if (h.queue.map mine).getD false then { h with queue := none } else h) })
  let s := { s with plans := s.plans.map (fun e => (e.1, { e.2 with
    runner := e.2.runner.bind (fun r => if mine r then none else some r)
    retire := e.2.retire.bind (fun r => if mine r then none else some r) })) }
  endCommand (dropWait s (.queue q (BitVec.ofNat 32 (fld a.raw 4 4)))) q a.idx st 0

/-- Every command of a queue that the controller has read ends with a status. -/
def cancelQueue (s : State) (q : Nat) (st : Status) : State :=
  let s := (s.queue q).active.foldl (fun s a => cancelCommand s q a st) s
  (s.queue q).fetched.foldl (fun s e =>
    let (c, s) := startEntry s q e .work
    endCmd s c st 0) s

def disableQueue (s : State) (q : Nat) : State :=
  s.setQueue q (fun k => { k with cfg := k.cfg &&& ~~~(0x1000000000000 : W64), fetched := [] })

/-! ### Teardown (R405, R406) -/

/-- Packets held for a composition's teardown end with TORN_DOWN. -/
def tearHeld (s : State) (k : BitVec 12) : State :=
  let mine := (s.xbar.tx.map (fun e => (e.2.pkts.filter (fun u => u.held && jobOf s u.origin == some k)).map
    (fun u => (BitVec.ofNat 10 e.1, u)))).flatten
  mine.foldl (fun s e =>
    let s := (takeUnfinished s e.1 e.2.pkt.seq).2
    noteDrained (finishSource (logRecord s pXBAR (packetFail e.2.pkt stTornDown)) e.2 stTornDown [] true)) s

/-- A snuff of a composition. -/
def snuffComp (s : State) (k : BitVec 12) : State :=
  let n := k.toNat
  if (s.comp n).state = 0 then s
  else
    let s := (s.plans.filter (fun e => e.2.comp = k)).foldl (fun s e => stopRun s e.1 stTornDown) s
    let qs := (s.work.queues.filter (fun e => qEnabled e.2 && decide (qComp e.2 = n))).map (·.1)
    let s := qs.foldl (fun s q => cancelQueue s q stTornDown) s
    let s := tearHeld s k
    let s := (s.sync.groups.filter (fun g => g.comp = some k)).foldl
      (fun s g => enterAborted s g.part g.gid stTornDown) s
    let s := settle s
    let s := qs.foldl disableQueue s
    let s := (s.setComp n (fun c => { c with state := 2, teardown := false })).setXbar (fun x =>
      { x with teardowns := x.teardowns.filter (fun c => c ≠ k) })
    logEvt s pWORK 1

/-- A write of SNUFF with GO. -/
def snuffWrite (s : State) (src : RegSrc) (v : W64) : State :=
  pfOnly s src (rk pWORK 0x1A8) (fun s =>
    if bit v.toNat 16 then snuffComp s (BitVec.ofNat 12 (bits v.toNat 0 12)) else s)

def execSnuff (src : RegSrc) (v : W64) (s : State) : Host.Outcome State Fault Refusal := onOk src.ok (snuffWrite s src v)

def execTeardownRepeat (comp : BitVec 12) (s : State) : Host.Outcome State Fault Refusal :=
  .next (if s.xbar.teardowns.contains comp then sendTeardown s comp else s)

/-! ### Metering (R402; 17 R492) -/

/-- A write of MET.SNAP with GO: the selected composition's counts and the module time, in one step. -/
def snapWrite (s : State) (src : RegSrc) (v : W64) : State :=
  let b := srcBank src
  let k := s.comp (bits (regGet s (rkBank pMET 0x100 b)).toNat 0 12)
  let hidden : Bool := match src with
    | .vf n => !(k.created && k.part == BitVec.ofNat 6 n)
    | _ => false
  if hidden then dropWrite s src (rk pMET 0x108)
  else if !bit v.toNat 0 then s
  else
    let put (s : State) (o : Nat) (x : W64) : State := s.setReg (rkBank pMET o b) (if k.created then x else 0)
    put (put (put (put s 0x110 s.lamp.moduleTime) 0x118 k.activeUs) 0x120 k.sconceUs) 0x128 k.gibUs

def execSnap (src : RegSrc) (v : W64) (s : State) : Host.Outcome State Fault Refusal := onOk src.ok (snapWrite s src v)

/-- One µs of metering: every composition's time, its plans' sconces, its extents. -/
def meterUs (s : State) : State :=
  s.work.comps.foldl (fun s e =>
    let n := BitVec.ofNat 12 e.1
    let sc := ((s.plans.filter (fun p => p.2.comp = n)).map (fun p =>
      ((p.2.claims.filter (fun c => c.kind = 1)).map (fun c => c.b1)).dedup.length)).sum
    let gib := (s.work.extents.filter (fun x => x.2.owned && x.2.comp == n)).length
    s.setComp e.1 (fun c => { c with
      activeUs := if c.state = 1 then c.activeUs + 1 else c.activeUs,
      sconceUs := c.sconceUs + BitVec.ofNat 64 sc, gibUs := c.gibUs + BitVec.ofNat 64 gib })) s

end Sys2Proof.Machine
end

