-- ==== Sys2Proof/Machine/Colls.lean ====
section
/-! DEFINITION. Collective groups: opening, aborting, resetting, closing, and ABORT messages (12 R347 to R351). -/
namespace Sys2Proof.Machine

/-- A member entry; none if it breaks its layout. -/
def memberOf (v : Nat) : Option Member :=
  if bits v 45 19 ≠ 0 ∨ 131072 < bits v 27 18 then none
  else some { agent := BitVec.ofNat 10 (bits v 0 10), first := BitVec.ofNat 17 (bits v 10 17),
              count := BitVec.ofNat 18 (bits v 27 18) }

/-- The members that a list of 8 B entries names; none if one breaks its layout. -/
def membersOf (d : List Byte) (n : Nat) : Option (List Member) :=
  (List.range n).mapM (fun i => memberOf (leNat (slice d (8 * i) 8)))

/-- The group descriptor's reserved bytes are zero and MEMBERS is in range. -/
def groupForm (d : W512) : Bool :=
  decide (fld d 4 4 = 0 ∧ bits (fld d 8 8) 57 7 = 0 ∧ bits d.toNat 128 384 = 0 ∧ 2 ≤ fld d 2 2 ∧ fld d 2 2 ≤ 1024)

/-- A hub counter of a member on this controller that the partition does not own. -/
def foreignCounter (s : State) (p : BitVec 6) (ms : List Member) : Option Nat :=
  (ms.filter (fun m => m.agent = s.xbar.agentId)).findSome? (fun m =>
    ((List.range 129).map (fun i => min (m.first.toNat + 1024 * i) (m.first.toNat + m.count.toNat - 1))).find?
      (fun k => m.count ≠ 0 ∧ counterOwner s k ≠ p))

/-- Reads and checks a group's descriptor and member list. -/
def openGroup (c : Cmd) (dva : Nat) : Eng W64 := do
  if dva % 64 ≠ 0 then failAt c.who stAlign 1 dva
  let d := lineOf (← readDva c.who .l2 dva 64)
  if !groupForm d then failCmdE c stFormat
  let n := fld d 2 2
  let l ← readDva c.who .l2 (bits (fld d 8 8) 0 57) (8 * n)
  let s ← get
  let gid := BitVec.ofNat 16 (fld d 0 2)
  match membersOf l n with
  | none => failCmdE c stFormat
  | some ms =>
    if ms.all (fun m => m.agent != s.xbar.agentId) || (findGroup s c.part gid).isSome then failCmdE c stFormat
    if 1024 ≤ s.sync.groups.length then failCmdE c stQuota
    match foreignCounter s c.part ms with
    | some k => failLog stPerm (fun s => logErr s pSYNC 0 { c.who.fail stPerm 0 0 with info := k })
    | none =>
      let g : Group := { part := c.part, gid := gid, members := ms, comp := some (BitVec.ofNat 12 (qComp (s.queue c.q))),
                         aborted := false, cause := 0, repeats := 0, abortedAt := 0 }
      modify (fun s => s.setSync (fun y => { y with groups := y.groups ++ [g] }))
      return 0

def execCollOpen (q : Nat) (e : W512) (s : State) : Host.Outcome State Fault Refusal :=
  cmdRow q e (opcodeOf e == 0x20) [(128, 57)] .work (fun c s => engCmd c (openGroup c (c.f 16 8)) s) s

/-- A command on an open group of its queue's partition. -/
def groupCmd (c : Cmd) (s : State) (f : Group → State) : Option State :=
  match findGroup s c.part (BitVec.ofNat 16 (c.f 16 2)) with
  | none => some (failCmd s c stFormat)
  | some g => some (f g)

def execCollAbort (q : Nat) (e : W512) (s : State) : Host.Outcome State Fault Refusal :=
  cmdRow q e (opcodeOf e == 0x21) [(128, 16), (144, 8)] .work (fun c s => groupCmd c s (fun g =>
    endCmd (enterAborted s g.part g.gid (BitVec.ofNat 8 (c.f 18 1))) c 0 0)) s

/-- Hub counters of a group on this controller. -/
def groupCounters (s : State) (g : Group) (k : Nat) : Bool := g.owns s.xbar.agentId k

def execCollReset (q : Nat) (e : W512) (s : State) : Host.Outcome State Fault Refusal :=
  cmdRow q e (opcodeOf e == 0x22) [(128, 16)] .work (fun c s => groupCmd c s (fun g =>
    if g.aborted ∧ s.lamp.moduleTime - g.abortedAt < 10000 then failCmd s c stBusy
    else
      let s := s.setSync (fun y => { y with hub := y.hub.filter (fun e => !groupCounters s g e.1) })
      endCmd (setGroup s g.part g.gid (fun g => { g with aborted := false, cause := 0 })) c 0 0)) s

def execCollClose (q : Nat) (e : W512) (s : State) : Host.Outcome State Fault Refusal :=
  cmdRow q e (opcodeOf e == 0x23) [(128, 16)] .work (fun c s => groupCmd c s (fun g =>
    endCmd (s.setSync (fun y => { y with groups := y.groups.filter (fun h => ¬ (h.part = g.part ∧ h.gid = g.gid)) }))
      c 0 0)) s

/-- An ABORT from a member of an open group; any other is counted and ignored (R349). -/
def execAbort (port : Nat) (m : CtlMsg) (s : State) : Host.Outcome State Fault Refusal :=
  onOk (portOk port) (if portLive s port && m.ctype == 7 && m.dst == s.xbar.agentId then
    let s := takeCtl s port m
    match findGroup s m.part (BitVec.ofNat 16 (cfld m 8 2)) with
    | none => bump s (rk pSYNC 0x140) 32 1
    | some g =>
      if g.members.any (fun x => x.agent == m.src) then
        settle (enterAborted s g.part g.gid (BitVec.ofNat 8 (cfld m 10 1)))
      else bump s (rk pSYNC 0x140) 32 1
  else s)

/-- At 10 µs and 20 µs after it entered ABORTED a controller sends ABORT to every other member again. -/
def execAbortRepeat (part : BitVec 6) (gid : BitVec 16) (s : State) : Host.Outcome State Fault Refusal :=
  .next (match findGroup s part gid with
  | none => s
  | some g =>
    if g.aborted ∧ g.repeats < 2 then sendAborts (setGroup s part gid (fun g => { g with repeats := g.repeats + 1 })) g
    else s)

end Sys2Proof.Machine
end

