-- ==== Sys2Proof/Machine/KvNum.lean ====
section
/-! DEFINITION. The arithmetic of decode attention: queries, page partials, merges, outputs (10 R301 to R304; 07 R194,
R196, R204, R209, R212). -/
namespace Sys2Proof.Machine

/-! ### Quotients -/

/-- A value near x ÷ y, on the same side of every rounding boundary of a format of at most 24 bits as the quotient
itself: 128 further bits, and a last bit that says that more follow. -/
def fquot (x y : FVal) : FVal :=
  match x, y with
  | .nan, _ => .nan
  | _, .nan => .nan
  | .inf _, .inf _ => .nan
  | .inf a, .fin b _ _ => .inf (a != b)
  | .fin a _ _, .inf b => .fin (a != b) 0 0
  | .fin a m e, .fin b n k =>
    if n = 0 then (if m = 0 then .nan else .inf (a != b))
    else
      let q := m * 2 ^ 128 / n
      .fin (a != b) (2 * q + b2n (decide (m * 2 ^ 128 % n ≠ 0))) (e - k - 129)

/-- The sum of values, exact. -/
def fsum (l : List FVal) : FVal := l.foldl fadd (.fin false 0 0)

/-! ### Formats of a session (R285, R289) -/

/-- The element format (02 R60) of a session's format. -/
def kvFmt (fmt : Nat) : Nat := if fmt = 0 then 1 else if fmt = 1 then 3 else if fmt = 2 then 4 else 7
/-- Bytes of a row, of a page, and the depth of a dot operation. -/
def kvRowBytes (fmt dim : Nat) : Nat := rowBytes (kvFmt fmt) dim
def kvPageBytes (fmt dim : Nat) : Nat := 256 * kvRowBytes fmt dim
def kvDepth (fmt : Nat) : Nat := if fmt = 0 then 4 else if fmt = 3 then 32 else 8

/-- The dot unit's view of a row of a session's format. -/
def kvRow (fmt dim : Nat) (bytes : List Byte) : List FVal :=
  (List.range dim).map (fun c =>
    if fmt = 3 then
      dotInputSB true (bytes.getD (17 * (c / 32)) 0).toNat
        (bits (bytes.getD (17 * (c / 32) + 1 + c % 32 / 2) 0).toNat (4 * (c % 2)) 4)
    else dotInput (kvFmt fmt) (leNat (slice bytes (fmtBytes (kvFmt fmt) * c) (fmtBytes (kvFmt fmt)))))

/-- Values of 32 as one SB4 block, nearest even, in the dot unit's view. -/
def sb4Dot (vs : List FVal) : List FVal :=
  let (sc, cs, _, _) := toBlock true false 1 vs
  cs.map (dotInputSB true sc)

/-- Blocks of 32 values. -/
def blocks32 (vs : List FVal) : List (List FVal) := (List.range (vs.length / 32)).map (fun i => (vs.drop (32 * i)).take 32)

/-- A dot product accumulated by dot operations of a depth, each rounding once. -/
def dotChain (depth : Nat) (a b : List FVal) : Nat :=
  (List.range ((a.length + depth - 1) / depth)).foldl (fun acc i =>
    (dotOut acc ((a.drop (depth * i)).take depth) ((b.drop (depth * i)).take depth)).1) 0

/-! ### Queries (R301) -/

/-- The smallest integer e with a ≤ f × 2^e, for a finite magnitude; 0 for 0. -/
def scaleExp (f : Nat) (a : FVal) : Int :=
  match a with
  | .fin _ m x =>
    if m = 0 then 0
    else
      let ex := expOf m f + x
      let (n, d) := scaleQuot m f (x - ex)
      if n = d then ex else ex + 1
  | _ => 0

/-- A query in the session's format: its elements as the dot unit reads them, and qscale. For a query that is not
finite no exponent exists: `fr` stands for its qscale. -/
def kvQuery (fmt : Nat) (fr : Nat) (q : List FVal) : List FVal × FVal :=
  let one : FVal := .fin false 1 0
  if fmt = 0 then (q.map (fun v => dotInput 1 (narrow fmtBF16 .rne false v).1), one)
  else if fmt = 3 then (((blocks32 q).map sb4Dot).flatten, one)
  else
    let f := if fmt = 1 then fmtE4M3 else fmtE5M2
    let sc : FVal := if q.any notFinite then f32 fr
      else .fin false 1 (scaleExp (if fmt = 1 then 448 else 57344) (amaxOf q))
    (q.map (fun v => dotInput (kvFmt fmt) (narrow f .rne true (fquot v sc)).1), sc)

/-! ### Partials (R302) -/

/-- A partial: m, l and o as FP32 codes. -/
structure Partial where
  m : Nat
  l : Nat
  o : List Nat
deriving DecidableEq, Repr

/-- The empty partial (−∞, +0, +0). -/
def Partial.empty (dim : Nat) : Partial := { m := 0xFF800000, l := 0, o := List.replicate dim 0 }

/-- What the partials of one query head need beside the page. -/
structure QueryHead where
  q     : List FVal
  cq    : Nat
  slope : Option Nat
  qpos  : Nat

/-- log2 of π. -/
def kvPi (fmt : Nat) : Nat := if fmt = 1 then 8 else if fmt = 2 then 15 else 0

/-- Scores of the taking-part keys of a page; none for the others. -/
def kvScores (fmt dim : Nat) (h : QueryHead) (kscale pos : Nat) (part : Nat → Bool) (krow : Nat → List Byte) :
    List (Option Nat) :=
  let cp := if fmt = 1 ∨ fmt = 2 then (f32Mul h.cq kscale).1 else h.cq
  (List.range 128).map (fun j =>
    if part j then
      let d := dotChain (kvDepth fmt) h.q (kvRow fmt dim (krow j))
      let x := (f32Mul cp d).1
      match h.slope with
      | none => some x
      | some b => some (f32Fma b (f32Code (fint ((pos : Int) + j - h.qpos))) x).1
    else none)

/-- The weights n_j in the session's format: each one's value, and the dot unit's view of it (07 R210). -/
def kvWeights (fmt : Nat) (vs : List FVal) : List (FVal × FVal) :=
  if fmt = 3 then
    ((blocks32 vs).map (fun b =>
      let (sc, cs, _, _) := toBlock true false 1 b
      cs.map (fun c => (sbVal true sc c, dotInputSB true sc c)))).flatten
  else
    vs.map (fun v =>
      let c := (narrow ((fmtOf (kvFmt fmt)).getD fmtBF16) .rne true v).1
      (widenFrom (kvFmt fmt) c, dotInput (kvFmt fmt) c))

/-- The partial of one page for one query head. A key that takes no part has the weight 0, and its row enters the dot
operations as it stands (log entry 17). `krow` and `vrow` are the page's rows, `pos` the position of its first
key. -/
def kvPartial (fmt dim : Nat) (h : QueryHead) (kscale vscale pos : Nat) (part : Nat → Bool)
    (krow vrow : Nat → List Byte) : Partial :=
  let s := kvScores fmt dim h kscale pos part krow
  let m := f32Code ((s.filterMap (fun x => x.map f32)).foldl fmax (.inf true))
  let p := s.map (fun x => match x with
    | some x => f32 (f32Exp (f32Add x (f32Neg m)).1).1
    | none => .fin false 0 0)
  let pi := kvPi fmt
  let scaled := p.map (fun v => f32 (f32Code (fmul v (.fin false 1 pi))))
  let n := kvWeights fmt scaled
  let inv : FVal := .fin false 1 (-(pi : Int))
  let l := f32Code (fmul (f32 (f32Code (fsum (n.map (·.1))))) inv)
  let nu : FVal := if fmt = 1 ∨ fmt = 2 then f32 vscale else .fin false 1 0
  let f := f32Code (fmul nu inv)
  let rows := (List.range 128).map (fun j => kvRow fmt dim (vrow j))
  { m := m, l := l,
    o := (List.range dim).map (fun i =>
      (f32Mul (dotChain (kvDepth fmt) (n.map (·.2)) (rows.map (fun r => r.getD i (.fin false 0 0)))) f).1) }

/-- The merge of two partials (R303). -/
def kvMerge (x y : Partial) : Partial :=
  if y.l % 0x80000000 = 0 ∧ y.m = 0xFF800000 then x
  else if x.l % 0x80000000 = 0 ∧ x.m = 0xFF800000 then y
  else
    let m := f32Code (fmax (f32 x.m) (f32 y.m))
    let a1 := (f32Exp (f32Add x.m (f32Neg m)).1).1
    let a2 := (f32Exp (f32Add y.m (f32Neg m)).1).1
    { m := m, l := (f32Fma a1 x.l (f32Mul a2 y.l).1).1,
      o := List.zipWith (fun u v => (f32Fma a1 u (f32Mul a2 v).1).1) x.o y.o }

/-- Merges a list of partials in an order that `seed` names, two at a time; the seed's rest names later orders. -/
def kvMergeAll (dim : Nat) : Nat → Nat → List Partial → Partial × Nat
  | _, seed, [] => (Partial.empty dim, seed)
  | _, seed, [x] => (x, seed)
  | 0, seed, x :: _ => (x, seed)
  | k + 1, seed, l =>
    let i := seed % l.length
    let x := l.getD i (Partial.empty dim)
    let r := l.eraseIdx i
    let j := seed / l.length % r.length
    let y := r.getD j (Partial.empty dim)
    kvMergeAll dim k (seed / l.length / r.length) (kvMerge x y :: r.eraseIdx j)

/-! ### Outputs (R304) -/

/-- The output bytes of one query head. -/
def kvOutput (partials bf16 : Bool) (p : Partial) : List Byte :=
  if partials then leBytes 4 p.m ++ leBytes 4 p.l ++ zeros 8 ++ (p.o.map (leBytes 4)).flatten
  else
    let r := (f32Recip p.l).1
    (p.o.map (fun x =>
      let y := if p.l % 0x80000000 = 0 then 0 else (f32Mul x r).1
      if bf16 then leBytes 2 (narrow fmtBF16 .rne false (f32 y)).1 else leBytes 4 y)).flatten

end Sys2Proof.Machine
end

