-- ==== Sys2Proof/Machine/Plans.lean ====
section
/-! DEFINITION. Plans: admission, arming, runs, gates, steps, spot checks, overruns, retirement (09 R261, R262, R269 to
R283; 07 R208, R214 to R217; 03 R87; 06 R172, R179; 08 R221; 12 R350; 14 R390). -/
namespace Sys2Proof.Machine

/-! ### Admission (09 R272, R273) -/

abbrev rsFormat : Nat := 1
abbrev rsRead : Nat := 2
abbrev rsQuota : Nat := 3
abbrev rsTaken : Nat := 4
abbrev rsShare : Nat := 5
abbrev rsCells : Nat := 6
abbrev rsLimit : Nat := 7
abbrev rsRoute : Nat := 8
abbrev rsUnavailable : Nat := 9
abbrev rsContext : Nat := 0xA
abbrev rsPerm : Nat := 0xB
abbrev rsNotArmed : Nat := 0xC
abbrev rsNoPlan : Nat := 0xD

/-- Plans other than the one being admitted. -/
def allPlans (s : State) : List Plan := s.plans.map (·.2)

/-- Two ranges meet. -/
def meets (a n b k : Nat) : Bool := decide (a < b + k ∧ b < a + n)

/-- Two claims want the same resource (R261). -/
def claimsMeet (c d : Claim) : Bool :=
  c.kind == d.kind && match c.kind.toNat with
  | 1 => c.b1 == d.b1 && c.b &&& d.b != 0
  | 2 => c.b1 == d.b1 && c.b2 == d.b2
  | 3 => c.b1 == d.b1 && meets (claimFirst c) (claimCount c) (claimFirst d) (claimCount d)
  | 4 => meets (claimFirst c) (claimCount c) (claimFirst d) (claimCount d)
  | 5 => meets (claimFirst c) (claimCount c) (claimFirst d) (claimCount d)
  | 6 => meets c.a.toNat c.b.toNat d.a.toNat d.b.toNat
  | _ => false

/-- The per-mille share that claims take of a port, tier, die link or copy engine. -/
def shareOf (cs : List Claim) (kind unit : Byte) : Nat :=
  ((cs.filter (fun c => c.kind == kind && c.b1 == unit)).map (fun c => bits c.b.toNat 0 10)).sum

/-- Channel shares that claims take on a sconce. -/
def channelShares (cs : List Claim) (sc : Byte) : Nat :=
  ((cs.filter (fun c => c.kind == 2 && c.b1 == sc)).map (fun c => c.a.toNat)).sum

def claimsOf (ps : List Plan) : List Claim := (ps.map (·.claims)).flatten

/-- A partition's per-mille ceiling on a kind of claim; 0 is no limit (14 R390). -/
def shareCeiling (s : State) (p : BitVec 6) (kind : Byte) : Nat :=
  bits (tget 0 s.work.share p.toNat).toNat (10 * (kind.toNat - 7)) 10

/-- Every block of `unit` things that a range touches belongs to the partition. -/
def ownsRange (owner : Nat → BitVec 6) (unit first n : Nat) (p : BitVec 6) : Bool :=
  (List.range ((first + n - 1) / unit - first / unit + 1)).all (fun i => owner ((first / unit + i) * unit) == p)

/-- A claim lies within what the partition owns and within its ceilings; `cs` are the claims of the image. -/
def withinQuota (s : State) (p : BitVec 6) (cs : List Claim) (c : Claim) : Bool :=
  match c.kind.toNat with
  | 1 => sconceOwner s c.b1.toNat == p
  | 2 => sconceOwner s c.b1.toNat == p
  | 3 => sconceOwner s c.b1.toNat == p
  | 4 => ownsRange (counterOwner s) 1024 (claimFirst c) (claimCount c) p
  | 5 => ownsRange (semOwner s) 256 (claimFirst c) (claimCount c) p
  | 6 => c.b == 0 || reservoirOwned s p c.a.toNat c.b.toNat
  | _ =>
    let lim := shareCeiling s p c.kind
    let mine := claimsOf ((allPlans s).filter (fun q => q.part == p))
    lim == 0 || decide (shareOf mine c.kind c.b1 + shareOf cs c.kind c.b1 ≤ lim)

/-- Why one claim cannot be granted. -/
def claimReason (s : State) (p : BitVec 6) (cs : List Claim) (c : Claim) : Option Nat :=
  let onSconce := decide (1 ≤ c.kind.toNat ∧ c.kind.toNat ≤ 3)
  if onSconce && !(s.sconce c.b1.toNat).available then some rsUnavailable
  else if !withinQuota s p cs c then some rsQuota
  else if (claimsOf (allPlans s)).any (claimsMeet c) ||
      (c.kind == 2 && decide (256 < channelShares (claimsOf (allPlans s)) c.b1 + channelShares cs c.b1)) then
    some rsTaken
  else none

/-- The unplanned shares together. -/
def unplanned (s : State) : Nat :=
  bits (regGet s (rk pPLAN 0x108)).toNat 0 10 + bits (regGet s (rk pPLAN 0x110)).toNat 0 10 +
    bits (regGet s (rk pPLAN 0x118)).toNat 0 10

/-- The limit on the shares of a kind of resource (R262). -/
def shareLimit (kind : Byte) : Nat := if kind = 8 then 900 else 1000

/-- No resource of the claims exceeds its limit with `un` unplanned per mille. -/
def sharesFit (s : State) (cs : List Claim) (un : Nat) : Bool :=
  (cs.filter (fun c => decide (7 ≤ c.kind.toNat))).all (fun c =>
    decide (shareOf (claimsOf (allPlans s)) c.kind c.b1 + shareOf cs c.kind c.b1 + un ≤ shareLimit c.kind))

/-- Request cells that claims take of a port. -/
def claimCells (cs : List Claim) (port : Byte) : Nat :=
  ((cs.filter (fun c => c.kind == 7 && c.b1 == port)).map (fun c => c.a.toNat)).sum

/-- A live port's request allocation at its peer. -/
def peerCells (s : State) (port : Nat) : Nat := if portLive s port then (s.port port).peerReq else 0

def cellsFit (s : State) (cs : List Claim) : Bool :=
  (cs.filter (fun c => c.kind == 7)).all (fun c =>
    decide (claimCells (claimsOf (allPlans s)) c.b1 + claimCells cs c.b1 + 258 ≤ peerCells s c.b1.toNat))

/-- A route reference agrees with the current bank (R269). -/
def routeFits (s : State) (cs : List Claim) (r : W64) : Bool :=
  let e := routeGet s.xbar.routeCur (BitVec.ofNat 10 r.toNat)
  let port := bits r.toNat 12 4
  e.getLsbD 12 && bits e.toNat 0 4 == port &&
  (port == 0xE || cs.any (fun c => c.kind == 7 && c.b1.toNat == port))

/-- Tile streams of all admitted plans. -/
def streamsInUse (s : State) : Nat := ((allPlans s).map (fun p => p.streams.length)).sum

/-- What admission finds against a plan whose layout is right, before it looks at the CODE pages. -/
def admitReason (s : State) (p : Plan) : Option Nat :=
  if 256 ≤ s.plans.length ∨ 8192 < streamsInUse s + p.streams.length then some rsLimit
  else match p.claims.findSome? (claimReason s p.part p.claims) with
  | some r => some r
  | none =>
    if !sharesFit s p.claims (unplanned s) then some rsShare
    else if !cellsFit s p.claims then some rsCells
    else if !p.routes.all (routeFits s p.claims) then some rsRoute
    else none

/-- A denied command of a plan: its completion and its record. -/
def denyPlan (s : State) (c : Cmd) (reason : Nat) : State :=
  endCmd (logRecord s pPLAN (c.issuer.fail stDenied 0 0)) c stDenied (BitVec.ofNat 64 reason)

/-- A denied admission (R273). -/
def denyAdmit (s : State) (c : Cmd) (dva : Nat) (ctx : BitVec 20) (reason : Nat) : State :=
  let s := logErr s pPLAN 2 { c.who.fail stDenied 1 dva with ctx := some ctx }
  let s := (bump s (rk pPLAN 0x128) 32 1).setReg (rk pPLAN 0x130) (BitVec.ofNat 64 (reason + 2 ^ 8 * ctx.toNat))
  endCmd s c stDenied (BitVec.ofNat 64 reason)

/-- Local and hub counters of claims read 0. -/
def zeroCounters (s : State) (cs : List Claim) (hub : Bool) : State :=
  cs.foldl (fun s c =>
    let a := claimFirst c
    let n := claimCount c
    if c.kind = 3 then s.setSync (fun y => { y with
      local_ := y.local_.filter (fun e => ¬ (localKey c.b1.toNat a ≤ e.1 ∧ e.1 < localKey c.b1.toNat a + n)) })
    else if c.kind = 4 ∧ hub then s.setSync (fun y => { y with hub := y.hub.filter (fun e => ¬ (a ≤ e.1 ∧ e.1 < a + n)) })
    else s) s

/-- Sconces that a plan's spot-check entries name. -/
def spotSconces (p : Plan) : List Nat := (p.spots.map (fun v => bits v.toNat 0 8)).dedup

/-- Every claim is granted under the lowest free handle. A sconce or MiB of the Reservoir that changed partition was
zeroed when it was granted to the partition (03 R87), so admission finds it zeroed. -/
def grantPlan (s : State) (c : Cmd) (p : Plan) : State :=
  let h := ((List.range 256).find? (fun i => (s.plan i).isNone)).getD 0
  let comp := BitVec.ofNat 12 (qComp (s.queue c.q))
  let s := zeroCounters { s with plans := tput s.plans h { p with comp := comp } } p.claims true
  let s := (spotSconces p).foldl (fun s sc => s.setSconce sc (fun k => { k with spotGen := genSeed p.seed })) s
  endCmd (bump s (rk pPLAN 0x120) 32 1) c 0 (BitVec.ofNat 64 h)

/-- The image's bytes, none if its header gives no length. -/
def readImage (w : Who) (dva : Nat) : Eng (Option (List Byte)) := do
  let h ← readDva w .l2 dva 256
  match imageLen (leNat h) with
  | none => return none
  | some n =>
    let rest ← readDva w .l2 (dva + 256) (n - 256)
    return some (h ++ rest)

/-- Every page of the CODE section has X set. -/
def codePages (w : Who) (dva : Nat) (img : List Byte) : Eng Bool := do
  let (o, n) := sectionAt (leNat (img.take 256)) 3
  if n = 0 then return true
  let ps ← translateAll w .l2 .read (dva + o) n
  return ps.all (fun e => e.2.x)

def execPlanAdmit (q : Nat) (e : W512) (s : State) : Host.Outcome State Fault Refusal :=
  cmdRow q e (opcodeOf e == 0x10) [(128, 64), (192, 32)] .work (fun c s =>
    let dva := c.f 16 8
    let ctx := BitVec.ofNat 20 (c.f 24 4)
    if s.lamp.restarting || s.lamp.gaveUp then none
    else if 2 ^ 57 ≤ dva ∨ dva % 64 ≠ 0 ∨ 2 ^ 20 ≤ c.f 24 4 then some (denyAdmit s c dva ctx rsFormat)
    else if !(match ctxOf s ctx with
      | some x => x.type == 1 && x.part == c.part
      | none => false) then some (denyAdmit s c dva ctx rsContext)
    else
      let w := { c.who with ctx := ctx }
      match runEng (readImage w dva) s with
      | none => none
      | some (.error _, t) => some (denyAdmit t c dva ctx rsRead)
      | some (.ok none, t) => some (denyAdmit t c dva ctx rsFormat)
      | some (.ok (some img), t) =>
        match parsePlan img t.xbar.agentId c.part ctx with
        | none => some (denyAdmit t c dva ctx rsFormat)
        | some p =>
          match admitReason t p with
          | some r => some (denyAdmit t c dva ctx r)
          | none =>
            match runEng (codePages w dva img) t with
            | none => none
            | some (.ok true, t) => some (grantPlan t c p)
            | some (_, t) => some (denyAdmit t c dva ctx rsPerm)) s

/-- A command on an admitted plan of its queue's partition. -/
def planCmd (c : Cmd) (s : State) (f : Nat → Plan → Option State) : Option State :=
  let h := c.f 16 1
  match s.plan h with
  | none => some (denyPlan s c rsNoPlan)
  | some p =>
    if p.part ≠ c.part then some (failCmd s c stPerm)
    else if p.retire.isSome then some (denyPlan s c rsNoPlan)
    else f h p

def execPlanArm (q : Nat) (e : W512) (s : State) : Host.Outcome State Fault Refusal :=
  cmdRow q e (opcodeOf e == 0x11) [(128, 8), (192, 64)] .work (fun c s => planCmd c s (fun h p =>
    some (if p.multi && p.tag == BitVec.ofNat 64 (c.f 24 8) then
        endCmd (s.setPlan h (fun p => { p with armed := true })) c 0 0
      else denyPlan s c rsFormat))) s

/-! ### Gates and the start of a run (09 R276) -/

def stepOf (p : Plan) : Option PStep := p.steps[p.curStep]?

/-- The gate's target for this run. -/
def gateTarget (p : Plan) (st : PStep) : W64 := st.gateBase + p.runIndex * st.gateStride

/-- The run reaches its current step: it waits at the step's gate, or may start it. -/
def enterStep (s : State) (h : Nat) : State :=
  match s.plan h with
  | none => s
  | some p =>
    match stepOf p with
    | none => endRun s h 0
    | some st =>
      let k := st.gateCounter.toNat
      let s := s.setPlan h (fun p => { p with run := .gate })
      if !st.gate then s.setPlan h (fun p => { p with run := .ready })
      else if (abortedGroup s k).isSome then stopRun s h stAborted
      else if gateTarget p st ≤ hubGet s k then s.setPlan h (fun p => { p with run := .ready })
      else addWait s (.gate h, k, false, gateTarget p st)

def execPlanRun (q : Nat) (e : W512) (s : State) : Host.Outcome State Fault Refusal :=
  cmdRow q e (opcodeOf e == 0x12) [(128, 8), (136, 1), (192, 256)] .work (fun c s => planCmd c s (fun h p =>
    if p.service then some (denyPlan s c rsFormat)
    else if !p.armed then some (denyPlan s c rsNotArmed)
    else if p.run ≠ .idle then none
    else
      let reset := bit (c.f 17 1) 0
      let s := zeroCounters s p.claims reset
      let s := s.setPlan h (fun p => { p with
        rel := (List.range 4).map (fun i => BitVec.ofNat 64 (c.f (24 + 8 * i) 8))
        runIndex := if reset then 0 else p.runIndex
        curStep := 0, status := 0, misses := 0, lates := 0, runner := some (c.q, c.idx) })
      some (enterStep s h))) s

def execPlanRetire (q : Nat) (e : W512) (s : State) : Host.Outcome State Fault Refusal :=
  cmdRow q e (opcodeOf e == 0x13) [(128, 8)] .work (fun c s => planCmd c s (fun h p =>
    if p.run = .idle then some (freePlan s h (some (c.q, c.idx)))
    else
      let s := s.setPlan h (fun p => { p with retire := some (c.q, c.idx) })
      some (if p.run = .gate then stopRun s h stTornDown else s))) s

/-- A gate's counter has reached its target, or belongs to a group that aborted. -/
def openGate (s : State) (h : Nat) : State :=
  match s.plan h with
  | none => s
  | some p =>
    match stepOf p with
    | none => s
    | some st =>
      if p.run ≠ .gate then s
      else if (abortedGroup s st.gateCounter.toNat).isSome then stopRun s h stAborted
      else if gateTarget p st ≤ hubGet s st.gateCounter.toNat then
        (dropWait s (.gate h)).setPlan h (fun p => { p with run := .ready })
      else s

def execGateOpen (h : Nat) (s : State) : Host.Outcome State Fault Refusal :=
  onOk (handleOk h) (settle (openGate s h))

/-- A queue's COUNTER_WAIT whose counter has reached its target. -/
def queueTarget (s : State) (q : Nat) (tag : W32) : State :=
  match counterWaitOf s q tag with
  | none => s
  | some a =>
    if (abortedGroup s (fld a.raw 16 4)).isSome then counterWaitDone s q a.idx tag.toNat stAborted false
    else if BitVec.ofNat 64 (fld a.raw 24 8) ≤ hubGet s (fld a.raw 16 4) then
      counterWaitDone s q a.idx tag.toNat 0 true
    else s

def execCounterTargetReached (e : Waiter) (s : State) : Host.Outcome State Fault Refusal :=
  onOk e.ok (settle (match e with
    | .wick w => wickTarget s w
    | .gate h => openGate s h
    | .queue q tag => queueTarget s q tag))

/-! ### The start of a step (09 R276; 08 R221; 07 R208) -/

/-- Physical wicks of a sconce that work and fill no position, lowest first (16 R448). -/
def sparesOf (s : State) (sc : Nat) : List Nat :=
  (((List.range 68).filter (fun i => !(s.sconce sc).failed.getLsbD i))).drop 64

/-- Every wick of the plan takes the values of R220; those with a launch entry run their program. -/
def resetWick (p : Plan) (h : Nat) (l : Option Launch) (w : Nat) : Wick :=
  let k := { Wick.fresh with ctx := p.ctx, part := p.part, handle := BitVec.ofNat 8 h,
                             step := BitVec.ofNat 32 p.curStep, rel := p.rel }
  match l with
  | none => k
  | some l => { k with
      pc := l.entry.toNat, state := .running,
      gen := genSeed (p.seed ^^^ BitVec.ofNat 32 (w * 2 ^ 16) ^^^ BitVec.ofNat 32 p.curStep) }

/-- A wick of the plan is set up, with its code loaded if its launch names some (R265). -/
def setupWick (p : Plan) (h : Nat) (ls : List Launch) (s : State) (w : Nat) : State :=
  let l := ls.find? (fun l => l.wick.toNat == w)
  let s := s.setWick w (fun _ => resetWick p h l w)
  match l with
  | some l => if l.codeLen = 0 then s else imemWrite s w 0 (slice p.code l.codeOff l.codeLen)
  | none => s

/-- The generators of the plan's mover channels are seeded. -/
def seedChannel (p : Plan) (s : State) (c : Claim) : State :=
  if c.kind = 2 then
    s.setSconce c.b1.toNat (fun k => { k with moverGen := listSet k.moverGen c.b2.toNat (fun _ =>
      genSeed (p.seed ^^^ BitVec.ofNat 32 (c.b1.toNat * 2 ^ 16 + c.b2.toNat) ^^^ BitVec.ofNat 32 p.curStep)) })
  else s

/-- The exponent of a sconce's draws: the plan's entry, or the sconce's default. -/
def spotRate (s : State) (p : Plan) (sc : Nat) : Nat :=
  let e := ((p.spots.find? (fun v => bits v.toNat 0 8 == sc)).map (fun v => bits v.toNat 8 8)).getD 0xFF
  if e = 0xFF then bits (regGet s (rk (pSCN sc) 0x120)).toNat 8 5 else e

/-- A sconce's draw at the start of a step: with a rate of 1 in 2^k it selects the step and one of the wicks that run;
without a free working spare the check is skipped (R214, R217). Which step and wick a draw selects is free. -/
def spotDraw (p : Plan) (ls : List Launch) (s : State) (sc : Nat) : State :=
  if !bit (regGet s (rk (pSCN sc) 0x120)).toNat 0 then s
  else
    let (v, s) := draw (s.setSconce sc (fun k => { k with spotGen := genAdvance k.spotGen }))
    let ws := (ls.map (·.wick.toNat)).filter (fun w => w / 64 == sc)
    if ws = [] ∨ v.toNat % 2 ^ spotRate s p sc ≠ 0 then s
    else
      let w := ws.getD (v.toNat / 2 ^ 20 % ws.length) 0
      match sparesOf s sc, (s.sconce sc).spot with
      | sp :: _, none =>
        (s.setSconce sc (fun k => { k with
          spot := some { wick := w, spare := sp, copied := false, outputs := 0, fault := false } })).setWick w
          (fun k => { k with state := .held })
      | _, _ =>
        logErr (bump s (rk (pSCN sc) 0x130) 32 1) (pSCN sc) 1
          { status := stUncorr, island := some (BitVec.ofNat 8 sc), ctx := some p.ctx, part := some p.part, info := w }

/-- A sconce can start a step: not held, not in reset, its stacked die trained (17 R476; 16 R454). -/
def sconceReady (s : State) (sc : Nat) : Bool :=
  !(s.sconce sc).quiesce && !(s.sconce sc).resetting && (stackTraining s (sc / 8)).state == 0

/-- The step starts: buffers dropped, wicks set, code loaded, generators seeded, spot draws, streams. -/
def startStep (s : State) (h : Nat) : State :=
  match s.plan h with
  | none => s
  | some p =>
    match stepOf p with
    | none => s
    | some st =>
      if p.service ∨ p.run ≠ .ready ∨ !(planSconces p).all (sconceReady s) then s
      else
        let ls := stepLaunches p st
        let s := (planWicks p).foldl (setupWick p h ls) s
        let s := s.setXbar (fun x => { x with fenceBad := x.fenceBad.filter (fun e => !(planWicks p).contains e.1) })
        let s := p.claims.foldl (seedChannel p) s
        let s := if st.spot then (spotSconces p).foldl (spotDraw p ls) s else s
        let js := (List.range st.streamCount).map (fun i => st.streamFirst + i)
        let s := s.setPlan h (fun p => { p with
          run := .running,
          streamRuns := js.map (fun j => { idx := j, next := 0, inFlight := 0, ended := false }) })
        js.foldl (fun s j => refillPlan 9 s h j) s

def execStepStart (h : Nat) (s : State) : Host.Outcome State Fault Refusal :=
  onOk (handleOk h) (if frozen s then s else settle (startStep s h))

/-! ### Spot checks (07 R215 to R217) -/

def execSpotCopyDone (sc : Nat) (s : State) : Host.Outcome State Fault Refusal :=
  onOk (sconceOk sc) (match (s.sconce sc).spot with
    | some sp =>
      if sp.copied ∨ (s.wick sp.wick).state ≠ .held then s
      else (s.setSconce sc (fun c => { c with spot := some { sp with copied := true } })).setWick sp.wick
        (fun k => { k with state := .running })
    | none => s)

/-- A check found a difference at an ordinal. -/
def spotMismatch (s : State) (sc : Nat) (sp : Spot) (ord : Nat) : State :=
  let k := s.wick sp.wick
  let s := bump s (rk (pSCN sc) 0x138) 32 1
  let s := s.setReg (rk (pSCN sc) 0x140)
    (BitVec.ofNat 64 (sp.wick % 2 ^ 12 + 2 ^ 12 * sp.spare + 2 ^ 32 * (ord % 2 ^ 32)))
  logErr s (pSCN sc) 0 { status := stUncorr, island := some (BitVec.ofNat 8 sc), ctx := some k.ctx,
                         part := some k.part, info := sp.wick, aux := sp.spare }

/-- The comparison of a check. Whether the spare computed alike, and where it first differed, is free. -/
def compareSpot (s : State) (sc : Nat) (sp : Spot) : State :=
  let (v, s) := draw (s.setSconce sc (fun c => { c with spot := none }))
  if bit v.toNat 0 then spotMismatch s sc sp 0xFFFFFFFF
  else if bit v.toNat 1 ∧ sp.outputs ≠ 0 then spotMismatch s sc sp (v.toNat / 4 % sp.outputs)
  else bump s (rk (pSCN sc) 0x128) 32 1

def execSpotCompare (sc : Nat) (s : State) : Host.Outcome State Fault Refusal :=
  onOk (sconceOk sc) (match (s.sconce sc).spot with
    | some sp =>
      if (s.wick sp.wick).state = .stopped then settle (skipSpot s sc sp.wick)
      else if sp.copied ∧ (s.wick sp.wick).state = .ended then settle (compareSpot s sc sp)
      else s
    | none => s)

/-! ### The end of a step (09 R276 to R279) -/

/-- A wick's part of the step: the status that stopped it, or MSTAT (08 R253, R255). -/
def wickStatus (k : Wick) : Status :=
  match k.state with
  | .stopped => k.stop
  | .ended => BitVec.ofNat 8 k.mstat.toNat
  | _ => 0

/-- Nothing of the step is left: wicks, streams, transfers, packets, checks. -/
def stepOver (s : State) (h : Nat) (p : Plan) : Bool :=
  (planWicks p).all (fun w => (s.wick w).state != .running && (s.wick w).state != .held && !wickOpen s w) &&
  p.streamRuns.all (fun r => r.inFlight == 0 && (r.ended ||
    decide ((p.streams.getD r.idx ⟨0, 0, 0, 0, 0, 0, 0, 0, 0⟩).tileCount ≤ r.next))) &&
  s.work.xfers.all (fun x => x.handle != some (BitVec.ofNat 8 h)) &&
  (planSconces p).all (fun sc => match (s.sconce sc).spot with
    | some sp => !(planWicks p).contains sp.wick
    | none => true)

/-- The step ends: its post, then the next step or the end of the run. -/
def finishStep (s : State) (h : Nat) (p : Plan) (st : PStep) : State :=
  let bad := if p.status ≠ 0 then p.status else firstBad ((planWicks p).map (fun w => wickStatus (s.wick w)))
  let s := s.setXbar (fun x => { x with fenceBad := x.fenceBad.filter (fun e => !(planWicks p).contains e.1) })
  if bad ≠ 0 then endRun s h bad
  else
    let s := s.setPlan h (fun p => { p with streamRuns := [] })
    let s := if st.post then sendCntAdd s st.postAgent p.part st.postCounter.toNat
        (BitVec.ofNat 64 st.postInc.toNat) (.post h) else s
    if p.curStep + 1 < p.steps.length then
      enterStep (s.setPlan h (fun p => { p with curStep := p.curStep + 1, run := .ready })) h
    else endRun s h ((s.plan h).map (·.status) |>.getD 0)

def execStepEnd (h : Nat) (s : State) : Host.Outcome State Fault Refusal :=
  onOk (handleOk h) (match s.plan h with
    | none => s
    | some p =>
      match stepOf p with
      | none => s
      | some st => if p.run = .running && stepOver s h p then settle (finishStep s h p st) else s)

/-- The record and the registers of an overrun (R279). -/
def noteOverrun (s : State) (h : Nat) (p : Plan) (wick : BitVec 12) : State :=
  let s := logErr s pPLAN 0 { status := stOverrun, ctx := some p.ctx, part := some p.part }
  let s := bump s (rk pPLAN 0x138) 32 1
  s.setReg (rk pPLAN 0x140)
    (BitVec.ofNat 64 (p.ctx.toNat + 2 ^ 20 * h + 2 ^ 28 * wick.toNat + 2 ^ 40 * (p.curStep % 2 ^ 16)))

/-- The running step overruns: its wicks stop and its streams issue no more. -/
def overrunStep (s : State) (h : Nat) (p : Plan) (wick : BitVec 12) : State :=
  let s := noteOverrun s h p wick
  let s := skipSpots (haltPlan s p stOverrun) p
  s.setPlan h (fun p => { p with status := stOverrun,
                                 streamRuns := p.streamRuns.map (fun r => { r with ended := true }) })

def execStepOverrun (h : Nat) (wick : BitVec 12) (s : State) : Host.Outcome State Fault Refusal :=
  onOk (handleOk h) (match s.plan h with
    | none => s
    | some p =>
      match stepOf p with
      | none => s
      | some st =>
        let launched := (stepLaunches p st).any (fun l => l.wick == wick)
        if p.run = .running ∧ p.status ≠ stOverrun ∧ (launched ∨ wick = 0xFFF) then settle (overrunStep s h p wick)
        else s)

def execGateBoundExpiry (h : Nat) (s : State) : Host.Outcome State Fault Refusal :=
  onOk (handleOk h) (match s.plan h with
    | none => s
    | some p =>
      match stepOf p with
      | none => s
      | some st =>
        if p.run = .gate ∧ st.gateBound ≠ 0 ∧ ¬ (gateTarget p st ≤ hubGet s st.gateCounter.toNat) then
          settle (endRun (noteOverrun s h p 0xFFF) h stOverrun)
        else s)

end Sys2Proof.Machine
end

