-- ==== Sys2Proof/Machine/Kv.lean ====
section
/-! DEFINITION. KV sessions: their structures in the store, APPEND and ATTEND, and how an instance of a service plan runs
(09 R280; 10 R284 to R309). -/
namespace Sys2Proof.Machine

/-! ### Instances of service plans (09 R280) -/

/-- Another command waits at the gate of the plan. -/
def serviceBusy (s : State) (c : Cmd) (p : Plan) : Bool :=
  p.run != .idle && match p.runner with
  | some (q, i) => (q, i) != (c.q, c.idx) && (s.queue q).fetched.any (fun e => e.idx == i)
  | none => false

/-- An instance may start: none while its step waits for a gate, a sconce or a die, else the status that ends it at
once, or OK. -/
def serviceReady (s : State) (c : Cmd) (p : Plan) : Option Status :=
  match stepOf p with
  | none => some stFormat
  | some st =>
    if serviceBusy s c p then none
    else if st.gate && (abortedGroup s st.gateCounter.toNat).isSome then some stAborted
    else if st.gate && !decide (gateTarget p st ≤ hubGet s st.gateCounter.toNat) then none
    else if (planSconces p).all (sconceReady s) then some 0 else none

/-- A sconce's draw for an instance, and its check (07 R214 to R217): which draw selects the instance and which wick,
and what the comparison finds, is free. -/
def serviceSpot (p : Plan) (s : State) (sc : Nat) : State :=
  if !bit (regGet s (rk (pSCN sc) 0x120)).toNat 0 then s
  else
    let (v, s) := draw (s.setSconce sc (fun k => { k with spotGen := genAdvance k.spotGen }))
    let ws := (planWicks p).filter (fun w => w / 64 == sc)
    if ws = [] ∨ v.toNat % 2 ^ spotRate s p sc ≠ 0 then s
    else
      let w := ws.getD (v.toNat / 2 ^ 20 % ws.length) 0
      let (x, s) := draw s
      match sparesOf s sc, (s.sconce sc).spot with
      | sp :: _, none =>
        compareSpot s sc { wick := w, spare := sp, copied := true, outputs := x.toNat % 2 ^ 32, fault := false }
      | _, _ =>
        logErr (bump s (rk (pSCN sc) 0x130) 32 1) (pSCN sc) 1
          { status := stUncorr, island := some (BitVec.ofNat 8 sc), ctx := some p.ctx, part := some p.part, info := w }

/-- The start of an instance: claimed local counters read 0, the wicks are set, the draws of a checked step made. -/
def serviceStart (s : State) (h : Nat) (p : Plan) : State :=
  let s := (planWicks p).foldl (setupWick p h []) (zeroCounters s p.claims false)
  if (stepOf p).any (·.spot) then (spotSconces p).foldl (serviceSpot p) s else s

/-- A PLAN_RETIRE that waited for the instance goes on. -/
def serviceFree (s : State) (h : Nat) : State :=
  match (s.plan h).bind (·.retire) with
  | some r => freePlan s h (some r)
  | none => s

/-- An instance waits at its step's gate: its command stays at the front of its queue. -/
def serviceWait (s : State) (c : Cmd) (h : Nat) (p : Plan) : State :=
  match stepOf p with
  | none => s
  | some st =>
    let s := s.setQueue c.q (fun k => { k with
      active := k.active.filter (fun a => a.idx ≠ c.idx), fetched := ⟨c.idx, c.raw⟩ :: k.fetched })
    if st.gate && p.run == .idle && !decide (gateTarget p st ≤ hubGet s st.gateCounter.toNat) then
      addWait (s.setPlan h (fun p => { p with run := .gate, runner := some (c.q, c.idx) }))
        (.gate h, st.gateCounter.toNat, false, gateTarget p st)
    else s

/-- The end of an instance with a status. -/
def serviceEnd (s : State) (h : Nat) (p : Plan) (st : Status) : State :=
  let s := (dropWait s (.gate h)).setPlan h (fun p => { p with
    run := .idle, runner := none, runIndex := p.runIndex + 1, runs := p.runs + 1 })
  let s := serviceFree (bump s (rk pPLAN 0x148) 48 1) h
  if st ≠ 0 then detectPlan (logEvt s pPLAN 1) p st
  else match stepOf p with
    | some e => if e.post then sendCntAdd s e.postAgent p.part e.postCounter.toNat (BitVec.ofNat 64 e.postInc.toNat)
        (.post h) else s
    | none => s

/-- A service plan of a partition for a function. -/
def servicePlan (s : State) (part : BitVec 6) (h op : Nat) : Option Plan :=
  match s.plan h with
  | some p => if p.service ∧ p.part = part ∧ (p.retire = none ∨ p.run ≠ .idle) ∧ (stepOf p).map (·.serviceOp.toNat) = some op then some p
              else none
  | none => none

/-- Runs a function command as an instance of its plan. `work` gives the command's status and result. -/
def runService (c : Cmd) (h : Nat) (p : Plan) (work : Eng (Status × W64)) (s : State) : Option State :=
  match serviceReady s c p with
  | none => some (serviceWait s c h p)
  | some st =>
    if st ≠ 0 then some (endCmd (serviceEnd s h p st) c st 0)
    else match runEng work (serviceStart s h p) with
      | none => none
      | some (.ok (st, r), t) => some (endCmd (serviceEnd t h p st) c st r)
      | some (.error st, t) => some (endCmd (serviceEnd t h p st) c st 0)

/-! ### Structures (R284 to R288) -/

/-- A session header (R285). -/
structure KvHdr where
  layers : Nat
  heads  : Nat
  dim    : Nat
  fmt    : Nat
  levels : Nat
  spread : Nat
  base   : Nat
  ring   : Nat
  ringLen : Nat
  kscale : Nat
  vscale : Nat
deriving DecidableEq, Repr

/-- A session as a command finds it: its context entry, and its header. -/
structure Sess where
  ctx : BitVec 20
  cx  : Ctx
  hdr : KvHdr

def hdrOf (v : Nat) : KvHdr :=
  { layers := bits v 0 16, heads := bits v 16 8, dim := 64 * 2 ^ bits v 24 2, fmt := bits v 26 2,
    levels := bits v 28 2 + 1, spread := bits v 32 12, base := bits v 64 40, ring := bits v 128 56,
    ringLen := bits v 192 32, kscale := bits v 288 32, vscale := bits v 320 32 }

/-- What a header must be. -/
def hdrForm (v : Nat) : Bool :=
  let h := hdrOf v
  decide (1 ≤ h.layers ∧ h.layers ≤ 1024 ∧ 1 ≤ h.heads ∧ h.heads ≤ 64 ∧ h.dim ≤ 256 ∧ bits v 30 2 = 0 ∧
    bits v 44 20 = 0 ∧ bits v 104 24 = 0 ∧ bits v 184 8 = 0 ∧ h.ring % 64 = 0 ∧ bits v 352 160 = 0) &&
  (List.range 17).any (fun k => h.ringLen == 2 ^ k)

def kvHdrAt (cx : Ctx) : Nat := bits cx.data.toNat 0 56
/-- The attributes of accesses to a session's structures: the default key, mirrored if MIR is set. -/
def kvLeaf (cx : Ctx) : Nat × Leaf := (0, { plainLeaf cx.key with size := 2 ^ 57, m := bit cx.data.toNat 64 })

/-- The work engine for a session. -/
def kvWho (c : Cmd) (ctx : BitVec 20) (cx : Ctx) : Who := { c.who with eng := .work, ctx := ctx, part := cx.part }

/-- Reads and writes a session's structures by store address. -/
def kvGet (w : Who) (cx : Ctx) (sa n : Nat) : Eng Nat := do
  let d ← readPages w [kvLeaf cx] sa n
  return leNat d
def kvPut (w : Who) (cx : Ctx) (sa : Nat) (d : List Byte) : Eng Unit := writePages w [kvLeaf cx] sa d

/-- Ends an entry with a status and a record at a store address. -/
def kvFail {α : Type} (w : Who) (st : Status) (sa : Nat) : Eng α :=
  failLog st (fun s => logRecord s pWORK (w.fail st 2 sa))

/-- The session that a batch entry names, checked. -/
def openSession (c : Cmd) (ctx : BitVec 20) (layer : Nat) : Eng Sess := do
  let s ← get
  match ctxOf s ctx with
  | none => failLost s
  | some cx =>
    if cx.type ≠ 2 then failLost s
    let w := kvWho c ctx cx
    if cx.part ≠ c.part then failLog stPerm (fun s => logRecord s pWORK ({ c.who with ctx := ctx }.fail stPerm 0 0))
    let v ← kvGet w cx (kvHdrAt cx) 64
    if !hdrForm v ∨ (hdrOf v).layers ≤ layer then kvFail w stFormat (kvHdrAt cx)
    return { ctx := ctx, cx := cx, hdr := hdrOf v }
where
  failLost {α : Type} (_ : State) : Eng α :=
    failLog stSessionLost (fun s => logRecord (bump s (rk pWORK 0x630) 32 1) pWORK
      ({ c.who with ctx := ctx }.fail stSessionLost 0 0))

/-- The entry of a stream in the stream table (R286). -/
def streamAt (z : Sess) (layer h : Nat) : Nat := kvHdrAt z.cx + 64 + 16 * (layer * z.hdr.heads + h)

/-- LEN of a stream. -/
def streamLen (c : Cmd) (z : Sess) (layer h : Nat) : Eng Nat := do
  let v ← kvGet (kvWho c z.ctx z.cx) z.cx (streamAt z layer h + 8) 8
  return bits v 0 40

/-- Pages of a stream that its directory reaches (R287). -/
def kvReach (z : Sess) : Nat := 128 * 512 ^ (z.hdr.levels - 1)

/-- The node below an interior entry or a stream entry. -/
def kvNode (w : Who) (cx : Ctx) (ea : Nat) : Eng Nat := do
  let v ← kvGet w cx ea 8
  if !bit v 0 then kvFail w stXlate ea
  return bits v 12 44 * 4096

/-- The walk from a node `k` levels above the leaf to the leaf's entry of a page. -/
def kvWalk (w : Who) (cx : Ctx) (p : Nat) : Nat → Nat → Eng Nat
  | 0, node => return node + 32 * (p % 128)
  | k + 1, node => do
    let next ← kvNode w cx (node + 8 * (p / (128 * 512 ^ k) % 512))
    kvWalk w cx p k next

/-- Where the page entry of a stream's page lies. -/
def pageEntryAt (c : Cmd) (z : Sess) (layer h p : Nat) : Eng Nat := do
  let w := kvWho c z.ctx z.cx
  let top ← kvNode w z.cx (streamAt z layer h)
  kvWalk w z.cx p (z.hdr.levels - 1) top

/-- The page's DVA. -/
def entryDva (v : Nat) : Nat := bits v 12 45 * 4096

/-! ### The page spread (R290, R296) -/

/-- A plan's wicks in increasing id. -/
def spreadWicks (p : Plan) : List Nat := (planWicks p).foldl setInsert []

/-- The spread wick of a page. -/
def spreadWick (p : Plan) (z : Sess) (layer h pg : Nat) : Nat :=
  let ws := spreadWicks p
  ws.getD ((z.hdr.spread + layer * z.hdr.heads + pg * z.hdr.heads + h) % ws.length) 0

/-- An ATTEND service plan of a partition. -/
def attendPlan (s : State) (part : BitVec 6) (h : Nat) : Option Plan :=
  match servicePlan s part h 0x19 with
  | some p =>
    let scs := ((planWicks p).map (· / 64)).dedup
    if planWicks p ≠ [] ∧ (stepOf p).all (fun st => st.launchCount == 0 && st.streamCount == 0) ∧
        scs.all (fun sc => planHasChannel p sc 0 && planHasChannel p sc 1 &&
          (List.range 16).all (planHasLocal p sc)) ∧ p.claims.any (fun c => c.kind == 6) then some p
    else none
  | none => none

/-! ### APPEND (R291 to R295) -/

/-- Asks for the move of a page's blocks of this home into the sliver of its spread wick. -/
def spreadMove (s : State) (c : Cmd) (off n wick : Nat) : State :=
  (blocksOf off n).foldl (fun s b => (requestMove s b 0 (some wick) 2 (.advice c.q c.idx)).2) s

/-- Takes a spare page for a page entry (R294). -/
def takeSpare (c : Cmd) (z : Sess) (pl : Option Plan) (layer h pg ea ks vs : Nat) : Eng Nat := do
  let w := kvWho c z.ctx z.cx
  let hd := kvHdrAt z.cx
  let ht ← kvGet w z.cx (hd + 28) 8
  let head := bits ht 0 32
  if head = bits ht 32 32 then kvFail w stQuota hd
  let e ← kvGet w z.cx (z.hdr.ring + 8 * (head % z.hdr.ringLen)) 8
  kvPut w z.cx (hd + 28) (leBytes 4 (head + 1))
  let dva := bits e 12 45 * 4096
  kvPut w z.cx ea (leBytes 8 (1 + dva) ++ leBytes 4 ks ++ leBytes 4 vs ++ zeros 16)
  modify (fun s => bump s (rk pWORK 0x610) 32 1)
  match pl with
  | none => return dva
  | some p =>
    let n := kvPageBytes z.hdr.fmt z.hdr.dim
    let (base, leaf) ← translate w .l2 .write dva
    modify (fun s => match homeOffset s (saUnder base leaf dva) with
      | .ok off => spreadMove s c off n (spreadWick p z layer h pg)
      | .error _ => s)
    return dva

/-- Copies on write a shared page that an entry is about to write (R295); `start` is the entry's first token. -/
def copyOnWrite (c : Cmd) (z : Sess) (pl : Option Plan) (layer h pg ea v start : Nat) : Eng Unit := do
  let w := kvWho c z.ctx z.cx
  let hd := kvHdrAt z.cx
  let ht ← kvGet w z.cx (hd + 28) 8
  if bits ht 0 32 = bits ht 32 32 then kvFail w stQuota hd
  let ref := bits v 128 56
  let s ← get
  let old ← accessNow w (mkReq s 4 w.eng w.part w.ctx (kvLeaf z.cx).2 ref 20
    (leBytes 16 (2 ^ 64 - 1) ++ zeros 16))
  match leNat (old.take 8) with
  | 0 => kvFail w stFormat ref
  | 1 =>
    kvPut w z.cx ea (leBytes 8 (1 + entryDva v) ++ leBytes 8 (bits v 64 64) ++ zeros 16)
  | _ =>
    let dva ← takeSpare c z pl layer h pg ea (bits v 64 32) (bits v 96 32)
    let rows := if start / 128 = pg then start % 128 else 0
    let rb := kvRowBytes z.hdr.fmt z.hdr.dim
    let k ← readDva w .l2 (entryDva v) (rows * rb)
    let u ← readDva w .l2 (entryDva v + 128 * rb) (rows * rb)
    writeDva w .l2 dva k
    writeDva w .l2 (dva + 128 * rb) u
    modify (fun s => bump s (rk pWORK 0x608) 32 1)

/-- A row of the source in the session's format, and the generator after it. -/
def kvConvert (fmt : Nat) (bf16 stoch : Bool) (g : W32) (scale dim : Nat) (src : List Byte) : List Byte × W32 :=
  if !bf16 ∨ fmt = 0 then (src, g)
  else
    let vs := rowVals 1 src dim
    rowOut (kvFmt fmt) stoch true g (if fmt = 3 then vs else vs.map (fun v => fquot v (f32 scale)))

/-- Reads from an address with a space, 1 Reservoir or 2 store. -/
def readSpace (w : Who) (v n : Nat) : Eng (List Byte) :=
  if inReservoir v then readRsv w (spaceAddr v) n else readDva w .l2 (spaceAddr v) n

/-- One entry of an APPEND: a batch entry as a number. -/
def appendEntry (c : Cmd) (pl : Option Plan) (bf16 stoch : Bool) (layer e : Nat) : Eng Unit := do
  let z ← openSession c (BitVec.ofNat 20 e) layer
  let w := kvWho c z.ctx z.cx
  let n := bits e 40 8
  let start := bits e 192 40
  let heads := z.hdr.heads
  if n = 0 ∨ bits e 20 12 ≠ 0 ∨ bits e 48 16 ≠ 0 ∨ bits e 232 24 ≠ 0 ∨ !spaceOk (bits e 64 64) ∨ !spaceOk (bits e 128 64)
    then failAt w stFormat 0 0
  (List.range heads).forM (fun h => do
    let len ← streamLen c z layer h
    if len < start ∨ kvReach z ≤ (start + n - 1) / 128 then kvFail w stFormat (streamAt z layer h))
  let pages := (List.range ((start + n - 1) / 128 - start / 128 + 1)).map (fun i => start / 128 + i)
  (List.range heads).forM (fun h => pages.forM (fun pg => do
    let ea ← pageEntryAt c z layer h pg
    let v ← kvGet w z.cx ea 32
    if !bit v 0 then
      let _ ← takeSpare c z pl layer h pg ea z.hdr.kscale z.hdr.vscale
    else if bit v 1 then copyOnWrite c z pl layer h pg ea v start))
  let rb := kvRowBytes z.hdr.fmt z.hdr.dim
  let sb := if bf16 then 2 * z.hdr.dim else rb
  let wc := { c.who with eng := .work }
  (List.range heads).forM (fun h => do
    let ks ← readSpace wc (bits e 64 64 + h * n * sb) (n * sb)
    let vs ← readSpace wc (bits e 128 64 + h * n * sb) (n * sb)
    (List.range n).forM (fun r => do
      let t := start + r
      let ea ← pageEntryAt c z layer h (t / 128)
      let v ← kvGet w z.cx ea 32
      let s ← get
      let (kr, g) := kvConvert z.hdr.fmt bf16 stoch (engGenOf s .work) (bits v 64 32) z.hdr.dim (slice ks (r * sb) sb)
      let (vr, g) := kvConvert z.hdr.fmt bf16 stoch g (bits v 96 32) z.hdr.dim (slice vs (r * sb) sb)
      modify (fun s => setEngGen s .work g)
      writeDva w .l2 (entryDva v + t % 128 * rb) kr
      writeDva w .l2 (entryDva v + 128 * rb + t % 128 * rb) vr))
  (List.range heads).forM (fun h => kvPut w z.cx (streamAt z layer h + 8) (leBytes 8 (start + n)))
  modify (fun s => bump s (rk pWORK 0x600) 32 1)

/-- Performs the entries of a batch in order, writing each one's STATUS: the first failure and how many failed. -/
def batchDo (c : Cmd) (dva n : Nat) (entry : Nat → Nat → Eng Unit) : Eng (Status × Nat) :=
  let w := { c.who with eng := .work }
  (List.range n).foldlM (fun (acc : Status × Nat) i => do
    let e ← readDva w .l2 (dva + 32 * i) 32
    let r ← attempt (entry i (leNat e))
    let st := match r with
      | .ok _ => stOK
      | .error st => st
    writeDva w .l2 (dva + 32 * i + 4) [st]
    return (if acc.1 = 0 then st else acc.1, acc.2 + (if st = 0 then 0 else 1))) (0, 0)

def execAppend (q : Nat) (e : W512) (s : State) : Host.Outcome State Fault Refusal :=
  cmdRow q e (opcodeOf e == 0x18) [(128, 8), (136, 2), (144, 10), (160, 32), (192, 57)] .work (fun c s =>
    let h := c.f 16 1
    let n := c.f 20 4
    let dva := c.f 24 8
    let pl := if h = 0xFF then none else attendPlan s c.part h
    if (h ≠ 0xFF ∧ pl = none) ∨ n = 0 ∨ 4096 < n ∨ dva % 64 ≠ 0 then some (failCmd s c stFormat)
    else match runEng (batchDo c dva n (fun _ => appendEntry c pl (bit (c.f 17 1) 0) (bit (c.f 17 1) 1) (c.f 18 2))) s with
      | none => none
      | some (.error st, t) => some (endCmd t c st 0)
      | some (.ok (st, k), t) => some (endCmd t c st (BitVec.ofNat 64 (sat16 k)))) s

/-! ### ATTEND (R297 to R305) -/

/-- The fields of an ATTEND command. -/
structure Attend where
  partials : Bool
  window   : Option Nat
  bias     : Option Nat
  layer    : Nat
  g        : Nat
  qfmt     : Nat
  ofmt     : Nat
  scale    : Nat
  cid      : Nat
  cen      : Bool

def attendOf (c : Cmd) : Attend :=
  let f := c.f 17 1
  { partials := bit f 0, window := if bit f 1 then some (c.f 28 4) else none,
    bias := if bit f 2 then some (c.f 48 8) else none, layer := c.f 18 2, g := c.f 20 1, qfmt := bits (c.f 21 1) 0 2,
    ofmt := bits (c.f 21 1) 2 2, scale := c.f 24 4, cid := bits (c.f 44 4) 0 17, cen := bit (c.f 44 4) 31 }

/-- The FP32 value nearest 1/√DIM. -/
def defaultScale (dim : Nat) : Nat := if dim = 64 then 0x3E000000 else if dim = 128 then 0x3DB504F3 else 0x3D800000

/-- Keys of a stream that take part, as a half-open range of token indexes (R299). -/
def keyRange (a : Attend) (base len qpos : Nat) : Nat × Nat :=
  let hi := min len (qpos + 1 - base)
  let lo := match a.window with
    | some wt => qpos + 1 - wt - base
    | none => 0
  (lo, if qpos < base then 0 else hi)

/-- One page's partials for the query heads of a KV head; none of its rows is counted but by its blocks. -/
def attendPage (c : Cmd) (p : Plan) (z : Sess) (a : Attend) (qs : List QueryHead) (h pg lo hi : Nat) :
    Eng (Nat × List Partial) := do
  let w := kvWho c z.ctx z.cx
  let ea ← pageEntryAt c z a.layer h pg
  let v ← kvGet w z.cx ea 32
  if !bit v 0 then kvFail w stXlate ea
  let n := kvPageBytes z.hdr.fmt z.hdr.dim
  let dva := entryDva v
  let ps ← translateAll w .l2 .read dva n
  let s ← get
  let (b0, l0) := pageFor ps dva
  let wick := spreadWick p z a.layer h pg
  match homeOffset s (saUnder b0 l0 dva) with
  | .error _ => kvFail w stFormat ea
  | .ok off =>
    let away := (blocksOf off n).any (fun b => match (blockGet s b).loc with
      | .stacked u _ => u != wick
      | _ => true)
    modify (fun s => countTile ps [(dva, n)] (bump s (rk pWORK 0x620) 48 1))
    if away then modify (fun s => bump s (rk pWORK 0x628) 48 1)
    let d ← readPages { w with tile := true } ps dva n
    let rb := kvRowBytes z.hdr.fmt z.hdr.dim
    return (wick, qs.map (fun q => kvPartial z.hdr.fmt z.hdr.dim q (bits v 64 32) (bits v 96 32) (z.hdr.base + 128 * pg)
      (fun j => decide (lo ≤ 128 * pg + j ∧ 128 * pg + j < hi)) (fun j => slice d (j * rb) rb)
      (fun j => slice d (128 * rb + j * rb) rb)))

/-- The partials of one query head, grouped by wick in the order in which each wick made them. -/
def wickRuns (dim : Nat) (l : List (Nat × Partial)) : List (Nat × Partial) :=
  l.foldl (fun acc e =>
    if acc.any (fun x => x.1 == e.1) then acc.map (fun x => if x.1 = e.1 then (x.1, kvMerge x.2 e.2) else x)
    else acc ++ [(e.1, kvMerge (Partial.empty dim) e.2)]) []

/-- Wicks merge in their sconce, sconces on the hub, in orders that `seed` names. -/
def hubMerge (dim : Nat) (l : List (Nat × Partial)) (seed : Nat) : Partial × Nat :=
  let ws := wickRuns dim l
  let scs := (ws.map (·.1 / 64)).dedup
  let (ps, seed) := scs.foldl (fun (acc : List Partial × Nat) sc =>
    let mine := (ws.filter (fun e => e.1 / 64 == sc)).map (·.2)
    let (x, seed) := kvMergeAll dim mine.length acc.2 mine
    (acc.1 ++ [x], seed)) ([], seed)
  kvMergeAll dim ps.length seed ps

/-- One entry of an ATTEND. `ref` is the DIM and KV_HEADS that every session of the batch must have. -/
def attendEntry (c : Cmd) (p : Plan) (a : Attend) (ref : Nat × Nat) (seed e : Nat) : Eng Unit := do
  let z ← openSession c (BitVec.ofNat 20 e) a.layer
  let w := { c.who with eng := .work }
  let dst := bits e 128 64
  let dstOk := spaceOk dst || (bits dst 60 4 == 3 && bits dst 58 2 == 0)
  if bits e 20 12 ≠ 0 ∨ bits e 40 24 ≠ 0 ∨ bits e 232 24 ≠ 0 ∨ !spaceOk (bits e 64 64) ∨ !dstOk ∨
      (z.hdr.dim, z.hdr.heads) ≠ ref then failAt w stFormat 0 0
  let dim := z.hdr.dim
  let qpos := bits e 192 40
  let n := z.hdr.heads * a.g
  let qb := if a.qfmt = 0 then 4 else 2
  let slopes ← match a.bias with
    | some d => do
      let b ← readDva w .l2 d (4 * n)
      pure ((List.range n).map (fun i => some (leNat (slice b (4 * i) 4))))
    | none => pure (List.replicate n none)
  let qd ← readSpace w (bits e 64 64) (n * dim * qb)
  let cs := if a.scale % 0x80000000 = 0 then defaultScale dim else a.scale
  let heads ← (List.range n).mapM (fun i => do
    let s ← get
    let (fr, s) := draw s
    set s
    let vs := rowVals (if a.qfmt = 0 then 0 else 1) (slice qd (i * dim * qb) (dim * qb)) dim
    let (x, sc) := kvQuery z.hdr.fmt (fr.toNat % 2 ^ 32) vs
    pure ({ q := x, cq := f32Code (fmul (f32 cs) sc), slope := slopes.getD i none, qpos := qpos } : QueryHead))
  let parts ← (List.range z.hdr.heads).mapM (fun h => do
    let len ← streamLen c z a.layer h
    let (lo, hi) := keyRange a z.hdr.base len qpos
    let pages := if hi ≤ lo then [] else (List.range ((hi - 1) / 128 - lo / 128 + 1)).map (fun i => lo / 128 + i)
    let qs := (heads.drop (h * a.g)).take a.g
    pages.mapM (fun pg => do
      if kvReach z ≤ pg then kvFail (kvWho c z.ctx z.cx) stXlate (streamAt z a.layer h)
      attendPage c p z a qs h pg lo hi))
  let (out, _) := (List.range n).foldl (fun (acc : List Byte × Nat) i =>
    let l := (parts.getD (i / a.g) []).map (fun e => (e.1, e.2.getD (i % a.g) (Partial.empty dim)))
    let (x, seed) := hubMerge dim l acc.2
    (acc.1 ++ kvOutput a.partials (a.ofmt == 1) x, seed)) ([], seed)
  putBytes w .l2 dst out a.cid a.cen
  modify (fun s => bump s (rk pWORK 0x618) 32 1)

/-- DIM and KV_HEADS of the first session of a batch that has a readable header, without counting or recording
anything. -/
def batchShape (s : State) (c : Cmd) (layer dva : Nat) : Nat → Nat → Option (Nat × Nat)
  | 0, _ => none
  | k + 1, i =>
    match runEng (do
        let e ← readDva { c.who with eng := .work } .l2 (dva + 32 * i) 32
        openSession c (BitVec.ofNat 20 (leNat e)) layer) s with
    | some (.ok z, _) => some (z.hdr.dim, z.hdr.heads)
    | _ => batchShape s c layer dva k (i + 1)

/-- The command's fields, and the plan's Reservoir claim. -/
def attendForm (c : Cmd) (p : Plan) (a : Attend) (ref : Option (Nat × Nat)) : Bool :=
  let n := c.f 40 4
  decide (1 ≤ a.g ∧ a.g ≤ 16 ∧ a.qfmt < 2 ∧ a.ofmt < 2 ∧ a.window ≠ some 0 ∧ 1 ≤ n ∧ n ≤ 4096 ∧ c.f 32 8 % 64 = 0) &&
  (match ref with
    | some (dim, heads) => p.claims.any (fun k => k.kind == 6 &&
        decide (n * heads * a.g * (16 + 4 * dim) ≤ k.b.toNat))
    | none => true)

def execAttend (q : Nat) (e : W512) (mergeSeed : Nat) (s : State) : Host.Outcome State Fault Refusal :=
  cmdRow q e (opcodeOf e == 0x19) [(128, 8), (136, 3), (144, 10), (160, 8), (168, 4), (192, 32), (224, 32), (256, 57),
      (320, 32), (352, 17), (383, 1), (384, 57)] .work (fun c s =>
    let a := attendOf c
    match attendPlan s c.part (c.f 16 1) with
    | none => some (failCmd s c stFormat)
    | some p =>
      let ref := batchShape s c a.layer (c.f 32 8) (c.f 40 4) 0
      if !attendForm c p a ref then some (failCmd s c stFormat)
      else runService c (c.f 16 1) p (do
        let (st, _) ← batchDo c (c.f 32 8) (c.f 40 4) (fun i => attendEntry c p a (ref.getD (0, 0)) (mergeSeed + i))
        return (st, 0)) s) s

end Sys2Proof.Machine
end

