-- ==== Sys2Proof/Machine/EmbRows.lean ====
section
/-! DEFINITION. Rows of embedding tables: entries, layouts, the row cache with its moves, the sketch (11 R310 to R319). -/
namespace Sys2Proof.Machine

/-! ### Row layouts (R312, R313) -/

/-- Bytes of a row of a class: 0 FP32, 1 BF16, 2 FP8 E4M3 with a scale, 3 SB4. -/
def rowLen (cls dim : Nat) : Nat :=
  if cls = 0 then 4 * dim else if cls = 1 then 2 * dim else if cls = 2 then 4 + dim else 17 * (dim / 32)

/-- A row widened to FP32 codes (R326). -/
def widenRow (cls dim : Nat) (d : List Byte) : List Nat :=
  match cls with
  | 0 => (List.range dim).map (fun i => leNat (slice d (4 * i) 4))
  | 1 => (rowVals 1 d dim).map f32Code
  | 2 => (rowVals 3 (d.drop 4) dim).map (fun v => (f32Mul (f32Code v) (leNat (d.take 4))).1)
  | _ => (rowVals 7 d dim).map f32Code

/-- FP32 codes narrowed to a row of a class (R327), and the generator after it. For a row that is not finite no scale
exponent exists: `fr` stands for its scale. -/
def narrowRow (cls fr : Nat) (stoch : Bool) (g : W32) (xs : List Nat) : List Byte × W32 :=
  let vs := xs.map f32
  match cls with
  | 0 => ((xs.map (leBytes 4)).flatten, g)
  | 1 => rowOut 1 stoch true g vs
  | 2 =>
    let sc := if vs.any notFinite then fr % 2 ^ 32 else f32Code (.fin false 1 (scaleExp 448 (amaxOf vs)))
    let (d, g) := rowOut 3 stoch true g (vs.map (fun v => fquot v (f32 sc)))
    (leBytes 4 sc ++ d, g)
  | _ => rowOut 7 stoch true g vs

/-! ### Directory entries (R312, R314) -/

def entV (e : Nat) : Bool := bit e 0
def entClass (e : Nat) : Nat := bits e 1 2
def entWhere (e : Nat) : Nat := bits e 3 2
def entLoc (e : Nat) : Nat := bits e 8 56

/-- The layout of an entry with V set, CACHE entries aside. -/
def entForm (s : State) (e : Nat) : Bool :=
  decide (bits e 5 3 = 0 ∧ entLoc e % 16 = 0 ∧ entWhere e ≠ 3) &&
  (entWhere e != 0 || decide (entLoc e / 2 ^ 50 = s.store.homeId.toNat))

/-- The work engine in a table's context. -/
def embWho (c : Cmd) (t : Table) : Who := { c.who with eng := .work, part := t.part, ctx := t.ctx }

def dirAt (t : Table) (u : Nat) : Nat := t.dir + 8 * u

/-- Key selector of a table's rows and slots: its context's default (03 R69). -/
def tableKey (s : State) (t : Table) : BitVec 12 := ((ctxOf s t.ctx).map (·.key)).getD 0
def tableLeaf (s : State) (t : Table) : Nat × Leaf := (0, { plainLeaf (tableKey s t) with size := 2 ^ 57 })

/-! ### The row cache (R315, R316) -/

/-- Offset in the home's range at which the pool lies for the key engine. -/
abbrev poolBase : Nat := 2 ^ 49

def slotBytes (t : Table) : Nat := (rowLen t.cacheMax.toNat t.dim + 8 + 63) / 64 * 64
def setBytes (t : Table) : Nat := 64 + 8 * slotBytes t
def regionBytes (t : Table) : Nat := t.sets * setBytes t

/-- The only set in which a row may be cached. -/
def setOf (t : Table) (u : Nat) : Nat := bits (u * t.mult.toNat % 2 ^ 64) 32 32 % t.sets

/-- Pool offsets of a way's tag and of its slot. -/
def tagAt (t : Table) (set way : Nat) : Nat := t.base + set * setBytes t + 8 * way
def slotAt (t : Table) (set way : Nat) : Nat := t.base + set * setBytes t + 64 + slotBytes t * way

/-- Pool bytes as they read, and a write of them. -/
def poolGet (s : State) (t : Table) (off n : Nat) : List Byte := homeBytes s (tableKey s t) (poolBase + off) n
def poolPut (s : State) (t : Table) (off : Nat) (d : List Byte) : State := homeWrite s (tableKey s t) (poolBase + off) d

/-- Pool bytes can be read: the key serves the partition and no line fails. -/
def poolOk (s : State) (t : Table) (off n : Nat) : Bool :=
  keyOk s (tableKey s t) t.part && (readBadLine s (poolBase + off) n).isNone

def tagGet (s : State) (t : Table) (set way : Nat) : Nat := leNat (poolGet s t (tagAt t set way) 8)
def tagSet (s : State) (t : Table) (set way v : Nat) : State := poolPut s t (tagAt t set way) (leBytes 8 v)
def tagRow (v : Nat) : Nat := bits v 0 40
def tagV (v : Nat) : Bool := bit v 40
def tagDirty (v : Nat) : Bool := bit v 41
def wayTag (u : Nat) (dirty moving : Bool) : Nat := u + 2 ^ 40 + 2 ^ 41 * b2n dirty + 2 ^ 42 * b2n moving

/-- The way of a row whose entry names a pool offset, if the slot there is tagged with the row. -/
def cachedWay (s : State) (t : Table) (u loc : Nat) : Option Nat :=
  if t.sets = 0 then none
  else (List.range 8).find? (fun k => slotAt t (setOf t u) k == loc && tagV (tagGet s t (setOf t u) k) &&
    tagRow (tagGet s t (setOf t u) k) == u)

/-- The entry kept in a slot: the one that the row had before it was cached. -/
def homeEntry (s : State) (t : Table) (set way : Nat) : Nat :=
  leNat (poolGet s t (slotAt t set way + slotBytes t - 8) 8)

/-! ### The sketch (R317) -/

def sketchKey (s : State) (k key : Nat) : Nat :=
  2 ^ 24 * k + bits (key * (s.emb.mults.getD k 1).toNat % 2 ^ 64) 40 24

/-- A row's estimate: the least of its four counters. -/
def estimate (s : State) (t u : Nat) : Nat :=
  let key := t * 2 ^ 40 + u
  (List.range 4).foldl (fun m k => min m (tget 0 s.emb.sketch (sketchKey s k key)).toNat) 15

/-- One lookup: its four counters gain 1, saturating, and every 2^26 lookups all counters are halved. -/
def lookup (s : State) (t u : Nat) : State :=
  let key := t * 2 ^ 40 + u
  let gain (v : BitVec 4) : BitVec 4 := if v = 15 then v else v + 1
  let s := (List.range 4).foldl (fun s k =>
    s.setEmb (fun m => { m with sketch := tmod 0 m.sketch (sketchKey s k key) gain })) s
  let halved : NatMap (BitVec 4) :=
    (s.emb.sketch.map (fun (e : Nat × BitVec 4) => (e.1, e.2.ushiftRight 1))).filter (fun e => e.2 ≠ 0)
  bump (s.setEmb (fun m =>
    if m.lookups + 1 = 0 then { m with lookups := 0, epoch := m.epoch + 1, aborts := [], sketch := halved }
    else { m with lookups := m.lookups + 1 })) (rk pWORK 0x680) 48 1

/-! ### Pending moves (R318, R319) -/

def abortCount (s : State) (t u : Nat) : Nat :=
  ((s.emb.aborts.find? (fun e => e.1 = t ∧ e.2.1 = u)).map (·.2.2)).getD 0

/-- A move is aborted: its way is free of it, and its row's third abort in a decay period gives it up. -/
def abortRowMove (s : State) (m : RowMove) : State :=
  let s := match tfind s.emb.tables m.table with
    | some t =>
      let set := setOf t m.row
      let v := tagGet s t set m.way
      if m.victim.isSome then tagSet s t set m.way (wayTag (tagRow v) (tagDirty v) false) else tagSet s t set m.way 0
    | none => s
  let n := abortCount s m.table m.row + 1
  let moves := s.emb.moves.filter (fun x => ¬ (x.table = m.table ∧ x.row = m.row))
  let aborts := s.emb.aborts.filter (fun x => ¬ (x.1 = m.table ∧ x.2.1 = m.row)) ++ [(m.table, m.row, n)]
  let s := s.setEmb (fun e => { e with moves := moves, aborts := aborts })
  let s := bump s (rk pWORK 0x6A0) 32 1
  if n = 3 then bump s (rk pWORK 0x6A8) 32 1 else s

/-- An update to a row aborts the move of that row and the move that would displace it. -/
def abortFor (s : State) (t u : Nat) : State :=
  (s.emb.moves.filter (fun m => m.table = t ∧ (m.row = u ∨ m.victim = some u))).foldl abortRowMove s

/-- A row that was fetched in time and without failure may become a pending fill. -/
def candidate (s : State) (id : Nat) (t : Table) (u e0 : Nat) (data : List Byte) : State :=
  if t.sets = 0 ∨ entWhere e0 = 1 ∨ entClass e0 < t.cacheMax.toNat ∨ 1024 ≤ s.emb.moves.length ∨
      s.emb.moves.any (fun m => m.table = id ∧ m.row = u) ∨ 3 ≤ abortCount s id u ∨
      !poolOk s t (tagAt t (setOf t u) 0) 64 then s
  else
    let set := setOf t u
    let pendingWay (k : Nat) : Bool :=
      s.emb.moves.any (fun m => m.table = id ∧ setOf t m.row = set ∧ m.way = k)
    let tags := (List.range 8).map (tagGet s t set)
    let add (s : State) (k : Nat) (victim : Option Nat) (tag : Nat) : State :=
      (tagSet s t set k tag).setEmb (fun m => { m with
        moves := m.moves ++ [{ table := id, row := u, way := k, victim := victim, e0 := BitVec.ofNat 64 e0, data := data }] })
    match (List.range 8).find? (fun k => !tagV (tags.getD k 0) && !pendingWay k) with
    | some k => add s k none (2 ^ 42)
    | none =>
      let est (k : Nat) : Nat := estimate s id (tagRow (tags.getD k 0))
      match ((List.range 8).filter (fun k => !pendingWay k)).foldl (fun (b : Option Nat) k =>
          match b with
          | none => some k
          | some j => if est k < est j then some k else some j) none with
      | some k =>
        let v := tags.getD k 0
        if est k < estimate s id u then add s k (some (tagRow v)) (wayTag (tagRow v) (tagDirty v) true) else s
      | none => s

/-! ### Reading and writing a row (R314, R323) -/

/-- Records a failing row at a store address and ends with the status. -/
def rowFail {α : Type} (w : Who) (st : Status) (sa : Nat) : Eng α := kvFail w st sa

/-- Reads a row's directory entry and checks it. -/
def rowEntry (w : Who) (t : Table) (u : Nat) : Eng Nat := do
  let d ← readDva w .l2 (dirAt t u) 8
  let e := leNat d
  let s ← get
  if !entV e then failLog stXlate (fun s => logRecord s pWORK (w.fail stXlate 1 (dirAt t u)))
  if !entForm s e ∨ (entWhere e = 1 ∧ (cachedWay s t u (entLoc e)).isNone) then
    failLog stFormat (fun s => logRecord s pWORK (w.fail stFormat 1 (dirAt t u)))
  return e

/-- This controller's host link serves the host of a composition. -/
def hostServes (s : State) (comp : Nat) : Bool := routeLocal (routeGet s.xbar.routeCur (s.comp comp).host)

/-- The slot of a cached row can be used. -/
def slotOk (w : Who) (t : Table) (off n : Nat) : Eng Unit := do
  let s ← get
  if !keyOk s (tableKey s t) t.part then
    failLog stKey (fun s => logErr s pKEY 1 (w.fail stKey 2 (poolBase + off)))
  match readBadLine s (poolBase + off) n with
  | some l => failLog stUncorr (fun s => logRecord s pWORK (w.fail stUncorr 2 (64 * l)))
  | none => return

/-- The bytes of a row of a class at a location. -/
def rowRead (w : Who) (t : Table) (comp : Nat) (hc : HostCpl) (wh cls loc u : Nat) : Eng (List Byte) := do
  let n := rowLen cls t.dim
  let s ← get
  match wh with
  | 0 => readPages w [tableLeaf s t] loc n
  | 1 =>
    slotOk w t loc n
    return poolGet s t loc n
  | _ =>
    if !hostServes s comp then failLog stPerm (fun s => logRecord s pWORK (w.fail stPerm 1 (dirAt t u)))
    readHost w hc loc n

/-- Writes a row at a location; a cached row's slot becomes dirty. -/
def rowWrite (w : Who) (t : Table) (comp : Nat) (hc : HostCpl) (wh loc u : Nat) (d : List Byte) : Eng Unit := do
  let s ← get
  match wh with
  | 0 => writePages w [tableLeaf s t] loc d
  | 1 =>
    slotOk w t loc d.length
    match cachedWay s t u loc with
    | some k =>
      let v := tagGet s t (setOf t u) k
      set (tagSet (poolPut s t loc d) t (setOf t u) k (wayTag u true (bit v 42)))
    | none => return
  | _ =>
    if !hostServes s comp then failLog stPerm (fun s => logRecord s pWORK (w.fail stPerm 1 (dirAt t u)))
    writeHost w hc loc d

/-- The directory entry flips by one 8 B compare-and-swap: whether it did. -/
def flipEntry (w : Who) (t : Table) (u e0 e1 : Nat) : Eng Bool := do
  let old ← atomicDva w .l2 (dirAt t u) 7 e0 e1
  return old == e0

/-- The entry of a cached row. -/
def cacheEntry (cls loc : Nat) : Nat := 1 + 2 * cls + 8 + 2 ^ 8 * loc

/-- Evicts the row of a way: written back if dirty, its entry flipped to the home entry, its slot freed. Whether the
entry flipped. -/
def evictWay (w : Who) (t : Table) (comp : Nat) (hc : HostCpl) (set way : Nat) : Eng Bool := do
  slotOk w t (tagAt t set way) 8
  let s ← get
  let v := tagGet s t set way
  let loc := slotAt t set way
  slotOk w t loc (slotBytes t)
  let h := homeEntry s t set way
  let u := tagRow v
  if tagDirty v then
    let d ← rowRead w t comp hc 1 (entClass h) loc u
    rowWrite w t comp hc (entWhere h) (entLoc h) u d
  let ok ← flipEntry w t u (cacheEntry (entClass h) loc) h
  modify (fun s => bump (tagSet s t set way 0) (rk pWORK 0x698) 32 1)
  return ok

/-- A pending fill runs: the victim's eviction, the slot, the flip. -/
def fillWay (w : Who) (t : Table) (comp : Nat) (hc : HostCpl) (m : RowMove) : Eng Bool := do
  let set := setOf t m.row
  if m.victim.isSome then
    let ok ← evictWay w t comp hc set m.way
    if !ok then return false
  let loc := slotAt t set m.way
  let e0 := m.e0.toNat
  slotOk w t (tagAt t set m.way) 8
  modify (fun s => poolPut (poolPut s t loc m.data) t (loc + slotBytes t - 8) (leBytes 8 e0))
  let ok ← flipEntry w t m.row e0 (cacheEntry (entClass e0) loc)
  modify (fun s => if ok then bump (tagSet s t set m.way (wayTag m.row false false)) (rk pWORK 0x690) 32 1
    else tagSet s t set m.way 0)
  return ok

/-- A pending move runs in the migration share. -/
def runRowMove (s : State) (id : Nat) (t : Table) (m : RowMove) (hc : HostCpl) : State :=
  let w : Who := { eng := .work, part := t.part, ctx := t.ctx }
  let comp := ((s.work.comps.find? (fun e => e.2.state = 1 ∧ e.2.part = t.part ∧ hostServes s e.1)).map (·.1)).getD 0
  let drop (s : State) : State :=
    s.setEmb (fun e => { e with moves := e.moves.filter (fun x => ¬ (x.table = id ∧ x.row = m.row)) })
  match runEng (fillWay w t comp hc m) s with
  | none => s
  | some (.ok true, u) => drop u
  | some (.ok false, u) => bump (drop u) (rk pWORK 0x6A0) 32 1
  | some (.error _, u) => abortRowMove (keepLogs s u) m

def execRowMove (t u : Nat) (hc : HostCpl) (s : State) : Host.Outcome State Fault Refusal :=
  .next (match tfind s.emb.tables t, s.emb.moves.find? (fun m => m.table = t ∧ m.row = u) with
    | some tb, some m => if migShare s = 0 then s else runRowMove s t tb m hc
    | _, _ => s)

end Sys2Proof.Machine
end

