-- ==== Sys2Proof/Machine/Emb.lean ====
section
/-! DEFINITION. The EMBED commands: tables, GATHER, POOL, SCATTER_ADD, UPDATE_ROW (11 R320 to R331). -/
namespace Sys2Proof.Machine

/-! ### Arguments (R320 to R322) -/

/-- An EMBED service plan of a partition. -/
def embedPlan (s : State) (part : BitVec 6) (h : Nat) : Option Plan :=
  match servicePlan s part h 0x1A with
  | some p =>
    if (stepOf p).all (fun st => st.launchCount == 0 && st.streamCount == 0) ∧ p.claims.any (fun c => c.kind == 10) ∧
        p.claims.any (fun c => c.kind == 6 && decide (0x800000 ≤ c.b.toNat)) then some p else none
  | none => none

/-- An argument block (R322) as a number. -/
structure EmbArgs where
  count   : Nat
  bags    : Nat
  unique  : Bool
  stoch   : Bool
  adagrad : Bool
  perBag  : Bool
  counts  : Bool
  pool    : Nat
  fmt     : Nat
  swz     : Nat
  deadline : Nat
  scale   : Nat
  indices : Nat
  offsets : Nat
  weights : Nat
  data    : Nat
  out     : Nat
  stride  : Nat
  cid     : Nat
  cen     : Bool
  miss    : Nat
  inverse : Nat
  countsOut : Nat

def embArgs (v : Nat) : EmbArgs :=
  let f := fun (i n : Nat) => bits v (8 * i) (8 * n)
  { count := f 0 4, bags := f 4 4, unique := bit v 64, stoch := bit v 65, adagrad := bit v 66, perBag := bit v 67,
    counts := bit v 68, pool := bits v 72 2, fmt := bits v 74 2, swz := bits v 76 3, deadline := f 10 1,
    scale := f 12 4, indices := f 16 8, offsets := f 24 8, weights := f 32 8, data := f 40 8, out := f 48 8,
    stride := f 56 4, cid := bits (f 60 4) 0 17, cen := bit (f 60 4) 31, miss := f 64 8, inverse := f 72 8,
    countsOut := f 80 8 }

/-- Reserved bits and DVA ranges that hold for every operation. -/
def argsBase (v : Nat) : Bool :=
  let a := embArgs v
  decide (1 ≤ a.count ∧ a.count ≤ 1048576 ∧ a.bags ≤ 1048576 ∧ bits v 69 3 = 0 ∧ bit v 79 = false ∧ a.fmt < 2 ∧
    a.swz < 3 ∧ bits v 88 8 = 0 ∧ bits v 497 14 = 0 ∧ bits v 704 320 = 0) &&
  [a.indices, a.offsets, a.weights, a.miss, a.inverse, a.countsOut].all (fun d => decide (d < 2 ^ 57))

/-- The destination and its tiles: an address of a space, the swizzle of whole rows. -/
def outForm (a : EmbArgs) (dim : Nat) : Bool :=
  let row := dim * (if a.fmt = 0 then 4 else 2)
  let sp := bits a.out 60 4
  decide (sp < 4 ∧ bits a.out 0 60 < 2 ^ (if sp = 0 then 29 else if sp = 1 then 27 else if sp = 2 then 57 else 58)) &&
  (a.swz == 0 || row % (8 * swzChunk a.swz) == 0)

/-- The deadline that a GATHER or POOL names is in the plan, and one that gives rows up has MISS. -/
def deadlineOk (p : Plan) (a : EmbArgs) : Bool :=
  a.deadline == 0xFF || (decide (a.deadline < p.deadlines.length) &&
    (bits (p.deadlines.getD a.deadline 0).toNat 16 2 == 0 || a.miss != 0))

/-- What the argument block of an operation must be: used fields in range, unused ones 0. -/
def argsForm (op : Nat) (p : Plan) (t : Table) (v : Nat) : Bool :=
  let a := embArgs v
  argsBase v &&
  match op with
  | 1 => a.bags == 0 && !a.stoch && !a.adagrad && !a.perBag && decide (a.pool = 0 ∧ a.scale = 0 ∧ a.offsets = 0 ∧
      a.weights = 0 ∧ a.data = 0) && (a.unique || a.inverse == 0) && (a.counts || a.countsOut == 0) && deadlineOk p a &&
      outForm a t.dim
  | 2 => !a.unique && !a.stoch && !a.adagrad && !a.perBag && !a.counts && decide (a.scale = 0 ∧ a.data = 0 ∧
      a.inverse = 0 ∧ a.countsOut = 0) && (a.pool == 2 || a.weights == 0) && deadlineOk p a && outForm a t.dim
  | 3 => !a.unique && !a.counts && decide (a.deadline = 0xFF ∧ a.swz = 0 ∧ a.out = 0 ∧ a.stride = 0 ∧
      bits v 480 32 = 0 ∧ a.miss = 0 ∧ a.inverse = 0 ∧ a.countsOut = 0) && spaceOk a.data &&
      (!a.adagrad || t.adagrad) &&
      (if a.perBag then a.pool != 3 && (a.pool == 2 || a.weights == 0)
       else decide (a.bags = 0 ∧ a.pool = 0 ∧ a.offsets = 0 ∧ a.weights = 0))
  | _ => decide (bits v 64 16 = 0 ∧ a.bags = 0 ∧ a.deadline = 0xFF ∧ a.scale = 0 ∧ a.indices = 0 ∧ a.offsets = 0 ∧
      a.weights = 0 ∧ a.out = 0 ∧ a.stride = 0 ∧ bits v 480 32 = 0 ∧ a.miss = 0 ∧ a.inverse = 0 ∧ a.countsOut = 0) &&
      spaceOk a.data

/-- The alignments of R322. -/
def argsAlign (a : EmbArgs) : Bool :=
  decide (a.indices % 8 = 0 ∧ a.offsets % 4 = 0 ∧ a.weights % 4 = 0 ∧ a.data % 16 = 0 ∧ a.miss % 8 = 0)

/-- OFFSETS: 0 first, non-decreasing, COUNT last. -/
def offsetsForm (o : List Nat) (count : Nat) : Bool :=
  o.head? == some 0 && o.getLast? == some count && decide (o.Pairwise (· ≤ ·))

/-- Reads 4 B values. -/
def read4 (w : Who) (dva n : Nat) : Eng (List Nat) := do
  let d ← readDva w .l2 dva (4 * n)
  return nums 4 d

/-- The local row of an index of a table's shard. -/
def localRow (t : Table) (i : Nat) : Option Nat :=
  let r := bits i 0 40
  if bits i 40 24 = 0 ∧ r % t.shards = t.shard ∧ r / t.shards < t.rows then some (r / t.shards) else none

/-- Every index is one of the shard's, or the command fails with the address of the first that is not. -/
def localRows (w : Who) (t : Table) (is : List Nat) (addr : Nat → Nat) : Eng (List Nat) :=
  is.zipIdx.mapM (fun e => match localRow t e.1 with
    | some u => pure u
    | none => failAt w stFormat 1 (addr e.2))

/-- Distinct values in the order of their first occurrence. -/
def distinct (l : List Nat) : List Nat := l.foldl (fun acc x => if acc.contains x then acc else acc ++ [x]) []

/-! ### Fetching rows (R323, R324) -/

/-- A row as fetched: its entry, its values, whether a shadow gave them. -/
structure Fetched where
  entry  : Nat
  vals   : List Nat
  shadow : Bool

/-- A late row's values from its block's fresh shadow, if that may serve it. -/
def shadowRow (s : State) (t : Table) (e : Nat) : Option (List Nat) :=
  let cls := entClass e
  let b := if cls = 0 then 4 else 2
  let loc := entLoc e
  match homeOffset s loc with
  | .error _ => none
  | .ok off =>
    if entWhere e ≠ 0 ∨ 2 ≤ cls ∨ loc % 65536 / b % 32 ≠ 0 ∨
        !(blocksOf off (rowLen cls t.dim)).all (fun k => freshShadow s k cls) then none
    else some ((List.range t.dim).map (fun i =>
      f32Code (shadowElem s ((off + b * i) / 65536) ((off + b * i) % 65536 / b))))

/-- One distinct row: its lookup, its entry, its bytes. `late` says that its budget expired under the fallback. -/
def fetchRow (c : Cmd) (id : Nat) (t : Table) (comp : Nat) (hc : HostCpl) (late : Option Nat) (u : Nat) : Eng Fetched := do
  let w := embWho c t
  modify (fun s => lookup s id u)
  let e ← rowEntry w t u
  if entWhere e = 1 then modify (fun s => bump s (rk pWORK 0x688) 48 1)
  let s ← get
  let isLate : Option Nat := if entWhere e = 1 then none else late
  if isLate.isSome then modify (fun s => bump s (rk pWORK 0x6B0) 32 1)
  if isLate = some 1 ∨ isLate = some 2 then
    match (if isLate = some 1 then shadowRow s t e else none) with
    | some vs =>
      modify (fun s => bump s (rk pWORK 0x6B8) 32 1)
      return { entry := e, vals := vs, shadow := true }
    | none => rowFail w stDeadline (entLoc e)
  else
    let d ← rowRead w t comp hc (entWhere e) (entClass e) (entLoc e) u
    if isLate.isNone then modify (fun s => candidate s id t u e d)
    return { entry := e, vals := widenRow (entClass e) t.dim d, shadow := false }

/-- Every distinct row: its estimate right after its lookup (R317), and its bytes or the status with which it failed. -/
def fetchRows (c : Cmd) (id : Nat) (t : Table) (p : Plan) (a : EmbArgs) (late : List Nat) (hc : HostCpl)
    (us : List Nat) : Eng (List (Nat × Nat × Except Status Fetched)) :=
  us.zipIdx.mapM (fun e => do
    let s ← get
    let l := if a.deadline ≠ 0xFF ∧ late.contains e.2 then
        some (bits (p.deadlines.getD a.deadline 0).toNat 16 2) else none
    let r ← attempt (fetchRow c id t p.comp.toNat hc l e.1)
    pure (e.1, estimate (lookup s id e.1) id e.1, r))

/-! ### Output rows (R324, R325) -/

/-- An output row's bytes in the output format. -/
def outRow (fmt : Nat) (xs : List Nat) : List Byte :=
  if fmt = 0 then (xs.map (leBytes 4)).flatten
  else (xs.map (fun x => leBytes 2 (narrow fmtBF16 .rne false (f32 x)).1)).flatten

/-- Rows delivered in tiles of whole rows of at most 64 KiB, each swizzled by its ordinal: the status of each row. -/
def putOutput (w : Who) (a : EmbArgs) (rows : List (List Byte)) : Eng (List Status) := do
  let n := (rows.head?.map List.length).getD 1
  let stride := if a.stride = 0 then n else a.stride
  let per := if n ≤ 65536 then (65536 - n) / max stride 1 + 1 else 1
  let sts ← (List.range ((rows.length + per - 1) / per)).mapM (fun i => do
    let k := min per (rows.length - i * per)
    let mine := ((rows.drop (i * per)).take per).zipIdx.map (fun e =>
      (e.2 * stride, swizzleRow a.swz (i * per + e.2) e.1))
    let r ← attempt (allOrNone (putRows w .l2 (a.out + i * per * stride) ((k - 1) * stride + n) mine a.cid a.cen))
    pure (List.replicate k (match r with
      | .ok _ => stOK
      | .error st => st)))
  return sts.flatten

/-- MISS: one bit per output row, set when it is not delivered. -/
def putMiss (w : Who) (a : EmbArgs) (bad : List Bool) : Eng Unit := do
  if a.miss ≠ 0 then
    let n := (bad.length + 7) / 8
    let v := (bad.zipIdx.map (fun e => b2n e.1 * 2 ^ e.2)).sum
    writeDva w .l2 a.miss (leBytes n v)

/-- The result word of R331. -/
def embResult (rows bad shadow : Nat) : W64 :=
  BitVec.ofNat 64 (rows % 2 ^ 21 + 2 ^ 21 * (bad % 2 ^ 21) + 2 ^ 42 * (shadow % 2 ^ 21))

/-- Delivers output rows and MISS: the first failure in row order and the rows not delivered. A row that depends on a
failed one is all 0xFF bytes. -/
def finishRows (w : Who) (a : EmbArgs) (dim : Nat) (rows : List (Except Status (List Nat))) : Eng (Status × Nat) := do
  let bytes := rows.map (fun r => match r with
    | .ok xs => outRow a.fmt xs
    | .error _ => ones (dim * (if a.fmt = 0 then 4 else 2)))
  let outs ← putOutput w a bytes
  let sts := List.zipWith (fun (r : Except Status (List Nat)) st => match r with
    | .ok _ => st
    | .error e => e) rows outs
  putMiss w a (sts.map (fun st => st ≠ 0))
  return (firstBad sts, (sts.filter (fun st => st ≠ 0)).length)

/-! ### Rows of the command (R329) -/

/-- An EMBED command on an open table. `fields` of the row are the same for every operation. -/
def embedRow (q : Nat) (e : W512) (op : Nat) (work : Cmd → Plan → Nat → Table → Nat → Eng (Status × W64)) (s : State) :
    Host.Outcome State Fault Refusal :=
  cmdRow q e (opcodeOf e == 0x1A && fld e 17 1 == op) [(128, 16), (144, 12), (192, 57)] .work (fun c s =>
    match embedPlan s c.part (c.f 16 1), tfind s.emb.tables (c.f 18 2) with
    | some p, some t =>
      if t.part ≠ c.part then some (failCmd s c stPerm)
      else if op ≠ 6 ∧ c.f 24 8 % 64 ≠ 0 then some (failCmd s c stAlign)
      else runService c (c.f 16 1) p (do
        let w := { c.who with eng := .work }
        if op = 6 then work c p (c.f 18 2) t 0
        else
          let d ← readDva w .l2 (c.f 24 8) 128
          if !argsForm op p t (leNat d) then failAt w stFormat 1 (c.f 24 8)
          if !argsAlign (embArgs (leNat d)) then failAt w stAlign 1 (c.f 24 8)
          work c p (c.f 18 2) t (leNat d)) s
    | _, _ => some (failCmd s c stFormat)) s

/-- The local rows that INDICES names. -/
def readIndices (w : Who) (t : Table) (a : EmbArgs) : Eng (List Nat) := do
  let d ← readDva w .l2 a.indices (8 * a.count)
  localRows w t (nums 8 d) (fun i => a.indices + 8 * i)

/-! ### GATHER (R325) -/

/-- GATHER with arguments `v`. -/
def gatherWork (late : List Nat) (hc : HostCpl) (c : Cmd) (p : Plan) (id : Nat) (t : Table) (v : Nat) : Eng (Status × W64) := do
  let a := embArgs v
  let w := { c.who with eng := .work }
  let is ← readIndices w t a
  let us := distinct is
  let rows ← fetchRows c id t p a late hc us
  let valsOf (u : Nat) : Except Status (List Nat) := match rows.find? (fun r => r.1 == u) with
    | some (_, _, .ok f) => .ok f.vals
    | some (_, _, .error st) => .error st
    | none => .error stFormat
  if a.counts then writeDva w .l2 a.countsOut (rows.map (fun r => BitVec.ofNat 8 r.2.1))
  if a.unique then writeDva w .l2 a.inverse ((is.map (fun u => leBytes 4 (us.idxOf u))).flatten)
  let (st, bad) ← finishRows w a t.dim ((if a.unique then us else is).map valsOf)
  return (st, embResult us.length bad ((rows.filter (fun r => match r.2.2 with
    | .ok f => f.shadow
    | .error _ => false)).length))

def execGather (q : Nat) (e : W512) (late : List Nat) (hc : HostCpl) (s : State) : Host.Outcome State Fault Refusal :=
  embedRow q e 1 (gatherWork late hc) s

/-! ### POOL (R326) -/

/-- The pooling of one bag: its rows in the order of first occurrence, each with its occurrences' weights. -/
def poolBag (mode dim : Nat) (bag : List (Nat × Nat)) (valsOf : Nat → Except Status (List Nat)) :
    Except Status (List Nat) :=
  let us := distinct (bag.map (·.1))
  let step (acc : Except Status (Bool × List Nat)) (u : Nat) : Except Status (Bool × List Nat) :=
    match acc, valsOf u with
    | .ok (first, xs), .ok vs =>
      let mine := bag.filter (fun b => b.1 == u)
      let n := if mode = 2 then mine.foldl (fun x b => (f32Add x b.2).1) 0 else f32Code (fint mine.length)
      if mode = 3 then .ok (false, if first then vs else
        List.zipWith (fun x v => f32Code (fmax (f32 x) (f32 v))) xs vs)
      else .ok (false, List.zipWith (fun x v => (f32Fma n v x).1) xs vs)
    | .error st, _ => .error st
    | _, .error st => .error st
  match us.foldl step (.ok (true, List.replicate dim 0)) with
  | .ok (_, xs) =>
    if mode = 1 ∧ bag ≠ [] then
      let r := (f32Recip (f32Code (fint bag.length))).1
      .ok (xs.map (fun x => (f32Mul x r).1))
    else .ok xs
  | .error st => .error st

/-- The bags of a command: for each, its occurrences with their weights. -/
def bagsOf (is ws offs : List Nat) : List (List (Nat × Nat)) :=
  List.zipWith (fun a b => ((List.zip is ws).drop a).take (b - a)) offs (offs.drop 1)

/-- POOL with arguments `v`. -/
def poolWork (late : List Nat) (hc : HostCpl) (c : Cmd) (p : Plan) (id : Nat) (t : Table) (v : Nat) : Eng (Status × W64) := do
  let a := embArgs v
  let w := { c.who with eng := .work }
  let offs ← read4 w a.offsets (a.bags + 1)
  if !offsetsForm offs a.count then failAt w stFormat 1 a.offsets
  let ws ← if a.pool = 2 then read4 w a.weights a.count else pure (List.replicate a.count 0)
  let is ← readIndices w t a
  let us := distinct is
  let rows ← fetchRows c id t p a late hc us
  let valsOf (u : Nat) : Except Status (List Nat) := match rows.find? (fun r => r.1 == u) with
    | some (_, _, .ok f) => .ok f.vals
    | some (_, _, .error st) => .error st
    | none => .error stFormat
  let (st, bad) ← finishRows w a t.dim ((bagsOf is ws offs).map (fun b => poolBag a.pool t.dim b valsOf))
  return (st, embResult us.length bad ((rows.filter (fun r => match r.2.2 with
    | .ok f => f.shadow
    | .error _ => false)).length))

def execPool (q : Nat) (e : W512) (late : List Nat) (hc : HostCpl) (s : State) : Host.Outcome State Fault Refusal :=
  embedRow q e 2 (poolWork late hc) s

/-! ### SCATTER_ADD (R327) -/

/-- The contribution of one index to its row's aggregate. -/
def contribution (a : EmbArgs) (bagLen weight : Nat) (vec : List Nat) : List Nat :=
  if !a.perBag ∨ a.pool = 0 then vec
  else if a.pool = 2 then vec.map (fun x => (f32Mul weight x).1)
  else
    let r := (f32Recip (f32Code (fint bagLen))).1
    vec.map (fun x => (f32Mul x r).1)

/-- The updated row and its new Adagrad state. -/
def scatterRow (a : EmbArgs) (dim eps g0 : Nat) (gs ws : List Nat) : List Nat × Nat :=
  if !a.adagrad then (List.zipWith (fun g w => (f32Fma a.scale g w).1) gs ws, g0)
  else
    let sq := gs.foldl (fun x g => (f32Fma g g x).1) 0
    let g1 := (f32Add g0 (f32Mul sq (f32Recip (f32Code (fint dim))).1).1).1
    let r := (f32Rsqrt (f32Add g1 eps).1).1
    let k := f32Neg (f32Mul a.scale r).1
    (List.zipWith (fun g w => (f32Fma k g w).1) gs ws, g1)

/-- Reads, updates and writes back one row with its aggregate. -/
def updateRow (c : Cmd) (id : Nat) (t : Table) (comp : Nat) (hc : HostCpl) (a : EmbArgs) (u : Nat) (gs : List Nat) :
    Eng Unit := do
  let f ← fetchRow c id t comp hc none u
  let w := embWho c t
  let sa := t.stateDva + 4 * u
  let g0 ← if a.adagrad then do
      let d ← readDva w .l2 sa 4
      pure (leNat d)
    else pure 0
  let (xs, g1) := scatterRow a t.dim t.eps.toNat g0 gs f.vals
  let s ← get
  let (fr, s) := draw s
  set s
  let (d, g) := narrowRow (entClass f.entry) fr.toNat a.stoch (engGenOf s .work) xs
  modify (fun s => setEngGen s .work g)
  allOrNone (do
    rowWrite w t comp hc (entWhere f.entry) (entLoc f.entry) u d
    if a.adagrad then writeDva w .l2 sa (leBytes 4 g1))
  modify (fun s => abortFor s id u)

/-- SCATTER_ADD with arguments `v`. -/
def scatterWork (hc : HostCpl) (c : Cmd) (p : Plan) (id : Nat) (t : Table) (v : Nat) : Eng (Status × W64) := do
  let a := embArgs v
  let w := { c.who with eng := .work }
  let offs ← if a.perBag then read4 w a.offsets (a.bags + 1) else pure []
  if a.perBag ∧ !offsetsForm offs a.count then failAt w stFormat 1 a.offsets
  let ws ← if a.perBag ∧ a.pool = 2 then read4 w a.weights a.count else pure []
  let is ← readIndices w t a
  let us := distinct is
  let eb := if a.fmt = 0 then 4 else 2
  let n := if a.perBag then a.bags else a.count
  let data ← readSpace w a.data (n * t.dim * eb)
  let vecs := (List.range n).map (fun i => (rowVals (if a.fmt = 0 then 0 else 1) (slice data (i * t.dim * eb) (t.dim * eb))
    t.dim).map f32Code)
  let bagOf (j : Nat) : Nat := ((List.range a.bags).find? (fun b => decide (offs.getD b 0 ≤ j ∧ j < offs.getD (b + 1) 0))).getD 0
  let contrib (j : Nat) : List Nat :=
    let b := bagOf j
    if a.perBag then contribution a (offs.getD (b + 1) 0 - offs.getD b 0) (ws.getD j 0) (vecs.getD b [])
    else vecs.getD j []
  let sts ← us.mapM (fun u => do
    let gs := (is.zipIdx.filter (fun e => e.1 == u)).foldl (fun acc e =>
      List.zipWith (fun x y => (f32Add x y).1) acc (contrib e.2)) (List.replicate t.dim 0)
    let r ← attempt (updateRow c id t p.comp.toNat hc a u gs)
    pure (match r with
      | .ok _ => stOK
      | .error st => st))
  return (firstBad sts, embResult us.length ((sts.filter (fun st => st ≠ 0)).length) 0)

def execScatterAdd (q : Nat) (e : W512) (hc : HostCpl) (s : State) : Host.Outcome State Fault Refusal :=
  embedRow q e 3 (scatterWork hc) s

/-! ### UPDATE_ROW (R328) -/

/-- Drops a cached copy without write-back. -/
def dropCached (s : State) (t : Table) (u loc : Nat) : State :=
  match cachedWay s t u loc with
  | some k => tagSet s t (setOf t u) k 0
  | none => s

/-- One entry of UPDATE_ROW. -/
def replaceRow (c : Cmd) (id : Nat) (t : Table) (comp : Nat) (hc : HostCpl) (u v : Nat) : Eng Unit := do
  let w := embWho c t
  let wc := { c.who with eng := .work }
  let src := bits v 64 64
  let new := bits v 128 64
  let s ← get
  if !spaceOk src ∨ bits v 200 56 ≠ 0 ∨ (new ≠ 0 ∧ (!entV new ∨ entWhere new = 1 ∨ !entForm s new)) then
    failAt wc stFormat 0 0
  if src % 16 ≠ 0 then failAt wc stAlign 0 (spaceAddr src)
  let e ← rowEntry w t u
  if new = 0 then
    let d ← readSpace wc src (rowLen (entClass e) t.dim)
    allOrNone (rowWrite w t comp hc (entWhere e) (entLoc e) u d)
    modify (fun s => abortFor s id u)
  else
    let d ← readSpace wc src (rowLen (entClass new) t.dim)
    allOrNone (do
      rowWrite w t comp hc (entWhere new) (entLoc new) u d
      let ok ← flipEntry w t u e new
      if !ok then rowFail w stBusy (entLoc e))
    modify (fun s =>
      let s := abortFor s id u
      if entWhere e = 1 then dropCached s t u (entLoc e) else s)

/-- UPDATE_ROW with arguments `v`. -/
def updateWork (hc : HostCpl) (c : Cmd) (p : Plan) (id : Nat) (t : Table) (v : Nat) : Eng (Status × W64) := do
  let a := embArgs v
  let w := { c.who with eng := .work }
  let d ← readSpace w a.data (32 * a.count)
  let es := nums 32 d
  let us ← localRows w t (es.map (fun x => bits x 0 64)) (fun i => spaceAddr a.data + 32 * i)
  (distinct us).forM (fun u => modify (fun s => lookup s id u))
  let sts ← (List.zip us es).zipIdx.mapM (fun x => do
    let r ← attempt (replaceRow c id t p.comp.toNat hc x.1.1 x.1.2)
    let st := match r with
      | .ok _ => stOK
      | .error st => st
    let addr := spaceAddr a.data + 32 * x.2 + 24
    if inReservoir a.data then writeRsv w addr [st] else writeDva w .l2 addr [st]
    pure st)
  return (firstBad sts, embResult (distinct us).length ((sts.filter (fun st => st ≠ 0)).length) 0)

def execUpdateRow (q : Nat) (e : W512) (hc : HostCpl) (s : State) : Host.Outcome State Fault Refusal :=
  embedRow q e 4 (updateWork hc) s

/-! ### TABLE_OPEN, TABLE_CLOSE (R329) -/

/-- A table descriptor as a number: its layout (R310). -/
def tableForm (v : Nat) : Bool :=
  let dim := bits v 128 16
  decide (bits v 0 64 < 2 ^ 57 ∧ bits v 0 64 % 64 = 0 ∧ 1 ≤ bits v 64 64 ∧ bits v 64 64 < 2 ^ 40 ∧ dim % 32 = 0 ∧ 32 ≤ dim ∧
    dim ≤ 1024 ∧ 1 ≤ bits v 144 8 ∧ bits v 144 8 ≤ 64 ∧ bits v 152 8 < bits v 144 8 ∧ bits v 188 4 = 0 ∧
    bits v 194 6 = 0 ∧ bits v 201 23 = 0 ∧ bits v 256 64 < 2 ^ 57 ∧ bits v 256 64 % 64 = 0 ∧ bits v 320 192 = 0)

def tableOf (v : Nat) (part : BitVec 6) (ctx : BitVec 20) (mult : W64) : Table :=
  { part := part, ctx := ctx, dir := bits v 0 57, rows := bits v 64 40, dim := bits v 128 16, shards := bits v 144 7,
    shard := bits v 152 6, sets := bits v 160 28, cacheMax := BitVec.ofNat 2 (bits v 192 2), adagrad := bit v 200,
    eps := BitVec.ofNat 32 (bits v 224 32), stateDva := bits v 256 57, base := 0, mult := mult ||| 1 }

/-- The lowest place of the pool where a region fits beside those of the open tables. -/
def regionPlace (s : State) (n : Nat) : Option Nat :=
  let used := s.emb.tables.map (fun e => (e.2.base, regionBytes e.2))
  let ends := 0 :: used.map (fun r => (r.1 + r.2 + 63) / 64 * 64)
  let fits := ends.filter (fun b => decide (b + n ≤ s.store.rowGiB * 2 ^ 30) && used.all (fun r => apart b n r.1 r.2))
  fits.foldl (fun (m : Option Nat) b => match m with
    | none => some b
    | some x => some (min x b)) none

/-- The partition's row-cache quota holds another region. -/
def regionQuota (s : State) (p : BitVec 6) (n : Nat) : Bool :=
  let lim := quotaField s p false 32
  let used := ((s.emb.tables.filter (fun e => e.2.part = p)).map (fun e => regionBytes e.2)).sum
  lim == 0 || decide (used + n ≤ lim * 2 ^ 30)

/-- A new region's tags read V = 0: the region reads as zero. -/
def clearRegion (s : State) (base n : Nat) : State :=
  let lo := poolBase + base
  s.setStore (fun z => { z with cells := cellZero z.cells lo n,
                                written := z.written.filter (fun l => ¬ (lo ≤ 64 * l ∧ 64 * l < lo + n)) })

/-- TABLE_OPEN: the descriptor's form, the context, the quota; then the table at the lowest free id, its region read as
zero. -/
def openWork (c : Cmd) : Eng (Status × W64) := do
  let w := { c.who with eng := .work }
  let d ← readDva w .l2 (c.f 24 8) 64
  let v := leNat d
  let s ← get
  if !tableForm v then failAt w stFormat 1 (c.f 24 8)
  if !(match ctxOf s c.ctx with
    | some x => x.part == c.part
    | none => false) then failAt w stPerm 1 (c.f 24 8)
  let (m, s) := draw s
  let t := tableOf v c.part c.ctx m
  let n := regionBytes t
  match (List.range 4096).find? (fun i => (tfind s.emb.tables i).isNone),
      (if t.sets = 0 then some 0 else regionPlace s n) with
  | some id, some base =>
    if t.sets ≠ 0 ∧ !regionQuota s c.part n then failAt w stQuota 1 (c.f 24 8)
    set ((clearRegion s base (if t.sets = 0 then 0 else n)).setEmb (fun m => { m with
      tables := tput m.tables id { t with base := base } }))
    return (0, BitVec.ofNat 64 id)
  | _, _ => failAt w stQuota 1 (c.f 24 8)

def execTableOpen (q : Nat) (e : W512) (s : State) : Host.Outcome State Fault Refusal :=
  cmdRow q e (opcodeOf e == 0x1A && fld e 17 1 == 5) [(128, 16), (144, 12), (192, 57)] .work (fun c s =>
    match embedPlan s c.part (c.f 16 1) with
    | none => some (failCmd s c stFormat)
    | some p =>
      if c.f 18 2 ≠ 0 then some (failCmd s c stFormat)
      else if c.f 24 8 % 64 ≠ 0 then some (failCmd s c stAlign)
      else runService c (c.f 16 1) p (openWork c) s) s

/-- TABLE_CLOSE: pending moves abort, every cached row is evicted, the table is gone. -/
def closeWork (hc : HostCpl) (c : Cmd) (p : Plan) (id : Nat) (t : Table) (_v : Nat) : Eng (Status × W64) := do
  let w := embWho c t
  modify (fun s => (s.emb.moves.filter (fun m => m.table = id)).foldl abortRowMove s)
  (List.range t.sets).forM (fun set => do
    let s ← get
    if poolOk s t (tagAt t set 0) 64 then
      (List.range 8).forM (fun k => do
        let s ← get
        if tagV (tagGet s t set k) then
          let _ ← evictWay w t p.comp.toNat hc set k)
    else slotOk w t (tagAt t set 0) 64)
  modify (fun s => s.setEmb (fun m => { m with tables := tdel m.tables id }))
  return (0, 0)

def execTableClose (q : Nat) (e : W512) (hc : HostCpl) (s : State) : Host.Outcome State Fault Refusal :=
  embedRow q e 6 (closeWork hc) s

end Sys2Proof.Machine
end

