-- ==== Sys2Proof/Machine/Resets.lean ====
section
/-! DEFINITION. Resets of levels 1 to 5, their escalation, fatal stops, and suspect replay (15 R418 to R429, R438; 16
R449, R450, R456). What a reset clears is cleared by the row that starts it; its scope answers RESET_IN_PROGRESS until
the reset ends, on a later tick (log entry 61). -/
namespace Sys2Proof.Machine

/-! ### Alerts and power-cycle requests (19 R524, R525) -/

abbrev alBootHalt : Nat := 0
abbrev alRestart : Nat := 1
abbrev alGaveUp : Nat := 2
abbrev alFatal : Nat := 3
abbrev alCycle : Nat := 4
abbrev alMasked : Nat := 5
abbrev alHeld : Nat := 6
abbrev alOver : Nat := 7
abbrev alNear : Nat := 8
abbrev alCoolant : Nat := 9

/-- An ALERT bit is set; a change from 0 to 1 raises an in-band interrupt. -/
def raiseAlert (s : State) (b : Nat) : State :=
  if s.power.alert.getLsbD b then s
  else emit (s.setPower (fun p => { p with alert := p.alert ||| BitVec.ofNat 16 (2 ^ b) })) (.ibi b)

def requestCycle (s : State) : State := raiseAlert (s.setPower (fun p => { p with cycleReq := true })) alCycle

/-! ### Packets that a reset releases (R425, R426) -/

/-- Unfinished packets that meet a condition end with RESET_IN_PROGRESS at their source. -/
def releasePackets (s : State) (f : Unfinished → Bool) : State :=
  let l := (s.xbar.tx.map (fun e => (e.2.pkts.filter f).map (fun u => (BitVec.ofNat 10 e.1, u)))).flatten
  l.foldl (fun s e =>
    let s := (takeUnfinished s e.1 e.2.pkt.seq).2
    noteDrained (finishSource (logRecord s pXBAR (packetFail e.2.pkt stReset)) e.2 stReset [] true)) s

/-- The wick on whose behalf a request was made. -/
def originWick (s : State) : Origin → Option Nat
  | .wickLoad w .. => some w
  | .wickVLoad w _ => some w
  | .wickAmo w .. => some w
  | .wickPosted w .. => some w
  | .wickSem w .. => some w
  | .wickCadd w _ => some w
  | .transfer id => (findXfer s id).bind (·.wick)
  | _ => none

/-- The copy engine on whose behalf a request was made. -/
def originCopy (s : State) : Origin → Option Nat
  | .transfer id => (findXfer s id).bind (fun x => match x.eng with
    | .copy n => some n
    | _ => none)
  | .engine (.copy n) => some n
  | _ => none

/-- WAIT_DECs that wicks hold, here and toward other agents, are abandoned. -/
def dropHeld (s : State) (f : Nat → Bool) : State :=
  let s := s.setSync (fun y => { y with held := y.held.filter (fun h => !(h.wick.map (fun e => f e.1)).getD false) })
  s.setXbar (fun x => { x with tx := x.tx.map (fun e => (e.1, { e.2 with ctls := e.2.ctls.filter (fun u =>
    match u.origin with
    | .wickSem w .. => !f w
    | _ => true) })) })

/-! ### Level 1 (R425) -/

/-- The context that a queue's command names. -/
def activeCtx (s : State) (q : Nat) (raw : W512) : BitVec 20 :=
  if bit raw.toNat 95 then qCtx (s.queue q) else BitVec.ofNat 20 (bits raw.toNat 64 20)

/-- Commands in progress end with a status. -/
def cancelActive (s : State) (f : Nat → Active → Bool) (st : Status) : State :=
  s.work.queues.foldl (fun s e => ((s.queue e.1).active.filter (f e.1)).foldl
    (fun s a => cancelCommand s e.1 a st) s) s

/-- Clears a context's runs, commands, translations and unfinished packets. -/
def clearCtx (s : State) (c : BitVec 20) : State :=
  let s := (s.plans.filter (fun e => e.2.ctx = c)).foldl (fun s e => stopRun s e.1 stReset) s
  let s := dropHeld s (fun w => (s.wick w).ctx == c)
  let s := cancelActive s (fun q a => activeCtx s q a.raw == c) stReset
  let s := s.setWork (fun w => { w with xfers := w.xfers.filter (fun x => x.ctx ≠ c) })
  let s := s.setXlt (fun x => { x with tlb := x.tlb.filter (fun e => e.ctx ≠ c) })
  settle (releasePackets s (fun u => u.pkt.ctx == c))

def markCtx (s : State) (c : BitVec 20) (b : Bool) : State :=
  s.setXlt (fun x => { x with ctxs := x.ctxs.map (fun e =>
    if e.1 = c.toNat then (e.1, { e.2 with resetting := b }) else e) })

/-! ### Level 2 (R426) -/

/-- Clears a sconce's work; scratch, instruction memory, local counters and slivers keep their contents. -/
def clearSconce (s : State) (sc : Nat) : State :=
  let s := (s.plans.filter (fun e => (planSconces e.2).contains sc)).foldl (fun s e => stopRun s e.1 stReset) s
  let mine (w : Nat) : Bool := w / 64 == sc
  let s := dropHeld s mine
  let s := releasePackets s (fun u => ((originWick s u.origin).map mine).getD false)
  let s := s.setWork (fun w => { w with xfers := w.xfers.filter (fun x => match x.eng with
    | .mover n _ => n != sc
    | _ => true) })
  let s := s.setSync (fun y => { y with waits := y.waits.filter (fun e => match e.1 with
    | .wick w => !mine w
    | _ => true) })
  let s := s.setXbar (fun x => { x with fenceBad := x.fenceBad.filter (fun e => !mine e.1) })
  let s := s.setXlt (fun x => { x with tlb := x.tlb.filter (fun e => match e.where_ with
    | .wick w => !mine w
    | _ => true) })
  settle ({ s with wicks := s.wicks.filter (fun e => !mine e.1) }.setSconce sc (fun c => { c with spot := none }))

/-- Clears a copy engine's work: `f` says which of its commands end with RESET_IN_PROGRESS. -/
def clearCopy (s : State) (n : Nat) (f : Active → Bool) : State :=
  let s := releasePackets s (fun u => originCopy s u.origin == some n)
  let s := cancelActive s (fun _ a => a.eng == some n && f a) stReset
  let s := s.setWork (fun w => { w with xfers := w.xfers.filter (fun x => x.eng ≠ .copy n) })
  s.setXlt (fun x => { x with tlb := x.tlb.filter (fun e => e.where_ ≠ .copy n) })

def markSconce (s : State) (sc : Nat) : State := s.setSconce sc (fun c => { c with resetting := true })
def markCopy (s : State) (n : Nat) : State := s.setWork (fun w => { w with copyReset := setInsert w.copyReset n })

/-! ### Level 3 (R427) -/

/-- Closes a table of a partition: pending fills are aborted, cached rows written back, the region freed. A row whose
write-back fails keeps its record alone. -/
def closeTable (s : State) (id : Nat) (t : Table) : State :=
  let s := (s.emb.moves.filter (fun m => m.table = id)).foldl abortRowMove s
  let w : Who := { eng := .work, part := t.part, ctx := t.ctx }
  let s := (List.range t.sets).foldl (fun s set => (List.range 8).foldl (fun s k =>
    if tagV (tagGet s t set k) then
      match runEng (evictWay w t 0 .ok set k) s with
      | some (_, u) => u
      | none => s
    else s) s) s
  s.setEmb (fun m => { m with tables := tdel m.tables id })

def partCtxs (s : State) (p : BitVec 6) : List (BitVec 20) :=
  (s.xlt.ctxs.filter (fun e => e.2.part = p)).map (fun e => BitVec.ofNat 20 e.1)

def partSconces (s : State) (p : BitVec 6) : List Nat := (List.range 64).filter (fun sc => sconceOwner s sc == p)

/-- Clears a partition's contexts, plans, enabled queues, collective groups, tables, counters and semaphores. -/
def clearPart (s : State) (p : BitVec 6) : State :=
  let s := (s.emb.tables.filter (fun e => e.2.part = p)).foldl (fun s e => closeTable s e.1 e.2) s
  let qs := (s.work.queues.filter (fun e => qEnabled e.2 && queuePart s e.1 == p)).map (·.1)
  let s := qs.foldl (fun s q => cancelQueue s q stReset) s
  let s := (partCtxs s p).foldl clearCtx s
  let s := (partSconces s p).foldl clearSconce s
  let s := (s.plans.filter (fun e => e.2.part = p)).foldl (fun s e =>
    freePlan (stopRun s e.1 stReset) e.1 ((s.plan e.1).bind (·.retire))) s
  let s := (s.sync.groups.filter (fun g => g.part = p)).foldl (fun s g => enterAborted s g.part g.gid stReset) s
  let s := settle (s.setSync (fun y => { y with groups := y.groups.filter (fun g => g.part ≠ p) }))
  let s := qs.foldl disableQueue s
  let s := (partCtxs s p).foldl dropCtx s
  s.setSync (fun y => { y with
    hub := y.hub.filter (fun e => counterOwner s e.1 ≠ p), sems := y.sems.filter (fun e => semOwner s e.1 ≠ p) })

def markPart (s : State) (p : BitVec 6) : State :=
  (partSconces s p).foldl markSconce (s.setWork (fun w => { w with
    partReset := if w.partReset.contains p then w.partReset else w.partReset ++ [p] }))

/-! ### Level 4 (R428, R438, R449, R450) -/

/-- The spare map: physical wicks that the fuses, the cold boot's screen and `extra` mark (16 R448, 01 R20). -/
def applySpares (s : State) (extra : Nat → BitVec 68) : State :=
  (List.range 64).foldl (fun s sc => s.setSconce sc (fun c =>
    let f := c.fuseFail ||| c.screened ||| extra sc
    { c with failed := f, available := !s.store.bootDown.contains sc && decide (popc 68 f.toNat ≤ 4) })) s

/-- Physical wicks of a sconce that fail screen number `n`. -/
def marginSet (sc n : Nat) : BitVec 68 :=
  BitVec.ofNat 68 (((List.range 68).map (fun w => if Config.marginFails sc w n then 2 ^ w else 0)).sum)

/-- The margin screen: failing wicks are recorded and counted; scratch and instruction memory read as zero. -/
def marginScreen (s : State) (n : Nat) : State :=
  let bad := ((List.range 64).map (fun sc => ((List.range 68).filter (fun w => (marginSet sc n).getLsbD w)).map
    (fun w => (sc, w)))).flatten
  let rec1 (e : Nat × Nat) : Fail :=
    { status := stUncorr, island := some (BitVec.ofNat 8 e.1), cls := some (0x15, BitVec.ofNat 8 e.1), info := e.2 }
  let s := bad.foldl (fun s e => logErr s pTOP 2 (rec1 e)) s
  { s with scratch := [], imem := [], badScratch := [], badImem := [] }.setReg (rk pTOP 0x118)
    (BitVec.ofNat 64 (1 + 2 * bad.length))

/-- Training of every die and channel: on the retraining path they train again, else they are READY. -/
def trainAll (s : State) (retrain : Bool) : State :=
  let f (t : Training) : Training := { t with state := if retrain then 2 else 0, fails := 0 }
  s.setPower (fun p => { p with
    stack := (List.range 8).foldl (fun m d => tput m d (f (stackTraining s d))) p.stack,
    cap := (List.range 24).foldl (fun m c => tput m c (f (capTraining s c))) p.cap })

/-- Agents that some coherent window lets cache. -/
def cachingAgents (s : State) : List (BitVec 10) :=
  ((s.dir.windows.filter (fun e => e.2.valid)).map (fun e => cachers e.2)).flatten.dedup

/-- The next sweep that is due starts when none runs. -/
def nextSweep (s : State) : State :=
  if s.dir.sweep.isSome then s
  else match s.dir.hostDue with
    | some a => startSweep (s.setDir (fun d => { d with hostDue := none })) a false true
    | none => match s.dir.sweepDue with
      | a :: r => startSweep (s.setDir (fun d => { d with sweepDue := r })) a true false
      | [] => s

/-- Clears and rebuilds what a compute reset resets. -/
def clearCompute (s : State) (retrain margin : Bool) : State :=
  let s := (List.range 64).foldl (fun s p => clearPart s (BitVec.ofNat 6 p)) s
  let s := (List.range 64).foldl clearSconce s
  let s := (List.range 32).foldl (fun s n => clearCopy s n (fun _ => true)) s
  let s := s.xlt.shoots.foldl (fun s h => endShoot s h stReset) s
  let s := s.setXlt (fun x => { x with tlb := [], walkers := 0 })
  let s := applyOffsets (selectClass (readUserArea s))
  let s := if retrain then nextSweep (s.setDir (fun d => { d with sweepDue := cachingAgents s })) else s
  let s := trainAll s retrain
  let n := s.free
  let apply := margin && bit (regGet s (rk pTOP 0x110)).toNat 8
  let s := if margin then marginScreen { s with free := n + 1 } n else s
  applySpares s (fun sc => if apply then marginSet sc n else 0)

/-! ### Dumps and fatal stops (R423, R429; 18 R510) -/

/-- Step 1 of a dump: the transmitters are dark, the host link answers Unsupported Request, engines issue nothing. A
second cause during a dump sets SECOND. -/
def beginDump (s : State) (cause : Byte) (st : Status) (sensor : Byte) (temp : W16) : State :=
  match s.lamp.dump with
  | some d => s.setLamp (fun l => { l with dump := some { d with second := true } })
  | none =>
    let s := { s with lantern := { s.lantern with ports := s.lantern.ports.map (fun (e : Nat × Port) =>
      (e.1, if e.2.state = 0 then e.2 else { e.2 with state := 5 })) } }
    (s.setHost (fun h => { h with stopped := true })).setLamp (fun l => { l with
      dump := some { cause := cause, status := st, sensor := sensor, temp := temp, time := l.moduleTime, second := false,
                     early := decide (l.bootStep.toNat < 7) } })

/-! ### Starting resets (R418, R423, R424) -/

/-- RESET_STAT reports the reset that started last. -/
def setResetStat (s : State) (busy : Bool) (level : Nat) (st : Status) (target : Nat) : State :=
  s.setReg (rk pTOP 0x108) (BitVec.ofNat 64 (b2n busy + 2 * level + 2 ^ 8 * st.toNat + 2 ^ 32 * target +
    2 ^ 56 * s.lamp.escalated.toNat))

/-- The scope of a running reset contains that of another one of the same or a lower level. -/
def scopeHolds (s : State) (r : Running) (level target : Nat) : Bool :=
  if r.level = 4 then true
  else if r.level < level then false
  else if r.level = level then r.target == target
  else if r.level = 3 then
    if level = 1 then (ctxOf s (BitVec.ofNat 20 target)).all (fun c => c.part.toNat == r.target)
    else decide (target < 64) && (sconceOwner s target).toNat == r.target
  else false

/-- What a reset of levels 1 to 4 clears, and the marks of its scope. -/
def resetActs (s : State) (level target : Nat) (retrain margin : Bool) : State :=
  if level = 1 then let c := BitVec.ofNat 20 target; markCtx (clearCtx s c) c true
  else if level = 2 then
    if target < 64 then markSconce (clearSconce s target) target
    else markCopy (clearCopy s (target - 64) (fun _ => true)) (target - 64)
  else if level = 3 then let p := BitVec.ofNat 6 target; markPart (clearPart s p) p
  else (List.range 64).foldl (fun s p => markPart s (BitVec.ofNat 6 p)) (clearCompute s retrain margin)

/-- Starts a reset of levels 1 to 4 with what it clears and marks: one inside a running reset joins it; one that contains
running resets takes them over. -/
def startReset (s : State) (level target : Nat) (retrain margin : Bool) (acts : State → State) : State :=
  let r : Running := { level := level, target := target, retrain := retrain, margin := margin, taken := false }
  let joins := s.lamp.running.any (fun x => scopeHolds s x level target)
  let old := s.lamp.running.map (fun x => { x with taken := x.taken || scopeHolds s r x.level x.target })
  let s := s.setLamp (fun l => { l with running := if joins then l.running ++ [{ r with taken := true }] else old ++ [r] })
  let s := setResetStat s true level 0 target
  if joins then s else settle (acts s)

/-- Starts a reset that clears its whole scope. -/
def beginReset (s : State) (level target : Nat) (retrain margin : Bool) : State :=
  startReset s level target retrain margin (fun s => resetActs s level target retrain margin)

/-- An automatic reset: while the watchdog has given up, levels 3 and 4 become a request for level 5. -/
def autoReset (s : State) (level target : Nat) (retrain : Bool) : State :=
  if level = 5 then requestCycle (setResetStat s true 5 0 0)
  else if s.lamp.gaveUp ∧ 3 ≤ level then
    requestCycle (logRecord s pLMP { status := stReset, info := level })
  else beginReset s level target retrain false

/-- A running reset covers a sconce, or a partition. -/
def coversSconce (s : State) (r : Running) (sc : Nat) : Bool :=
  r.level == 4 || (r.level == 3 && (sconceOwner s sc).toNat == r.target) || (r.level == 2 && r.target == sc)
def coversPart (r : Running) (p : Nat) : Bool := r.level == 4 || (r.level == 3 && r.target == p)

/-- Highest of the readings of a die's sconces. -/
def dieTemp (s : State) (d : Nat) : W16 :=
  (List.range 8).foldl (fun m i =>
    let r := sensorReading s (8 * d + i)
    if i = 0 ∨ sval 16 m.toNat < sval 16 r.toNat then r else m) 0

/-- Every die and channel that a compute reset retrained is READY, at its temperature of this moment. -/
def endTraining (s : State) : State :=
  let f (pg : Nat → Nat) (s : State) (e : Nat × Training) : State :=
    if e.2.state = 2 then logEvt s (pg e.1) 0 else s
  let s := s.power.cap.foldl (f pCAP) (s.power.stack.foldl (f pSTK) s)
  let g (now : W16) (t : Training) : Training := if t.state = 2 then
    { t with state := 0, retrains := if t.retrains = 255 then 255 else t.retrains + 1, temp := now } else t
  s.setPower (fun p => { p with
    stack := p.stack.map (fun e => (e.1, g (dieTemp s e.1) e.2)),
    cap := p.cap.map (fun e => (e.1, g (sensorReading s 64) e.2)) })

/-- The resets that can end do, and BUSY clears with the one that RESET_STAT reports: levels 3 and 4, and what joined them, wait while the Lamplighter restarts; level 1 and 2
resets of hardware do not (R417, R418). -/
def endResets (s : State) : State :=
  let stays (r : Running) : Bool := (s.lamp.restarting || s.lamp.gaveUp) && (decide (3 ≤ r.level) || r.taken)
  let done := s.lamp.running.filter (fun r => !stays r)
  if done = [] then s
  else
    let left := s.lamp.running.filter stays
    let reported := (s.lamp.running.getLast?.map (fun r => !stays r)).getD true
    let s := s.setLamp (fun l => { l with running := left })
    let s := if done.any (fun r => r.level == 4 && r.retrain) then endTraining s else s
    let s := done.foldl (fun s r => if r.level = 1 then markCtx s (BitVec.ofNat 20 r.target) false else s) s
    let s := s.sconces.foldl (fun s e => if e.2.resetting ∧ !left.any (fun r => coversSconce s r e.1) then
      s.setSconce e.1 (fun c => { c with resetting := false }) else s) s
    let s := s.setWork (fun w => { w with
      partReset := w.partReset.filter (fun p => left.any (fun r => coversPart r p.toNat))
      copyReset := w.copyReset.filter (fun n => left.any (fun r => r.level == 4 || (r.level == 2 && r.target == 64 + n))) })
    let v := regGet s (rk pTOP 0x108)
    let s := if reported then s.setReg (rk pTOP 0x108) (v &&& ~~~ (1 : W64)) else s
    settle (logEvt s pTOP 0)

/-! ### RESET_CMD (R423, R439) -/

def targetOk (level target : Nat) : Bool :=
  if level = 1 then true else if level = 2 then decide (target < 96) else if level = 3 then decide (target < 64) else true

/-- A virtual function may reset a context of its partition, or its partition. -/
def mayReset (s : State) (src : RegSrc) (level target : Nat) : Bool :=
  match src with
  | .vf n => (level == 1 && (ctxPart s (BitVec.ofNat 20 target)).toNat == n) || (level == 3 && target == n)
  | _ => true

/-- A write of TOP.RESET_CMD. -/
def resetWrite (s : State) (src : RegSrc) (v : W64) : State :=
  let level := bits v.toNat 0 3
  let target := bits v.toNat 32 20
  if level = 0 ∨ 5 < level ∨ !targetOk level target ∨ !mayReset s src level target ∨ (s.lamp.gaveUp ∧ (level = 3 ∨ level = 4))
  then refuse s pTOP 1 0x100
  else if level = 5 then requestCycle (setResetStat s true 5 0 target)
  else beginReset s level target (level == 4 && bit v.toNat 3) (level == 4 && bit v.toNat 4)

/-- A row of RESET_CMD for one level. -/
def resetRow (src : RegSrc) (v : W64) (level : Nat) (s : State) : Host.Outcome State Fault Refusal :=
  onOk src.ok (if bits v.toNat 0 3 = level then resetWrite s src v else s)

def execContextReset (src : RegSrc) (v : W64) (s : State) : Host.Outcome State Fault Refusal := resetRow src v 1 s
def execEngineReset (src : RegSrc) (v : W64) (s : State) : Host.Outcome State Fault Refusal := resetRow src v 2 s
def execPartitionReset (src : RegSrc) (v : W64) (s : State) : Host.Outcome State Fault Refusal := resetRow src v 3 s
def execComputeReset (src : RegSrc) (v : W64) (s : State) : Host.Outcome State Fault Refusal := resetRow src v 4 s
def execPowerCycleRequest (src : RegSrc) (v : W64) (s : State) : Host.Outcome State Fault Refusal := resetRow src v 5 s

/-- A reset misses its bound: the level that R423 names starts. -/
def overrun (s : State) (r : Running) : State :=
  let s := logErr s pTOP 0 { status := stReset }
  let s := s.setLamp (fun l => { l with escalated := if l.escalated = 255 then 255 else l.escalated + 1 })
  if r.level = 1 then
    let scs := ((s.plans.filter (fun e => e.2.ctx.toNat = r.target)).map (fun e => planSconces e.2)).flatten.dedup
    scs.foldl (fun s sc => autoReset s 2 sc false) s
  else if r.level = 2 then
    if r.target < 64 then autoReset s 3 (sconceOwner s r.target).toNat false else autoReset s 4 0 false
  else if r.level = 3 then autoReset s 4 0 false
  else if s.lamp.gaveUp then autoReset s 5 0 false
  else beginDump (setResetStat s true 5 0 0) 6 stReset 0 0

def execResetOverrun (level target : Nat) (s : State) : Host.Outcome State Fault Refusal :=
  .next (match s.lamp.running.find? (fun r => r.level == level && r.target == target && !r.taken) with
  | some r => settle (overrun s r)
  | none => s)

/-! ### The sconce page's CTRL (17 R476) -/

/-- A write of SCNn.CTRL.QUIESCE. -/
def quiesceWrite (s : State) (src : RegSrc) (sc : Nat) (on : Bool) : State :=
  pfOnly s src (rk (pSCN sc) 0x10) (fun s => s.setSconce sc (fun c => { c with quiesce := on }))

def execQuiesce (src : RegSrc) (sc : Nat) (on : Bool) (s : State) : Host.Outcome State Fault Refusal :=
  onOk (src.ok && sconceOk sc) (settle (quiesceWrite s src sc on))

/-- A write of SCNn.CTRL.RESET. -/
def sconceResetWrite (s : State) (src : RegSrc) (sc : Nat) : State :=
  pfOnly s src (rk (pSCN sc) 0x10) (fun s => beginReset s 2 sc false false)

def execSconceReset (src : RegSrc) (sc : Nat) (s : State) : Host.Outcome State Fault Refusal :=
  onOk (src.ok && sconceOk sc) (sconceResetWrite s src sc)

/-! ### Shootdowns that overrun (03 R79) -/

/-- The level-2 target of an engine. -/
def engineTarget : Engine → Option Nat
  | .mover sc _ => some sc
  | .sconce sc => some sc
  | .wick w => some (w / 64)
  | .copy n => some (64 + n)
  | .work => none

def execShootdownOverrun (id : Nat) (eng : Engine) (s : State) : Host.Outcome State Fault Refusal :=
  onOk eng.ok (match findShoot s id with
  | none => s
  | some sh =>
    if !sh.engines.contains eng then s
    else
      let s := logErr s pXLT 1 { status := stReset, ctx := some sh.ctx }
      let s := s.setXlt (fun x => { x with shoots := x.shoots.map (fun y =>
        if y.id = id then { y with failed := true, engines := y.engines.filter (fun g => g ≠ eng) } else y) })
      match engineTarget eng with
      | some t => autoReset s 2 t false
      | none => autoReset s 4 0 false)

/-! ### Suspect replay (R419 to R421) -/

/-- COPY, TILE_STREAM, PREFETCH_FROM_HOST and EVICT_TO_HOST are replayable. -/
def replayable (a : Active) : Bool :=
  let o := opcodeOf a.raw
  o == 0x01 || o == 0x02 || o == 0x09 || o == 0x0A

/-- A held stream begins again from its first tile. -/
def replayStream (s : State) (q : Nat) (a : Active) : State :=
  s.setWork (fun w => { w with tstreams := w.tstreams.map (fun t =>
    if t.q = q ∧ t.tag = a.idx then { t with next := 0, inFlight := 0, bad := 0, misses := 0, lates := 0 } else t) })

/-- The record of a suspect or of the guilty context. -/
def suspectFail (s : State) (n q : Nat) (a : Active) (st : Status) : Fail :=
  { status := st, island := some 0x40, cls := some (0x21, BitVec.ofNat 8 n), ctx := some (activeCtx s q a.raw),
    part := some (queuePart s q), aux := queueAux q (fld a.raw 4 4), suspect := true }

/-- A fault of a copy engine without a context: its reset holds the replayable commands and ends the others; `guilty` is
the place, among the replayable held commands in the order of their acceptance, of the one whose replay reproduces the
fault (log entry 93). -/
def suspectReplay (s : State) (n : Nat) (st : Status) (guilty : Option Nat) : State :=
  let held := (s.work.queues.map (fun e => (e.2.active.filter (fun a => a.eng == some n)).map (fun a => (e.1, a)))).flatten
  let rs := held.filter (fun e => replayable e.2)
  let s := held.foldl (fun s e => logRecord s pWORK (suspectFail s n e.1 e.2 st)) s
  let s := startReset s 2 (64 + n) false false (fun s =>
    rs.foldl (fun s e => replayStream s e.1 e.2) (markCopy (clearCopy s n (fun a => !replayable a)) n))
  let name := guilty.bind (fun g => rs[g]?)
  let stat := n + 2 ^ 8 * min held.length 127
  let s := match name with
    | some (q, a) =>
      let c := activeCtx s q a.raw
      let s := logErr s pTOP 3 { suspectFail s n q a st with suspect := false, guilty := true }
      (cancelCommand s q a st).setReg (rk pTOP 0x120) (BitVec.ofNat 64 (stat + 2 ^ 15 + 2 ^ 16 * c.toNat))
    | none =>
      (logRecord s pWORK { status := st, island := some 0x40, cls := some (0x21, BitVec.ofNat 8 n),
                           info := min held.length 127 }).setReg (rk pTOP 0x120) (BitVec.ofNat 64 stat)
  settle (logEvt (bump s (rk pTOP 0x128) 32 1) pTOP 1)

/-- The copy engine holds work. -/
def copyHolds (s : State) (n : Nat) : Bool :=
  s.work.queues.any (fun e => e.2.active.any (fun a => a.eng == some n)) || s.work.xfers.any (fun x => x.eng == .copy n)

def execCopyEngineHang (eng : Nat) (internal : Bool) (guilty : Option Nat) (s : State) :
    Host.Outcome State Fault Refusal :=
  onOk (copyOk eng) (
    if !internal && !copyHolds s eng then s else suspectReplay s eng (if internal then stUncorr else stReset) guilty)

/-! ### Fatal stops (R429) -/

/-- Island in which a fatal cause is detected. -/
def fatalIsland (cause : Byte) : Byte := if cause = 1 then 0x43 else if cause = 6 then 0x43 else 0x40

/-- A fatal stop for cause 1 THERMAL, 2 ROUTE_BANKS, 3 DUP_WINDOWS, 4 BLOCK_MAP, 5 DIRECTORY_TABLE. -/
def fatalStop (s : State) (cause : Byte) (sensor : Byte) (temp : W16) : State :=
  let st := if cause = 1 then stReset else stUncorr
  let pg := if cause = 1 then pTHM else if cause = 2 ∨ cause = 3 then pXBAR else if cause = 4 then pPLC else pDIR
  let s := logRecord s pg { status := st, island := some (fatalIsland cause) }
  let s := raiseAlert (s.setLamp (fun l => { l with fatal := true })) alFatal
  beginDump s cause st sensor temp

def execFatalStop (cause : BitVec 8) (s : State) : Host.Outcome State Fault Refusal :=
  .next (if 2 ≤ cause.toNat ∧ cause.toNat ≤ 5 ∧ s.power.mainOn then fatalStop s cause 0 0 else s)

end Sys2Proof.Machine
end

