-- ==== Sys2Proof/Machine/Retrain.lean ====
section
/-! DEFINITION. Retraining of stacked dies and capacity channels while the rest runs (16 R454 to R456, R466 to R468). -/
namespace Sys2Proof.Machine

def setStack (s : State) (d : Nat) (f : Training → Training) : State :=
  s.setPower (fun p => { p with stack := tput p.stack d (f (stackTraining s d)) })
def setCap (s : State) (c : Nat) (f : Training → Training) : State :=
  s.setPower (fun p => { p with cap := tput p.cap c (f (capTraining s c)) })

/-- A trigger of R454 under the RETRAIN_CFG of a page. -/
def triggers (s : State) (pg : Nat) (t : Training) : RetrainWhy → Bool
  | .temperature now =>
    let d := bits (regGet s (rk pg 0x108)).toNat 0 8
    d != 0 && decide (16 * d < (sval 16 now.toNat - sval 16 t.temp.toNat).natAbs)
  | .corrections n =>
    let l := bits (regGet s (rk pg 0x108)).toNat 16 16
    l != 0 && decide (l < n)

/-- Corrected symbols count on the page (17 R497, R498). -/
def countSymbols (s : State) (pg : Nat) : RetrainWhy → State
  | .temperature _ => s
  | .corrections n => bump s (rk pg 0x118) 48 n

/-- A die that is READY is due. -/
def dueDie (s : State) (d : Nat) : State :=
  if (stackTraining s d).state = 0 then setStack s d (fun t => { t with state := 1 }) else s

/-- A channel that is due trains at once, or waits while another channel of its group trains. -/
def dueChannel (s : State) (c : Nat) : State :=
  if (capTraining s c).state ≠ 0 then s
  else
    let busy := (List.range 4).any (fun i => (capTraining s (4 * (c / 4) + i)).state == 2)
    setCap s c (fun t => { t with state := if busy then 1 else 2 })

def execDieRetrainDue (die : Nat) (why : RetrainWhy) (s : State) : Host.Outcome State Fault Refusal :=
  onOk (dieOk die) (
    let s := countSymbols s (pSTK die) why
    if triggers s (pSTK die) (stackTraining s die) why then dueDie s die else s)

def execChannelRetrainDue (ch : Nat) (why : RetrainWhy) (s : State) : Host.Outcome State Fault Refusal :=
  onOk (channelOk ch) (
    let s := countSymbols s (pCAP ch) why
    if triggers s (pCAP ch) (capTraining s ch) why then dueChannel s ch else s)

/-- No plan that claims a sconce of the die runs a step. -/
def dieIdle (s : State) (d : Nat) : Bool :=
  s.plans.all (fun e => e.2.run != .running || (planSconces e.2).all (fun sc => sc / 8 != d))

def execDieTrainingStart (die : Nat) (s : State) : Host.Outcome State Fault Refusal :=
  onOk (dieOk die) (
    if (stackTraining s die).state = 1 ∧ dieIdle s die then setStack s die (fun t => { t with state := 2 }) else s)

/-- A retraining attempt ends in READY. -/
def trained (t : Training) (temp : W16) : Training :=
  { t with state := 0, retrains := if t.retrains = 255 then 255 else t.retrains + 1, temp := temp, fails := 0 }

/-- Three attempts have failed: the page's RETRAIN_FAIL and a compute reset on the retraining path; when that reset is
the one that cannot train, the die or channel is dead until the next cold boot (R456). -/
def trainFail (s : State) (pg _n : Nat) (set : State → (Training → Training) → State) : State :=
  let s := logErr s pg 0 { status := stUncorr }
  if computeReset s = some true then set s (fun t => { t with state := 0, fails := 0, dead := true })
  else autoReset (set s (fun t => { t with fails := 0 })) 4 0 true

def execDieReady (die : Nat) (ok : Bool) (temp : BitVec 16) (s : State) : Host.Outcome State Fault Refusal :=
  onOk (dieOk die) (
    let t := stackTraining s die
    if t.state ≠ 2 then s
    else if ok then settle (logEvt (setStack s die (fun t => trained t temp)) (pSTK die) 0)
    else if t.fails < 2 then setStack s die (fun t => { t with fails := t.fails + 1 })
    else trainFail s (pSTK die) die (fun s f => setStack s die f))

/-- The channel of a group that has waited for its turn trains: the lowest in index. -/
def nextChannel (s : State) (g : Nat) : State :=
  let chs := (List.range 4).map (fun i => 4 * g + i)
  if chs.any (fun c => (capTraining s c).state == 2) then s
  else match chs.find? (fun c => (capTraining s c).state == 1) with
    | some c => setCap s c (fun t => { t with state := 2 })
    | none => s

def execChannelReady (ch : Nat) (ok : Bool) (s : State) : Host.Outcome State Fault Refusal :=
  onOk (channelOk ch) (
    let t := capTraining s ch
    if t.state ≠ 2 then s
    else if ok then
      settle (nextChannel (logEvt (setCap s ch (fun t => trained t (sensorReading s 64))) (pCAP ch) 0) (ch / 4))
    else if t.fails < 2 then setCap s ch (fun t => { t with fails := t.fails + 1 })
    else nextChannel (trainFail s (pCAP ch) ch (fun s f => setCap s ch f)) (ch / 4))

/-- A write of RETRAIN_CMD on an STK or CAP page. -/
def retrainWrite (s : State) (src : RegSrc) (page : Nat) (v : W64) : State :=
  pfOnly s src (rk page 0x110) (fun s =>
    if !bit v.toNat 0 then s
    else if 26 ≤ page ∧ page < 34 then dueDie s (page - 26)
    else if 34 ≤ page ∧ page < 58 then dueChannel s (page - 34)
    else s)

def execRetrainCmd (src : RegSrc) (page : Nat) (v : W64) (s : State) : Host.Outcome State Fault Refusal :=
  onOk (src.ok && pageOk page) (if 26 ≤ page ∧ page < 58 then retrainWrite s src page v else s)

end Sys2Proof.Machine
end

