-- ==== Sys2Proof/Machine/Rebuilds.lean ====
section
/-! DEFINITION. REBUILD on either side, and LOST_CMD (15 R432 to R437, R443). -/
namespace Sys2Proof.Machine

/-- The bits of bytes 16 to 63 that REBUILD uses (R433). -/
def rebuildFields : List (Nat × Nat) := [(128, 8), (144, 10), (160, 6), (176, 16), (192, 13), (224, 17), (256, 32)]

/-- The rebuild that a command describes. -/
def rebuildOf (s : State) (c : Cmd) (send : Bool) : Rebuild :=
  { id := s.store.nextTwin, send := send, q := c.q, tag := c.idx, peer := BitVec.ofNat 10 (c.f 18 2),
    srcHome := BitVec.ofNat 6 (c.f 20 1), extent := BitVec.ofNat 16 (c.f 22 2), count := c.f 24 2,
    counter := c.f 28 4, stallUs := c.f 32 4, done := 0, copied := 0, open_ := 0, bad := 0, badLine := 0 }

/-- The source extents of a rebuild. -/
def rebuildExtents (r : Rebuild) : List Nat := (List.range r.count).map (· + r.extent.toNat)

/-- Valid entries of the mirror map. -/
def mirrorUsed (s : State) : Nat := (s.store.mirror.filter (fun e => e.2.getLsbD 22)).length

/-- What SEND requires (R435). -/
def sendStatus (s : State) (r : Rebuild) : Status :=
  if r.count = 0 ∨ 4096 < r.count then stFormat
  else if r.srcHome = s.store.homeId then
    if (rebuildExtents r).all (fun x => (mirrorOf s x).isSome) then 0 else stFormat
  else if !(rebuildExtents r).all (fun x => (rebuildExtent s r.srcHome x true).isSome) then stFormat
  else if 4096 < mirrorUsed s + r.count then stQuota else 0

/-- What RECEIVE requires (R433, R434). -/
def receiveStatus (s : State) (r : Rebuild) : Status :=
  if r.count = 0 ∨ 4096 < r.count then stFormat
  else if counterOwner s r.counter ≠ 0 then stPerm
  else if (rebuildExtents r).all (fun x => match rebuildExtent s r.srcHome x false with
      | some l => decide ((l + 1) * 2 ^ 30 ≤ s.store.homeLen)
      | none => false) then 0
  else stFormat

def startRebuild (s : State) (r : Rebuild) : State :=
  s.setStore (fun z => { z with rebuild := some r, nextTwin := z.nextTwin + 1 })

def execRebuildSend (q : Nat) (e : W512) (s : State) : Host.Outcome State Fault Refusal :=
  cmdRow q e (opcodeOf e == 0x0D && fld e 16 1 == 1) rebuildFields .work (fun c s =>
    let r := rebuildOf s c true
    let st := if s.store.rebuild.isSome then stBusy else sendStatus s r
    some (if st ≠ 0 then failCmd s c st else startRebuild s r)) s

/-- Every block of some local extents is marked LOST. -/
def markLost (s : State) (xs : List Nat) : State :=
  xs.foldl (fun s x => (List.range extentBlocks).foldl (fun s i =>
    blockSet s (extentBlocks * x + i) (fun k => { k with lost := true })) s) s

def execRebuildReceive (q : Nat) (e : W512) (s : State) : Host.Outcome State Fault Refusal :=
  cmdRow q e (opcodeOf e == 0x0D && fld e 16 1 == 2) rebuildFields .work (fun c s =>
    let r := rebuildOf s c false
    let st := if s.store.rebuild.isSome then stBusy else receiveStatus s r
    some (if st ≠ 0 then failCmd s c st
      else startRebuild (markLost (hubSet s r.counter 0)
        ((rebuildExtents r).map (fun x => (rebuildExtent s r.srcHome x false).getD 0))) r)) s

/-- The mirror-map entries after SEND (R436): an entry of the own home takes the spare as its partner and is no longer
DEGRADED; a served guest extent gets a new entry. -/
def mirrorAfter (s : State) (r : Rebuild) (x : Nat) : State :=
  let l := (rebuildExtent s r.srcHome x true).getD 0
  let peer := r.peer.toNat % 64
  match mirrorOf s l with
  | some (i, v) =>
    let w := BitVec.ofNat 64 (bits v.toNat 0 16 + 2 ^ 16 * peer) ||| (v &&& (0xC00000 : W64))
    s.setStore (fun z => { z with mirror := tput z.mirror i w })
  | none =>
    match (List.range 4096).find? (fun i => !(tget 0 s.store.mirror i).getLsbD 22) with
    | some i =>
      let w := BitVec.ofNat 64 (l + 2 ^ 16 * peer + 2 ^ 22)
      s.setStore (fun z => { z with mirror := tput z.mirror i w })
    | none => s

/-- SEND has copied every block, and the spare has acknowledged the last. -/
def execRebuildSendDone (s : State) : Host.Outcome State Fault Refusal :=
  .next (match s.store.rebuild with
  | none => s
  | some r =>
    if r.send ∧ r.bad = 0 ∧ r.open_ = 0 ∧ r.copied = rebuildTotal r ∧ r.done = r.copied then
      settle (finishRebuild ((rebuildExtents r).foldl (fun s x => mirrorAfter s r x) s) r 0)
    else s)

/-- RECEIVE's counter has not advanced for STALL µs. -/
def execRebuildStall (s : State) : Host.Outcome State Fault Refusal :=
  .next (match s.store.rebuild with
  | none => s
  | some r =>
    if r.send ∨ r.done < (hubGet s r.counter).toNat then s else settle (finishRebuild s r stLost))

/-- A write of LOST_CMD: with GO it marks whole extents of this home; one that
reaches beyond HOME_LEN is refused. -/
def lostWrite (s : State) (src : RegSrc) (v : W64) : State :=
  pfOnly s src (rk pPLC 0x250) (fun s =>
    let x := bits v.toNat 0 16
    let n := bits v.toNat 16 13
    if !v.getLsbD 32 then s
    else if s.store.homeLen < (x + n) * 2 ^ 30 then s
    else markLost s ((List.range n).map (· + x)))

def execLostCmd (src : RegSrc) (v : W64) (s : State) : Host.Outcome State Fault Refusal := onOk src.ok (lostWrite s src v)

end Sys2Proof.Machine
end

