-- ==== Sys2Proof/Machine/Lanes.lean ====
section
/-! DEFINITION. The optical layer: codewords, lanes and their training, ports with lanes missing, and the light supply
(04 R95 to R117; 05 R122, R134, R145). -/
namespace Sys2Proof.Machine

/-! ### Lanes of a port (R95, R108) -/

/-- Lane index of data lane `d`. -/
def laneOfData (d : Nat) : Nat := if d < 2 then d else d + 1
/-- The data lane of a lane index. -/
def dataOfLane (k : Nat) : Option Nat := if k < 2 then some k else if k = 2 ∨ 4 < k then none else some (k - 1)

def portLane (p : Port) (k : Nat) : Lane := p.lanes.getD k Lane.off
def setLane (s : State) (n k : Nat) (f : Lane → Lane) : State :=
  s.setPort n (fun p => { p with lanes := listSet p.lanes k f })

abbrev lnOff : BitVec 3 := 0
abbrev lnTune : BitVec 3 := 1
abbrev lnTrain : BitVec 3 := 2
abbrev lnActive : BitVec 3 := 3
abbrev lnRetrain : BitVec 3 := 4
abbrev lnFailed : BitVec 3 := 5
abbrev lnDisabled : BitVec 3 := 6

def laneActive (p : Port) (k : Nat) : Bool := (portLane p k).state == lnActive

/-- The data lanes that this end offers: those in ACTIVE (R112). -/
def offered (p : Port) : BitVec 4 :=
  BitVec.ofNat 4 (((List.range 4).filter (fun d => laneActive p (laneOfData d))).map (2 ^ ·)).sum

/-- A data-lane map without the lane that carries control traffic. -/
def withoutCtl (p : Port) (m : BitVec 4) : BitVec 4 :=
  match dataOfLane p.ctlLane.toNat with
  | some d => m &&& ~~~(BitVec.ofNat 4 (2 ^ d))
  | none => m

/-- Port enabled by CTRL.ENABLE. -/
def portOn (s : State) (n : Nat) : Bool := (regGet s (rk (pLNT n) 0x10)).getLsbD 0
def portCfg (s : State) (n : Nat) : Nat := (regGet s (rk (pLNT n) 0x108)).toNat

/-! ### Port state (R113; 05 R134, R145) -/

def portStateOf (s : State) (n : Nat) : BitVec 4 :=
  let p := s.port n
  let w := min (popc 4 p.txUse.toNat) (popc 4 p.rxUse.toNat)
  if !portOn s n then 0
  else if s.lantern.dark then 5
  else if bits (portCfg s n) 4 3 ≤ w ∧ laneActive p p.ctlLane.toNat then (if w = 4 ∧ p.ctlLane = 2 then 3 else 4)
  else if 3 ≤ p.state.toNat then 5
  else if p.lanes.any (fun l => decide (2 ≤ l.state.toNat ∧ l.state.toNat ≤ 4)) then 2
  else if p.lanes.any (fun l => l.state == lnTune) then 1
  else 5

/-- Allocations per sub-class from the CLASS_CELLS registers (05 R144). -/
def allocations (s : State) (n : Nat) : List W16 :=
  let a := (regGet s (rk (pLNT n) 0x300)).toNat
  let b := (regGet s (rk (pLNT n) 0x308)).toNat
  ((List.range 8).map (fun i => BitVec.ofNat 16 (bits a (16 * (i / 2)) 16 / 2))) ++
    [BitVec.ofNat 16 (bits b 0 16), BitVec.ofNat 16 (bits b 16 16), 0, 0]

/-- A record of an optical fault. -/
def portFail (s : State) (n b k : Nat) : State := logErr s (pLNT n) b { status := stPathLost, info := k }

/-- The port's state follows its lanes: a port that becomes live sends its allocations as credit; one that enters DOWN
discards what it has queued. -/
def refreshPort (s : State) (n : Nat) : State :=
  let was := portLive s n
  let st := portStateOf s n
  let down := (s.port n).state != 5 && st == 5
  let s := s.setPort n (fun p => { p with state := st })
  if !was ∧ portLive s n then
    let zero := List.replicate 12 (0 : W16)
    let s := s.setPort n (fun p => { p with credit := zero, sent := zero, received := zero, freed := allocations s n,
                                            creditDue := false, framingLost := false })
    emit s (.ctl n { mkCtl s 1 0 0 (creditBody (s.port n)) with src := 0, epoch := 0 })
  else if was ∧ ¬ portLive s n then
    let s := s.setPort n (fun p => { p with queue := [], ctlQueue := [] })
    if down then portFail s n 1 0 else s
  else s

/-- A lane's change is followed by the map that this end offers and by the port's state. -/
def lanesChanged (s : State) (n : Nat) : State :=
  refreshPort (s.setPort n (fun p => { p with txMap := offered p })) n

/-! ### Training and retraining (R106, R107, R109 to R111) -/

/-- A lane starts from OFF: its rings' starting codes combine the factory values with the user offsets. -/
def tuneLane (s : State) (n k : Nat) : State :=
  let t := calValue s itRing (10 * n + k)
  let r := calValue s itRing (10 * n + 5 + k)
  let s := setLane s n k (fun l => { l with state := lnTune, lock := false, signal := false, wait := false, failed := 0,
                                            retrainReq := false, tx := BitVec.ofInt 12 t.1, rx := BitVec.ofInt 12 r.1 })
  if t.2 || r.2 then logErr s (pLNT n) 3 { status := stFormat, info := k } else s

/-- Every lane of an enabled port trains as from OFF. -/
def tunePort (s : State) (n : Nat) : State :=
  let s := s.setPort n (fun p => { p with txUse := 0, rxUse := 0, txMap := 0, rxMap := 0, ctlLane := 2, failReq := false,
                                          framingLost := false })
  lanesChanged ((List.range 5).foldl (fun s k =>
    if (portLane (s.port n) k).state = lnDisabled then s else tuneLane s n k) s) n

/-- The retraining of a data lane has ended: the waiting lane of the lowest index takes its turn. -/
def nextWaiting (s : State) (n : Nat) : State :=
  let p := s.port n
  if (List.range 4).any (fun d => let l := portLane p (laneOfData d); l.state == lnRetrain && !l.wait) then s
  else match (List.range 5).find? (fun k => (portLane p k).wait) with
    | some k => setLane s n k (fun l => { l with wait := false })
    | none => s

/-- A lane enters FAILED. -/
def failLane (s : State) (n k : Nat) : State :=
  let s := setLane s n k (fun l => { l with state := lnFailed, lock := false, wait := false, retrainReq := false })
  lanesChanged (nextWaiting (portFail s n 0 k) n) n

/-- A lane retrains: from ACTIVE on a condition of R110, or from ACTIVE or FAILED on a command. A data lane waits while
another one retrains. -/
def startRetrain (s : State) (n k : Nat) (command mine : Bool) : State :=
  let p := s.port n
  if !command && !bit (portCfg s n) 0 then failLane s n k
  else
    let busy := (dataOfLane k).isSome && (List.range 4).any (fun d =>
      laneOfData d != k && (let l := portLane p (laneOfData d); l.state == lnRetrain && !l.wait))
    let left := laneActive p k
    let s := setLane s n k (fun l => { l with
      state := lnRetrain, wait := busy, failed := 0, retrainReq := mine,
      retrains := if l.retrains = 255 then 255 else l.retrains + 1 })
    let s := if left then logEvt s (pLNT n) 0 else s
    let s := if k = p.ctlLane.toNat ∧ bit (portCfg s n) 1 then s.setPort n (fun p => { p with failReq := true }) else s
    lanesChanged s n

/-- A lane of an enabled, lit port. -/
def laneUsable (s : State) (n : Nat) : Bool := portOn s n && !s.lantern.dark

/-- A condition of R110 holds on a lane. -/
def retrainIf (s : State) (n k : Nat) (c : Bool) : State :=
  if c && laneUsable s n && laneActive (s.port n) k then startRetrain s n k false true else s

/-- A lane that is making an attempt. -/
def attempting (s : State) (n k : Nat) : Bool :=
  let l := portLane (s.port n) k
  laneUsable s n && (l.state == lnTune || l.state == lnTrain || (l.state == lnRetrain && !l.wait))

/-- An attempt ends with both ends' exchange complete: the lane is ACTIVE with its rings at the given codes, and both
ends offer it. -/
def execTrainingAttempt (port lane : Nat) (tx rx : BitVec 12) (s : State) : Host.Outcome State Fault Refusal :=
  onOk (portOk port && laneOk lane) (
    if !attempting s port lane || tx == 0 || tx == 0xFFF || rx == 0 || rx == 0xFFF then s
    else
      let s := setLane s port lane (fun l => { l with state := lnActive, lock := true, signal := true, failed := 0,
                                                      retrainReq := false, tx := tx, rx := rx })
      let s := s.setPort port (fun p => { p with met := true, rxMap := match dataOfLane lane with
        | some d => p.rxMap ||| BitVec.ofNat 4 (2 ^ d)
        | none => p.rxMap })
      lanesChanged (nextWaiting (logEvt s (pLNT port) 1) port) port)

/-- An attempt misses a bound: the next one starts; the third failure in a row of a lane whose peer has answered is
FAILED. -/
def execTrainingBoundMiss (port lane : Nat) (s : State) : Host.Outcome State Fault Refusal :=
  onOk (portOk port && laneOk lane) (
    if !attempting s port lane then s
    else
      let l := portLane (s.port port) lane
      if !(s.port port).met then s
      else if 3 ≤ l.failed + 1 then failLane s port lane
      else setLane s port lane (fun l => { l with failed := l.failed + 1, lock := false }))

/-- No peer has answered within 1 s of enabling. -/
def execNoPeerTimeout (port : Nat) (s : State) : Host.Outcome State Fault Refusal :=
  onOk (portOk port) (
    let p := s.port port
    if !laneUsable s port || p.met || p.noPeerSeen then s
    else portFail (s.setPort port (fun p => { p with noPeerSeen := true })) port 4 0)

def execUncorrWindow (port lane n : Nat) (s : State) : Host.Outcome State Fault Refusal :=
  onOk (portOk port && laneOk lane)
    (retrainIf s port lane (decide (bits (regGet s (rk (pLNT port) 0x190)).toNat 0 8 < n)))

def execSerWindow (port lane corrected symbols : Nat) (s : State) : Host.Outcome State Fault Refusal :=
  onOk (portOk port && laneOk lane)
    (retrainIf s port lane
      (decide (symbols < corrected * 10 ^ bits (regGet s (rk (pLNT port) 0x190)).toNat 8 4)))

/-- A locked ring's heater reaches the end of its range: `rx` names the drop filter, `top` code 0xFFF. -/
def execRingLockLoss (port lane : Nat) (rx top : Bool) (s : State) : Host.Outcome State Fault Refusal :=
  onOk (portOk port && laneOk lane) (
    if !(portLane (s.port port) lane).lock || !portOn s port then s
    else
      let c : BitVec 12 := if top then 0xFFF else 0
      let s := setLane s port lane (fun l => { l with lock := false, tx := if rx then l.tx else c,
                                                      rx := if rx then c else l.rx })
      retrainIf (portFail s port 2 lane) port lane true)

/-! ### Loss of signal (R105) -/

def execLossOfSignal (port lane : Nat) (s : State) : Host.Outcome State Fault Refusal :=
  onOk (portOk port && laneOk lane) (setLane s port lane (fun l => { l with signal := false }))

def execSignalReturn (port lane : Nat) (s : State) : Host.Outcome State Fault Refusal :=
  onOk (portOk port && laneOk lane) (
    if laneUsable s port && laneActive (s.port port) lane then setLane s port lane (fun l => { l with signal := true })
    else s)

def execSignalLossTimeout (port lane : Nat) (s : State) : Host.Outcome State Fault Refusal :=
  onOk (portOk port && laneOk lane) (retrainIf s port lane (!(portLane (s.port port) lane).signal))

/-! ### Maps and control traffic (R112, R113, R115) -/

/-- The map of both ends takes effect in one direction. -/
def execActiveMapChange (port : Nat) (tx : Bool) (map : BitVec 4) (s : State) : Host.Outcome State Fault Refusal :=
  onOk (portOk port) (
    let p := s.port port
    if !laneUsable s port || map != p.txMap &&& p.rxMap then s
    else
      let m := withoutCtl p map
      let s' := s.setPort port (fun p => if tx then { p with txUse := m } else { p with rxUse := m })
      refreshPort (if (if tx then p.txUse else p.rxUse) = m then s' else logEvt s' (pLNT port) 2) port)

/-- The data lane to which control traffic fails over: the highest in use in both directions. -/
def failoverLane (p : Port) : Option Nat :=
  ([3, 2, 1, 0].find? (fun d => p.txUse.getLsbD d && p.rxUse.getLsbD d && laneActive p (laneOfData d))).map laneOfData

/-- Control traffic moves to a lane; the data lanes in use follow. -/
def moveControl (s : State) (n k : Nat) : State :=
  let s := s.setPort n (fun p =>
    let p := { p with ctlLane := BitVec.ofNat 3 k, failReq := false }
    { p with txUse := withoutCtl p (p.txMap &&& p.rxMap), rxUse := withoutCtl p (p.txMap &&& p.rxMap) })
  refreshPort (logEvt (logEvt s (pLNT n) 3) (pLNT n) 2) n

def execControlFailover (port : Nat) (s : State) : Host.Outcome State Fault Refusal :=
  onOk (portOk port) (
    let p := s.port port
    if !laneUsable s port || !bit (portCfg s port) 1 || (laneActive p p.ctlLane.toNat && !p.failReq) then s
    else match failoverLane p with
      | some k => moveControl s port k
      | none => s)

def execControlReturn (port : Nat) (s : State) : Host.Outcome State Fault Refusal :=
  onOk (portOk port) (
    let p := s.port port
    if laneUsable s port && laneActive p 2 && p.ctlLane != 2 then moveControl s port 2 else s)

/-! ### Enabling a port, lane commands (R109, R116) -/

/-- A write of CTRL.ENABLE. -/
def portWrite (s : State) (src : RegSrc) (n : Nat) (on : Bool) : State :=
  pfOnly s src (rk (pLNT n) 0x10) (fun s =>
    if on = portOn s n then s
    else
      let s := s.setReg (rk (pLNT n) 0x10) (BitVec.ofNat 64 (b2n on))
      let s := s.setPort n (fun p => { p with
        lanes := p.lanes.map (fun l => { Lane.off with retrains := l.retrains, tx := l.tx, rx := l.rx })
        met := false, noPeerSeen := false, cwSeqTx := 0, txUse := 0, rxUse := 0, txMap := 0, rxMap := 0 })
      if on ∧ ¬ s.lantern.dark then tunePort s n else lanesChanged s n)

def execPortEnable (src : RegSrc) (port : Nat) (s : State) : Host.Outcome State Fault Refusal :=
  onOk (src.ok && portOk port) (portWrite s src port true)
def execPortDisable (src : RegSrc) (port : Nat) (s : State) : Host.Outcome State Fault Refusal :=
  onOk (src.ok && portOk port) (portWrite s src port false)

/-- A write of LANE_CMD. -/
def laneCommand (s : State) (src : RegSrc) (n k cmd : Nat) : State :=
  pfOnly s src (rk (pLNT n) 0x110) (fun s =>
    let st := (portLane (s.port n) k).state
    if 4 < k ∨ ¬ portOn s n then s
    else match cmd with
    | 1 => if laneUsable s n && (st == lnActive || st == lnFailed) then startRetrain s n k true true else s
    | 2 =>
      let s := setLane s n k (fun l => { l with state := lnDisabled, lock := false, signal := false, wait := false,
                                                retrainReq := false })
      lanesChanged (nextWaiting s n) n
    | 3 => if laneUsable s n && (st == lnDisabled || st == lnFailed) then lanesChanged (tuneLane s n k) n else s
    | _ => s)

def execLaneRetrain (src : RegSrc) (port : Nat) (lane : BitVec 3) (s : State) : Host.Outcome State Fault Refusal :=
  onOk (src.ok && portOk port) (laneCommand s src port lane.toNat 1)
def execLaneDisable (src : RegSrc) (port : Nat) (lane : BitVec 3) (s : State) : Host.Outcome State Fault Refusal :=
  onOk (src.ok && portOk port) (laneCommand s src port lane.toNat 2)
def execLaneEnable (src : RegSrc) (port : Nat) (lane : BitVec 3) (s : State) : Host.Outcome State Fault Refusal :=
  onOk (src.ok && portOk port) (laneCommand s src port lane.toNat 3)

/-! ### Codewords (R97 to R100, R112; 05 R122, R146) -/

/-- Cells taken from a codeword are counted as received. -/
def countCells (s : State) (n : Nat) (cells : List W16) : State :=
  s.setPort n (fun p => { p with
    received := (List.range 12).map (fun i => p.received.getD i 0 + cells.getD i 0) })

/-- What a corrected lane header says. -/
def takeHeader (s : State) (n k h : Nat) : State :=
  let s := s.setPort n (fun p => { p with rxMap := BitVec.ofNat 4 (bits h 6 4), cwSeqRx := BitVec.ofNat 8 (bits h 12 8),
                                          failReq := p.failReq || bit h 10 })
  let s := setLane s n k (fun l => { l with signal := true })
  if bit h 11 ∧ laneActive (s.port n) k then startRetrain s n k false false else s

/-- A codeword on a lane in TRAIN, ACTIVE or RETRAIN. One with more symbol errors than the code corrects is discarded
whole; a discarded codeword of a data lane in use costs the cells up to the next mark stripe. -/
def execCodewordReceive (port lane : Nat) (cw : Codeword) (s : State) : Host.Outcome State Fault Refusal :=
  onOk (portOk port && laneOk lane) (
    let p := s.port port
    let st := (portLane p lane).state
    let inUse := ((dataOfLane lane).map p.rxUse.getLsbD).getD false
    let discard : State :=
      let s := bump s (rk (pLNT port) (0x168 + 8 * lane)) 32 1
      if inUse then s.setPort port (fun p => { p with framingLost := true }) else s
    if !laneUsable s port || !(st == lnTrain || st == lnActive || st == lnRetrain) then s
    else match cw with
      | .bad => discard
      | .good h n cells =>
        if 15 < n then discard
        else
          let s := if n = 0 then s else bump s (rk (pLNT port) (0x140 + 8 * lane)) 48 n
          let kind := bits h.toNat 0 2
          if kind = 3 ∨ bits h.toNat 2 3 ≠ lane then s
          else
            let s := if kind = 0 ∧ (inUse ∨ lane = p.ctlLane.toNat) then countCells s port cells else s
            takeHeader s port lane h.toNat)

/-! ### Light supply (R101 to R104) -/

/-- An input feeds all five wavelengths. -/
def litFull (m : BitVec 5) : Bool := m == 31

def setLit (s : State) (a b : BitVec 5) : State := { s with lantern := { s.lantern with litA := a, litB := b } }
def activeLit (s : State) : Bool := litFull (if s.lantern.activeB then s.lantern.litB else s.lantern.litA)
def otherLit (s : State) : Bool := litFull (if s.lantern.activeB then s.lantern.litA else s.lantern.litB)
def autoSwitch (s : State) : Bool := (regGet s (rk (pLNT 0) 0x200)).getLsbD 0

/-- The selector moves to the other input and the boosters are biased anew. What the count of switchovers does past
its field is free. -/
def switchInput (s : State) : State :=
  let s := if s.lantern.switches = 0xFFFF then
      let (f, s) := draw s
      { s with lantern := { s.lantern with switches := f.setWidth 16 } }
    else { s with lantern := { s.lantern with switches := s.lantern.switches + 1 } }
  applyBoosters (logEvt { s with lantern := { s.lantern with activeB := !s.lantern.activeB } } (pLNT 0) 8)

/-- Every port is without light. -/
def loseLight (s : State) : State :=
  if s.lantern.dark then s
  else
    let s := logErr { s with lantern := { s.lantern with dark := true } } (pLNT 0) 10 { status := stPathLost }
    (List.range 10).foldl (fun s n =>
      if portOn s n then
        let s := s.setPort n (fun p => { p with txUse := 0, rxUse := 0, lanes := p.lanes.map (fun l =>
          if l.state = lnActive then { l with state := lnRetrain, signal := false, wait := false }
          else { l with signal := false }) })
        lanesChanged s n
      else s) s

/-- Light is back: every enabled port trains as from OFF. -/
def regainLight (s : State) : State :=
  if !s.lantern.dark then s
  else (List.range 10).foldl (fun s n => if portOn s n then tunePort s n else s)
    { s with lantern := { s.lantern with dark := false } }

/-- The active input fails and the controller switches by itself; the eighth switchover within 1 s is its last. -/
def autoSwitchover (s : State) (within1s : Bool) : State :=
  let n := if within1s then s.lantern.recent + 1 else 1
  let s := switchInput { s with lantern := { s.lantern with recent := n } }
  if 8 ≤ n then
    logErr { s.setReg (rk (pLNT 0) 0x200) 0 with lantern := { s.lantern with recent := 0 } } (pLNT 0) 9
      { status := stPathLost }
  else s

/-- `within1s`: this switchover lies within 1 s of the first of the recent ones. -/
def execLossOfLight (litA litB : BitVec 5) (within1s : Bool) (s : State) : Host.Outcome State Fault Refusal :=
  .next (
    let s := setLit s litA litB
    if activeLit s ∨ s.lantern.dark then s
    else if otherLit s ∧ autoSwitch s then autoSwitchover s within1s
    else loseLight s)

def execLasersLost (litA litB : BitVec 5) (s : State) : Host.Outcome State Fault Refusal :=
  .next (
    let s := setLit s litA litB
    if activeLit s ∨ (otherLit s ∧ autoSwitch s) then s else loseLight s)

def execLightRestored (litA litB : BitVec 5) (s : State) : Host.Outcome State Fault Refusal :=
  .next (
    let s := setLit s litA litB
    if !s.lantern.dark then s
    else if activeLit s then regainLight s
    else if otherLit s ∧ autoSwitch s then regainLight (switchInput s)
    else s)

/-- A write of LASER_CMD. -/
def laserWrite (s : State) (src : RegSrc) (v : W64) : State :=
  pfOnly s src (rk (pLNT 0) 0x210) (fun s =>
    if !v.getLsbD 0 then s
    else if !otherLit s then refuse s (pLNT 0) 8 0x210
    else regainLight (switchInput s))

def execSwitch (src : RegSrc) (v : W64) (s : State) : Host.Outcome State Fault Refusal := onOk src.ok (laserWrite s src v)

end Sys2Proof.Machine
end

