-- ==== Sys2Proof/Machine/Host.lean ====
section
/-! DEFINITION. The host link: CXL.mem requests, back-invalidate answers, the host's loss and sweeps, HDM decoders,
resets of functions and of the link, configuration requests, BAR4, forwarding slots, the memory-device mailbox and the
DOE mailbox (13 R359 to R386; 14 R401; 16 R444, R452). -/
namespace Sys2Proof.Machine

/-! ### The link (R384, R385) -/

def dlActive (s : State) : Bool := s.host.linkStat.getLsbD 12
def cxlOn (s : State) : Bool := dlActive s && s.host.linkStat.getLsbD 10 && !s.host.stopped

/-- LINK_STAT changes; loss of DL_Active arms the dead-host timer and its return cancels it. -/
def setLink (s : State) (v : W64) : State :=
  let v := v &&& (0x1FFF : W64)
  if v = s.host.linkStat then s
  else
    let was := dlActive s
    logEvt (s.setHost (fun h => { h with
      deadTimer := if v.getLsbD 12 then false else h.deadTimer || was
      linkStat := v })) pHOST 1

def execLinkChange (stat : W64) (s : State) : Host.Outcome State Fault Refusal :=
  .next (if s.host.inReset ∨ ¬ s.power.mainOn then s else setLink s stat)

/-- DL_Active has been lost for 100 ms. -/
def execDlInactiveTimeout (s : State) : Host.Outcome State Fault Refusal :=
  .next (if s.host.deadTimer && !dlActive s then hostDies s else s)

/-! ### CXL.mem requests (R365 to R367) -/

/-- The committed HDM decoder of a host address. -/
def decoderOf (s : State) (a : Nat) : Option Window :=
  (s.host.windows.map (·.2)).find? (fun w => w.committed && decide (w.base.toNat ≤ a ∧ a < w.base.toNat + w.size.toNat))

def hostAgent (s : State) : BitVec 10 := BitVec.ofNat 10 (bits (regGet s (rk pHOST 0x108)).toNat 0 10)

/-- A host request that fails before it is sent: its record, then its answer. -/
def hostFails (s : State) (a : W64) (write recorded : Bool) (f : Fail) : State :=
  if write then emit (hostWriteFails s f recorded) (.memCmp a)
  else emit (bump (if recorded then s else logRecord s pHOST f) (rk pHOST 0x140) 32 1) (.memData a (ones 64) true)

/-- A CXL.mem request: the decoder's context and view, the partition check, translation, the kind of window, then a
packet to the home for the host's agent. -/
def memRequest (s : State) (addr : W64) (opc intent : Nat) (payload : List Byte) (poison : Bool) (o : Origin) : State :=
  let write := opc != 0
  let a := addr.toNat / 64 * 64
  let f (st : Status) : Fail := { status := st, kind := 3, addr := a, agent := some (hostAgent s) }
  let w := (decoderOf s a).getD Window.off
  let part := (ctxOf s w.ctx).elim 0 (·.part)
  let p := { mkReq s opc .work part w.ctx (plainLeaf 0) 0 (if write then 0 else 64) payload with
    ekind := 0, eidx := BitVec.ofNat 12 ((hostAgent s).toNat + 1024 * intent) }
  match decoderOf s a, ctxOf s w.ctx with
  | none, _ => hostFails s addr write false (f stXlate)
  | _, none => hostFails s addr write false (f stPerm)
  | some w, some c =>
    let g (st : Status) : Fail := { f st with part := some c.part, ctx := some w.ctx }
    if poison then hostFails s addr write false (g stUncorr)
    else if !agentMay s (hostAgent s) c.part then hostFails s addr write false (g stPerm)
    else if partResetting s c.part then hostFails s addr write false (g stReset)
    else
      let dva := c.viewBase.toNat + (a - w.base.toNat)
      let who : Who := { eng := .work, part := c.part, ctx := w.ctx }
      match runEng (translate who .l2 (if write then .write else .read) dva) s with
      | none => s
      | some (.error st, t) => hostFails t addr write true (g st)
      | some (.ok (base, leaf), t) =>
        if leaf.c ≠ w.coherent then hostFails t addr write false (g stPerm)
        else submit t { pkt := onward t p leaf (saUnder base leaf dva) (hostAgent t) intent, origin := o } false

/-- The intent of a MetaValue: 0 Invalid, 1 Shared, 2 Any (R366); the operand's fourth value asks for nothing. -/
def metaIntent (m : BitVec 2) : Nat := if m = 3 then 0 else m.toNat

def execMemrd (addr : W64) (metaVal : BitVec 2) (s : State) : Host.Outcome State Fault Refusal :=
  .next (if cxlOn s then memRequest s addr 0 (metaIntent metaVal) [] false (.hostRead addr) else s)

/-- Exactly `n` bytes of data. -/
def fitTo (n : Nat) (d : List Byte) : List Byte := (d ++ zeros n).take n

/-- A MemWr: whole lines as WRITE, others as WRITE_MASKED with its byte enables. -/
def execMemwr (addr : W64) (metaVal : BitVec 2) (mask : W64) (data : List Byte) (poison : Bool) (s : State) :
    Host.Outcome State Fault Refusal :=
  .next (
    let d := fitTo 64 data
    if !cxlOn s then s
    else if mask = BitVec.allOnes 64 then memRequest s addr 1 (metaIntent metaVal) d poison (.hostWrite addr)
    else memRequest s addr 2 (metaIntent metaVal) (d ++ leBytes 8 mask.toNat ++ zeros 24) poison (.hostWrite addr))

/-! ### Back-invalidate (R376, R380) -/

/-- Removes a BISnp that the host has answered; one that waited goes out. -/
def dropBisnp (s : State) (line : Nat) : State :=
  let waiting := s.host.bisnp.drop bisnpMax
  let s := s.setHost (fun h => { h with bisnp := h.bisnp.eraseP (fun b => b.1 == line) })
  match waiting with
  | b :: _ => emit s (.bisnp b.2.1 b.1)
  | [] => s

/-- The host's BIRsp, with the line that it wrote back; one that no BISnp waits for is an orphan (R380; log entry 94). -/
def execBirsp (line : Nat) (dirty : Option (List Byte)) (s : State) : Host.Outcome State Fault Refusal :=
  .next (match (s.host.bisnp.take bisnpMax).find? (fun b => b.1 = line) with
  | none => orphan s
  | some b =>
    let p := b.2.2
    let d := (dirty.map (fitTo 64)).getD []
    let s := dropBisnp s line
    if p.src = s.xbar.agentId then settleDir (dirAnswer s (homeLine s p) p.dst 0 d false) else answer s p 0 d)

def execBisnpTimeout (line : Nat) (s : State) : Host.Outcome State Fault Refusal :=
  .next (match (s.host.bisnp.take bisnpMax).find? (fun b => b.1 = line) with
  | none => s
  | some _ => hostDies (logErr s pHOST 2
      { status := stTargetDead, kind := 2, addr := 64 * line, agent := some (hostAgent s) }))

/-- A write of HOST_CMD. REVIVE waits for the DEAD sweep. -/
def hostCommand (s : State) (src : RegSrc) (die revive : Bool) : State :=
  pfOnly s src (rk pHOST 0x138) (fun s =>
    let s := if die then hostDies s else s
    let sweeping := s.dir.hostDue.isSome || (s.dir.sweep.map (·.hostDead)).getD false
    if revive ∧ s.host.dead ∧ ¬ sweeping then s.setHost (fun h => { h with dead := false }) else s)

def execDeclareDead (src : RegSrc) (s : State) : Host.Outcome State Fault Refusal :=
  onOk src.ok (hostCommand s src true false)
def execRevive (src : RegSrc) (s : State) : Host.Outcome State Fault Refusal := onOk src.ok (hostCommand s src false true)

/-! ### Sweeps and coherent windows (R381, R386) -/

/-- A write of SWEEP_CMD with GO. -/
def sweepWrite (s : State) (src : RegSrc) (agent : BitVec 10) (remove : Bool) : State :=
  pfOnly s src (rk pDIR 0x140) (fun s => if s.dir.sweep.isSome then s else startSweep s agent remove false)

def execDeadSweep (src : RegSrc) (agent : BitVec 10) (s : State) : Host.Outcome State Fault Refusal :=
  onOk src.ok (sweepWrite s src agent false)
def execRemoveSweep (src : RegSrc) (agent : BitVec 10) (s : State) : Host.Outcome State Fault Refusal :=
  onOk src.ok (sweepWrite s src agent true)

/-- Every entry of the directory. -/
abbrev dirEntries : W32 := 0x1000000

/-- A sweep ends when no transaction holds an entry that it has still to act on. -/
def execSweepEnd (s : State) : Host.Outcome State Fault Refusal :=
  .next (if s.dir.sweep.isSome ∧ s.dir.txns = [] then
      nextSweep (logEvt (s.setDir (fun d => { d with sweep := none, walked := dirEntries })) pDIR 0)
    else s)

/-- The coherent window and the word of its agent maps that a source has selected. -/
def cwinSel (s : State) (src : RegSrc) : Nat × Nat :=
  let v := (regGet s (rkBank pDIR 0x100 (srcBank src))).toNat
  (bits v 0 4, bits v 4 4)

def wordOf (m : BitVec 1024) (i : Nat) : W64 := (m >>> (64 * i)).setWidth 64
def putWord (m : BitVec 1024) (i : Nat) (v : W64) : BitVec 1024 :=
  m &&& ~~~((BitVec.allOnes 64).setWidth 1024 <<< (64 * i)) ||| (v.setWidth 1024 <<< (64 * i))

/-- A write of CWIN_CACHE: an agent whose bit clears is swept. -/
def cacheWrite (s : State) (src : RegSrc) (v : W64) : State :=
  pfOnly s src (rk pDIR 0x110) (fun s =>
    let (n, i) := cwinSel s src
    let old := wordOf (tget CohWin.off s.dir.windows n).cache i
    let gone := ((List.range 64).filter (fun k => old.getLsbD k && !v.getLsbD k)).map (fun k => BitVec.ofNat 10 (64 * i + k))
    let put (s : State) : State := s.setDir (fun d => { d with
      windows := tmod CohWin.off d.windows n (fun w => { w with cache := putWord w.cache i v }) })
    match gone with
    | [] => put s
    | _ =>
      if s.dir.sweep.isSome then refuse s pDIR 3 0x110
      else nextSweep ((put s).setDir (fun d => { d with sweepDue := d.sweepDue ++ gone })))

/-- The row is the write that clears a bit. -/
def execCwinCacheClear (src : RegSrc) (v : W64) (s : State) : Host.Outcome State Fault Refusal :=
  onOk src.ok (cacheWrite s src v)

/-! ### HDM decoders (R88, R364, R365) -/

abbrev gib : Nat := 2 ^ 30

/-- A commit keeps R88 and R365. -/
def mayCommit (s : State) (w : Window) (base size : Nat) (coherent : Bool) (ways : Nat) : Bool :=
  !s.host.notFront && coherent == w.coherent && ways == 1 &&
  decide (base % gib = 0 ∧ size % gib = 0 ∧ gib ≤ size ∧ base + size ≤ 2 ^ 64) &&
  (match ctxOf s w.ctx with
   | some c => c.viewValid && c.viewLen.toNat == size
   | none => false)

def execHdmCommit (n : Nat) (base size : W64) (coherent : Bool) (ways : Nat) (s : State) :
    Host.Outcome State Fault Refusal :=
  .next (
    let w := tget Window.off s.host.windows n
    if 16 ≤ n ∨ w.committed ∨ s.host.stopped then s
    else
      let ok := mayCommit s w base.toNat size.toNat coherent ways
      let w' := if ok then { w with committed := true, base := base, size := size, status := 0 }
        else { w with status := stFormat }
      let s := s.setHost (fun h => { h with windows := tput h.windows n w' })
      if ok then s else logErr s pHOST 1 { status := stFormat })

/-! ### Resets from the host (R362; 16 R452) -/

/-- Keys of configuration space: function, then dword. -/
def cfgKey (fn : BitVec 6) (off : BitVec 12) : Nat := 4096 * fn.toNat + off.toNat / 4 * 4

/-- A function that answers: the physical one, and with VF Enable the virtual ones. -/
def functionOn (s : State) (fn : BitVec 6) : Bool := fn == 0 || s.host.vfEnable

/-- FLR of a virtual function: its configuration space, and a reset of its partition. -/
def execFunctionLevelReset (n : BitVec 6) (s : State) : Host.Outcome State Fault Refusal :=
  .next (if n = 0 ∨ ¬ functionOn s n ∨ s.host.stopped then s
    else autoReset (s.setHost (fun h => { h with cfgSpace := h.cfgSpace.filter (fun e => e.1 / 4096 ≠ n.toNat) }))
      3 n.toNat false)

/-- The host-link island is reset: what the host configured, queues with rings in its memory, the host itself. -/
def resetHostLink (s : State) : State :=
  let s := s.setHost (fun h => { h with
    cfgSpace := [], vfEnable := false, ide := [], ideGo := [],
    windows := h.windows.map (fun (e : Nat × Window) => (e.1, { e.2 with committed := false, base := 0, size := 0 })) })
  let s := s.setXlt (fun x => { x with atc := [] })
  let s := s.work.queues.foldl (fun s e =>
    if qEnabled e.2 && (ringHost e.2.ring || ringHost e.2.cpl) then stopQueue s e.1 stReset else s) s
  hostDies (setLink s 0)

def execHostLinkReset (perst : Bool) (s : State) : Host.Outcome State Fault Refusal :=
  .next (
    if !s.power.mainOn then s
    else if perst then
      if !s.power.perstN then s
      else resetHostLink ((s.setPower (fun p => { p with perstN := false })).setHost (fun h => { h with inReset := true }))
    else if s.host.inReset ∨ ¬ dlActive s then s
    else resetHostLink s)

def execPerstRelease (s : State) : Host.Outcome State Fault Refusal :=
  .next (if s.power.perstN then s
    else (s.setPower (fun p => { p with perstN := true, heldNow := p.heldNow &&& 1 })).setHost
      (fun h => { h with inReset := false }))

/-- A configuration request. A register that nothing has written reads a free value; VF Enable is bit 0 of the SR-IOV
Control register. -/
def execConfigRequest (fn : BitVec 6) (write : Bool) (off : BitVec 12) (v : W32) (s : State) :
    Host.Outcome State Fault Refusal :=
  .next (
    if !dlActive s then s
    else if s.host.stopped then emit s .barUR
    else if s.lamp.booting then emit s .cfgRetry
    else if !functionOn s fn then emit s .barUR
    else
      let k := cfgKey fn off
      let vf := decide (fn = 0 ∧ k = Config.sriovControl.toNat / 4 * 4)
      if write then
        let v := if vf && s.host.notFront then v &&& ~~~(1 : W32) else v
        s.setHost (fun h => { h with cfgSpace := tput h.cfgSpace k v,
                                     vfEnable := if vf then v.getLsbD 0 else h.vfEnable })
      else match tfind s.host.cfgSpace k with
        | some v => emit s (.cfgData v)
        | none =>
          let (f, s) := draw s
          emit (s.setHost (fun h => { h with cfgSpace := tput h.cfgSpace k (f.setWidth 32) })) (.cfgData (f.setWidth 32)))

/-! ### BAR4: the Reservoir (R363, R364; 17 R494) -/

/-- Reservoir bytes that a function may reach. -/
def reachesRsv (s : State) (src : RegSrc) (a n : Nat) : Bool :=
  decide (a + n ≤ Config.reservoirBytes) && (match src with
  | .vf v => (List.range n).all (fun i =>
      s.plans.any (fun e => e.2.part == BitVec.ofNat 6 v && planHasReservoir e.2 (a + i) 1))
  | _ => true)

/-- A BAR4 access by a function; the Lamplighter has no BAR4. -/
def execReservoirBarAccess (src : RegSrc) (off len : Nat) (write : Option (List Byte)) (s : State) :
    Host.Outcome State Fault Refusal :=
  onOk src.ok (
    let n := (write.map List.length).getD len
    let ur (s : State) : State := if write.isSome then s else emit s .barUR
    match src with
    | .lmp _ => s
    | _ =>
      if s.host.stopped ∨ (s.host.notFront ∧ src = .pf) then ur s
      else if n = 0 then s
      else if !reachesRsv s src off n then
        ur (logRecord s pRSV { status := stPerm, part := some (srcPart src) })
      else match write with
        | some d => reservoirWrite s off d
        | none =>
          if reservoirBad s off n then
            let w := (((wordsOf off n).find? s.badRsv.contains).getD 0) * 8
            emit (logErr s pRSV 0 { status := stUncorr, part := some (srcPart src), info := w }) (.barPoison (ones n))
          else emit s (.barData (reservoirRead s off n)))

/-! ### Forwarding slots (14 R401) -/

/-- The accelerator behind a slot, and its composition. -/
def slotAccel (s : State) (slot : Nat) : Option (Comp × Accel) :=
  s.work.comps.findSome? (fun e => if e.2.state = 1 then
    (e.2.accels.find? (fun a => a.slot == some slot)).map (fun a => (e.2, a)) else none)

def fwdPacket (s : State) (c : Comp) (a : Accel) (opc addr : Nat) (payload : List Byte) : Packet :=
  { mkReq s opc .work c.part 0 (plainLeaf 0) 0 (if opc = 0 then 64 else 0) payload with
    dst := a.agent, addr := BitVec.ofNat 57 (addr % 2 ^ 48), xl := false }

/-- What a function reaches through a slot: none is an Unsupported Request, or nothing at all. -/
def slotFor (s : State) (src : RegSrc) (slot : Nat) : Option (Comp × Accel) :=
  if s.host.stopped ∨ s.host.notFront then none
  else match slotAccel s slot with
  | some (c, a) => if c.part = srcPart src then some (c, a) else none
  | none => none

def execForwardWrite (src : RegSrc) (slot off : Nat) (data : List Byte) (s : State) : Host.Outcome State Fault Refusal :=
  onOk src.ok (match slotFor s src slot with
  | none => s
  | some (c, a) =>
    if 0x40000 < off + data.length then s
    else (linePieces (a.base.toNat + off) data.length).foldl (fun s e =>
      let o := e.1 % 64
      let d := slice data (e.1 - (a.base.toNat + off)) e.2
      sendNew s (fwdPacket s c a 2 (e.1 - o)
        (zeros o ++ d ++ zeros (64 - o - e.2) ++ leBytes 8 ((2 ^ e.2 - 1) * 2 ^ o) ++ zeros 24)) .forwardWrite) s)

/-- A read of up to 64 B inside one line. -/
def execForwardRead (src : RegSrc) (slot off len : Nat) (s : State) : Host.Outcome State Fault Refusal :=
  onOk src.ok (match slotFor s src slot with
  | none => emit s .barUR
  | some (c, a) =>
    let b := a.base.toNat + off
    if 0x40000 < off + len ∨ 64 < b % 64 + len then emit s .barUR
    else sendNew s (fwdPacket s c a 0 (b / 64 * 64) []) (.forwardRead len (b % 64)))

/-! ### The memory-device mailbox (R361): opcodes of CXL 3.1 -/

/-- An answer whose contents the manual leaves to the device: a free value. -/
def freeAnswer (s : State) (op : W16) (known : List AnsVal) : State :=
  let (f, s) := draw s
  emit s (.mailbox op true (known ++ [.num f.toNat]))

def execIdentifyMemoryDevice (s : State) : Host.Outcome State Fault Refusal :=
  .next (freeAnswer s 0x4000 [.num s.store.homeLen])
def execGetSupportedLogs (s : State) : Host.Outcome State Fault Refusal := .next (freeAnswer s 0x0400 [])
def execGetLog (id off len : Nat) (s : State) : Host.Outcome State Fault Refusal :=
  .next (freeAnswer s 0x0401 [.num id, .num off, .num len])

/-- The records of an event log: nothing in the manual adds one. -/
def execGetEventRecords (log : Nat) (s : State) : Host.Outcome State Fault Refusal :=
  .next (emit s (.mailbox 0x0100 true (s.host.events.getD log [])))
def execClearEventRecords (log n : Nat) (s : State) : Host.Outcome State Fault Refusal :=
  .next (emit (s.setHost (fun h => { h with events := h.events.modify log (·.drop n) })) (.mailbox 0x0101 true []))

/-- Health: the hub die's temperature, then what the manual leaves to the device. -/
def execGetHealthInfo (s : State) : Host.Outcome State Fault Refusal :=
  .next (freeAnswer s 0x4200 [.num (sensorReading s 64).toNat])
def execMailboxUnsupported (opcode : BitVec 16) (s : State) : Host.Outcome State Fault Refusal :=
  .next (emit s (.mailbox opcode false []))

/-! ### The DOE mailbox (R359) -/

/-- LINK_STAT.IDE follows the link stream. -/
def refreshIde (s : State) : State :=
  setLink s (if s.host.ideGo.contains 0 then s.host.linkStat ||| (0x800 : W64) else s.host.linkStat &&& ~~~ (0x800 : W64))

def execDoeRequest (req : DoeReq) (s : State) : Host.Outcome State Fault Refusal :=
  .next (
    if !dlActive s || s.host.stopped then s
    else match req with
    | .spdm c => emit s (.doe (Config.spdmAnswer c))
    | .ideKeyProg n k =>
      emit (if n ≤ 8 then s.setHost (fun h => { h with ide := tput h.ide n k }) else s) (.doe [])
    | .ideKeyGo n =>
      emit (if (tfind s.host.ide n).isSome then
        refreshIde (s.setHost (fun h => { h with ideGo := setInsert h.ideGo n })) else s) (.doe [])
    | .ideKeyStop n =>
      emit (refreshIde (s.setHost (fun h => { h with ideGo := h.ideGo.filter (· ≠ n) }))) (.doe []))

end Sys2Proof.Machine
end

