-- ==== Sys2Proof/Machine/Errs.lean ====
section
/-! DEFINITION. The error ring and its exports, the beacon, and the restarts of the Lamplighter that the hub watchdog
makes (15 R413 to R418, R441, R442; 19 R526). -/
namespace Sys2Proof.Machine

/-! ### The error ring (R413) -/

abbrev ringRecords : Nat := 262144

/-- The ring writer takes the oldest record of an island's queue: it gets its SEQ, the ring's place for that SEQ, and
the ERR_FIRST that waits for it gets the SEQ too. -/
def writeRecord (s : State) (island : Nat) : State :=
  match tget [] s.errs.queues island with
  | [] => s
  | (r, capture) :: rest =>
    let n := s.errs.seq
    let s := s.setErrs (fun e => { e with
      queues := tput e.queues island rest
      ring := tput e.ring (n.toNat % ringRecords) { r with seq := n }
      seq := n + 1 })
    match capture with
    | none => s
    | some p => s.setReg (rk p 0x30) ((regGet s (rk p 0x30) &&& 0xFFFFFFFF) ||| (n.setWidth 64 <<< 32))

def execErrorRecordWrite (island : BitVec 8) (s : State) : Host.Outcome State Fault Refusal :=
  .next (if s.power.mainOn then writeRecord s island.toNat else s)

/-! ### Export rings (R414, R415) -/

/-- The 64 bytes of a record (R409). -/
def recordBytes (r : Record) : List Byte :=
  let flags := r.addrKind.toNat + 2 ^ 3 * b2n r.suspect + 2 ^ 4 * b2n r.guilty + 2 ^ 5 * b2n r.agentV +
    2 ^ 6 * b2n r.partV + 2 ^ 7 * b2n r.ctxV
  leBytes 1 r.status.toNat ++ leBytes 1 r.island.toNat ++ leBytes 2 r.cls.toNat ++ leBytes 1 r.inst.toNat ++
  leBytes 1 flags ++ leBytes 2 r.suppressed.toNat ++ leBytes 8 r.addr.toNat ++ leBytes 8 r.tick.toNat ++
  leBytes 4 (r.ctx.toNat + 2 ^ 20 * r.part.toNat) ++ leBytes 2 r.agent.toNat ++ leBytes 2 r.temp.toNat ++
  leBytes 8 r.load.toNat ++ leBytes 8 r.info.toNat ++ leBytes 8 r.aux.toNat ++ leBytes 4 r.seq.toNat ++
  leBytes 1 r.errBit.toNat ++ zeros 3

def exportOf (s : State) (p : Nat) : Export := tget Export.off s.errs.exports p
def setExport (s : State) (p : Nat) (f : Export → Export) : State :=
  s.setErrs (fun e => { e with exports := tmod Export.off e.exports p f })

def Export.enabled (x : Export) : Bool := x.cfg.getLsbD 55
def Export.n (x : Export) : Nat := bits x.cfg.toNat 20 5
def Export.full (x : Export) : Bool := (x.head - x.tail).toNat == 2 ^ x.n

/-- Counts records that an export ring did not get. -/
def dropExport (s : State) (p n : Nat) : State := bump s (rkBank pLMP 0x150 p) 32 n

/-- An export continues with the records that the ring still holds; partition 0 counts those it no longer holds. -/
def skipLost (s : State) (p : Nat) : State :=
  let x := exportOf s p
  let behind := (s.errs.seq - x.next).toNat
  if behind ≤ ringRecords then s
  else
    let lost := behind - ringRecords
    let s := setExport s p (fun x => { x with next := x.next + BitVec.ofNat 32 lost })
    if p = 0 then dropExport s 0 lost else s

/-- Partition 0 exports every record, another partition those that name it. -/
def exported (p : Nat) (r : Record) : Bool := p == 0 || (r.partV && r.part.toNat == p)

/-- The next record to export: the first from `next` on that the partition exports. -/
def nextRecord (s : State) (p : Nat) : Option Record :=
  let x := exportOf s p
  let age (r : Record) : Nat := (r.seq - x.next).toNat
  let live := s.errs.ring.filter (fun e => exported p e.2 && decide (age e.2 < (s.errs.seq - x.next).toNat))
  live.foldl (fun m e => match m with
    | none => some e.2
    | some r => if age e.2 < age r then some e.2 else m) none

/-- For whom an export is written: the Lamplighter, in the export's context. -/
def exportWho (p : Nat) (x : Export) : Who :=
  { eng := .work, part := BitVec.ofNat 6 p, ctx := BitVec.ofNat 20 (bits x.cfg.toNat 0 20) }

/-- Copies one record to a partition's export ring. -/
def exportRecord (s : State) (p : Nat) (hc : HostCpl) : State :=
  let s := skipLost s p
  match nextRecord s p with
  | none => setExport s p (fun x => { x with next := s.errs.seq })
  | some r =>
    let x := exportOf s p
    let after (s : State) : State := setExport s p (fun x => { x with next := r.seq + 1 })
    if x.full then logEvt (dropExport (after s) p 1) pLMP 0
    else
      let a := bits x.ring.toNat 6 51 * 64 + 64 * (x.head.toNat % 2 ^ x.n)
      let w := exportWho p x
      let d := recordBytes r
      match runEng (if x.ring.getLsbD 63 then writeHost w hc a d else writeDva w .l2 a d) s with
      | none => s
      | some (.error _, t) => dropExport (after t) p 1
      | some (.ok _, t) =>
        let t := setExport (after t) p (fun x => { x with head := x.head + 1 })
        let t := if x.cfg.getLsbD 42 then
            sendCntAdd t t.xbar.agentId w.part (bits x.cfg.toNat 25 17) 1 (.exportAdd w.part) else t
        if x.cfg.getLsbD 54 then emit t (.msix p (bits x.cfg.toNat 43 11)) else t

/-- The Lamplighter serves: it neither restarts nor has been given up, and its firmware runs. -/
def lampServes (s : State) : Bool :=
  s.power.mainOn && !s.lamp.restarting && !s.lamp.gaveUp && !s.lamp.halted

def execRecordExport (part : BitVec 6) (hc : HostCpl) (s : State) : Host.Outcome State Fault Refusal :=
  .next (if lampServes s && (exportOf s part.toNat).enabled && !frozen s then exportRecord s part.toNat hc else s)

/-! ### The beacon (R416) -/

/-- One beacon. -/
def sendBeacon (s : State) : State :=
  let s := s.setLamp (fun l => { l with beacon := l.beacon + 1 })
  let n := s.lamp.beacon
  let a := regGet s (rk pLMP 0x108)
  let s := if a.getLsbD 0 && dlActive s && !s.host.stopped then
      let at_ := bits a.toNat 3 61 * 8
      emit { s with host := { s.host with mem := cellWrite s.host.mem at_ (leBytes 8 n.toNat) } }
        (.hostWrite at_ (leBytes 8 n.toNat))
    else s
  let s := (List.range 10).foldl (fun s k =>
    if portLive s k then emit s (.ctl k { mkCtl s 0xA 0 0 n.toNat with src := 0, epoch := 0 }) else s) s
  let id := s.store.homeId.toNat
  let tail := id + 2 ^ 8 * s.lamp.restarts.toNat + 2 ^ 16 * b2n s.lamp.gaveUp
  let body := leBytes 8 n.toNat ++ leBytes 8 s.lamp.moduleTime.toNat ++
    leBytes 8 (regGet s (rk pTOP 0x108)).toNat ++ leBytes 8 tail
  (List.range 2).foldl (fun s k => emit s (.frame 1 k none 0 [.bytes body])) s

def execBeacon (s : State) : Host.Outcome State Fault Refusal :=
  .next (if lampServes s && !s.lamp.booting then sendBeacon s else s)

end Sys2Proof.Machine
end

