-- ==== Sys2Proof/Machine/Views.lean ====
section
/-! DEFINITION. What a read of a register returns: the computed registers of every page, the wick windows, the arrays
and the doorbells, and what a virtual function sees of them (17 R469 to R492; the pages' own tables in 02 to 07, 09 to
16, 18 and 19). -/
namespace Sys2Proof.Machine

/-- A word from its fields: (lowest bit, value), each value within its field. -/
def word (l : List (Nat × Nat)) : W64 := BitVec.ofNat 64 ((l.map (fun e => e.2 * 2 ^ e.1)).sum)

def selBank (s : State) (p rel : Nat) (src : RegSrc) : Nat := (regGet s (rkBank p rel (srcBank src))).toNat

/-! ### The common header (R475, R476) -/

/-- Pages of which some virtual function sees something (R479). -/
def vfVisible (p : Nat) : Bool := p == pTOP || p == pLMP || p == pWORK || p == pPLAN || p == pMET || decide (90 ≤ p)

/-- A plan step runs on a sconce. -/
def sconceRuns (s : State) (sc : Nat) : Bool :=
  s.plans.any (fun e => e.2.run == .running && (planSconces e.2).contains sc)

def sconceQuiesced (s : State) (sc : Nat) : Bool := (s.sconce sc).quiesce && !sconceRuns s sc

/-- The block has finished its part of the cold boot; TOP, the whole cold boot. -/
def pageReady (s : State) (p : Nat) : Bool :=
  if p = pTOP then !s.lamp.booting else decide (9 ≤ s.lamp.bootStep.toNat)

/-- STATE of a page's STAT. -/
def pageState (s : State) (p : Nat) : Nat :=
  match (pageClass p).toNat with
  | 0x01 => if s.lamp.fatal then 4 else if s.lamp.halted then 3 else if s.lamp.booting then 0
      else if (computeReset s).isSome then 2 else 1
  | 0x11 => (s.port (p - 16)).state.toNat
  | 0x12 => (stackTraining s (p - 26)).state.toNat
  | 0x13 => (capTraining s (p - 34)).state.toNat
  | 0x14 => if s.store.flashDown.getLsbD (p - 58) then 2 else 0
  | 0x15 =>
    let c := s.sconce (p - 90)
    if !c.available then 0 else if c.resetting then 3 else if sconceQuiesced s (p - 90) then 4
    else if sconceRuns s (p - 90) then 2 else 1
  | _ => 0

def headerReg (s : State) (p rel : Nat) : W64 :=
  match rel with
  | 0x000 => word [(0, (pageClass p).toNat), (16, (pageInst p).toNat), (24, 1)]
  | 0x008 => word [(0, (pageBits p).1), (8, (pageBits p).2), (16, b2n ((pageClass p) == 0x11)), (17, b2n (90 ≤ p)),
      (18, b2n (90 ≤ p)), (19, b2n (vfVisible p))]
  | 0x010 => if 90 ≤ p then word [(1, b2n (s.sconce (p - 90)).quiesce), (2, b2n (s.sconce (p - 90)).resetting)]
      else regGet s (rk p 0x010)
  | 0x018 => word [(0, b2n (pageReady s p)), (1, b2n (decide (90 ≤ p) && sconceQuiesced s (p - 90))),
      (2, b2n (inReset s p)), (4, pageState s p)]
  | _ => regGet s (rk p rel)

/-! ### Registers of the hub pages -/

/-- Summary bits of pages 64 i to 64 i + 63 (R478, R488), limited to the pages that a source sees. -/
def summary (s : State) (src : RegSrc) (i : Nat) (f : State → Nat → Bool) : W64 :=
  let sees (p : Nat) : Bool := match src with
    | .vf n => decide (90 ≤ p) && (sconceOwner s (p - 90)).toNat == n
    | _ => true
  BitVec.ofNat 64 (((List.range 64).map (fun k =>
    if decide (64 * i + k < 154) && sees (64 * i + k) && f s (64 * i + k) then 2 ^ k else 0)).sum)

def topReg (s : State) (src : RegSrc) (rel : Nat) : W64 :=
  match rel with
  | 0x108 => ((regGet s (rk pTOP 0x108)).setWidth 56).setWidth 64 ||| word [(56, s.lamp.escalated.toNat)]
  | 0x130 => regGet s (rk pTOP 0x130) ||| word [(0, s.lamp.bootStep.toNat)]
  | 0x140 => summary s src 0 errSummary
  | 0x148 => summary s src 1 errSummary
  | 0x150 => summary s src 2 errSummary
  | 0x158 => summary s src 0 evtSummary
  | 0x160 => summary s src 1 evtSummary
  | 0x168 => summary s src 2 evtSummary
  | _ => regGet s (rk pTOP rel)

/-- The partition whose export ring a source's registers name (15 R441). -/
def exportPart (s : State) (src : RegSrc) : Nat :=
  match src with
  | .vf n => n
  | _ => bits (selBank s pLMP 0x128 src) 0 6

def newestEmber (s : State) : Ember := if s.lamp.newestB then s.lamp.emberB else s.lamp.emberA

def lmpReg (s : State) (src : RegSrc) (rel : Nat) : W64 :=
  let x := exportOf s (exportPart s src)
  match rel with
  | 0x100 => word [(0, s.lamp.beacon.toNat % 2 ^ 48)]
  | 0x110 => word [(0, s.lamp.restarts.toNat), (8, b2n s.lamp.restarting), (9, b2n s.lamp.gaveUp)]
  | 0x118 => s.errs.seq.setWidth 64
  | 0x128 => regGet s (rkBank pLMP 0x128 (srcBank src))
  | 0x130 => x.ring
  | 0x138 => x.cfg
  | 0x140 => x.head.setWidth 64
  | 0x148 => x.tail.setWidth 64
  | 0x150 => regGet s (rkBank pLMP 0x150 (exportPart s src))
  | 0x208 => word [(0, b2n s.lamp.newCopy.isSome), (1, b2n s.lamp.useB), (2, b2n s.lamp.noCopy),
      (8, (lastCmd s lcCal (srcBank src)).toNat % 256), (32, (userCopy s).generation.toNat)]
  | 0x210 => word [(0, b2n s.lamp.emberA.valid), (1, b2n s.lamp.emberB.valid), (2, b2n s.lamp.newestB),
      (8, (newestEmber s).cause.toNat), (32, (newestEmber s).generation.toNat % 2 ^ 32)]
  | _ => regGet s (rk pLMP rel)

def pwrReg (s : State) (rel : Nat) : W64 :=
  let p := s.power
  match rel with
  | 0x100 => word [(0, s.lamp.classNow.toNat), (2, s.lamp.classStored.toNat), (4, s.lamp.classRefused.toNat),
      (8, b2n s.lamp.variantA)]
  | 0x110 => p.inputPower.setWidth 64
  | 0x158 => p.peakPower.setWidth 64
  | 0x160 => word [(0, b2n p.pwrEn), (1, b2n p.sysResetN), (2, b2n p.perstN), (3, b2n p.coolantN), (8, b2n p.masked),
      (16, b2n p.sysHeld), (17, b2n p.perstHeld)]
  | 0x170 => p.startCause.setWidth 64
  | _ => if 0x118 ≤ rel ∧ rel < 0x158 then (tget 0 p.rails ((rel - 0x118) / 8)).setWidth 64 else regGet s (rk pPWR rel)

def failedSensor (s : State) (n : Nat) : Bool := (tget Sensor.fresh s.power.sensors n).failed

def thmReg (s : State) (rel : Nat) : W64 :=
  match rel with
  | 0x100 => (sensorReading s 64).setWidth 64
  | 0x108 => (sensorReading s 65).setWidth 64
  | 0x110 => s.power.stopLimit.setWidth 64
  | 0x120 => word [(0, s.power.peakTemp.toNat), (16, s.power.peakSensor.toNat)]
  | 0x128 => BitVec.ofNat 64 (maskOfBits (failedSensor s) 64)
  | 0x130 => word [(0, b2n (failedSensor s 64)), (1, b2n (failedSensor s 65))]
  | _ => regGet s (rk pTHM rel)
where maskOfBits (f : Nat → Bool) (n : Nat) : Nat := ((List.range n).map (fun i => if f i then 2 ^ i else 0)).sum

def hostReg (s : State) (src : RegSrc) (rel : Nat) : W64 :=
  let w := tget Window.off s.host.windows (bits (selBank s pHOST 0x118 src) 0 4)
  match rel with
  | 0x100 => s.host.linkStat
  | 0x118 => regGet s (rkBank pHOST 0x118 (srcBank src))
  | 0x120 => word [(0, w.ctx.toNat), (32, b2n w.coherent)]
  | 0x128 => word [(0, b2n w.committed), (8, w.status.toNat)]
  | 0x130 => word [(0, b2n s.host.dead)]
  | _ => regGet s (rk pHOST rel)

def dirReg (s : State) (src : RegSrc) (rel : Nat) : W64 :=
  let (n, i) := cwinSel s src
  let w := tget CohWin.off s.dir.windows n
  let r := bits (selBank s pDIR 0x120 src) 0 6
  match rel with
  | 0x100 => regGet s (rkBank pDIR 0x100 (srcBank src))
  | 0x108 => word [(0, w.first.toNat), (16, w.count.toNat), (32, b2n w.valid)]
  | 0x110 => wordOf w.cache i
  | 0x118 => wordOf w.rw i
  | 0x120 => regGet s (rkBank pDIR 0x120 (srcBank src))
  | 0x128 => tget 0 s.dir.depBase r
  | 0x130 => tget 0 s.dir.depLen r
  | 0x138 => tget 0 s.dir.depTarget r
  | 0x148 => word [(0, b2n s.dir.sweep.isSome), (16, (s.dir.sweep.map (·.agent.toNat)).getD 0),
      (32, s.dir.walked.toNat % 2 ^ 25)]
  | 0x150 => word [(0, s.dir.entries.length % 2 ^ 25), (32, s.dir.lineBuf.length % 2 ^ 13)]
  | 0x158 => word [(0, s.dir.forfeits.length % 2 ^ 17)]
  | 0x160 => word [(0, (s.store.blocks.filter (fun e => e.2.forfeit)).length % 2 ^ 32)]
  | _ => regGet s (rk pDIR rel)

/-- Requests of the old epoch that are still unfinished (05 R136). -/
def oldOutstanding (s : State) : Nat := (s.xbar.tx.map (fun e => (e.2.pkts.filter (·.oldEpoch)).length)).sum

def xbarReg (s : State) (src : RegSrc) (rel : Nat) : W64 :=
  match rel with
  | 0x110 => word [(0, s.xbar.epochCur.toNat), (8, s.xbar.epochOther.toNat), (16, s.xbar.otherState.toNat),
      (18, b2n s.xbar.prepared), (19, b2n s.xbar.drained), (32, oldOutstanding s % 2 ^ 16)]
  | 0x120 => regGet s (rkBank pXBAR 0x120 (srcBank src))
  | 0x128 =>
    let v := selBank s pXBAR 0x120 src
    (routeGet (if bit v 16 then s.xbar.routeOther else s.xbar.routeCur) (BitVec.ofNat 10 (bits v 0 10))).setWidth 64
  | _ => regGet s (rk pXBAR rel)

def syncReg (s : State) (rel : Nat) : W64 :=
  match rel with
  | 0x100 => word [(0, (s.sync.waits.filter (fun w => !w.2.2.1)).length % 2 ^ 18)]
  | 0x108 => word [(0, s.sync.held.length % 2 ^ 13)]
  | 0x130 => word [(0, s.sync.groups.length % 2 ^ 11), (16, (s.sync.groups.filter (·.aborted)).length % 2 ^ 11)]
  | _ => regGet s (rk pSYNC rel)

/-- Whole GiB of a number of 64 KiB blocks. -/
def gibOf (blocks : Nat) : Nat := blocks / 16384 % 2 ^ 16

def partUse (s : State) (p : BitVec 6) : W64 :=
  word [(0, gibOf (residentIn s p 0)), (16, gibOf (residentIn s p 1)), (32, gibOf (pinnedIn s p 0 + pinnedIn s p 1))]

def queueReg (s : State) (q rel : Nat) : W64 :=
  let k := s.queue q
  match rel with
  | 0x170 => k.ring
  | 0x178 => k.cpl
  | 0x180 => k.cfg
  | 0x188 => k.tailcnt
  | _ => word [(0, k.head.toNat), (32, b2n k.stopped), (40, k.stop.toNat)]

def compStat (s : State) (k : Nat) : W64 :=
  let c := s.comp k
  word [(0, c.state.toNat), (2, c.part.toNat), (8, c.host.toNat), (18, c.accels.length % 128), (25, b2n c.teardown)]

def workReg (s : State) (src : RegSrc) (rel : Nat) : W64 :=
  let p := match src with
    | .vf n => n
    | _ => bits (selBank s pWORK 0x110 src) 0 6
  match rel with
  | 0x108 => word [(0, (lastCmd s lcOwn (srcBank src)).toNat % 256), (8, b2n s.work.grant.isSome)]
  | 0x110 => regGet s (rkBank pWORK 0x110 (srcBank src))
  | 0x118 => tget 0 s.work.partQueues p
  | 0x120 => tget 0 s.work.partCtx p
  | 0x128 => tget 0 s.work.quota0 p
  | 0x130 => tget 0 s.work.quota1 p
  | 0x138 => tget 0 s.work.share p
  | 0x140 => partUse s (BitVec.ofNat 6 p)
  | 0x148 => regGet s (rkBank pWORK 0x148 (srcBank src))
  | 0x150 => tget 0 s.work.agentPart (bits (selBank s pWORK 0x148 src) 0 10)
  | 0x158 => regGet s (rkBank pWORK 0x158 (srcBank src))
  | 0x160 =>
    let x := s.extent (bits (selBank s pWORK 0x158 src) 0 16)
    word [(0, x.comp.toNat), (12, b2n x.owned), (13, b2n x.revoking), (14, x.epoch.toNat), (24, x.inflight.toNat)]
  | 0x168 => regGet s (rkBank pWORK 0x168 (srcBank src))
  | 0x198 => regGet s (rkBank pWORK 0x198 (srcBank src))
  | 0x1A0 =>
    let k := bits (selBank s pWORK 0x198 src) 0 12
    if seesPart src (s.comp k).part then compStat s k else 0
  | 0x6C0 => s.emb.epoch.setWidth 64
  | 0x6C8 => s.emb.lookups.setWidth 64
  | 0x6D0 => word [(0, s.emb.tables.length % 2 ^ 13), (32, s.emb.moves.length % 2 ^ 11)]
  | _ =>
    if 0x170 ≤ rel ∧ rel ≤ 0x190 then
      let q := bits (selBank s pWORK 0x168 src) 0 18
      if reachesQueue s src q then queueReg s q rel else 0
    else regGet s (rk pWORK rel)

/-- HANDLE_STATh (09 R282). -/
def handleStat (s : State) (src : RegSrc) (h : Nat) : W64 :=
  match s.plan h with
  | none => 0
  | some p =>
    if !seesPart src p.part then 0
    else word [(0, 1), (1, b2n p.armed), (2, b2n (p.run == .running)), (3, b2n (p.run == .gate)), (8, p.ctx.toNat),
      (28, p.part.toNat), (40, p.runs.toNat)]

def planReg (s : State) (src : RegSrc) (rel : Nat) : W64 :=
  if 0x800 ≤ rel then handleStat s src ((rel - 0x800) / 8)
  else if rel = 0x100 then word [(0, s.plans.length % 2 ^ 9), (16, streamsInUse s % 2 ^ 14)]
  else regGet s (rk pPLAN rel)

def xltReg (s : State) (src : RegSrc) (rel : Nat) : W64 :=
  let b := srcBank src
  match rel with
  | 0x100 => regGet s (rkBank pXLT 0x100 b)
  | 0x108 => regGet s (rkBank pXLT 0x108 b)
  | 0x110 => regGet s (rkBank pXLT 0x110 b)
  | 0x120 =>
    let v := (lastCmd s lcShoot b).toNat
    word [(0, b2n (16 ≤ s.xlt.shoots.length)), (1, bits v 8 1), (8, v % 256)]
  | 0x138 => word [(0, s.xlt.walkers % 128)]
  | _ => regGet s (rk pXLT rel)

def keyReg (s : State) (src : RegSrc) (rel : Nat) : W64 :=
  match rel with
  | 0x100 => regGet s (rkBank pKEY 0x100 (srcBank src))
  | 0x110 =>
    let k := keySlot s (BitVec.ofNat 12 (bits (selBank s pKEY 0x100 src) 0 12))
    word [(0, b2n k.valid), (1, b2n k.busy), (8, k.owner.toNat), (16, (lastCmd s lcSlot (srcBank src)).toNat % 256)]
  | 0x118 => word [(0, (1 + (s.keys.filter (fun e => e.1 != 0 && e.2.valid)).length) % 2 ^ 13)]
  | _ => 0

def plcReg (s : State) (src : RegSrc) (rel : Nat) : W64 :=
  match rel with
  | 0x100 => BitVec.ofNat 64 s.store.homeLen
  | 0x128 => s.store.halvings.setWidth 64
  | 0x130 => s.store.decay.setWidth 64
  | 0x158 => word [(0, s.store.flashFree % 2 ^ 32)]
  | 0x160 => s.store.flashWear.setWidth 64
  | 0x168 => word [(0, s.store.moves.length % 2 ^ 13)]
  | 0x200 => regGet s (rkBank pPLC 0x200 (srcBank src))
  | 0x208 => tget 0 s.store.mirror (bits (selBank s pPLC 0x200 src) 0 12)
  | 0x210 => regGet s (rkBank pPLC 0x210 (srcBank src))
  | 0x218 => tget 0 s.store.guest (bits (selBank s pPLC 0x210 src) 0 12)
  | 0x240 => match s.store.rebuild with
    | some r => rebuildWord r 0 ||| 1
    | none => s.store.rebuildStat
  | 0x248 => word [(0, (s.store.blocks.filter (fun e => e.2.lost)).length % 2 ^ 32)]
  | _ => regGet s (rk pPLC rel)

def rsvReg (s : State) (src : RegSrc) (rel : Nat) : W64 :=
  match rel with
  | 0x100 => regGet s (rkBank pRSV 0x100 (srcBank src))
  | 0x108 =>
    let k := bits (selBank s pRSV 0x100 src) 0 7
    let h := (s.plans.find? (fun e => e.2.claims.any (fun c => c.kind == 6 &&
      decide (claimFirst c < (k + 1) * 2 ^ 20 ∧ k * 2 ^ 20 < claimFirst c + claimCount c)))).map (·.1)
    word [(0, (reservoirOwner s (k * 2 ^ 20)).toNat), (8, b2n h.isSome), (16, h.getD 0 % 256)]
  | 0x118 => word [(0, ((List.range 128).filter (grantClaimed s 4)).length)]
  | _ => regGet s (rk pRSV rel)

def metReg (s : State) (src : RegSrc) (rel : Nat) : W64 :=
  match rel with
  | 0x100 => regGet s (rkBank pMET 0x100 (srcBank src))
  | 0x108 => 0
  | 0x130 => s.lamp.moduleTime
  | _ =>
    if rel < 0x100 then regGet s (rk pMET rel)
    else
      let k := s.comp (bits (selBank s pMET 0x100 src) 0 12)
      if seesPart src k.part then regGet s (rkBank pMET rel (srcBank src)) else 0

/-- The serial session is entry 0; slot i of Ethernet port n is entry 1 + 4 n + i. -/
def sessionKey : MonSess → Nat
  | .serial => 0
  | .eth port i => 1 + 4 * port + i
def session (s : State) (k : Nat) : Session := tget Session.closed s.mon.sessions k

def monReg (s : State) (src : RegSrc) (rel : Nat) : W64 :=
  match rel with
  | 0x108 => word [(0, (session s 0).level.toNat), (8, b2n (session s 0).open_), (16, s.mon.commands.toNat)]
  | 0x130 => word [(0, b2n s.mon.opkey.isSome), (1, b2n s.mon.newKey.isSome),
      (8, (lastCmd s lcOpkey (srcBank src)).toNat % 256)]
  | _ => regGet s (rk pMON rel)

/-! ### Lantern, memory and sconce pages -/

def laneStat (l : Lane) : W64 :=
  word [(0, l.state.toNat), (3, b2n l.lock), (4, b2n l.signal), (5, b2n l.wait), (8, l.retrains.toNat), (16, l.tx.toNat),
    (28, l.rx.toNat)]

def lntReg (s : State) (n rel : Nat) : W64 :=
  let p := s.port n
  let both (i : Nat) : Nat := (creditOf p i + creditOf p (i + 1)) % 2 ^ 16
  match rel with
  | 0x100 => word [(0, p.txUse.toNat), (4, p.rxUse.toNat), (8, p.ctlLane.toNat),
      (11, ((List.range 5).map (fun k => if laneActive p k then 2 ^ k else 0)).sum)]
  | 0x208 => if n = 0 then word [(0, b2n s.lantern.activeB), (1, s.lantern.litA.toNat), (6, s.lantern.litB.toNat),
      (16, s.lantern.switches.toNat)] else 0
  | 0x310 => word [(0, both 0), (16, both 2), (32, both 4), (48, both 6)]
  | 0x318 => word [(0, claimCells (claimsOf (allPlans s)) (BitVec.ofNat 8 n) % 2 ^ 16)]
  | _ => if 0x118 ≤ rel ∧ rel < 0x140 then laneStat (portLane p ((rel - 0x118) / 8)) else regGet s (rk (pLNT n) rel)

def trainStat (t : Training) : W64 :=
  word [(0, t.state.toNat), (8, t.retrains.toNat), (16, t.middle.toNat), (32, t.temp.toNat)]

/-- Physical wicks of a sconce that work, lowest first: the first 64 fill the positions (16 R448). -/
def workingWicks (s : State) (sc : Nat) : List Nat := (List.range 68).filter (fun i => !(s.sconce sc).failed.getLsbD i)

def scnReg (s : State) (sc rel : Nat) : W64 :=
  let c := s.sconce sc
  let sp := sparesOf s sc
  match rel with
  | 0x100 => word [(0, b2n c.available), (1, sp.length % 8), (8, (sconceOwner s sc).toNat),
      (14, b2n (sconceOwner s sc != 0)), (16, (s.plans.filter (fun e => (planSconces e.2).contains sc)).length % 256)]
  | 0x108 => c.failed.setWidth 64
  | 0x110 => (c.failed >>> 64).setWidth 64
  | 0x118 => word ((List.range 4).map (fun i => (8 * i, sp.getD i 0x7F)))
  | 0x148 => (sensorReading s sc).setWidth 64
  | _ => regGet s (rk (pSCN sc) rel)

/-! ### A block register -/

/-- The register at an offset of a page, beyond the header, as a source that sees it reads it. -/
def blockReg (s : State) (src : RegSrc) (p rel : Nat) : W64 :=
  match p with
  | 0 => topReg s src rel
  | 1 => lmpReg s src rel
  | 2 => pwrReg s rel
  | 3 => thmReg s rel
  | 4 => hostReg s src rel
  | 5 => dirReg s src rel
  | 6 => xbarReg s src rel
  | 7 => syncReg s rel
  | 8 => workReg s src rel
  | 9 => planReg s src rel
  | 10 => xltReg s src rel
  | 11 => keyReg s src rel
  | 12 => plcReg s src rel
  | 13 => rsvReg s src rel
  | 14 => metReg s src rel
  | 15 => monReg s src rel
  | _ =>
    if p < 26 then lntReg s (p - 16) rel
    else if p < 34 then (if rel = 0x100 then trainStat (stackTraining s (p - 26)) else regGet s (rk p rel))
    else if p < 58 then (if rel = 0x100 then trainStat (capTraining s (p - 34)) else regGet s (rk p rel))
    else if p < 90 then regGet s (rk p rel)
    else scnReg s (p - 90) rel

/-- What a virtual function sees of a page's registers (R479, R480). -/
def vfSees (s : State) (n p rel : Nat) : Bool :=
  if 90 ≤ p then (sconceOwner s (p - 90)).toNat == n
  else if rel = 0x000 ∨ rel = 0x008 ∨ rel = 0x018 then vfVisible p
  else match p with
    | 0 => rel == 0x100 || rel == 0x108 || decide (0x140 ≤ rel ∧ rel ≤ 0x168)
    | 1 => decide (0x128 ≤ rel ∧ rel ≤ 0x150)
    | 8 => rel == 0x140 || rel == 0x168 || rel == 0x180 || rel == 0x190 || rel == 0x198 || rel == 0x1A0
    | 9 => decide (0x800 ≤ rel)
    | 14 => decide (0x100 ≤ rel)
    | _ => false

def seesReg (s : State) (src : RegSrc) (p rel : Nat) : Bool :=
  match src with
  | .vf n => vfSees s n p rel
  | _ => true

/-- A register of a page, 8 bytes at an aligned offset: 0 where there is none, where it is write-only, or where the
source does not see it (R472). -/
def pageReg (s : State) (src : RegSrc) (p rel : Nat) : W64 :=
  match regDesc p rel with
  | none => 0
  | some d =>
    if d.acc = .wo ∨ !seesReg s src p rel then 0
    else if rel < 0x100 then headerReg s p rel else blockReg s src p rel

/-! ### Wick windows (R486, R487) -/

def wstateCode : WState → Nat
  | .idle => 0
  | .running => 1
  | .ended => 2
  | .stopped => 3
  | .held => 4

def wstat (s : State) (w : Nat) : W64 :=
  let k := s.wick w
  word [(0, wstateCode k.state), (8, k.stop.toNat), (16, k.pc % 4096), (32, (workingWicks s (w / 64)).getD (w % 64) 0x7F),
    (40, k.buf.length % 64), (48, k.track.length % 32)]

/-- The key of a window's VSEL for a bank. -/
def vselKey (w bank : Nat) : Nat := (bank + 1) * 2 ^ 26 + 0x100000 + 0x400 * w + 0x240

/-- The 512 bits that VSEL names. -/
def vdata (k : Wick) (v : Nat) : W512 :=
  if v < 32 then rdV k v else if v < 48 then (rdAcc k ((v - 32) / 4) >>> (512 * (v % 4))).setWidth 512 else 0

/-- The values of a window's registers WFLAGS to WCYCLE, Si and Ki. -/
def windowValue (k : Wick) (rel : Nat) : W64 :=
  if rel = 0x010 then k.flags.setWidth 64
  else if rel = 0x018 then k.mstat.setWidth 64
  else if rel = 0x020 then k.cntsel.setWidth 64
  else if rel = 0x028 then k.cycle
  else if 0x100 ≤ rel ∧ rel < 0x200 then rdS k ((rel - 0x100) / 8)
  else if 0x200 ≤ rel ∧ rel < 0x240 then (rdK k ((rel - 0x200) / 8)).setWidth 64
  else 0

def wstep (k : Wick) : W64 := word [(0, k.step.toNat), (32, k.handle.toNat), (40, k.ctx.toNat)]

/-- A window's register, 8 bytes at an aligned offset: all but WSTAT, WSTEP and VSEL read 0 while the wick may run. -/
def windowReg (s : State) (src : RegSrc) (w rel : Nat) : W64 :=
  let k := s.wick w
  let open_ : Bool := k.state == .ended || k.state == .stopped || sconceQuiesced s (w / 64)
  if !seesPart src (sconceOwner s (w / 64)) then 0
  else if rel = 0x000 then wstat s w
  else if rel = 0x008 then wstep k
  else if rel = 0x240 then regGet s (vselKey w (srcBank src))
  else if !open_ then 0
  else if 0x280 ≤ rel ∧ rel < 0x2C0 then
    (vdata k (bits (regGet s (vselKey w (srcBank src))).toNat 0 6) >>> (8 * (rel - 0x280))).setWidth 64
  else windowValue k rel

/-! ### BAR0 and the doorbells (R469, R482 to R485) -/

/-- What an 8 B read at an aligned BAR0 offset returns; it clears nothing. The CXL and forwarding regions hold no
registers of this manual. -/
def readReg (s : State) (src : RegSrc) (off : Nat) : W64 :=
  match pageOf off with
  | some p => pageReg s src p (off - pageBase p)
  | none =>
    if 0x100000 ≤ off ∧ off < 0x500000 then windowReg s src ((off - 0x100000) / 0x400) (off % 0x400)
    else if 0x1000000 ≤ off ∧ off < 0x1100000 then
      let k := (off - 0x1000000) / 8
      if seesPart src (counterOwner s k) then hubGet s k else 0
    else if 0x1100000 ≤ off ∧ off < 0x1140000 then
      let k := (off - 0x1100000) / 8
      if seesPart src (semOwner s k) then semGet s k else 0
    else if 0x1180000 ≤ off ∧ off < 0x1200000 then
      let sc := (off - 0x1180000) / 0x2000
      if seesPart src (sconceOwner s sc) then localGet s sc (off % 0x2000 / 8) else 0
    else 0

/-- What a read of a queue's doorbell returns. -/
def readDoorbell (s : State) (src : RegSrc) (q : Nat) : W64 :=
  if reachesQueue s src q then word [(0, (s.queue q).head.toNat), (32, (s.queue q).tail.toNat)] else 0

end Sys2Proof.Machine
end

