-- ==== Sys2Proof/Machine/Access.lean ====
section
/-! DEFINITION. Register writes: access codes and sizes, drops and held writes, range checks, and the commands that
write-only registers start; reads that clear (00 R12, R13; 17 R471 to R486; the pages' own tables). -/
namespace Sys2Proof.Machine

/-- The state that a meaning leads to. -/
def stateOf (o : Host.Outcome State Fault Refusal) (s : State) : State :=
  match o with
  | .next t => t
  | _ => s

/-- A source whose accesses cross the host link. -/
def overHost : RegSrc → Bool
  | .lmp _ => false
  | _ => true

/-! ### Commands of the MON and PWR pages (18 R506, R508, R509; 19 R528) -/

/-- A session returns to level 0 and is over. -/
def endSession (z : Session) : Session := { z with open_ := false, level := 0 }
def setSession (s : State) (k : Nat) (f : Session → Session) : State :=
  s.setMon (fun m => { m with sessions := tmod Session.closed m.sessions k f })

/-- A write of MON_CMD: LOCK ends the serial session, the one that MON_STAT reports (log entry 70). -/
def lockWrite (s : State) (src : RegSrc) (v : W64) : State :=
  pfOnly s src (rk pMON 0x110) (fun s => holdWrite s src (rk pMON 0x110) v (fun s =>
    if bit v.toNat 0 then setSession s 0 endSession else s))

def execMonCmdLock (src : RegSrc) (v : W64) (s : State) : Host.Outcome State Fault Refusal := onOk src.ok (lockWrite s src v)

/-- A write of OPKEY_CMD: the modulus is taken from the Reservoir. -/
def opkeyWrite (s : State) (src : RegSrc) (v : W64) : State :=
  pfOnly s src (rk pMON 0x128) (fun s => holdWrite s src (rk pMON 0x128) v (fun s =>
    let a := 64 * bits v.toNat 6 21
    let done (st : Status) : State := lastDone s lcOpkey (srcBank src) st
    if !bit v.toNat 32 then s
    else if s.mon.newKey.isSome then done stBusy
    else if a + 512 > Config.reservoirBytes then done stFormat
    else if reservoirBad s a 512 then done stUncorr
    else (done 0).setMon (fun m => { m with newKey := some (reservoirRead s a 512) })))

def execOpkeyCmd (src : RegSrc) (v : W64) (s : State) : Host.Outcome State Fault Refusal := onOk src.ok (opkeyWrite s src v)

/-- The key is stored; sessions that an operator key unlocked return to level 0. -/
def execOpkeyStored (s : State) : Host.Outcome State Fault Refusal :=
  .next (match s.mon.newKey with
  | none => s
  | some k => s.setMon (fun m => { m with
      opkey := some k, newKey := none,
      sessions := m.sessions.map (fun e => if e.2.level = 1 then (e.1, endSession e.2) else e) }))

/-- A write of PIN_CMD. -/
def unmaskWrite (s : State) (src : RegSrc) (v : W64) : State :=
  pfOnly s src (rk pPWR 0x168) (fun s =>
    if bit v.toNat 0 then s.setPower (fun p => { p with masked := false }) else s)

def execPinUnmask (src : RegSrc) (v : W64) (s : State) : Host.Outcome State Fault Refusal := onOk src.ok (unmaskWrite s src v)

/-! ### Write-only registers -/

/-- A whole write of a write-only register. -/
def commandWrite (s : State) (src : RegSrc) (p rel : Nat) (v : W64) : State :=
  let f (lo n : Nat) : Nat := bits v.toNat lo n
  match p, rel with
  | 0, 0x100 => resetWrite s src v
  | 1, 0x200 => calCmd s src v
  | 2, 0x108 => classWrite s src v
  | 2, 0x168 => unmaskWrite s src v
  | 4, 0x138 => hostCommand s src (f 0 1 == 1) (f 1 1 == 1)
  | 5, 0x140 => if f 16 1 = 1 then sweepWrite s src (BitVec.ofNat 10 (f 0 10)) (f 17 1 == 1) else s
  | 6, 0x118 =>
    let e := BitVec.ofNat 8 (f 8 8)
    match f 0 3 with
    | 1 => stateOf (execPrepare src e s) s
    | 3 => stateOf (execCommit src e [] s) s
    | 5 => stateOf (execRetire src e s) s
    | _ => s
  | 8, 0x100 => ownCmd s src (f 0 3) (f 8 12) (BitVec.ofNat 6 (f 24 6))
  | 8, 0x1A8 => snuffWrite s src v
  | 10, 0x118 => shootCmd s src v
  | 11, 0x108 => slotCmd s src (f 0 2) (BitVec.ofNat 6 (f 8 6))
  | 12, 0x250 => lostWrite s src v
  | 14, 0x108 => snapWrite s src v
  | 15, 0x110 => lockWrite s src v
  | 15, 0x128 => opkeyWrite s src v
  | _, _ =>
    if p = pKEY ∧ 0x200 ≤ rel then s.setReg (rkBank p rel (srcBank src)) v
    else if 16 ≤ p ∧ p < 26 then
      if rel = 0x110 then laneCommand s src (p - 16) (f 0 3) (f 4 2) else laserWrite s src v
    else if 26 ≤ p ∧ p < 58 then retrainWrite s src p v
    else s

/-! ### Read and write registers -/

/-- Stores a register of a page as written. -/
def put (s : State) (p rel : Nat) (v : W64) : State := s.setReg (rk p rel) v

/-- Selectors, and registers that only stage a command's arguments (R474). -/
def isBanked (p rel : Nat) : Bool :=
  match p with
  | 1 => rel == 0x128
  | 4 => rel == 0x118
  | 5 => rel == 0x100 || rel == 0x120
  | 6 => rel == 0x120
  | 8 => rel == 0x110 || rel == 0x148 || rel == 0x158 || rel == 0x168 || rel == 0x198
  | 10 => rel == 0x100 || rel == 0x108 || rel == 0x110
  | 11 => rel == 0x100
  | 12 => rel == 0x200 || rel == 0x210
  | 13 => rel == 0x100
  | 14 => rel == 0x100
  | _ => false

/-- EXP registers of an export (15 R441): EXP_RING and EXP_CFG change only while the export is disabled, but for ENABLE
alone; an enabled export begins with the next record. -/
def exportWrite (s : State) (src : RegSrc) (rel : Nat) (v : W64) : State :=
  let p := exportPart s src
  let x := exportOf s p
  match rel with
  | 0x130 => if x.enabled then s else setExport s p (fun x => { x with ring := v })
  | 0x138 =>
    let same := (v ^^^ x.cfg) &&& ~~~(0x80000000000000 : W64) == 0
    if x.enabled && !same then s
    else if bits v.toNat 20 5 < 4 ∨ 16 < bits v.toNat 20 5 then s
    else setExport s p (fun x => { x with cfg := v, next := if x.enabled then x.next else s.errs.seq })
  | _ => setExport s p (fun x => { x with tail := v.setWidth 32 })

/-- CWIN_RANGE (13 R386). -/
def rangeWrite (s : State) (src : RegSrc) (v : W64) : State :=
  let (n, _) := cwinSel s src
  let first := bits v.toNat 0 16
  let count := bits v.toNat 16 16
  let meets (w : CohWin) : Bool :=
    w.valid && decide (first < w.first.toNat + w.count.toNat ∧ w.first.toNat < first + count)
  if s.store.homeLen < (first + count) * 2 ^ 30 ∨ s.dir.windows.any (fun e => e.1 != n && meets e.2) then
    refuse s pDIR 3 0x108
  else s.setDir (fun d => { d with windows := tmod CohWin.off d.windows n (fun w => { w with
    first := BitVec.ofNat 16 first, count := BitVec.ofNat 16 count, valid := v.getLsbD 32 }) })

def dirWrite (s : State) (src : RegSrc) (rel : Nat) (v : W64) : State :=
  let (n, i) := cwinSel s src
  let r := bits (selBank s pDIR 0x120 src) 0 6
  match rel with
  | 0x108 => rangeWrite s src v
  | 0x110 => cacheWrite s src v
  | 0x118 => s.setDir (fun d => { d with
      windows := tmod CohWin.off d.windows n (fun w => { w with rw := putWord w.rw i v }) })
  | 0x128 => s.setDir (fun d => { d with depBase := tput d.depBase r v })
  | 0x130 => s.setDir (fun d => { d with depLen := tput d.depLen r v })
  | _ => s.setDir (fun d => { d with depTarget := tput d.depTarget r v })

/-- The timers that bound each other: DEAD_BOUND, REPLAY_TMO, BISNP_BOUND (05 R159; 13 R384). -/
def timerWrite (s : State) (p rel : Nat) (v : W64) : State :=
  let dead := (regGet s (rk pXBAR 0x100)).toNat
  let tmo := (regGet s (rk pXBAR 0x108)).toNat
  let bisnp := (regGet s (rk pHOST 0x110)).toNat
  let n := v.toNat
  if p = pHOST then (if n < 5 ∨ dead < 2 * n then refuse s pHOST 1 rel else put s p rel v)
  else if rel = 0x100 then
    if n < 10 ∨ 10000 < n ∨ n < 4 * tmo ∨ n < 2 * bisnp then refuse s pXBAR 0 rel else put s p rel v
  else if n < 2 ∨ 1000 < n ∨ dead < 4 * n then refuse s pXBAR 0 rel else put s p rel v

/-- WIN_CTX (13 R384). -/
def winCtxWrite (s : State) (src : RegSrc) (v : W64) : State :=
  let n := bits (selBank s pHOST 0x118 src) 0 4
  if (tget Window.off s.host.windows n).committed then refuse s pHOST 1 0x120
  else s.setHost (fun h => { h with windows := tmod Window.off h.windows n (fun w => { w with
    ctx := v.setWidth 20, coherent := v.getLsbD 32 }) })

/-- The partition, agent and queue registers of WORK (14 R407). -/
def workWrite (s : State) (src : RegSrc) (rel : Nat) (v : W64) : State :=
  let p := bits (selBank s pWORK 0x110 src) 0 6
  let q := bits (selBank s pWORK 0x168 src) 0 18
  match rel with
  | 0x118 => if 262144 < bits v.toNat 18 19 then refuse s pWORK 1 rel
      else s.setWork (fun w => { w with partQueues := tput w.partQueues p v })
  | 0x120 => if 1048576 < bits v.toNat 20 21 then refuse s pWORK 1 rel
      else s.setWork (fun w => { w with partCtx := tput w.partCtx p v })
  | 0x128 => s.setWork (fun w => { w with quota0 := tput w.quota0 p v })
  | 0x130 => s.setWork (fun w => { w with quota1 := tput w.quota1 p v })
  | 0x138 => s.setWork (fun w => { w with share := tput w.share p v })
  | 0x150 => s.setWork (fun w => { w with agentPart := tput w.agentPart (bits (selBank s pWORK 0x148 src) 0 10) v })
  | 0x170 => s.setQueue q (fun k => { k with ring := v })
  | 0x178 => s.setQueue q (fun k => { k with cpl := v })
  | 0x180 => stateOf (execQEnable src v s) s
  | _ => s.setQueue q (fun k => { k with tailcnt := v })

/-- A share register (09 R281): refused when some resource would exceed its limit. -/
def shareWrite (s : State) (rel : Nat) (v : W64) : State :=
  let t := put s pPLAN rel v
  let cs := claimsOf (allPlans s)
  let fits := decide (unplanned t ≤ 900) && (cs.filter (fun c => decide (7 ≤ c.kind.toNat))).all (fun c =>
    decide (shareOf cs c.kind c.b1 + unplanned t ≤ shareLimit c.kind))
  if fits then t else refuse s pPLAN 1 rel

/-- The extents that a mirror-map or guest-map entry names (12 R356); a refused write leaves the entry unchanged. -/
def mirrorWrite (s : State) (src : RegSrc) (rel : Nat) (v : W64) : State :=
  let x := bits v.toNat 0 16
  if s.store.homeLen < (x + 1) * 2 ^ 30 then s
  else if rel = 0x208 then
    let n := bits (selBank s pPLC 0x200 src) 0 12
    s.setStore (fun z => { z with mirror := tput z.mirror n (v &&& 0xFFFFFF) })
  else
    let n := bits (selBank s pPLC 0x210 src) 0 12
    if s.store.guest.any (fun e => e.1 != n && e.2.getLsbD 38 && bits e.2.toNat 0 16 == x) then s
    else s.setStore (fun z => { z with guest := tput z.guest n v })

def plcWrite (s : State) (src : RegSrc) (rel : Nat) (v : W64) : State :=
  match rel with
  | 0x108 => poolWrite s src v
  | 0x110 => if 10 < v.toNat then refuse s pPLC 1 rel else put s pPLC rel v
  | 0x118 => if bits v.toNat 0 16 ≤ bits v.toNat 16 16 then refuse s pPLC 0 rel else put s pPLC rel v
  | 0x120 => if bits v.toNat 0 16 ≤ bits v.toNat 16 16 then refuse s pPLC 0 rel else put s pPLC rel v
  | _ => mirrorWrite s src rel v

/-- The receive cells of a port (05 R161). -/
def cellsWrite (s : State) (n rel : Nat) (v : W64) : State :=
  let xs := (List.range 4).map (fun i => bits v.toNat (16 * i) 16)
  let ok := if rel = 0x300 then xs.all (fun x => x % 2 == 0 && decide (258 ≤ x)) && decide (xs.sum ≤ 12288)
    else (xs.take 2).all (fun x => decide (64 ≤ x)) && decide ((xs.take 2).sum ≤ 2048)
  if portOn s n || !ok then logErr s (pLNT n) 5 { status := stFormat, kind := 5, addr := rk (pLNT n) rel }
  else put s (pLNT n) rel v

def lntWrite (s : State) (src : RegSrc) (n rel : Nat) (v : W64) : State :=
  match rel with
  | 0x010 => portWrite s src n (v.getLsbD 0)
  | 0x108 => if bits v.toNat 4 3 < 1 ∨ 4 < bits v.toNat 4 3 then s else put s (pLNT n) rel v
  | 0x190 => if bits v.toNat 8 4 < 3 ∨ 8 < bits v.toNat 8 4 then s else put s (pLNT n) rel v
  | 0x200 => put s (pLNT n) rel v
  | _ => cellsWrite s n rel v

def scnWrite (s : State) (src : RegSrc) (sc rel : Nat) (v : W64) : State :=
  match rel with
  | 0x010 =>
    let s := quiesceWrite s src sc (v.getLsbD 1)
    if v.getLsbD 2 then sconceResetWrite s src sc else s
  | _ => if 20 < bits v.toNat 8 5 then s else put s (pSCN sc) rel v

/-- A whole write of a register with access RW, its reserved bits already 0. Only the pages of ports and sconces
implement bits of CTRL (R476). -/
def rwWrite (s : State) (src : RegSrc) (p rel : Nat) (v : W64) : State :=
  if rel = 0x028 ∨ rel = 0x050 then withVectors p (fun s => put s p rel v) s
  else if rel = 0x010 ∧ (p < 16 ∨ (26 ≤ p ∧ p < 90)) then s
  else if isBanked p rel then s.setReg (rkBank p rel (srcBank src)) v
  else match p with
    | 0 => if 10 < bits v.toNat 0 4 then refuse s pTOP 1 rel else put s p rel v
    | 1 => if rel = 0x108 then put s p rel v else exportWrite s src rel v
    | 4 => if rel = 0x110 then timerWrite s p rel v else if rel = 0x120 then winCtxWrite s src v else put s p rel v
    | 5 => dirWrite s src rel v
    | 6 => if rel = 0x128 then stateOf (execRouteData src v s) s else timerWrite s p rel v
    | 8 => workWrite s src rel v
    | 9 => shareWrite s rel v
    | 12 => plcWrite s src rel v
    | 15 => if v.toNat = 3 then s else put s p rel v
    | _ =>
      if 16 ≤ p ∧ p < 26 then lntWrite s src (p - 16) rel v
      else if 90 ≤ p then scnWrite s src (p - 90) rel v
      else put s p rel v

/-! ### Writes -/

/-- A write of one bit pattern of a register that clears bits. -/
def w1cWrite (s : State) (p rel : Nat) (v : W64) : State :=
  if rel = 0x020 then clearErrStat s p v else put s p rel (regGet s (rk p rel) &&& ~~~ v)

/-- The whole-register effect of a write that is accepted. -/
def applyWrite (s : State) (src : RegSrc) (p rel : Nat) (v : W64) : State :=
  match regDesc p rel with
  | none => s
  | some d => match d.acc with
    | .wo => commandWrite s src p rel v
    | .w1c => w1cWrite s p rel v
    | .rw m => rwWrite s src p rel (v &&& BitVec.ofNat 64 m)
    | _ => s

/-- A virtual function writes what it sees, but neither CTRL nor SPOT_CFG of its sconces (R479). -/
def writes (s : State) (src : RegSrc) (p rel : Nat) : Bool :=
  seesReg s src p rel && (match src with
    | .vf _ => p < 90 || (rel != 0x010 && rel != 0x120)
    | _ => true)

/-- Writes that wait while the Lamplighter restarts (R481). -/
def isHeld (p rel : Nat) : Bool := p == pMON || (p == pLMP && decide (0x128 ≤ rel ∧ rel ≤ 0x148))

/-- Replaces the half of a register that a 4 B write covers. -/
def mergeHalf (old v : W64) (hi : Bool) : W64 :=
  if hi then (old &&& 0xFFFFFFFF) ||| (v <<< 32) else (old &&& 0xFFFFFFFF00000000) ||| (v &&& 0xFFFFFFFF)

/-- A write of 4 or 8 aligned bytes in a block page (R471, R472, R479 to R481). -/
def pageWrite (s : State) (src : RegSrc) (p rel size : Nat) (v : W64) : State :=
  let r := rel / 8 * 8
  let off := rk p rel
  match regDesc p r with
  | none => dropWrite s src off
  | some d =>
    let isW1c : Bool := match d.acc with
      | .w1c => true
      | _ => false
    if !writes s src p r || (inReset s p && !isW1c) || (d.acc == .wo && size == 4) then dropWrite s src off
    else
      let old := if isW1c then 0 else pageReg s src p r
      let w := if size = 4 then mergeHalf old v (rel % 8 == 4) else v
      if isHeld p r then holdWrite s src (rk p r) w (fun s => applyWrite s src p r w) else applyWrite s src p r w

/-- A write of a wick window: only VSEL accepts one (R486). -/
def windowWrite (s : State) (src : RegSrc) (off size : Nat) (v : W64) : State :=
  let w := (off - 0x100000) / 0x400
  let rel := off % 0x400 / 8 * 8
  let known : Bool := decide (rel < 0x30 ∨ (0x100 ≤ rel ∧ rel < 0x248) ∨ (0x280 ≤ rel ∧ rel < 0x2C0))
  if !seesPart src (sconceOwner s (w / 64)) || !known then dropWrite s src off
  else if rel ≠ 0x240 then s
  else
    let k := vselKey w (srcBank src)
    s.setReg k ((if size = 4 then mergeHalf (regGet s k) v (off % 8 == 4) else v) &&& 0x3F)

/-- A write that reaches BAR0. -/
def barWrite (s : State) (src : RegSrc) (off size : Nat) (v : W64) : State :=
  if (size ≠ 4 ∧ size ≠ 8) ∨ off % size ≠ 0 then dropWrite s src off
  else match pageOf off with
    | some p => pageWrite s src p (off - pageBase p) size v
    | none =>
      if 0x100000 ≤ off ∧ off < 0x500000 then windowWrite s src off size v
      else if 0x1000000 ≤ off ∧ off < 0x1100000 then
        stateOf (execHubCounterWrite src ((off - 0x1000000) / 8) size v s) s
      else if 0x1100000 ≤ off ∧ off < 0x1140000 then
        stateOf (execSemaphoreWrite src ((off - 0x1100000) / 8) size v s) s
      else if 0x1180000 ≤ off ∧ off < 0x1200000 then
        stateOf (execLocalCounterWrite src ((off - 0x1180000) / 0x2000) (off % 0x2000 / 8) size v s) s
      else if 0x2000000 ≤ off ∧ off < 0x2011000 then s
      else if 0x3000000 ≤ off then
        stateOf (execForwardWrite src ((off - 0x3000000) / 0x40000) (off % 0x40000) (leBytes size v.toNat) s) s
      else dropWrite s src off

/-- A source reaches the registers: the main rails are on, and the host link carries its accesses, as it does not while a
dump is written or after a fatal stop (15 R429). -/
def reaches (s : State) (src : RegSrc) : Bool := mainUp s && !(overHost src && s.host.stopped)

def execRegisterWrite (src : RegSrc) (off size : Nat) (v : W64) (s : State) : Host.Outcome State Fault Refusal :=
  onOk (src.ok && barOk off) (
    if reaches s src then settle (barWrite s src off size v) else s)

/-- A W1C write of a page's ERR_STAT. -/
def execErrStatClear (src : RegSrc) (page : Nat) (v : W64) (s : State) : Host.Outcome State Fault Refusal :=
  onOk (src.ok && pageOk page) (if reaches s src then pageWrite s src page 0x20 8 v else s)

/-! ### Reads that clear (R471) -/

/-- The key under which a register with access RC is stored. -/
def rcKey (s : State) (src : RegSrc) (p rel : Nat) : Nat :=
  if p = pLMP ∧ rel = 0x150 then rkBank pLMP 0x150 (exportPart s src) else rk p rel

/-- An 8 B read at an aligned offset: what it returns, and the state after it. -/
def readClear (s : State) (src : RegSrc) (off : Nat) : W64 × State :=
  let v := readReg s src off
  match pageOf off with
  | none => (v, s)
  | some p =>
    let rel := off - pageBase p
    let clears : Bool := match regDesc p rel with
      | some ⟨_, .rc _, _⟩ => seesReg s src p rel
      | _ => false
    (v, if clears then s.setReg (rcKey s src p rel) 0 else s)

/-- The read is answered; one that is not aligned, or that the host link does not carry, completes with Unsupported
Request. -/
def execRcRead (src : RegSrc) (off : Nat) (s : State) : Host.Outcome State Fault Refusal :=
  onOk (src.ok && barOk off) (
    if off % 8 ≠ 0 ∨ reaches s src = false then emit s .barUR
    else
      let (v, t) := readClear s src off
      emit t (.regRead src off v))

end Sys2Proof.Machine
end

