-- ==== Sys2Proof/Machine/Restart.lean ====
section
/-! DEFINITION. Restarts of the Lamplighter by the hub watchdog (15 R417, R418; 17 R481; 18 R506). -/
namespace Sys2Proof.Machine

/-- Writes that the restart held are dropped. -/
def dropHeldWrites (s : State) : State :=
  s.lamp.heldWrites.foldl (fun s e => dropWrite s e.1 e.2.1) (s.setLamp (fun l => { l with heldWrites := [] }))

/-- The watchdog declares a hang; the third within 10 s of the first makes it give up. -/
def declareHang (s : State) (within10s : Bool) : State :=
  let n := if within10s then s.lamp.hangs + 1 else 1
  let s := s.setLamp (fun l => { l with hangs := n })
  if 3 ≤ n then
    let s := dropHeldWrites (s.setLamp (fun l => { l with gaveUp := true, restarting := false }))
    raiseAlert (logErr s pLMP 1 { status := stReset }) alGaveUp
  else
    let (f, s) := if s.lamp.restarts = 255 then draw s else (0, s)
    let s := s.setLamp (fun l => { l with
      restarting := true, restarts := if l.restarts = 255 then f.setWidth 8 else l.restarts + 1 })
    raiseAlert (logErr s pLMP 0 { status := stReset }) alRestart

/-- A hang: sixteen beacon periods pass without a beacon, of the firmware or of a restart of it. `within10s` says that
the hang falls within 10 s of the first of those counted. -/
def execWatchdogHang (within10s : Bool) (s : State) : Host.Outcome State Fault Refusal :=
  .next (if s.power.mainOn && !s.lamp.booting && !s.lamp.gaveUp then declareHang s within10s else s)

/-- The writes that waited take effect, in their order (17 R481). -/
def applyHeldWrites (s : State) : State :=
  s.lamp.heldWrites.foldl (fun s e => match pageOf e.2.1 with
    | some p => applyWrite s e.1 p (e.2.1 - pageBase p) e.2.2
    | none => s) (s.setLamp (fun l => { l with heldWrites := [] }))

/-- Firmware serves again; every monitor session is closed at level 0. -/
def execLamplighterResume (s : State) : Host.Outcome State Fault Refusal :=
  .next (
    if !s.lamp.restarting then s
    else
      let s := s.setLamp (fun l => { l with restarting := false })
      let s := s.setMon (fun m => { m with sessions := [] })
      settle (emit (applyHeldWrites s) (.serialBanner s.lamp.beacon)))

end Sys2Proof.Machine
end

