-- ==== Sys2Proof/Machine/Ember.lean ====
section
/-! DEFINITION. Ember dumps: what a dump's slot holds, EMBER_READ, and erasing a slot (18 R510 to R515). -/
namespace Sys2Proof.Machine

/-! ### Sections (R513) -/

/-- A section: its ID, its offset and its length in KiB, and whether the manual gives the layout of its bytes. -/
structure DumpSection where
  id    : Nat
  off   : Nat
  len   : Nat
  known : Bool
deriving DecidableEq, Repr

def dumpSections : List DumpSection :=
  [⟨1, 4, 16384, true⟩, ⟨2, 16388, 616, true⟩, ⟨3, 17004, 69632, true⟩, ⟨4, 86636, 557056, true⟩,
   ⟨5, 643692, 69632, true⟩, ⟨6, 713324, 131072, true⟩, ⟨7, 844396, 65536, true⟩, ⟨8, 909932, 8192, true⟩,
   ⟨9, 918124, 1024, false⟩, ⟨10, 919148, 1792, true⟩, ⟨11, 920940, 8, false⟩, ⟨12, 920948, 16384, false⟩,
   ⟨13, 937332, 17152, false⟩, ⟨14, 954484, 1024, false⟩, ⟨15, 955508, 32, false⟩, ⟨16, 955540, 8192, false⟩,
   ⟨17, 963732, 40, false⟩]

def kib : Nat := 1024
/-- First byte of a section, by its ID. -/
def sectionByte (id : Nat) : Nat := kib * ((dumpSections.find? (fun d => d.id = id)).map (·.off)).getD 0

/-- Bytes 13 KiB and on of a wick's 16 KiB in WICK_STATE hold the range tracker and mover queues, in no given layout. -/
def inWickQueues (off : Nat) : Bool :=
  decide (sectionByte 3 ≤ off ∧ off < sectionByte 4) && decide (13 * kib ≤ (off - sectionByte 3) % (16 * kib))

/-! ### What is captured -/

/-- Physical wicks of a sconce at its positions: (wick id, physical index). -/
def physicalWicks (s : State) (sc : Nat) : List (Nat × Nat) :=
  ((workingWicks s sc).take 64).mapIdx (fun i p => (64 * sc + i, 68 * sc + p))

/-- The dump index of the physical wick at a position. -/
def dumpIndex (s : State) (w : Nat) : Option Nat := ((physicalWicks s (w / 64)).find? (fun e => e.1 = w)).map (·.2)

/-- The window image, registers and read-buffer lines of a wick: (offset in its 16 KiB, bytes). -/
def wickImage (s : State) (w : Nat) : List (Nat × List Byte) :=
  let k := s.wick w
  [(0, leBytes 8 (wstat s w).toNat), (8, leBytes 8 (wstep k).toNat)] ++
  (List.range 78).map (fun i => (16 + 8 * i, leBytes 8 (windowValue k (16 + 8 * i)).toNat)) ++
  (List.range 32).map (fun i => (kib + 64 * i, bytesOf (rdV k i))) ++
  (List.range 4).map (fun i => (3 * kib + 256 * i, leBytes 256 (rdAcc k i).toNat)) ++
  k.buf.mapIdx (fun i e => (11 * kib + 64 * i, bytesOf e.2))

/-- A context descriptor's 64 bytes (03 R68). -/
def ctxBytes (c : Ctx) : List Byte :=
  leBytes 8 (c.type.toNat + 2 ^ 8 * c.part.toNat + 2 ^ 16 * c.key.toNat + 2 ^ 32 * b2n c.ats + 2 ^ 33 * b2n c.viewValid +
    2 ^ 34 * b2n c.memValid) ++ leBytes 8 c.root.toNat ++ leBytes 8 c.viewBase.toNat ++ leBytes 8 c.viewLen.toNat ++
  leBytes 8 c.memBase.toNat ++ leBytes 8 c.memLen.toNat ++ leBytes 16 c.data.toNat

/-- Bytes of the sections of known layout: (offset in the dump, bytes). -/
def captured (s : State) : List (Nat × List Byte) :=
  s.errs.ring.map (fun e => (sectionByte 1 + 64 * (e.1 % ringRecords), recordBytes e.2)) ++
  ((List.range 154).map (fun p => (List.range 512).map (fun i =>
    (sectionByte 2 + 4096 * p + 8 * i, leBytes 8 (pageReg s .pf p (8 * i)).toNat)))).flatten ++
  ((List.range 64).map (fun sc => ((physicalWicks s sc).map (fun e =>
    (wickImage s e.1).map (fun x => (sectionByte 3 + 16 * kib * e.2 + x.1, x.2)))).flatten)).flatten ++
  (s.scratch.filterMap (fun c => (dumpIndex s (c.1 / 131072)).map (fun i =>
    (sectionByte 4 + 131072 * i + c.1 % 131072, [c.2])))) ++
  (s.imem.filterMap (fun c => (dumpIndex s (c.1 / 16384)).map (fun i =>
    (sectionByte 5 + 16384 * i + c.1 % 16384, [c.2])))) ++
  s.reservoir.map (fun c => (sectionByte 6 + c.1, [c.2])) ++
  s.xlt.ctxs.map (fun e => (sectionByte 7 + 64 * e.1, ctxBytes e.2)) ++
  s.work.queues.map (fun e => (sectionByte 8 + 32 * e.1, leBytes 8 e.2.head.toNat ++ leBytes 8 e.2.tail.toNat ++
    leBytes 8 e.2.cfg.toNat ++ leBytes 8 (queueReg s e.1 0x190).toNat)) ++
  s.sync.hub.map (fun e => (sectionByte 10 + 8 * e.1, leBytes 8 e.2.toNat)) ++
  s.sync.sems.map (fun e => (sectionByte 10 + 2 ^ 20 + 8 * e.1, leBytes 8 e.2.toNat)) ++
  s.sync.local_.map (fun e => (sectionByte 10 + 2 ^ 20 + 2 ^ 18 + 8 * e.1, leBytes 8 e.2.toNat))

/-! ### A slot's contents -/

/-- GENERATION of the next dump: dumps are counted from 1. -/
def nextGeneration (s : State) : W64 :=
  if s.lamp.emberA.generation < s.lamp.emberB.generation then s.lamp.emberB.generation + 1 else s.lamp.emberA.generation + 1

/-- The dump of the state as it stood when the dump began to be written. -/
def emberOf (s : State) (d : Dump) : Ember :=
  { valid := true, generation := nextGeneration s, cause := d.cause, island := fatalIsland d.cause, status := d.status,
    sensor := d.sensor, temp := d.temp, time := d.time, lastSeq := s.errs.seq - 1, second := d.second,
    bytes := (captured s).foldl (fun m e => cellWrite m e.1 e.2) [] }

/-- A byte of a slot beyond its header region. -/
def dumpBody (e : Ember) (off : Nat) : Byte :=
  let known := dumpSections.any (fun d => d.known && decide (kib * d.off ≤ off ∧ off < kib * (d.off + d.len)))
  if known && !inWickQueues off then cellGet e.bytes off else Config.dumpByte e.generation off

/-- The CRC-32C of a section's bytes. -/
def sectionCrc (e : Ember) (d : DumpSection) : Nat :=
  crc32c ((List.range (kib * d.len)).map (fun i => dumpBody e (kib * d.off + i)))

/-- The 4 KiB header region with a value in the place of its CRC (R512). -/
def headerRegion (serial : BitVec 128) (e : Ember) (crc : Nat) : List Byte :=
  let head := leBytes 4 0x524D4245 ++ leBytes 2 1 ++ leBytes 2 (b2n e.second) ++ leBytes 4 17 ++ leBytes 4 crc ++
    leBytes 8 e.generation.toNat ++ leBytes 8 e.time.toNat ++ leBytes 16 serial.toNat ++ [e.cause, e.island, e.status,
    e.sensor] ++ leBytes 2 e.temp.toNat ++ zeros 2 ++ leBytes 4 e.lastSeq.toNat ++ zeros 4 ++ zeros 192
  let table := (dumpSections.map (fun d => leBytes 2 d.id ++ leBytes 2 0 ++ leBytes 4 (sectionCrc e d) ++
    leBytes 4 (d.off / 4) ++ leBytes 4 (d.len / 4))).flatten
  head ++ table ++ zeros (4096 - 256 - 16 * 17)

def emberHeader (serial : BitVec 128) (e : Ember) : List Byte := headerRegion serial e (crc32c (headerRegion serial e 0))

/-- A decrypted byte of a slot. -/
def emberByte (s : State) (e : Ember) (off : Nat) : Byte :=
  if off < 4096 then (emberHeader s.lamp.serial e).getD off 0 else dumpBody e off

def emberBytes (s : State) (e : Ember) (off n : Nat) : List Byte :=
  if 4096 ≤ off then (List.range n).map (fun i => dumpBody e (off + i))
  else (List.range n).map (fun i => emberByte s e (off + i))

/-! ### Slots (R511, R514, R515) -/

/-- A slot: 0 the newest, 1 the older. -/
def emberSlot (s : State) (older : Bool) : Ember := if s.lamp.newestB != older then s.lamp.emberB else s.lamp.emberA

/-- Where an EMBER_READ writes. -/
def emberWrite (c : Cmd) (hc : HostCpl) (dst : Nat) (d : List Byte) : Eng Unit :=
  if bits dst 60 4 = 3 then writeHost c.who hc (bits dst 0 60) d
  else putBytes c.who (tlbOf c.eng) dst d 0 false

def execEmberRead (q : Nat) (e : W512) (hc : HostCpl) (s : State) : Host.Outcome State Fault Refusal :=
  cmdRow q e (opcodeOf e == 0x0E) [(128, 8), (192, 64), (256, 32), (288, 32)] .work (fun c s =>
    let slot := c.f 16 1
    let dst := c.f 24 8
    let off := c.f 32 4
    let n := c.f 36 4
    let x := emberSlot s (slot == 1)
    if 1 < slot ∨ n = 0 ∨ 262144 < n ∨ (bits dst 60 4 ≠ 3 ∧ spaceOk dst = false) then some (failCmd s c stFormat)
    else if !x.valid then
      some (failCmd s c stLost)
    else if 2 ^ 32 < 4096 * (off + n) then some (failCmd s c stFormat)
    else engCmd c (do
      emberWrite c hc dst (emberBytes s x (4096 * off) (4096 * n))
      return x.generation) s) s

/-- An EMBER_READ of a slot has been accepted and waits. -/
def emberReading (s : State) (older : Bool) : Bool :=
  s.work.queues.any (fun e => match e.2.fetched with
    | [] => false
    | f :: _ => opcodeOf f.raw == 0x0E && fld f.raw 16 1 == b2n older)

/-- A slot's header is overwritten; the other slot, if it holds a dump, is now the newest. -/
def eraseEmber (s : State) (older : Bool) : State :=
  let isB := s.lamp.newestB != older
  s.setLamp (fun l => { l with
    emberA := if isB then l.emberA else { l.emberA with valid := false }
    emberB := if isB then { l.emberB with valid := false } else l.emberB
    newestB := if older then l.newestB else !l.newestB })

end Sys2Proof.Machine
end

