-- ==== Sys2Proof/Machine/Boot.lean ====
section
/-! DEFINITION. The cold boot (16 R444 to R448, R453, R459, R462; 02 R35, R36, R537; 01 R20). -/
namespace Sys2Proof.Machine

/-! ### What a main-domain reset leaves -/

/-- Keys of stored registers that flash keeps: CH_STAT of the FLC pages (17 R495). -/
def keptReg (k : Nat) : Bool := (List.range 32).any (fun n => k == rk (pFLC n) 0x100)

/-- Limits of the thermal stop of a shipped module (19 R531). -/
def shippedLimits (variantA : Bool) : W32 := BitVec.ofNat 32 (1680 + 2 ^ 16 * (if variantA then 720 else 800))

/-- The state with every main-rail domain as reset leaves it. Fuses, flash, the standby domain, and what lies outside
the module are kept (02 R36; 18 R511; 19 R520, R523). -/
def wipeMain (s : State) : State :=
  { State.reset with
    pending := s.pending, out := s.out, free := s.free, remote := s.remote, remoteStatus := s.remoteStatus
    regs := s.regs.filter (fun e => keptReg e.1)
    xbar := { Xbar.reset with agentId := s.xbar.agentId }
    lantern := { Lantern.reset with litA := s.lantern.litA, litB := s.lantern.litB }
    store := { Store.reset with homeId := s.store.homeId }
    sconces := s.sconces.map (fun (e : Nat × Sconce) => (e.1, { Sconce.fresh with fuseFail := e.2.fuseFail }))
    host := { HostLink.reset with mem := s.host.mem, notFront := s.host.notFront }
    lamp := { Lamp.reset with
              moduleTime := s.lamp.moduleTime, variantA := s.lamp.variantA, userA := s.lamp.userA,
              userB := s.lamp.userB, factory := s.lamp.factory, serial := s.lamp.serial, slotAVer := s.lamp.slotAVer,
              slotBVer := s.lamp.slotBVer, minVer := s.lamp.minVer, emberA := s.lamp.emberA, emberB := s.lamp.emberB,
              newestB := s.lamp.newestB, spi := s.lamp.spi }
    mon := { Mon.reset with opkey := s.mon.opkey }
    power := { s.power with
               stack := [], cap := [], tempOffset := [], peakTemp := 0, peakSensor := 0, peakPower := 0
               stopLimit := shippedLimits s.lamp.variantA
               sensors := s.power.sensors.map (fun (e : Nat × Sensor) => (e.1, { Sensor.fresh with reading := e.2.reading })) } }

/-! ### Firmware (R445) -/

/-- The image that the boot ROM takes: none, or slot A (false) or B (true). The higher version is tried first. -/
def pickImage (s : State) (scan : BootScan) : Option Bool :=
  let ok (b : Bool) : Bool := if b then scan.slotBOk && decide (s.lamp.minVer ≤ s.lamp.slotBVer)
    else scan.slotAOk && decide (s.lamp.minVer ≤ s.lamp.slotAVer)
  (if s.lamp.slotAVer < s.lamp.slotBVer then [true, false] else [false, true]).find? ok

/-- BOOT_STAT but for its step, which is kept in the state. -/
def setBootStat (s : State) (image : Option Bool) (code ms : Nat) : State :=
  let ver := match image with
    | none => 0
    | some b => (if b then s.lamp.slotBVer else s.lamp.slotAVer).toNat
  s.setReg (rk pTOP 0x130) (word [(4, b2n (image == some true)), (8, code), (16, ver), (32, ms)])

/-- The boot halts after a step: the host link is held down and BOOT_HALT alerts. -/
def haltBoot (s : State) (image : Option Bool) (code : Nat) (step : BitVec 4) : State :=
  let s := setBootStat s image code 0
  raiseAlert (s.setLamp (fun l => { l with bootStep := step, halted := true })) alBootHalt

/-! ### Step 4 -/

/-- Free values of a count of keys, each seeding a generator of its own. -/
def seedKeys (s : State) (ks : List Nat) : State :=
  ks.foldl (fun s k => let (f, s) := draw s; genSet s k (genSeed (f.setWidth 32))) s

/-- Generators of the copy engines, the work engine and the memory targets (07 R208), and the sketch's multipliers
(11 R317). -/
def seedBoot (s : State) : State :=
  let s := seedKeys s (List.range 33 ++ (List.range 64).map (· + 64) ++ (List.range 6).map (· + 128) ++
    (List.range 4).map (· + 136))
  (List.range 4).foldl (fun s k =>
    let (f, s) := draw s
    s.setEmb (fun m => { m with mults := listSet m.mults k (fun _ => f ||| 1) })) s

/-- Calibration combined, class and pools chosen, key slot 0 loaded. -/
def bootConfig (s : State) : State :=
  let s := applyOffsets (selectClass (readUserArea s))
  let pools := ((userEntry s itPools 0).getD 0).toNat
  let s := s.setReg (rk pPLC 0x108) (BitVec.ofNat 64 pools)
  let s := s.setStore (fun z => { z with rowGiB := pools % 256, shadowGiB := pools / 256 })
  let n := s.free
  setKeySlot (seedBoot { s with free := n + 1 }) 0 (fun _ =>
    { pair := Config.entropyKey n, valid := true, owner := 0, busy := false, clearing := false })

/-! ### Steps 5 to 9 -/

/-- Physical wicks of a sconce that the screen finds failing. -/
def screenSet (scan : BootScan) (sc : Nat) : BitVec 68 :=
  BitVec.ofNat 68 (((List.range 68).map (fun w => if scan.screenFail.contains (sc, w) then 2 ^ w else 0)).sum)

/-- Sconces that cannot fill their positions, or whose die does not train. -/
def downSconces (s : State) (scan : BootScan) : List Nat :=
  (List.range 64).filter (fun sc =>
    decide (4 < popc 68 ((s.sconce sc).fuseFail ||| screenSet scan sc).toNat) || scan.badDies.getLsbD (sc / 8))

/-- Training results of dies and channels; the rows repaired are a free value. -/
def bootTraining (s : State) (scan : BootScan) : State :=
  let s := (List.range 8).foldl (fun s d =>
    let (f, s) := draw s
    s.setPower (fun p => { p with stack := tput p.stack d { Training.ready with
      middle := f.setWidth 16, temp := dieTemp s d, dead := scan.badDies.getLsbD d } })) s
  s.setPower (fun p => { p with cap := (List.range 24).foldl (fun m c =>
    tput m c { Training.ready with temp := sensorReading s 64 }) p.cap })

/-- HOME_LEN (02 R35). -/
def homeLength (st : Store) : Nat := (stackedBlocks st + capacityBlocks) * 65536 + 57344 * 2 ^ 30

/-- Ports that the user area enables: all ten when it names none. -/
def portMask (s : State) : Nat := ((userEntry s itPorts 0).map Int.toNat).getD 0x3FF

/-- The light that the inputs supply at the start. -/
def bootLight (s : State) : State :=
  if activeLit s then s else if otherLit s then switchInput s else loseLight s

/-- Records of resets that were held while the main rails were off or in reset (19 R528). -/
def heldRecords (s : State) : State :=
  let due := s.power.heldDue
  let s := s.setPower (fun p => { p with heldDue := 0, sysHeld := false, perstHeld := false })
  (List.range 2).foldl (fun s i => if due.getLsbD i then logErr s pPWR 2 { status := stReset } else s) s

/-- Steps 5 to 9 of a boot that does not halt. -/
def bootBuild (s : State) (scan : BootScan) : State :=
  let down := downSconces s scan
  let s := (List.range 64).foldl (fun s sc => s.setSconce sc (fun c => { c with screened := screenSet scan sc })) s
  let s := bootTraining s scan
  let s := s.setStore (fun z => { z with bootDown := down, flashFree := scan.flashFree.toNat, flashWear := scan.flashWear })
  let s := s.setStore (fun z => { z with homeLen := homeLength z })
  let s := applySpares s (fun _ => 0)
  let s := bootLight (applyBoosters s)
  let m := portMask s
  (List.range 10).foldl (fun s n => if bit m n then portWrite s (.lmp 0) n true else s) s

/-- A cold boot up to its last step but one. -/
def coldBoot (s0 : State) (scan : BootScan) : State :=
  let s := heldRecords (wipeMain s0)
  match pickImage s scan with
  | none => haltBoot s none 1 2
  | some b =>
    if !scan.blobOk then haltBoot s (some b) 2 3
    else
      let s := bootConfig s
      if !scan.capOk then haltBoot s (some b) 3 4
      else if scan.flashBad ≠ 0 then
        haltBoot (s.setStore (fun z => { z with flashDown := scan.flashBad })) (some b) 4 4
      else
        let s := setBootStat (bootBuild s scan) (some b) 0 scan.durationMs.toNat
        s.setLamp (fun l => { l with bootStep := 9 })

/-- The module reset has been released and the boot has not begun. -/
def bootDue (s : State) : Bool := mainUp s && s.power.pwrgd && s.lamp.booting && s.lamp.bootStep == 0 && !s.lamp.halted

def execColdBoot (scan : BootScan) (s : State) : Host.Outcome State Fault Refusal :=
  .next (if bootDue s then coldBoot s scan else s)

/-- Step 10. -/
def execColdBootReady (s : State) : Host.Outcome State Fault Refusal :=
  .next (
    if mainUp s && s.lamp.booting && s.lamp.bootStep == 9 && !s.lamp.halted then
      settle (sendBeacon (s.setLamp (fun l => { l with bootStep := 10, booting := false })))
    else s)

end Sys2Proof.Machine
end

