-- ==== Sys2Proof/Machine/Power.lean ====
section
/-! DEFINITION. The feed, the main rails, pins and their filters, the I3C target, the temperature sensors, and the end of
an ember dump (17 R489, R490; 18 R510; 19 R519 to R525, R528, R531). -/
namespace Sys2Proof.Machine

/-! ### Power-down and the module reset (R521 to R523) -/

/-- A dump that power-down or a trip cuts short leaves the slot that it was writing without a valid header. -/
def cutDump (s : State) : State :=
  match s.lamp.dump with
  | none => s
  | some d =>
    if d.early then s
    else if (newestEmber s).valid && !s.lamp.newestB then s.setLamp (fun l => { l with emberB := { l.emberB with valid := false } })
    else s.setLamp (fun l => { l with emberA := { l.emberA with valid := false } })

/-- The main rails go off. -/
def powerDown (s : State) (cause : Byte) : State :=
  (wipeMain (cutDump s)).setPower (fun p => { p with
    mainOn := false, pwrgd := false, offWait := true, startCause := cause, cycleReq := false, heldCmds := [] })

/-- Every main-rail domain is reset with its power on. -/
def moduleReset (s : State) (cause : Byte) : State :=
  (wipeMain s).setPower (fun p => { p with startCause := cause, cycleReq := false, heldCmds := [] })

/-- Requests that wait while an ember dump is written (R522): POWER_CMD 2, 3 and 4, and 6 for SYS_RESET_N. -/
def whenDumped (s : State) (cmd : Byte) (f : State → State) : State :=
  if s.lamp.dump.isSome then s.setPower (fun p => { p with heldCmds := p.heldCmds ++ [cmd] }) else f s

/-- POWER_CMD OFF. -/
def turnOff (s : State) : State :=
  let s := s.setPower (fun p => { p with cmdOff := true, cycling := false, powerDue := false })
  if s.power.mainOn then powerDown s 2 else s

/-- POWER_CMD CYCLE: off, then on when the minimum time off has passed. -/
def turnCycle (s : State) : State :=
  let s := s.setPower (fun p => { p with cmdOff := false, cycling := true, powerDue := p.pwrEn })
  if s.power.mainOn then powerDown s 3 else s

/-- COLD_RESET, or SYS_RESET_N. -/
def turnReset (s : State) (cause : Byte) : State := if s.power.mainOn then moduleReset s cause else s

/-! ### POWER_CMD (R522, R524, R525) -/

def execPowerOn (s : State) : Host.Outcome State Fault Refusal :=
  .next (if !s.power.feed then s
    else s.setPower (fun p => { p with cmdOff := false, powerDue := p.powerDue || (p.pwrEn && !p.mainOn) }))

def execPowerOff (s : State) : Host.Outcome State Fault Refusal :=
  .next (if !s.power.feed then s else whenDumped s 2 turnOff)

def execCycle (s : State) : Host.Outcome State Fault Refusal :=
  .next (if !s.power.feed || s.power.cycling then s else whenDumped s 3 turnCycle)

def execColdReset (s : State) : Host.Outcome State Fault Refusal :=
  .next (if !s.power.feed then s else whenDumped s 4 (turnReset · 7))

def execI3cComputeReset (s : State) : Host.Outcome State Fault Refusal :=
  .next (if mainUp s && !s.lamp.booting && !frozen s then autoReset s 4 0 false else s)

/-! ### Alerts and the I3C target (R524, R525) -/

/-- Alert bits whose conditions hold. -/
def heldAlerts (s : State) : W16 :=
  BitVec.ofNat 16 (2 ^ alBootHalt * b2n s.lamp.halted + 2 ^ alGaveUp * b2n s.lamp.gaveUp + 2 ^ alFatal * b2n s.lamp.fatal +
    2 ^ alCycle * b2n s.power.cycleReq + 2 ^ alHeld * b2n (s.power.heldNow != 0))

def execAlertClear (v : BitVec 16) (s : State) : Host.Outcome State Fault Refusal :=
  .next (s.setPower (fun p => { p with alert := p.alert &&& ~~~(v &&& ~~~(heldAlerts s)) }))

def execAlertRepeat (s : State) : Host.Outcome State Fault Refusal :=
  .next (match (List.range 16).find? (fun i => s.power.alert.getLsbD i) with
  | some i => emit s (.ibi i)
  | none => s)

def execDynamicAddress (addr : BitVec 7) (s : State) : Host.Outcome State Fault Refusal :=
  .next (if s.power.feed then s.setPower (fun p => { p with i3cAddr := some addr }) else s)

/-- STATE of the I3C target. -/
def i3cState (s : State) : Nat :=
  if !s.power.mainOn then (if s.power.powerDue then 1 else 0)
  else if s.lamp.fatal then 6 else if s.lamp.halted then 5 else if s.lamp.booting then 2
  else if (computeReset s).isSome then 4 else 3

/-- What the tray controller reads at a register index of the I3C target; registers of the main domain read 0 while the
main rails are off. -/
def readI3c (s : State) (idx : Nat) : Nat :=
  let main (v : Nat) : Nat := if s.power.mainOn then v else 0
  match idx with
  | 0 => b2n s.lamp.variantA + main (2 * s.lamp.classNow.toNat + 2 ^ 16 * bits (readReg s .pf 0x130).toNat 16 16)
  | 1 => s.lamp.serial.toNat
  | 2 => i3cState s
  | 3 => s.power.alert.toNat
  | 5 => main (((List.range 65).foldl (fun m i =>
      if sval 16 m.toNat < sval 16 (sensorReading s i).toNat then sensorReading s i else m) (sensorReading s 64)).toNat +
      2 ^ 16 * (sensorReading s 65).toNat)
  | 6 => s.power.inputPower.toNat
  | 7 => main (readReg s .pf 0x130).toNat
  | 8 => main (readReg s .pf 0x1100).toNat
  | _ => 0

/-! ### PWR_EN and sequencing (R521, R522) -/

/-- A rising edge while POWER_CMD OFF stands does nothing but end its standing: the next one powers up. -/
def execPwrEnHigh (s : State) : Host.Outcome State Fault Refusal :=
  .next (if s.power.pwrEn then s
    else s.setPower (fun p => { p with pwrEn := true, cmdOff := false, powerDue := p.powerDue || (!p.cmdOff && !p.mainOn) }))

def execPwrEnLow (s : State) : Host.Outcome State Fault Refusal :=
  .next (
    let s := s.setPower (fun p => { p with pwrEn := false, powerDue := false, cycling := false })
    if s.power.mainOn then powerDown s 1 else s)

/-- The main rails come up; the cold boot that follows is a row of its own. -/
def execPowerUp (s : State) : Host.Outcome State Fault Refusal :=
  .next (
    let p := s.power
    if p.powerDue && !p.offWait && p.feed && !p.tripped && !p.mainOn && p.pwrEn then
      s.setPower (fun p => { p with mainOn := true, pwrgd := true, powerDue := false, cycling := false })
    else s)

def execMinOffTimeEnd (s : State) : Host.Outcome State Fault Refusal :=
  .next (s.setPower (fun p => { p with offWait := false }))

/-! ### SYS_RESET_N and held resets (R523, R528) -/

def execSysResetAssert (s : State) : Host.Outcome State Fault Refusal :=
  .next (if !s.power.sysResetN then s
    else whenDumped (s.setPower (fun p => { p with sysResetN := false })) 6 (turnReset · 6))

def execSysResetRelease (s : State) : Host.Outcome State Fault Refusal :=
  .next (if s.power.sysResetN then s
    else s.setPower (fun p => { p with sysResetN := true, heldNow := p.heldNow &&& 2 }))

/-- A pin has been asserted longer than 1 s: once per assertion. Its record waits for the next cold boot while the main
rails are off or the module is in reset. -/
def execResetHeld (perst : Bool) (s : State) : Host.Outcome State Fault Refusal :=
  .next (
    let i := b2n perst
    if (if perst then s.power.perstN else s.power.sysResetN) || s.power.heldNow.getLsbD i then s
    else
      let b : BitVec 2 := BitVec.ofNat 2 (2 ^ i)
      let s := s.setPower (fun p => { p with
        heldNow := p.heldNow ||| b, sysHeld := p.sysHeld || !perst, perstHeld := p.perstHeld || perst })
      let s := raiseAlert s alHeld
      if mainUp s then logErr s pPWR 2 { status := stReset }
      else s.setPower (fun p => { p with heldDue := p.heldDue ||| b }))

/-! ### Coolant input (R528) -/

/-- COOLANT_FAULT_N is ignored on an AX9E-A and while it is masked. -/
def coolantOn (s : State) : Bool := !s.lamp.variantA && !s.power.masked

def execCoolantFault (s : State) : Host.Outcome State Fault Refusal :=
  .next (
    let s := s.setPower (fun p => { p with coolantN := false })
    if coolantOn s then raiseAlert (if s.power.mainOn then logEvt s pPWR 0 else s) alCoolant else s)

def execInputMasked (edges : Nat) (s : State) : Host.Outcome State Fault Refusal :=
  .next (
    if coolantOn s && decide (1000 < edges) then
      let s := s.setPower (fun p => { p with masked := true })
      let s := if s.power.mainOn then logRecord (logEvt s pPWR 1) pPWR { status := stFormat } else s
      raiseAlert s alMasked
    else s)

/-! ### The feed (R519) -/

/-- The standby rail comes up; a feed that returns after a trip keeps the trip as the cause of the next start. -/
def execFeedConnect (s : State) : Host.Outcome State Fault Refusal :=
  .next (
    if s.power.feed && !s.power.tripped then s
    else
      let p := s.power
      (wipeMain s).setPower (fun _ => { Power.reset with
        mainOn := false, pwrgd := false, powerDue := p.pwrEn, pwrEn := p.pwrEn, sysResetN := p.sysResetN,
        perstN := p.perstN, coolantN := p.coolantN, stopLimit := shippedLimits s.lamp.variantA,
        startCause := if p.tripped then p.startCause else 0 }))

/-- A trip opens the input stage and switches off every main rail at once. -/
def trip (s : State) (cause : Byte) : State :=
  (powerDown s cause).setPower (fun p => { p with tripped := true, powerDue := false, cycling := false })

def execInputRangeTrip (s : State) : Host.Outcome State Fault Refusal :=
  .next (if s.power.feed && !s.power.tripped then trip s 5 else s)

def execOvercurrentTrip (s : State) : Host.Outcome State Fault Refusal :=
  .next (if s.power.feed && s.power.mainOn then raiseAlert (trip s 4) alOver else s)

/-! ### Temperature sensors (R531; 17 R489, R490) -/

/-- The highest valid reading of some sconces' sensors. -/
def hottest (s : State) (l : List Nat) : Option W16 :=
  l.foldl (fun m i =>
    let z := tget Sensor.fresh s.power.sensors i
    if z.failed then m
    else match m with
      | none => some z.reading
      | some r => if sval 16 r.toNat < sval 16 z.reading.toNat then some z.reading else m) none

/-- The reading that stands for a failed sensor. -/
def substitute (s : State) (n : Nat) : Option W16 :=
  let all := hottest s (List.range 64)
  if n < 64 then
    match hottest s ((List.range 8).map (fun i => 8 * (n / 8) + i)) with
    | some r => some r
    | none => if failedSensor s 64 then all else some (sensorReading s 64)
  else all

/-- A calibrated reading; one that does not fit its 16 bits is a free value. -/
def calibrated (s : State) (n : Nat) (raw : W16) : W16 × State :=
  let v := sval 16 raw.toNat + sval 32 (tget 0 s.power.tempOffset n).toNat
  if fitsSigned 16 v then (BitVec.ofInt 16 v, s)
  else let (f, s) := draw s; (f.setWidth 16, s)

/-- The stop limit of a sensor. -/
def stopLimitOf (s : State) (n : Nat) : Int :=
  sval 16 (bits s.power.stopLimit.toNat (if n = 65 then 16 else 0) 16)

/-- A reading within MARGIN of its limit is reported when it comes there. -/
def nearLimit (s : State) (n : Nat) (r : W16) : Bool :=
  let m := bits (regGet s (rk pTHM 0x118)).toNat 0 12
  m != 0 && decide (stopLimitOf s n - m ≤ sval 16 r.toNat)

/-- One sample of a sensor. -/
def sample (s : State) (n : Nat) (raw : W16) : State :=
  let z := tget Sensor.fresh s.power.sensors n
  let (r, s) := if z.failed then ((substitute s n).getD z.reading, s) else calibrated s n raw
  let above := decide (stopLimitOf s n < sval 16 r.toNat)
  let near := nearLimit s n r
  let count := if above then z.overCount + 1 else 0
  let s := s.setPower (fun p => { p with sensors := tput p.sensors n { z with reading := r, overCount := count, near := near } })
  let s := if n < 65 ∧ sval 16 s.power.peakTemp.toNat < sval 16 r.toNat then
      s.setPower (fun p => { p with peakTemp := r, peakSensor := BitVec.ofNat 7 n }) else s
  let s := if near && !z.near && s.power.mainOn then raiseAlert (logEvt s pTHM 0) alNear else s
  if 3 ≤ count ∧ s.power.mainOn ∧ ¬ s.lamp.fatal then fatalStop s 1 (BitVec.ofNat 8 n) r else s

def execSensorSample (sensor : Nat) (raw : BitVec 16) (s : State) : Host.Outcome State Fault Refusal :=
  onOk (sensorOk sensor) (sample s sensor raw)

/-- A sensor fails its self-check. -/
def execSensorFail (sensor : Nat) (s : State) : Host.Outcome State Fault Refusal :=
  onOk (sensorOk sensor) (
    if failedSensor s sensor then s
    else
      let s := s.setPower (fun p => { p with sensors := tmod Sensor.fresh p.sensors sensor (fun z => { z with failed := true }) })
      logErr s pTHM 0 { status := stUncorr, info := sensor })

/-! ### The end of an ember dump (18 R510) -/

/-- The flash copy is written to the slot that does not hold the newest valid dump; one that fails leaves that slot
invalid. -/
def writeEmber (s : State) (d : Dump) (flashOk : Bool) : State :=
  let toB := s.lamp.emberA.valid && !s.lamp.newestB
  if d.early then s
  else if !flashOk then cutDump s
  else
    let e := emberOf s d
    s.setLamp (fun l => { l with
      emberA := if toB then l.emberA else e, emberB := if toB then e else l.emberB, newestB := toB })

/-- A request that the dump held back. -/
def heldAct (s : State) (c : Byte) : State :=
  if c = 2 then turnOff s
  else if c = 3 then (if s.power.cycling then s else turnCycle s)
  else if c = 4 then turnReset s 7 else turnReset s 6

/-- What the dump held back happens now, in its order. -/
def releaseHeld (s : State) : State := s.power.heldCmds.foldl heldAct (s.setPower (fun p => { p with heldCmds := [] }))

def execEmberDump (flashOk : Bool) (s : State) : Host.Outcome State Fault Refusal :=
  .next (match s.lamp.dump with
  | none => s
  | some d =>
    let s := writeEmber s d flashOk
    releaseHeld (requestCycle (s.setLamp (fun l => { l with dump := none }))))

end Sys2Proof.Machine
end

