-- ==== Sys2Proof/Machine/Monitor.lean ====
section
/-! DEFINITION. The Lerter monitor: sessions, privilege levels, the unlock exchange and the commands, on the serial line
and on the management Ethernet ports (18 R501 to R509, R515; 19 R526, R527; 17 R499, R500). -/
namespace Sys2Proof.Machine

/-! ### Answers -/

/-- An answer: its data lines, its final status (0 stands for OK), and the state after the command. -/
structure Reply where
  body  : List AnsVal
  final : Status
  after : State

def good (s : State) (body : List AnsVal) : Reply := ⟨body, stOK, s⟩
def bad (s : State) (st : Status) : Reply := ⟨[], st, s⟩

/-- The register source of a session (17 R474): firmware has the first bank of the Lamplighter's ten. -/
def sessionSrc (k : Nat) : RegSrc := .lmp (1 + k)

/-! ### Register commands -/

/-- The pages that RD reads at level 0. -/
def openPage (off : Nat) : Bool :=
  match pageOf off with
  | some p => p == pTOP || p == pPWR || p == pTHM || p == pMON
  | none => false

def readAll (s : State) (src : RegSrc) (off n : Nat) : List AnsVal × State :=
  (List.range n).foldl (fun (a : List AnsVal × State) i =>
    let (v, t) := readClear a.2 src (off + 8 * i)
    (a.1 ++ [.num v.toNat], t)) ([], s)

def rdCmd (s : State) (k off n : Nat) : Reply :=
  if n = 0 ∨ 64 < n ∨ 2 ^ 26 < off + 8 * n then bad s stFormat
  else if off % 8 ≠ 0 then bad s stAlign
  else
    let (b, t) := readAll s (sessionSrc k) off n
    good t b

def wrCmd (s : State) (k off : Nat) (v : W64) : Reply :=
  if 2 ^ 26 ≤ off then bad s stFormat else good (settle (barWrite s (sessionSrc k) off 8 v)) []

def statCmd (s : State) (k : Nat) : Reply :=
  let r (p rel : Nat) : AnsVal := .num (pageReg s (sessionSrc k) p rel).toNat
  good s [r pTOP 0x018, r pTOP 0x130, r pTOP 0x108, r pLMP 0x100, r pLMP 0x110, r pTHM 0x100, r pTHM 0x108, r pPWR 0x110,
    r pPWR 0x100]

def resetMon (s : State) (k level target : Nat) : Reply :=
  if 8 ≤ level ∨ 2 ^ 20 ≤ target then bad s stFormat
  else good (settle (resetWrite s (sessionSrc k) (word [(0, level), (32, target)]))) []

/-! ### Records, blobs and memories -/

def eringCmd (s : State) (seq : W32) (n : Nat) : Reply :=
  if n = 0 ∨ 64 < n then bad s stFormat
  else good s ((List.range n).filterMap (fun i =>
    let q := seq + BitVec.ofNat 32 i
    ((s.errs.ring.find? (fun e => e.2.seq == q)).map (fun e => AnsVal.bytes (recordBytes e.2)))))

def fblobCmd (s : State) : Reply :=
  good s (s.lamp.factory.map (fun f => .bytes (leBytes 2 f.item.toNat ++ leBytes 2 f.index.toNat ++
    leBytes 4 f.value.toNat ++ leBytes 4 f.min.toNat ++ leBytes 4 f.max.toNat)))

def emberListCmd (s : State) : Reply :=
  let l := [emberSlot s false, emberSlot s true].filter (·.valid)
  good s (l.map (fun e => .bytes ((emberHeader s.lamp.serial e).take 256)))

def emberReadCmd (s : State) (slot off n : Nat) : Reply :=
  let e := emberSlot s (slot == 1)
  if 1 < slot ∨ n = 0 ∨ 64 < n ∨ 2 ^ 32 < off + 64 * n then bad s stFormat
  else if !e.valid then bad s stLost
  else good s ((List.range n).map (fun i => .bytes (emberBytes s e (off + 64 * i) 64)))

def emberEraseCmd (s : State) (slot : Nat) : Reply :=
  if 1 < slot then bad s stFormat
  else if emberReading s (slot == 1) then bad s stBusy
  else good (eraseEmber s (slot == 1)) []

def spirdCmd (s : State) (off n : Nat) : Reply :=
  if n = 0 ∨ 4096 < n then bad s stFormat else good s [.bytes (cellRead s.lamp.spi off n)]

/-- The ciphertext of one line; of a line that nothing has written since the cold boot it is a free value. -/
def cipherLine (s : State) (l : Nat) : List Byte × State :=
  if s.store.written.contains l then (bytesOf (lineStored s l), s)
  else
    let r := (List.range 8).foldl (fun (a : List Byte × State) _ =>
      let (f, t) := draw a.2
      (a.1 ++ leBytes 8 f.toNat, t)) ([], s)
    r

def sardCmd (s : State) (sa : W64) (n : Nat) : Reply :=
  let off := sa.toNat % 2 ^ 50
  if n = 0 ∨ 4096 < n ∨ sa.toNat / 2 ^ 50 ≠ s.store.homeId.toNat ∨ s.store.homeLen < off + n then bad s stFormat
  else if off % 64 ≠ 0 then bad s stAlign
  else
    let ls := (List.range ((n + 63) / 64)).map (off / 64 + ·)
    if ls.any (lineBad s) then bad s stUncorr
    else if ls.any (fun l => (blockGet s (l / 1024)).lost) then bad s stLost
    else
      let r := ls.foldl (fun (a : List Byte × State) l =>
        let (b, t) := cipherLine a.2 l
        (a.1 ++ b, t)) ([], s)
      good r.2 [.bytes (r.1.take n)]

/-! ### Unlocking (R505) -/

/-- Sixty seconds of module time. -/
def lockTime : W64 := 6000000000

def chalCmd (s : State) (k level : Nat) : Reply :=
  if level ≠ 1 ∧ level ≠ 2 then bad s stFormat
  else if s.lamp.moduleTime < (session s k).lockUntil then bad s stBusy
  else if level = 1 ∧ s.mon.opkey.isNone then bad s stPerm
  else
    let nonce := Config.entropyNonce s.free
    let s := { s with free := s.free + 1 }
    good (setSession s k (fun z => { z with nonce := some nonce, want := BitVec.ofNat 2 level, parts := [] }))
      [.bytes (leBytes 16 nonce.toNat)]

/-- The message that a signature covers: the ASCII bytes LERTER01, the nonce, the module serial and the level. -/
def unlockMessage (s : State) (nonce : BitVec 128) (level : BitVec 2) : List Byte :=
  [0x4C, 0x45, 0x52, 0x54, 0x45, 0x52, 0x30, 0x31] ++ leBytes 16 nonce.toNat ++ leBytes 16 s.lamp.serial.toNat ++
    [level.setWidth 8]

/-- The signature of the eight parts, each in big-endian order; none while a part is missing. -/
def signature (z : Session) : Option (List Byte) :=
  if (List.range 8).all (fun i => z.parts.any (fun e => e.1 == i)) then
    some (((List.range 8).map (fun i => (bytesOf (tget 0 z.parts i)).reverse)).flatten)
  else none

def unlocks (s : State) (z : Session) : Bool :=
  match z.nonce, signature z with
  | some nonce, some sig =>
    let m := unlockMessage s nonce z.want
    if z.want = 2 then Config.rsaVerify Config.serviceKey m sig
    else match s.mon.opkey with
      | some key => Config.rsaVerify key m sig
      | none => false
  | _, _ => false

/-- A failed answer; the third in a row closes CHAL for 60 s. -/
def unlockFailed (s : State) (k : Nat) : State :=
  let third := decide (3 ≤ (session s k).fails + 1)
  let s := setSession s k (fun z => { z with
    fails := if third then 0 else z.fails + 1
    lockUntil := if third then s.lamp.moduleTime + lockTime else z.lockUntil })
  logErr s pMON 0 { status := stPerm }

def ansCmd (s : State) (k i : Nat) (h : W512) : Reply :=
  if 8 ≤ i then bad s stFormat
  else
    let s := setSession s k (fun z => { z with parts := tput z.parts i h })
    if i ≠ 7 then good s []
    else
      let z := session s k
      let s := setSession s k (fun z => { z with nonce := none, parts := [] })
      if unlocks s z then good (setSession s k (fun z => { z with level := z.want, fails := 0 })) []
      else bad (unlockFailed s k) stPerm

/-! ### Commands -/

/-- The level that a command needs (R507). -/
def levelOf : MonCmd → Nat
  | .help => 0
  | .stat => 0
  | .rd off n => if (List.range (min n 64)).all (fun i => openPage (off + 8 * i)) then 0 else 1
  | .wr _ _ => 1
  | .ering _ _ => 1
  | .fblob => 1
  | .reset _ _ => 1
  | .emberList => 0
  | .emberRead _ _ _ => 1
  | .emberErase _ => 1
  | .spird _ _ => 2
  | .sard _ _ => 2
  | .chal _ => 0
  | .ans _ _ => 0
  | .lock => 0

/-- The commands of a level, as HELP lists them. -/
def helpLines (halted : Bool) (level : Nat) : List AnsVal :=
  let base := ["HELP", "STAT", "RD"]
  let l := if halted then base
    else base ++ ["EMBER LIST", "CHAL", "ANS", "LOCK"] ++
      (if 1 ≤ level then ["WR", "ERING", "FBLOB", "RESET", "EMBER READ", "EMBER ERASE"] else []) ++
      (if 2 ≤ level then ["SPIRD", "SARD"] else [])
  l.map .word

/-- What the boot ROM accepts while a cold boot is halted (R503). -/
def romAccepts : MonCmd → Bool
  | .help => true
  | .stat => true
  | .rd off n => (List.range (min n 64)).all (fun i => pageOf (off + 8 * i) == some pTOP)
  | _ => false

/-- A command that its session may give. -/
def runMon (s : State) (k : Nat) : MonCmd → Reply
  | .help => good s (helpLines s.lamp.halted (session s k).level.toNat)
  | .stat => statCmd s k
  | .rd off n => rdCmd s k off n
  | .wr off v => wrCmd s k off v
  | .ering seq n => eringCmd s seq n
  | .fblob => fblobCmd s
  | .reset level target => resetMon s k level target
  | .emberList => emberListCmd s
  | .emberRead slot off n => emberReadCmd s slot off n
  | .emberErase slot => emberEraseCmd s slot
  | .spird off n => spirdCmd s off n
  | .sard sa n => sardCmd s sa n
  | .chal level => chalCmd s k level
  | .ans i h => ansCmd s k i h
  | .lock => good (setSession s k (fun z => { z with level := 0 })) []

/-- A session's command line: the session is open, its level is checked, and a command that is executed is counted. -/
def monCommand (s : State) (k : Nat) (c : MonCmd) : Reply :=
  let s := setSession s k (fun z => { z with open_ := true })
  if (session s k).level.toNat < levelOf c ∨ (s.lamp.halted ∧ !romAccepts c) then bad s stPerm
  else runMon (s.setMon (fun m => { m with commands := if m.commands = 0xFFFF then m.commands else m.commands + 1 })) k c

/-- The monitor takes input: the main rails are on, the boot ROM or firmware runs, and the Lamplighter neither restarts
nor has been given up (R502, R503). -/
def monServes (s : State) : Bool :=
  mainUp s && !s.lamp.restarting && !s.lamp.gaveUp && (s.lamp.halted || s.lamp.bootStep != 0)

/-- A complete answer leaves on the serial line, or as MON_RSP frames to the session's station. -/
def answerTo (s : State) (ss : MonSess) (body : List AnsVal) (final : Status) : State :=
  match ss with
  | .serial => emit s (.serial body final)
  | .eth port _ =>
    let z := session s (sessionKey ss)
    let s := setSession s (sessionKey ss) (fun z => { z with answer := body, final := final })
    emit s (.frame 4 port (some z.mac) (z.lastSeq.getD 0) (body ++ [.num final.toNat]))

/-- A command line of a session: the serial session opens with it, an Ethernet session has been opened by a MON_REQ. -/
def monLine (ss : MonSess) (f : State → Reply) (s : State) : Host.Outcome State Fault Refusal :=
  onOk ss.ok (
    let isSerial := sessionKey ss == 0
    if !monServes s || (!isSerial && !(session s (sessionKey ss)).open_) then s
    else
      let s := if isSerial then s.setMon (fun m => { m with breakHeld := false }) else s
      let r := f s
      answerTo r.after ss r.body r.final)

def monRow (ss : MonSess) (c : MonCmd) (s : State) : Host.Outcome State Fault Refusal :=
  monLine ss (fun s => monCommand s (sessionKey ss) c) s

/-- HELP; a line too long, or one that lost characters, is discarded at its end, whatever it says (R502). -/
def execHelp (ss : MonSess) (len : Nat) (lost : Bool) (s : State) : Host.Outcome State Fault Refusal :=
  monLine ss (fun s => if 255 < len ∨ lost = true then bad s stFormat else monCommand s (sessionKey ss) .help) s

def execStat (ss : MonSess) (s : State) : Host.Outcome State Fault Refusal := monRow ss .stat s
def execRd (ss : MonSess) (off n : Nat) (s : State) : Host.Outcome State Fault Refusal := monRow ss (.rd off n) s
def execWr (ss : MonSess) (off : Nat) (v : W64) (s : State) : Host.Outcome State Fault Refusal := monRow ss (.wr off v) s
def execEring (ss : MonSess) (seq : W32) (n : Nat) (s : State) : Host.Outcome State Fault Refusal :=
  monRow ss (.ering seq n) s
def execFblob (ss : MonSess) (s : State) : Host.Outcome State Fault Refusal := monRow ss .fblob s
def execReset (ss : MonSess) (level target : Nat) (s : State) : Host.Outcome State Fault Refusal :=
  monRow ss (.reset level target) s
def execEmberList (ss : MonSess) (s : State) : Host.Outcome State Fault Refusal := monRow ss .emberList s
def execMonEmberRead (ss : MonSess) (slot off n : Nat) (s : State) : Host.Outcome State Fault Refusal :=
  monRow ss (.emberRead slot off n) s
def execEmberErase (ss : MonSess) (slot : Nat) (s : State) : Host.Outcome State Fault Refusal :=
  monRow ss (.emberErase slot) s
def execSpird (ss : MonSess) (off n : Nat) (s : State) : Host.Outcome State Fault Refusal := monRow ss (.spird off n) s
def execSard (ss : MonSess) (sa : W64) (n : Nat) (s : State) : Host.Outcome State Fault Refusal := monRow ss (.sard sa n) s
def execChal (ss : MonSess) (level : Nat) (s : State) : Host.Outcome State Fault Refusal := monRow ss (.chal level) s
def execAns (ss : MonSess) (i : Nat) (h : W512) (s : State) : Host.Outcome State Fault Refusal := monRow ss (.ans i h) s
def execLock (ss : MonSess) (s : State) : Host.Outcome State Fault Refusal := monRow ss .lock s

/-! ### Ethernet sessions (19 R527) -/

/-- The sessions of a port that a predicate picks: a slot number from 0 to 3. -/
def findSlot (s : State) (port : Nat) (f : Session → Bool) : Option Nat :=
  (List.range 4).find? (fun i => f (session s (sessionKey (.eth port i))))

/-- Opens a session of a station in a slot. -/
def openSlot (s : State) (port i : Nat) (mac : BitVec 48) : State :=
  setSession s (sessionKey (.eth port i)) (fun _ => { Session.closed with open_ := true, mac := mac })

/-- A request of an open session: the same SEQ again is answered from store, a new one runs. -/
def monRequest (s : State) (port i : Nat) (seq : W16) (c : MonCmd) : State :=
  let ss := MonSess.eth port i
  let k := sessionKey ss
  let z := session s k
  if z.lastSeq = some seq then answerTo s ss z.answer z.final
  else
    let s := setSession s k (fun z => { z with lastSeq := some seq })
    let r := monCommand s k c
    answerTo r.after ss r.body r.final

def execMonReq (port : Nat) (mac : BitVec 48) (seq : BitVec 16) (cmd : MonCmd) (s : State) :
    Host.Outcome State Fault Refusal :=
  onOk (decide (port < 2)) (
    if !monServes s then s
    else match findSlot s port (fun z => z.open_ && z.mac == mac) with
      | some i => monRequest s port i seq cmd
      | none => match findSlot s port (fun z => !z.open_) with
        | some i => monRequest (openSlot s port i mac) port i seq cmd
        | none => emit s (.frame 4 port (some mac) seq [.num stBusy.toNat]))

/-! ### Events of the line and of time -/

/-- A break longer than 1 s; until the line is released it counts once. -/
def execBreakReset (s : State) : Host.Outcome State Fault Refusal :=
  .next (
    if !monServes s || s.mon.breakHeld then s
    else
      let s := setSession s 0 (fun z => { z with nonce := none, parts := [] })
      let s := s.setMon (fun m => { m with breakHeld := true })
      logEvt (bump s (rk pMON 0x120) 16 1) pMON 0)

def execFramingError (s : State) : Host.Outcome State Fault Refusal :=
  .next (if monServes s then bump (s.setMon (fun m => { m with breakHeld := false })) (rk pMON 0x118) 32 1 else s)

/-- The open challenge of a session expires. -/
def execNonceExpiry (ss : MonSess) (s : State) : Host.Outcome State Fault Refusal :=
  onOk ss.ok (setSession s (sessionKey ss) (fun z => { z with nonce := none, parts := [] }))

/-- Fifteen minutes without a command: the session is over, at level 0. -/
def execSessionTimeout (ss : MonSess) (s : State) : Host.Outcome State Fault Refusal :=
  onOk ss.ok (setSession s (sessionKey ss) endSession)

end Sys2Proof.Machine
end

