-- ==== Sys2Proof/Machine/Optim.lean ====
section
/-! DEFINITION. The optimizer operators of the OPTIM command (12 R338 to R345). -/
namespace Sys2Proof.Machine

/-! ### The parameter block (R338, R339) -/

/-- An OPTIM service plan of a partition. -/
def optimPlan (s : State) (part : BitVec 6) (h : Nat) : Option Plan :=
  match servicePlan s part h 0x1B with
  | some p =>
    let scs := ((planWicks p).map (· / 64)).dedup
    let has (sc kind b2 : Nat) := p.claims.any (fun c => c.kind.toNat == kind && c.b1.toNat == sc && c.b2.toNat == b2)
    let counters (sc : Nat) := p.claims.any (fun c => c.kind == 3 && c.b1.toNat == sc && claimFirst c == 0 &&
      decide (16 ≤ claimCount c))
    if (stepOf p).all (fun st => st.launchCount == 0 && st.streamCount == 0) ∧ planWicks p ≠ [] ∧
        scs.all (fun sc => has sc 2 0 && has sc 2 1 && counters sc) ∧
        p.claims.any (fun c => c.kind == 8 && c.b1 == 1) then some p else none
  | none => none

structure Optim where
  master : Nat
  grad   : Nat
  mom1   : Nat
  mom2   : Nat
  serve  : Nat
  n      : Nat
  gfmt   : Nat
  mfmt   : Nat
  sfmt   : Nat
  row    : Nat
  lr     : Nat
  wd     : Nat
  b1     : Nat
  b2     : Nat
  eps    : Nat
  gscale : Nat
  bc1    : Nat
  bc2    : Nat
  sscale : Nat
  done   : Nat

/-- The block's fields; a SERVE of 0 is no serving copy, whatever SFMT says. -/
def optimOf (v : Nat) : Optim :=
  let f := fun (i n : Nat) => bits v (8 * i) (8 * n)
  { master := f 0 8, grad := f 8 8, mom1 := f 16 8, mom2 := f 24 8, serve := f 32 8, n := f 40 8, gfmt := f 48 1,
    mfmt := f 49 1, sfmt := if f 32 8 = 0 then 0 else f 50 1, row := f 52 4, lr := f 56 4, wd := f 60 4, b1 := f 64 4, b2 := f 68 4,
    eps := f 72 4, gscale := f 76 4, bc1 := f 80 4, bc2 := f 84 4, sscale := f 88 4, done := f 92 8 }

/-- Whether an operator (1 ADAMW to 5 NORM2) uses MASTER, MOM1 and MOM2. -/
def usesMaster (op : Nat) : Bool := op != 5
def usesMom1 (op : Nat) : Bool := op != 4
def usesMom2 (op : Nat) : Bool := op == 1 || op == 4

def positiveFinite (c : Nat) : Bool :=
  match f32 c with
  | .fin neg m _ => !neg && decide (m ≠ 0)
  | _ => false

/-- What a parameter block must be. -/
def optimForm (op v : Nat) : Bool :=
  let o := optimOf v
  let dva := fun (used : Bool) (a : Nat) => if used then decide (a % 256 = 0 ∧ a < 2 ^ 57) else decide (a = 0)
  dva (usesMaster op) o.master && dva true o.grad && dva (usesMom1 op) o.mom1 && dva (usesMom2 op) o.mom2 &&
  dva (o.sfmt != 0) o.serve &&
  decide (1 ≤ o.n ∧ o.n < 2 ^ 40 ∧ o.gfmt < 2 ∧ o.mfmt < 2 ∧ bits v 400 8 < 3 ∧ bits v 408 8 = 0 ∧ bits v 800 224 = 0 ∧
    o.done % 8 = 0 ∧ o.done < 2 ^ 57 ∧ (op = 5 → o.sfmt = 0)) &&
  (if op = 4 then decide (o.row % 32 = 0 ∧ 32 ≤ o.row ∧ o.row ≤ 65536 ∧ o.n % o.row = 0) else decide (o.row = 0)) &&
  (o.sfmt != 2 || positiveFinite o.sscale)

/-! ### Elements (R341, R342) -/

def mul1 (a b : Nat) : Nat := (f32Mul a b).1
def add1 (a b : Nat) : Nat := (f32Add a b).1
def fma1 (a b c : Nat) : Nat := (f32Fma a b c).1
abbrev f32One : Nat := 0x3F800000

/-- c1, c2 and cd, computed once per instance. -/
structure OptConst where
  c1 : Nat
  c2 : Nat
  cd : Nat

def optConst (o : Optim) : OptConst :=
  { c1 := add1 f32One (f32Neg o.b1), c2 := add1 f32One (f32Neg o.b2), cd := add1 f32One (f32Neg (mul1 o.lr o.wd)) }

/-- The scaled gradient element. -/
def scaledGrad (o : Optim) (x : FVal) : Nat :=
  mul1 (f32Code x) (if o.gscale % 0x80000000 = 0 then f32One else o.gscale)

/-- ADAMW on one element: m', v', w'. -/
def adamwElem (o : Optim) (k : OptConst) (g m v w : Nat) : Nat × Nat × Nat :=
  let m' := fma1 o.b1 m (mul1 k.c1 g)
  let v' := fma1 o.b2 v (mul1 k.c2 (mul1 g g))
  let mh := mul1 m' o.bc1
  let vh := mul1 v' o.bc2
  let q := if vh % 0x80000000 = 0 ∨ vh = 0x7F800000 then vh else mul1 vh (f32Rsqrt vh).1
  let u := mul1 mh (f32Recip (add1 q o.eps)).1
  (m', v', fma1 (f32Neg o.lr) u (mul1 w k.cd))

/-- SGD_M on one element: m', w'. -/
def sgdmElem (o : Optim) (k : OptConst) (nesterov : Bool) (g m w : Nat) : Nat × Nat :=
  let m' := fma1 o.b1 m g
  let u := if nesterov then fma1 o.b1 m' g else m'
  (m', fma1 (f32Neg o.lr) u (mul1 w k.cd))

/-- The sign of an FP32 code as FP32: NaN stays NaN. -/
def signOf (c : Nat) : Nat :=
  match f32 c with
  | .nan => 0x7FC00000
  | .inf neg => withSign fmtFP32 neg f32One
  | .fin neg m _ => if m = 0 then 0 else withSign fmtFP32 neg f32One

/-- SIGN_M on one element: m', w'. -/
def signmElem (o : Optim) (k : OptConst) (g m w : Nat) : Nat × Nat :=
  let u := signOf (fma1 o.b1 m (mul1 k.c1 g))
  (fma1 o.b2 m (mul1 k.c2 g), fma1 (f32Neg o.lr) u (mul1 w k.cd))

/-- ROW_ADAGRAD on a row: the sum over its gradient, the new state, and an element's new master. -/
def rowState (o : Optim) (gs : List Nat) (s0 : Nat) : Nat :=
  let sq := gs.foldl (fun x g => fma1 g g x) 0
  add1 s0 (mul1 sq (f32Recip (f32Code (fint o.row))).1)
def rowElem (o : Optim) (k : OptConst) (s1 g w : Nat) : Nat :=
  let r := (f32Rsqrt (add1 s1 o.eps)).1
  fma1 (f32Neg (mul1 o.lr r)) g (mul1 w k.cd)

/-- NORM2 of one chunk: sixteen lanes, then the tree of REDSUM. -/
def norm2Chunk (gs : List Nat) : Nat :=
  let lane (i : Nat) := (gs.zipIdx.filter (fun e => e.2 % 16 == i)).foldl (fun x e => fma1 e.1 e.1 x) 0
  (redSum ((List.range 16).map lane)).1

/-- Elements narrowed to a stored format: 0 FP32, 1 BF16, 2 E4M3; only a narrowing takes generator bits. -/
def storeElems (fmt : Nat) (stoch : Bool) (g : W32) (xs : List Nat) : List Byte × W32 :=
  if fmt = 0 then ((xs.map (leBytes 4)).flatten, g)
  else xs.foldl (fun (acc : List Byte × W32) x =>
    let (r, g) := genRnd stoch acc.2
    (acc.1 ++ leBytes (if fmt = 1 then 2 else 1) (narrow (if fmt = 1 then fmtBF16 else fmtE4M3) r true (f32 x)).1, g))
    ([], g)

/-- The FP32 values that the serving copy narrows (R343). -/
def serveVals (o : Optim) (ws : List Nat) : List Nat :=
  if o.sfmt = 2 then ws.map (fun w => mul1 w (f32Recip o.sscale).1) else ws

/-- Magnitude above 448. -/
def above448 (c : Nat) : Bool := let m := c % 0x80000000; decide (0x43E00000 < m ∧ m ≤ 0x7F800000)
def isBadCode (c : Nat) : Bool := decide (0x7F800000 ≤ c % 0x80000000)

/-! ### Chunks (R340, R345) -/

/-- Elements of a chunk: at least 4,096, for ROW_ADAGRAD whole rows. -/
def chunkLen (op : Nat) (o : Optim) : Nat := if op = 4 then (4096 + o.row - 1) / o.row * o.row else 4096

/-- How an OPTIM's instance runs: its operator, flags, parameters, and its wicks in increasing id. -/
structure OptRun where
  op    : Nat
  stochM : Bool
  stochS : Bool
  nest  : Bool
  o     : Optim
  k     : OptConst
  wicks : List Nat
  who   : Who

/-- The mover channel of a wick's sconce that reads (0) or writes (1) its arrays. -/
def optWho (r : OptRun) (w ch : Nat) : Who := { r.who with eng := .mover (w / 64) ch }
def optRead (r : OptRun) (w dva n : Nat) : Eng (List Byte) := readDva (optWho r w 0) (tlbOf (.mover (w / 64) 0)) dva n
def optWrite (r : OptRun) (w dva : Nat) (d : List Byte) : Eng Unit :=
  writeDva (optWho r w 1) (tlbOf (.mover (w / 64) 1)) dva d

def elemBytes (fmt : Nat) : Nat := if fmt = 0 then 4 else if fmt = 1 then 2 else 1

/-- Reads elements `[i, i + n)` of an FP32 or BF16 array, widened to FP32 codes. -/
def optElems (r : OptRun) (w base fmt i n : Nat) : Eng (List Nat) := do
  let d ← optRead r w (base + elemBytes fmt * i) (elemBytes fmt * n)
  return (rowVals fmt d n).map f32Code

def optGrads (r : OptRun) (w i n : Nat) : Eng (List Nat) := do
  let d ← optRead r w (r.o.grad + elemBytes r.o.gfmt * i) (elemBytes r.o.gfmt * n)
  return (rowVals r.o.gfmt d n).map (scaledGrad r.o)

/-- New moments and masters of a chunk's elements; for ROW_ADAGRAD the second list holds one state per row. -/
def chunkMath (r : OptRun) (gs m1 m2 ws : List Nat) : List Nat × List Nat × List Nat :=
  if r.op = 1 then
    let l := (List.range gs.length).map (fun i =>
      adamwElem r.o r.k (gs.getD i 0) (m1.getD i 0) (m2.getD i 0) (ws.getD i 0))
    (l.map (·.1), l.map (·.2.1), l.map (·.2.2))
  else if r.op = 2 then
    let l := (List.range gs.length).map (fun i => sgdmElem r.o r.k r.nest (gs.getD i 0) (m1.getD i 0) (ws.getD i 0))
    (l.map (·.1), [], l.map (·.2))
  else if r.op = 3 then
    let l := (List.range gs.length).map (fun i => signmElem r.o r.k (gs.getD i 0) (m1.getD i 0) (ws.getD i 0))
    (l.map (·.1), [], l.map (·.2))
  else
    let states := m2.zipIdx.map (fun e => rowState r.o ((gs.drop (e.2 * r.o.row)).take r.o.row) e.1)
    ([], states, (List.range gs.length).map (fun i =>
      rowElem r.o r.k (states.getD (i / r.o.row) 0) (gs.getD i 0) (ws.getD i 0)))

/-- What the chunks so far came to: the first failure, the counts of the result word, NORM2's sum. -/
structure OptSum where
  first : Status
  bad   : Nat
  sat   : Nat
  norm  : Nat

/-- Counts of a piece's new masters and serving elements. -/
def OptSum.count (a : OptSum) (r : OptRun) (ws : List Nat) : OptSum :=
  { a with bad := a.bad + (ws.filter isBadCode).length,
           sat := a.sat + (if r.o.sfmt = 2 then ((serveVals r.o ws).filter above448).length else 0) }

/-- Takes a wick's stochastic bits for elements. -/
def optStore (w fmt : Nat) (stoch : Bool) (xs : List Nat) : Eng (List Byte) := do
  let s ← get
  let (d, g) := storeElems fmt stoch (s.wick w).gen xs
  set (s.setWick w (fun k => { k with gen := g }))
  return d

/-- Writes MASTER and SERVE of elements from `i` on. -/
def optFinal (r : OptRun) (w i : Nat) (ws : List Nat) (sv : List Byte) : Eng Unit := do
  optWrite r w (r.o.master + 4 * i) ((ws.map (leBytes 4)).flatten)
  if r.o.sfmt ≠ 0 then optWrite r w (r.o.serve + elemBytes r.o.sfmt * i) sv

/-- A chunk's outcome: its DONE byte and status. -/
structure ChunkEnd where
  mark   : Byte
  status : Status
  sum    : OptSum

/-- Runs writes of a chunk whose reads succeeded. -/
def chunkWrites (a : OptSum) (m : Eng Unit) : Eng ChunkEnd := do
  let r ← attempt m
  return (match r with
    | .ok _ => { mark := 1, status := 0, sum := a }
    | .error st => { mark := 2, status := st, sum := a })

/-- A chunk that is read whole, `n` elements from element `i`. -/
def wholeChunk (r : OptRun) (w i n : Nat) (a : OptSum) : Eng ChunkEnd := do
  let rd ← attempt (do
    let gs ← optGrads r w i n
    let m1 ← if usesMom1 r.op && r.op != 5 then optElems r w r.o.mom1 r.o.mfmt i n else pure []
    let m2 ← if r.op = 1 then optElems r w r.o.mom2 r.o.mfmt i n
      else if r.op = 4 then optElems r w r.o.mom2 0 (i / r.o.row) (n / r.o.row) else pure []
    let ws ← if usesMaster r.op then optElems r w r.o.master 0 i n else pure []
    pure (gs, m1, m2, ws))
  match rd with
  | .error st => return { mark := 0, status := st, sum := a }
  | .ok (gs, m1, m2, ws) =>
    if r.op = 5 then return { mark := 1, status := 0, sum := { a with norm := add1 a.norm (norm2Chunk gs) } }
    let (n1, n2, nw) := chunkMath r gs m1 m2 ws
    let d1 ← optStore w r.o.mfmt r.stochM n1
    let d2 ← if r.op = 4 then pure ((n2.map (leBytes 4)).flatten) else optStore w r.o.mfmt r.stochM n2
    let sv ← if r.o.sfmt = 0 then pure [] else optStore w r.o.sfmt r.stochS (serveVals r.o nw)
    chunkWrites (a.count r nw) (do
      if usesMom1 r.op then optWrite r w (r.o.mom1 + elemBytes r.o.mfmt * i) d1
      if r.op = 1 then optWrite r w (r.o.mom2 + elemBytes r.o.mfmt * i) d2
      if r.op = 4 then optWrite r w (r.o.mom2 + 4 * (i / r.o.row)) d2
      optFinal r w i nw sv)

/-- The second pass of a chunk that is one long row, piece by piece. -/
def longPieces (r : OptRun) (w s1 : Nat) : List (Nat × Nat) → OptSum → Eng ChunkEnd
  | [], a => pure { mark := 1, status := 0, sum := a }
  | (i, n) :: rest, a => do
    let rd ← attempt (do
      let gs ← optGrads r w i n
      let ws ← optElems r w r.o.master 0 i n
      pure (gs, ws))
    match rd with
    | .error st => return { mark := 2, status := st, sum := a }
    | .ok (gs, ws) =>
      let nw := List.zipWith (rowElem r.o r.k s1) gs ws
      let sv ← if r.o.sfmt = 0 then pure [] else optStore w r.o.sfmt r.stochS (serveVals r.o nw)
      let e ← chunkWrites (a.count r nw) (optFinal r w i nw sv)
      if e.status ≠ 0 then return e
      longPieces r w s1 rest e.sum

/-- A chunk that is one row longer than 4,096 elements. -/
def longChunk (r : OptRun) (w i n : Nat) (a : OptSum) : Eng ChunkEnd := do
  let pieces := (List.range ((n + 4095) / 4096)).map (fun j => (i + 4096 * j, min 4096 (n - 4096 * j)))
  let rd ← attempt (do
    let gs ← pieces.mapM (fun e => optGrads r w e.1 e.2)
    let s0 ← optElems r w r.o.mom2 0 (i / r.o.row) 1
    pure (gs.flatten, s0.headD 0))
  match rd with
  | .error st => return { mark := 0, status := st, sum := a }
  | .ok (gs, s0) =>
    let s1 := rowState r.o gs s0
    let e ← chunkWrites a (optWrite r w (r.o.mom2 + 4 * (i / r.o.row)) (leBytes 4 s1))
    if e.status ≠ 0 then return e
    longPieces r w s1 pieces e.sum

/-- Chunk `c` of the instance: its outcome goes to DONE. -/
def optChunk (r : OptRun) (a : OptSum) (c : Nat) : Eng OptSum := do
  let len := chunkLen r.op r.o
  let w := r.wicks.getD (c % r.wicks.length) 0
  let i := c * len
  let n := min len (r.o.n - i)
  let e ← if r.op = 4 ∧ 4096 < r.o.row then longChunk r w i n a else wholeChunk r w i n a
  if r.o.done ≠ 0 then
    let _ ← attempt (writeDva r.who .l2 (r.o.done + c) [e.mark])
  return { e.sum with first := if e.sum.first = 0 then e.status else e.sum.first }

/-- Seeds the generators of the instance's wicks by STEP (R208, R340). -/
def seedOptim (p : Plan) (step : W32) (s : State) : State :=
  (planWicks p).foldl (fun s w => s.setWick w (fun k => { k with
    gen := genSeed (p.seed ^^^ BitVec.ofNat 32 (w * 2 ^ 16) ^^^ step) })) s

/-- The whole instance: status and result word (R345). -/
def optInstance (c : Cmd) (p : Plan) (op : Nat) : Eng (Status × W64) := do
  let w := { c.who with eng := .work }
  let d ← readDva w .l2 (c.f 24 8) 128
  if !optimForm op (leNat d) then failAt w stFormat 1 (c.f 24 8)
  let o := optimOf (leNat d)
  modify (seedOptim p (BitVec.ofNat 32 (c.f 20 4)))
  let r : OptRun := { op := op, stochM := bit (c.f 18 1) 0, stochS := bit (c.f 18 1) 1, nest := bit (c.f 18 1) 2,
                      o := o, k := optConst o, wicks := spreadWicks p, who := w }
  let len := chunkLen op o
  let a ← (List.range ((o.n + len - 1) / len)).foldlM (optChunk r) { first := 0, bad := 0, sat := 0, norm := 0 }
  let st ← if op = 5 ∧ a.first = 0 then do
      let x ← attempt (writeDva w .l2 o.mom1 (leBytes 4 a.norm))
      pure (match x with
        | .ok _ => stOK
        | .error st => st)
    else pure a.first
  let sat := fun (n : Nat) => min n (2 ^ 32 - 1)
  return (st, BitVec.ofNat 64 (sat a.bad + 2 ^ 32 * sat a.sat))

/-- An OPTIM command with operator `op`. -/
def optimRow (q : Nat) (e : W512) (op : Nat) (s : State) : Host.Outcome State Fault Refusal :=
  cmdRow q e (opcodeOf e == 0x1B && fld e 17 1 == op) [(128, 16), (144, 3), (160, 32), (192, 57)] .work (fun c s =>
    match optimPlan s c.part (c.f 16 1) with
    | none => some (failCmd s c stFormat)
    | some p =>
      if c.f 24 8 % 64 ≠ 0 ∨ (bit (c.f 18 1) 2 ∧ op ≠ 2) then some (failCmd s c stFormat)
      else runService c (c.f 16 1) p (optInstance c p op) s) s

def execAdamw (q : Nat) (e : W512) (s : State) : Host.Outcome State Fault Refusal := optimRow q e 1 s
def execSgdM (q : Nat) (e : W512) (s : State) : Host.Outcome State Fault Refusal := optimRow q e 2 s
def execSignM (q : Nat) (e : W512) (s : State) : Host.Outcome State Fault Refusal := optimRow q e 3 s
def execRowAdagrad (q : Nat) (e : W512) (s : State) : Host.Outcome State Fault Refusal := optimRow q e 4 s
def execNorm2 (q : Nat) (e : W512) (s : State) : Host.Outcome State Fault Refusal := optimRow q e 5 s

end Sys2Proof.Machine
end

