-- ==== Sys2Proof/Machine/Places.lean ====
section
/-! DEFINITION. Events of the placement engine and the flash manager: policy moves, flips, completions, shadow
rewrites, garbage collection, flash reads (02 R43 to R47, R55 to R58; 17 R495, R496). -/
namespace Sys2Proof.Machine

/-- Blocks of the home range. -/
def inHome (s : State) (b : Nat) : Bool := decide (65536 * (b + 1) ≤ s.store.homeLen)

/-- A promotion candidate of the counter policy (R43, R432). -/
def isCandidate (s : State) (b : Nat) : Bool :=
  let e := blockGet s b
  let t := tierOf e.loc
  inHome s b && !e.lost && !e.forfeit && !e.noPolicy && e.pins == 0 && t != 0 &&
  decide ((if t = 1 then thrSC s else thrCF s).1 ≤ counterOf s b)

/-- The counter policy takes a promotion candidate; one that finds no place or meets another move is dropped. -/
def execPolicyMove (b : Nat) (s : State) : Host.Outcome State Fault Refusal :=
  .next (
    if migShare s = 0 ∨ !isCandidate s b ∨ (pendingMove s b).isSome ∨ (computeReset s).isSome then s
    else (requestMove s b (tierOf (blockGet s b).loc - 1) none 3 .policy).2)

/-- The memory targets at both ends of a move. -/
def moveHeld (s : State) (m : Move) : Bool := targetHeld s (targetOf m.block m.old) || targetHeld s (targetOf m.block m.dst)

/-- Moves that need the place of a move that has stopped look for another; those that find none end with BUSY. -/
def rehome (s : State) (m : Move) : State :=
  let ms := s.store.moves.filter (fun n => !n.flipped && n.dst == m.old && n.block != m.block)
  ms.foldl (fun s n =>
    let (r, s) := requestMove (dropMove s n.block) n.block (tierOf n.dst) n.wick n.rank n.why
    match r with
    | some st => tellMove s n st
    | none => s) s

/-- A move's copy ends: it flips, or stops before the flip at data it cannot correct (R46, R47). Moves wait while a
tier they touch retrains, while flash is low, while the migration share is 0 for the policy's, and through a compute
reset (R45, R49, R57, R428). -/
def execMoveFlip (b : Nat) (s : State) : Host.Outcome State Fault Refusal :=
  .next (
    match pendingMove s b with
    | none => s
    | some m =>
      if m.flipped ∨ !dstFree s m.dst ∨ moveHeld s m ∨ (computeReset s).isSome ∨ (m.why = .policy ∧ migShare s = 0) then s
      else
        match blockBad s b with
        | some l =>
          if m.why = .demand ∧ tierOf m.old = 2 then settle (retryDeferred (flipMove s m))
          else settle (retryDeferred (rehome (stopMove s m l) m))
        | none => settle (retryDeferred (flipMove s m)))

def execMoveComplete (b : Nat) (s : State) : Host.Outcome State Fault Refusal :=
  .next (
    match pendingMove s b with
    | none => s
    | some m => if m.flipped then settle (retryDeferred (finishMove s m)) else s)

def execShadowRewrite (b : Nat) (s : State) : Host.Outcome State Fault Refusal :=
  .next (
    match (blockGet s b).shadow with
    | none => s
    | some h =>
      if !h.stale ∨ tierOf (blockGet s b).loc = 0 ∨ migShare s = 0 ∨ (blockBad s b).isSome ∨ (computeReset s).isSome ∨
          !inHome s b ∨ !(keySlot s h.key).valid then s
      else writeShadow s b)

/-- The flash manager relocates pages of a channel, frees blocks of 64 KiB and retires NAND blocks. -/
def execGarbageCollection (channel pages freed retired : Nat) (s : State) : Host.Outcome State Fault Refusal :=
  onOk (flashOk channel) (
    let p := pFLC channel
    let s := bump s (rk p 0x120) 48 pages
    let s := if retired = 0 then s else
      logEvt (bumpSat (bump s (rk p 0x128) 32 retired) (rk p 0x100) 16 retired) p 0
    settle (setFlashFree s (min (s.store.flashFree + freed) flashBlocks)))

/-- One page of a flash block is read: corrected, rebuilt from its stripe, or lost to every later read (R58). -/
def flashPageRead (s : State) (b page corrected : Nat) (ldpcOk rebuildOk : Bool) (pos : Nat) : State :=
  let p := pFLC (Config.flashChannel (pos + page)).val
  let s := bump s (rk p 0x108) 48 corrected
  if ldpcOk then s
  else
    let s := bump (bump s (rk p 0x110) 32 1) (rk p 0x118) 32 1
    if rebuildOk then s
    else
      let lines := (List.range 256).map (fun i => 1024 * b + 256 * page + i)
      let s := s.setStore (fun st => { st with badLines := lines.foldl setInsert st.badLines })
      logErr s p 0 { status := stUncorr, kind := 2, addr := saOf s (65536 * b) }

def execFlashReadComplete (block page corrected : Nat) (ldpcOk rebuildOk : Bool) (s : State) :
    Host.Outcome State Fault Refusal :=
  onOk (decide (page < 4)) (match (blockGet s block).loc with
    | .flash (some pos) => if inHome s block then flashPageRead s block page corrected ldpcOk rebuildOk pos else s
    | _ => s)

end Sys2Proof.Machine
end

