-- ==== Sys2Proof/Machine/Scalar.lean ====
section
/-! DEFINITION. Scalar instructions, constants, branches and jumps, and the SYS group (08 R226 to R229, R236, R237,
R253). -/
namespace Sys2Proof.Machine

/-- D = A op B. -/
def salu (w : Nat) (i : W32) (f : W64 → W64 → W64) (s : State) : State :=
  wickDo w (fun k => wrS k (wD i) (f (rdS k (wA i)) (rdS k (wB i)))) s

/-- 1 or 0 as a register value. -/
def boolWord (b : Bool) : W64 := if b then 1 else 0

/-- The low 6 bits: a shift or rotate amount. -/
def amount (v : W64) : Nat := v.toNat % 64

def mulhiS (a b : W64) : W64 := BitVec.ofInt 64 (a.toInt * b.toInt / 2 ^ 64)
def mulhiU (a b : W64) : W64 := BitVec.ofNat 64 (a.toNat * b.toNat / 2 ^ 64)
def quotient (a b : W64) : W64 := if b = 0 then 0 else BitVec.ofNat 64 (a.toNat / b.toNat)
def remainder (a b : W64) : W64 := if b = 0 then 0 else BitVec.ofNat 64 (a.toNat % b.toNat)
def bitCount (a : W64) : W64 := BitVec.ofNat 64 (Sys2Proof.Machine.popc 64 a.toNat)
def leadZeros (a : W64) : W64 := if a = 0 then 64 else BitVec.ofNat 64 (63 - Nat.log2 a.toNat)

/-- QUO and MOD also set DZ when B is 0. -/
def saluDiv (w : Nat) (i : W32) (f : W64 → W64 → W64) (s : State) : State :=
  wickDo w (fun k =>
    let r := wrS k (wD i) (f (rdS k (wA i)) (rdS k (wB i)))
    if rdS k (wB i) = 0 then raise r flDZ else r) s

/-- D = A op IMM, IMM sign-extended (R227). -/
def salui (w : Nat) (i : W32) (f : W64 → W64 → W64) (s : State) : State :=
  wickDo w (fun k => wrS k (wD i) (f (rdS k (wA i)) (BitVec.ofInt 64 (wIMM i)))) s

/-! ### SALU -/

def execSaluAdd (w : Nat) (word : W32) (s : State) : Host.Outcome State Fault Refusal :=
  wickRun .saluAdd w word s (salu w word (· + ·))
def execSaluSub (w : Nat) (word : W32) (s : State) : Host.Outcome State Fault Refusal :=
  wickRun .saluSub w word s (salu w word (· - ·))
def execSaluAnd (w : Nat) (word : W32) (s : State) : Host.Outcome State Fault Refusal :=
  wickRun .saluAnd w word s (salu w word (· &&& ·))
def execSaluOr (w : Nat) (word : W32) (s : State) : Host.Outcome State Fault Refusal :=
  wickRun .saluOr w word s (salu w word (· ||| ·))
def execSaluXor (w : Nat) (word : W32) (s : State) : Host.Outcome State Fault Refusal :=
  wickRun .saluXor w word s (salu w word (· ^^^ ·))
def execAndn (w : Nat) (word : W32) (s : State) : Host.Outcome State Fault Refusal :=
  wickRun .andn w word s (salu w word (fun a b => a &&& ~~~ b))
def execSaluShl (w : Nat) (word : W32) (s : State) : Host.Outcome State Fault Refusal :=
  wickRun .saluShl w word s (salu w word (fun a b => a <<< amount b))
def execSaluShr (w : Nat) (word : W32) (s : State) : Host.Outcome State Fault Refusal :=
  wickRun .saluShr w word s (salu w word (fun a b => a >>> amount b))
def execSaluSar (w : Nat) (word : W32) (s : State) : Host.Outcome State Fault Refusal :=
  wickRun .saluSar w word s (salu w word (fun a b => a.sshiftRight (amount b)))
def execRor (w : Nat) (word : W32) (s : State) : Host.Outcome State Fault Refusal :=
  wickRun .ror w word s (salu w word (fun a b => a.rotateRight (amount b)))
def execClt (w : Nat) (word : W32) (s : State) : Host.Outcome State Fault Refusal :=
  wickRun .clt w word s (salu w word (fun a b => boolWord (a.slt b)))
def execCltu (w : Nat) (word : W32) (s : State) : Host.Outcome State Fault Refusal :=
  wickRun .cltu w word s (salu w word (fun a b => boolWord (a.ult b)))
def execCeq (w : Nat) (word : W32) (s : State) : Host.Outcome State Fault Refusal :=
  wickRun .ceq w word s (salu w word (fun a b => boolWord (a == b)))
def execSaluMin (w : Nat) (word : W32) (s : State) : Host.Outcome State Fault Refusal :=
  wickRun .saluMin w word s (salu w word (fun a b => if b.slt a then b else a))
def execSaluMax (w : Nat) (word : W32) (s : State) : Host.Outcome State Fault Refusal :=
  wickRun .saluMax w word s (salu w word (fun a b => if a.slt b then b else a))
def execMinu (w : Nat) (word : W32) (s : State) : Host.Outcome State Fault Refusal :=
  wickRun .minu w word s (salu w word (fun a b => if b.ult a then b else a))
def execMaxu (w : Nat) (word : W32) (s : State) : Host.Outcome State Fault Refusal :=
  wickRun .maxu w word s (salu w word (fun a b => if a.ult b then b else a))
def execMullo (w : Nat) (word : W32) (s : State) : Host.Outcome State Fault Refusal :=
  wickRun .mullo w word s (salu w word (· * ·))
def execMulhi (w : Nat) (word : W32) (s : State) : Host.Outcome State Fault Refusal :=
  wickRun .mulhi w word s (salu w word mulhiS)
def execMulhiu (w : Nat) (word : W32) (s : State) : Host.Outcome State Fault Refusal :=
  wickRun .mulhiu w word s (salu w word mulhiU)
def execQuo (w : Nat) (word : W32) (s : State) : Host.Outcome State Fault Refusal :=
  wickRun .quo w word s (saluDiv w word quotient)
def execMod (w : Nat) (word : W32) (s : State) : Host.Outcome State Fault Refusal :=
  wickRun .mod w word s (saluDiv w word remainder)
def execPopc (w : Nat) (word : W32) (s : State) : Host.Outcome State Fault Refusal :=
  wickRun .popc w word s (salu w word (fun a _ => bitCount a))
def execClz (w : Nat) (word : W32) (s : State) : Host.Outcome State Fault Refusal :=
  wickRun .clz w word s (salu w word (fun a _ => leadZeros a))

/-! ### SALUI -/

def execAddi (w : Nat) (word : W32) (s : State) : Host.Outcome State Fault Refusal :=
  wickRun .addi w word s (salui w word (· + ·))
def execAndi (w : Nat) (word : W32) (s : State) : Host.Outcome State Fault Refusal :=
  wickRun .andi w word s (salui w word (· &&& ·))
def execOri (w : Nat) (word : W32) (s : State) : Host.Outcome State Fault Refusal :=
  wickRun .ori w word s (salui w word (· ||| ·))
def execXori (w : Nat) (word : W32) (s : State) : Host.Outcome State Fault Refusal :=
  wickRun .xori w word s (salui w word (· ^^^ ·))
def execShli (w : Nat) (word : W32) (s : State) : Host.Outcome State Fault Refusal :=
  wickRun .shli w word s (salui w word (fun a b => a <<< amount b))
def execShri (w : Nat) (word : W32) (s : State) : Host.Outcome State Fault Refusal :=
  wickRun .shri w word s (salui w word (fun a b => a >>> amount b))
def execSari (w : Nat) (word : W32) (s : State) : Host.Outcome State Fault Refusal :=
  wickRun .sari w word s (salui w word (fun a b => a.sshiftRight (amount b)))
def execMuli (w : Nat) (word : W32) (s : State) : Host.Outcome State Fault Refusal :=
  wickRun .muli w word s (salui w word (· * ·))

/-! ### Constants (R228) -/

/-- IMM16 in quarter `h`, zeros below, and above it copies of IMM16's top bit. -/
def setQuarter (h m : Nat) : W64 := BitVec.ofInt 64 (sval 16 m * 2 ^ (16 * h))

/-- `v` with quarter `h` replaced. -/
def putQuarter (v : W64) (h m : Nat) : W64 :=
  BitVec.ofNat 64 (v.toNat % 2 ^ (16 * h) + m * 2 ^ (16 * h) + v.toNat / 2 ^ (16 * h + 16) * 2 ^ (16 * h + 16))

def execSetq (w : Nat) (word : W32) (s : State) : Host.Outcome State Fault Refusal :=
  wickRun .setq w word s (wickDo w (fun k => wrS k (wD word) (setQuarter (wH word) (wIMM16 word))))
def execPutq (w : Nat) (word : W32) (s : State) : Host.Outcome State Fault Refusal :=
  wickRun .putq w word s
    (wickDo w (fun k => wrS k (wD word) (putQuarter (rdS k (wD word)) (wH word) (wIMM16 word))))

/-! ### Branches and jumps (R229) -/

/-- The condition of F3 on the registers named in A and D (DNZ on the decremented D). -/
def brTaken (f3 : Nat) (a d : W64) : Bool :=
  match f3 with
  | 0 => a == d
  | 1 => a != d
  | 2 => a.slt d
  | 3 => a.sle d
  | 4 => a.ult d
  | 5 => a.ule d
  | 6 => (a &&& d) != 0
  | _ => d - 1 != 0

def branch (w : Nat) (i : W32) (s : State) : State :=
  let k := s.wick w
  let d := rdS k (wD i)
  let t := if wF3 i = 7 then s.setWick w (fun k => wrS k (wD i) (d - 1)) else s
  if brTaken (wF3 i) (rdS k (wA i)) d then goTo t w (k.pc + wIMM i) else advance t w

/-- D = PC + 1, then the target. -/
def jump (w : Nat) (i : W32) (target : Wick → Int) (s : State) : State :=
  let k := s.wick w
  goTo (s.setWick w (fun k => wrS k (wD i) (BitVec.ofNat 64 (k.pc + 1)))) w (target k)

def execBr (w : Nat) (word : W32) (s : State) : Host.Outcome State Fault Refusal :=
  wickRun .br w word s (branch w word)
def execCall (w : Nat) (word : W32) (s : State) : Host.Outcome State Fault Refusal :=
  wickRun .call w word s (jump w word (fun _ => wTARGET word))
/-- A + IMM wraps as every 64-bit sum does. -/
def execJind (w : Nat) (word : W32) (s : State) : Host.Outcome State Fault Refusal :=
  wickRun .jind w word s (jump w word (fun k => (rdS k (wA word) + BitVec.ofInt 64 (wIMM word)).toNat))

/-! ### SYS (R236, R237, R253) -/

/-- The special register of a readable selector. -/
def specialReg (k : Wick) (w sel : Nat) : W64 :=
  match sel with
  | 0x0 => BitVec.ofNat 64 w
  | 0x1 => k.step.setWidth 64
  | 0x2 => k.cycle
  | 0x3 => k.flags.setWidth 64
  | 0x4 => k.mstat.setWidth 64
  | 0x5 => k.cntsel.setWidth 64
  | 0x6 => k.ctx.setWidth 64
  | 0x7 => k.part.setWidth 64
  | n => k.rel.getD (n - 8) 0

/-- Writes a writable special register. -/
def setSpecial (k : Wick) (sel : Nat) (v : W64) : Wick :=
  match sel with
  | 0x3 => { k with flags := v.setWidth 5 }
  | 0x4 => { k with mstat := v.setWidth 9 }
  | _ => { k with cntsel := v.setWidth 19 }

def execNop (w : Nat) (word : W32) (s : State) : Host.Outcome State Fault Refusal :=
  wickRun .nop w word s (wickDo w id)
/-- The wick issues nothing more in the step. -/
def execEndProgram (w : Nat) (word : W32) (s : State) : Host.Outcome State Fault Refusal :=
  wickRun .endProgram w word s (fun s => s.setWick w (fun k => { k with state := .ended }))
def execMfs (w : Nat) (word : W32) (s : State) : Host.Outcome State Fault Refusal :=
  wickRun .mfs w word s (wickDo w (fun k => wrS k (wD word) (specialReg k w (wA word))))
def execMts (w : Nat) (word : W32) (s : State) : Host.Outcome State Fault Refusal :=
  wickRun .mts w word s (wickDo w (fun k => setSpecial k (wA word) (rdS k (wB word))))

end Sys2Proof.Machine
end

