-- ==== Sys2Proof/Machine/Dispatch.lean ====
section
/-! DEFINITION. What each command does: one arm per command, each a call of its own meaning. -/
namespace Sys2Proof.Machine

def exec (i : Instr) (s : State) : Host.Outcome State Fault Refusal :=
  match i with
  | .registerWrite src off size v => Sys2Proof.Machine.execRegisterWrite src off size v s
  | .rcRead src off => Sys2Proof.Machine.execRcRead src off s
  | .errStatClear src page v => Sys2Proof.Machine.execErrStatClear src page v s
  | .hubCounterWrite src k size v => Sys2Proof.Machine.execHubCounterWrite src k size v s
  | .localCounterWrite src sc n size v => Sys2Proof.Machine.execLocalCounterWrite src sc n size v s
  | .semaphoreRead src k => Sys2Proof.Machine.execSemaphoreRead src k s
  | .semaphoreWrite src k size v => Sys2Proof.Machine.execSemaphoreWrite src k size v s
  | .doorbell src q size v hc => Sys2Proof.Machine.execDoorbell src q size v hc s
  | .qEnable src v => Sys2Proof.Machine.execQEnable src v s
  | .copy q e => Sys2Proof.Machine.execCopy q e s
  | .tileStream q e => Sys2Proof.Machine.execTileStream q e s
  | .fence q e => Sys2Proof.Machine.execFence q e s
  | .counterWait q e => Sys2Proof.Machine.execCounterWait q e s
  | .counterWaitBound q tag => Sys2Proof.Machine.execCounterWaitBound q tag s
  | .counterTargetReached w => Sys2Proof.Machine.execCounterTargetReached w s
  | .prefetch q e => Sys2Proof.Machine.execPrefetch q e s
  | .pin q e => Sys2Proof.Machine.execPin q e s
  | .unpin q e => Sys2Proof.Machine.execUnpin q e s
  | .cold q e => Sys2Proof.Machine.execCold q e s
  | .markShadow q e => Sys2Proof.Machine.execMarkShadow q e s
  | .unmarkShadow q e => Sys2Proof.Machine.execUnmarkShadow q e s
  | .prefetchFromHost q e hc => Sys2Proof.Machine.execPrefetchFromHost q e hc s
  | .evictToHost q e hc => Sys2Proof.Machine.execEvictToHost q e hc s
  | .shootdown q e => Sys2Proof.Machine.execShootdown q e s
  | .shootCmdGo src v => Sys2Proof.Machine.execShootCmdGo src v s
  | .shootdownAck id eng => Sys2Proof.Machine.execShootdownAck id eng s
  | .shootdownComplete id => Sys2Proof.Machine.execShootdownComplete id s
  | .shootdownOverrun id eng => Sys2Proof.Machine.execShootdownOverrun id eng s
  | .reclaim q e => Sys2Proof.Machine.execReclaim q e s
  | .rebuildSend q e => Sys2Proof.Machine.execRebuildSend q e s
  | .rebuildReceive q e => Sys2Proof.Machine.execRebuildReceive q e s
  | .rebuildSendDone => Sys2Proof.Machine.execRebuildSendDone s
  | .rebuildStall => Sys2Proof.Machine.execRebuildStall s
  | .emberRead q e hc => Sys2Proof.Machine.execEmberRead q e hc s
  | .planAdmit q e => Sys2Proof.Machine.execPlanAdmit q e s
  | .planArm q e => Sys2Proof.Machine.execPlanArm q e s
  | .planRun q e => Sys2Proof.Machine.execPlanRun q e s
  | .planRetire q e => Sys2Proof.Machine.execPlanRetire q e s
  | .gateOpen h => Sys2Proof.Machine.execGateOpen h s
  | .stepStart h => Sys2Proof.Machine.execStepStart h s
  | .spotCopyDone sc => Sys2Proof.Machine.execSpotCopyDone sc s
  | .spotCompare sc => Sys2Proof.Machine.execSpotCompare sc s
  | .stepEnd h => Sys2Proof.Machine.execStepEnd h s
  | .stepOverrun h wick => Sys2Proof.Machine.execStepOverrun h wick s
  | .gateBoundExpiry h => Sys2Proof.Machine.execGateBoundExpiry h s
  | .append q e => Sys2Proof.Machine.execAppend q e s
  | .attend q e mergeSeed => Sys2Proof.Machine.execAttend q e mergeSeed s
  | .gather q e late hc => Sys2Proof.Machine.execGather q e late hc s
  | .pool q e late hc => Sys2Proof.Machine.execPool q e late hc s
  | .scatterAdd q e hc => Sys2Proof.Machine.execScatterAdd q e hc s
  | .updateRow q e hc => Sys2Proof.Machine.execUpdateRow q e hc s
  | .tableOpen q e => Sys2Proof.Machine.execTableOpen q e s
  | .tableClose q e hc => Sys2Proof.Machine.execTableClose q e hc s
  | .rowMove t u hc => Sys2Proof.Machine.execRowMove t u hc s
  | .adamw q e => Sys2Proof.Machine.execAdamw q e s
  | .sgdM q e => Sys2Proof.Machine.execSgdM q e s
  | .signM q e => Sys2Proof.Machine.execSignM q e s
  | .rowAdagrad q e => Sys2Proof.Machine.execRowAdagrad q e s
  | .norm2 q e => Sys2Proof.Machine.execNorm2 q e s
  | .accumStream q e => Sys2Proof.Machine.execAccumStream q e s
  | .collOpen q e => Sys2Proof.Machine.execCollOpen q e s
  | .collAbort q e => Sys2Proof.Machine.execCollAbort q e s
  | .collReset q e => Sys2Proof.Machine.execCollReset q e s
  | .collClose q e => Sys2Proof.Machine.execCollClose q e s
  | .abortRepeat part gid => Sys2Proof.Machine.execAbortRepeat part gid s
  | .ctxInstall q e => Sys2Proof.Machine.execCtxInstall q e s
  | .ctxWithdraw q e => Sys2Proof.Machine.execCtxWithdraw q e s
  | .grant q e => Sys2Proof.Machine.execGrant q e s
  | .revoke q e => Sys2Proof.Machine.execRevoke q e s
  | .handover q e => Sys2Proof.Machine.execHandover q e s
  | .extentDrain ext => Sys2Proof.Machine.execExtentDrain ext s
  | .create q e => Sys2Proof.Machine.execCreate q e s
  | .addAgent q e => Sys2Proof.Machine.execAddAgent q e s
  | .removeAgent q e => Sys2Proof.Machine.execRemoveAgent q e s
  | .composeEnd q e => Sys2Proof.Machine.execComposeEnd q e s
  | .grantSconce src idx part => Sys2Proof.Machine.execGrantSconce src idx part s
  | .grantHubCounters src idx part => Sys2Proof.Machine.execGrantHubCounters src idx part s
  | .grantSemaphores src idx part => Sys2Proof.Machine.execGrantSemaphores src idx part s
  | .grantReservoir src idx part => Sys2Proof.Machine.execGrantReservoir src idx part s
  | .grantZeroingDone => Sys2Proof.Machine.execGrantZeroingDone s
  | .snuff src v => Sys2Proof.Machine.execSnuff src v s
  | .teardownRepeat comp => Sys2Proof.Machine.execTeardownRepeat comp s
  | .snap src v => Sys2Proof.Machine.execSnap src v s
  | .walk ctx dva => Sys2Proof.Machine.execWalk ctx dva s
  | .read port p hold => Sys2Proof.Machine.execRead port p hold s
  | .write port p hold => Sys2Proof.Machine.execWrite port p hold s
  | .writeMasked port p hold => Sys2Proof.Machine.execWriteMasked port p hold s
  | .accumulate port p hold => Sys2Proof.Machine.execAccumulate port p hold s
  | .atomicAdd port p hold => Sys2Proof.Machine.execAtomicAdd port p hold s
  | .atomicMin port p hold => Sys2Proof.Machine.execAtomicMin port p hold s
  | .atomicMax port p hold => Sys2Proof.Machine.execAtomicMax port p hold s
  | .atomicCas port p hold => Sys2Proof.Machine.execAtomicCas port p hold s
  | .readRsp port p => Sys2Proof.Machine.execReadRsp port p s
  | .atomicRsp port p => Sys2Proof.Machine.execAtomicRsp port p s
  | .errRsp port p => Sys2Proof.Machine.execErrRsp port p s
  | .invalidate port p => Sys2Proof.Machine.execInvalidate port p s
  | .recallShared port p => Sys2Proof.Machine.execRecallShared port p s
  | .snoopRsp port p => Sys2Proof.Machine.execSnoopRsp port p s
  | .lineBufferWriteback line => Sys2Proof.Machine.execLineBufferWriteback line s
  | .twinWrite port p => Sys2Proof.Machine.execTwinWrite port p s
  | .tierApply t => Sys2Proof.Machine.execTierApply t s
  | .packetForward port p => Sys2Proof.Machine.execPacketForward port p s
  | .replayTimeout dst ctl seq => Sys2Proof.Machine.execReplayTimeout dst ctl seq s
  | .deadTargetBound dst ctl seq => Sys2Proof.Machine.execDeadTargetBound dst ctl seq s
  | .credit port counts => Sys2Proof.Machine.execCredit port counts s
  | .creditSend port => Sys2Proof.Machine.execCreditSend port s
  | .mark port tag counts => Sys2Proof.Machine.execMark port tag counts s
  | .markSend port => Sys2Proof.Machine.execMarkSend port s
  | .ack port m => Sys2Proof.Machine.execAck port m s
  | .csack port m => Sys2Proof.Machine.execCsack port m s
  | .cntAdd port m => Sys2Proof.Machine.execCntAdd port m s
  | .semRead port m => Sys2Proof.Machine.execSemRead port m s
  | .signal port m => Sys2Proof.Machine.execSignal port m s
  | .waitDec port m => Sys2Proof.Machine.execWaitDec port m s
  | .waitDecTimeout sem => Sys2Proof.Machine.execWaitDecTimeout sem s
  | .tryDec port m => Sys2Proof.Machine.execTryDec port m s
  | .set port m => Sys2Proof.Machine.execSet port m s
  | .semRsp port m => Sys2Proof.Machine.execSemRsp port m s
  | .abort port m => Sys2Proof.Machine.execAbort port m s
  | .noRoute port m => Sys2Proof.Machine.execNoRoute port m s
  | .prepared port m => Sys2Proof.Machine.execPrepared port m s
  | .prepare src epoch => Sys2Proof.Machine.execPrepare src epoch s
  | .commit src epoch added => Sys2Proof.Machine.execCommit src epoch added s
  | .retire src epoch => Sys2Proof.Machine.execRetire src epoch s
  | .routeData src v => Sys2Proof.Machine.execRouteData src v s
  | .codewordReceive port lane cw => Sys2Proof.Machine.execCodewordReceive port lane cw s
  | .portEnable src port => Sys2Proof.Machine.execPortEnable src port s
  | .portDisable src port => Sys2Proof.Machine.execPortDisable src port s
  | .trainingAttempt port lane tx rx => Sys2Proof.Machine.execTrainingAttempt port lane tx rx s
  | .trainingBoundMiss port lane => Sys2Proof.Machine.execTrainingBoundMiss port lane s
  | .noPeerTimeout port => Sys2Proof.Machine.execNoPeerTimeout port s
  | .uncorrWindow port lane n => Sys2Proof.Machine.execUncorrWindow port lane n s
  | .serWindow port lane corrected symbols => Sys2Proof.Machine.execSerWindow port lane corrected symbols s
  | .ringLockLoss port lane rx top => Sys2Proof.Machine.execRingLockLoss port lane rx top s
  | .signalLossTimeout port lane => Sys2Proof.Machine.execSignalLossTimeout port lane s
  | .signalReturn port lane => Sys2Proof.Machine.execSignalReturn port lane s
  | .activeMapChange port tx map => Sys2Proof.Machine.execActiveMapChange port tx map s
  | .controlFailover port => Sys2Proof.Machine.execControlFailover port s
  | .controlReturn port => Sys2Proof.Machine.execControlReturn port s
  | .laneRetrain src port lane => Sys2Proof.Machine.execLaneRetrain src port lane s
  | .laneDisable src port lane => Sys2Proof.Machine.execLaneDisable src port lane s
  | .laneEnable src port lane => Sys2Proof.Machine.execLaneEnable src port lane s
  | .lossOfLight litA litB within1s => Sys2Proof.Machine.execLossOfLight litA litB within1s s
  | .lasersLost litA litB => Sys2Proof.Machine.execLasersLost litA litB s
  | .lightRestored litA litB => Sys2Proof.Machine.execLightRestored litA litB s
  | .switch src v => Sys2Proof.Machine.execSwitch src v s
  | .policyMove block => Sys2Proof.Machine.execPolicyMove block s
  | .moveFlip block => Sys2Proof.Machine.execMoveFlip block s
  | .moveComplete block => Sys2Proof.Machine.execMoveComplete block s
  | .shadowRewrite block => Sys2Proof.Machine.execShadowRewrite block s
  | .garbageCollection channel pages freed retired => Sys2Proof.Machine.execGarbageCollection channel pages freed retired s
  | .flashReadComplete block page corrected ldpcOk rebuildOk => Sys2Proof.Machine.execFlashReadComplete block page corrected ldpcOk rebuildOk s
  | .tileComplete id => Sys2Proof.Machine.execTileComplete id s
  | .deadlineExpiry id late => Sys2Proof.Machine.execDeadlineExpiry id late s
  | .channelRetrainDue ch why => Sys2Proof.Machine.execChannelRetrainDue ch why s
  | .channelReady ch ok => Sys2Proof.Machine.execChannelReady ch ok s
  | .dieRetrainDue die why => Sys2Proof.Machine.execDieRetrainDue die why s
  | .dieTrainingStart die => Sys2Proof.Machine.execDieTrainingStart die s
  | .dieReady die ok temp => Sys2Proof.Machine.execDieReady die ok temp s
  | .retrainCmd src page v => Sys2Proof.Machine.execRetrainCmd src page v s
  | .load src owner => Sys2Proof.Machine.execLoad src owner s
  | .clear src => Sys2Proof.Machine.execClear src s
  | .setOwner src owner => Sys2Proof.Machine.execSetOwner src owner s
  | .keyDrainDone slot => Sys2Proof.Machine.execKeyDrainDone slot s
  | .memrd addr metaVal => Sys2Proof.Machine.execMemrd addr metaVal s
  | .memwr addr metaVal mask data poison => Sys2Proof.Machine.execMemwr addr metaVal mask data poison s
  | .birsp line dirty => Sys2Proof.Machine.execBirsp line dirty s
  | .bisnpTimeout line => Sys2Proof.Machine.execBisnpTimeout line s
  | .dlInactiveTimeout => Sys2Proof.Machine.execDlInactiveTimeout s
  | .declareDead src => Sys2Proof.Machine.execDeclareDead src s
  | .revive src => Sys2Proof.Machine.execRevive src s
  | .deadSweep src agent => Sys2Proof.Machine.execDeadSweep src agent s
  | .removeSweep src agent => Sys2Proof.Machine.execRemoveSweep src agent s
  | .sweepEnd => Sys2Proof.Machine.execSweepEnd s
  | .cwinCacheClear src v => Sys2Proof.Machine.execCwinCacheClear src v s
  | .hdmCommit n base size coherent ways => Sys2Proof.Machine.execHdmCommit n base size coherent ways s
  | .functionLevelReset n => Sys2Proof.Machine.execFunctionLevelReset n s
  | .hostLinkReset perst => Sys2Proof.Machine.execHostLinkReset perst s
  | .atsInvalidation base len => Sys2Proof.Machine.execAtsInvalidation base len s
  | .configRequest fn write off v => Sys2Proof.Machine.execConfigRequest fn write off v s
  | .reservoirBarAccess src off len write => Sys2Proof.Machine.execReservoirBarAccess src off len write s
  | .forwardWrite src slot off data => Sys2Proof.Machine.execForwardWrite src slot off data s
  | .forwardRead src slot off len => Sys2Proof.Machine.execForwardRead src slot off len s
  | .identifyMemoryDevice => Sys2Proof.Machine.execIdentifyMemoryDevice s
  | .getSupportedLogs => Sys2Proof.Machine.execGetSupportedLogs s
  | .getLog id off len => Sys2Proof.Machine.execGetLog id off len s
  | .getEventRecords log => Sys2Proof.Machine.execGetEventRecords log s
  | .clearEventRecords log n => Sys2Proof.Machine.execClearEventRecords log n s
  | .getHealthInfo => Sys2Proof.Machine.execGetHealthInfo s
  | .mailboxUnsupported opcode => Sys2Proof.Machine.execMailboxUnsupported opcode s
  | .errorRecordWrite island => Sys2Proof.Machine.execErrorRecordWrite island s
  | .recordExport part hc => Sys2Proof.Machine.execRecordExport part hc s
  | .beacon => Sys2Proof.Machine.execBeacon s
  | .watchdogHang within10s => Sys2Proof.Machine.execWatchdogHang within10s s
  | .lamplighterResume => Sys2Proof.Machine.execLamplighterResume s
  | .copyEngineHang eng internal guilty => Sys2Proof.Machine.execCopyEngineHang eng internal guilty s
  | .contextReset src v => Sys2Proof.Machine.execContextReset src v s
  | .engineReset src v => Sys2Proof.Machine.execEngineReset src v s
  | .partitionReset src v => Sys2Proof.Machine.execPartitionReset src v s
  | .computeReset src v => Sys2Proof.Machine.execComputeReset src v s
  | .powerCycleRequest src v => Sys2Proof.Machine.execPowerCycleRequest src v s
  | .resetOverrun level target => Sys2Proof.Machine.execResetOverrun level target s
  | .quiesce src sc on => Sys2Proof.Machine.execQuiesce src sc on s
  | .sconceReset src sc => Sys2Proof.Machine.execSconceReset src sc s
  | .fatalStop cause => Sys2Proof.Machine.execFatalStop cause s
  | .emberDump flashOk => Sys2Proof.Machine.execEmberDump flashOk s
  | .lostCmd src v => Sys2Proof.Machine.execLostCmd src v s
  | .coldBoot scan => Sys2Proof.Machine.execColdBoot scan s
  | .coldBootReady => Sys2Proof.Machine.execColdBootReady s
  | .calCmd src v => Sys2Proof.Machine.execCalCmd src v s
  | .calWritten => Sys2Proof.Machine.execCalWritten s
  | .classReq src v => Sys2Proof.Machine.execClassReq src v s
  | .poolCfg src v => Sys2Proof.Machine.execPoolCfg src v s
  | .opkeyCmd src v => Sys2Proof.Machine.execOpkeyCmd src v s
  | .monCmdLock src v => Sys2Proof.Machine.execMonCmdLock src v s
  | .pinUnmask src v => Sys2Proof.Machine.execPinUnmask src v s
  | .sensorSample sensor raw => Sys2Proof.Machine.execSensorSample sensor raw s
  | .sensorFail sensor => Sys2Proof.Machine.execSensorFail sensor s
  | .help ss len lost => Sys2Proof.Machine.execHelp ss len lost s
  | .stat ss => Sys2Proof.Machine.execStat ss s
  | .rd ss off n => Sys2Proof.Machine.execRd ss off n s
  | .wr ss off v => Sys2Proof.Machine.execWr ss off v s
  | .ering ss seq n => Sys2Proof.Machine.execEring ss seq n s
  | .fblob ss => Sys2Proof.Machine.execFblob ss s
  | .reset ss level target => Sys2Proof.Machine.execReset ss level target s
  | .emberList ss => Sys2Proof.Machine.execEmberList ss s
  | .monEmberRead ss slot off n => Sys2Proof.Machine.execMonEmberRead ss slot off n s
  | .emberErase ss slot => Sys2Proof.Machine.execEmberErase ss slot s
  | .spird ss off n => Sys2Proof.Machine.execSpird ss off n s
  | .sard ss sa n => Sys2Proof.Machine.execSard ss sa n s
  | .chal ss level => Sys2Proof.Machine.execChal ss level s
  | .ans ss n h => Sys2Proof.Machine.execAns ss n h s
  | .lock ss => Sys2Proof.Machine.execLock ss s
  | .breakReset => Sys2Proof.Machine.execBreakReset s
  | .nonceExpiry ss => Sys2Proof.Machine.execNonceExpiry ss s
  | .sessionTimeout ss => Sys2Proof.Machine.execSessionTimeout ss s
  | .monReq port mac seq cmd => Sys2Proof.Machine.execMonReq port mac seq cmd s
  | .powerOn => Sys2Proof.Machine.execPowerOn s
  | .powerOff => Sys2Proof.Machine.execPowerOff s
  | .cycle => Sys2Proof.Machine.execCycle s
  | .coldReset => Sys2Proof.Machine.execColdReset s
  | .i3cComputeReset => Sys2Proof.Machine.execI3cComputeReset s
  | .alertClear v => Sys2Proof.Machine.execAlertClear v s
  | .alertRepeat => Sys2Proof.Machine.execAlertRepeat s
  | .dynamicAddress addr => Sys2Proof.Machine.execDynamicAddress addr s
  | .pwrEnHigh => Sys2Proof.Machine.execPwrEnHigh s
  | .pwrEnLow => Sys2Proof.Machine.execPwrEnLow s
  | .powerUp => Sys2Proof.Machine.execPowerUp s
  | .minOffTimeEnd => Sys2Proof.Machine.execMinOffTimeEnd s
  | .sysResetAssert => Sys2Proof.Machine.execSysResetAssert s
  | .sysResetRelease => Sys2Proof.Machine.execSysResetRelease s
  | .resetHeld perst => Sys2Proof.Machine.execResetHeld perst s
  | .coolantFault => Sys2Proof.Machine.execCoolantFault s
  | .inputMasked edges => Sys2Proof.Machine.execInputMasked edges s
  | .feedConnect => Sys2Proof.Machine.execFeedConnect s
  | .inputRangeTrip => Sys2Proof.Machine.execInputRangeTrip s
  | .overcurrentTrip => Sys2Proof.Machine.execOvercurrentTrip s
  | .saluAdd w word => Sys2Proof.Machine.execSaluAdd w word s
  | .saluSub w word => Sys2Proof.Machine.execSaluSub w word s
  | .saluAnd w word => Sys2Proof.Machine.execSaluAnd w word s
  | .saluOr w word => Sys2Proof.Machine.execSaluOr w word s
  | .saluXor w word => Sys2Proof.Machine.execSaluXor w word s
  | .andn w word => Sys2Proof.Machine.execAndn w word s
  | .saluShl w word => Sys2Proof.Machine.execSaluShl w word s
  | .saluShr w word => Sys2Proof.Machine.execSaluShr w word s
  | .saluSar w word => Sys2Proof.Machine.execSaluSar w word s
  | .ror w word => Sys2Proof.Machine.execRor w word s
  | .clt w word => Sys2Proof.Machine.execClt w word s
  | .cltu w word => Sys2Proof.Machine.execCltu w word s
  | .ceq w word => Sys2Proof.Machine.execCeq w word s
  | .saluMin w word => Sys2Proof.Machine.execSaluMin w word s
  | .saluMax w word => Sys2Proof.Machine.execSaluMax w word s
  | .minu w word => Sys2Proof.Machine.execMinu w word s
  | .maxu w word => Sys2Proof.Machine.execMaxu w word s
  | .mullo w word => Sys2Proof.Machine.execMullo w word s
  | .mulhi w word => Sys2Proof.Machine.execMulhi w word s
  | .mulhiu w word => Sys2Proof.Machine.execMulhiu w word s
  | .quo w word => Sys2Proof.Machine.execQuo w word s
  | .mod w word => Sys2Proof.Machine.execMod w word s
  | .popc w word => Sys2Proof.Machine.execPopc w word s
  | .clz w word => Sys2Proof.Machine.execClz w word s
  | .addi w word => Sys2Proof.Machine.execAddi w word s
  | .andi w word => Sys2Proof.Machine.execAndi w word s
  | .ori w word => Sys2Proof.Machine.execOri w word s
  | .xori w word => Sys2Proof.Machine.execXori w word s
  | .shli w word => Sys2Proof.Machine.execShli w word s
  | .shri w word => Sys2Proof.Machine.execShri w word s
  | .sari w word => Sys2Proof.Machine.execSari w word s
  | .muli w word => Sys2Proof.Machine.execMuli w word s
  | .setq w word => Sys2Proof.Machine.execSetq w word s
  | .putq w word => Sys2Proof.Machine.execPutq w word s
  | .br w word => Sys2Proof.Machine.execBr w word s
  | .call w word => Sys2Proof.Machine.execCall w word s
  | .jind w word => Sys2Proof.Machine.execJind w word s
  | .nop w word => Sys2Proof.Machine.execNop w word s
  | .endProgram w word => Sys2Proof.Machine.execEndProgram w word s
  | .mfs w word => Sys2Proof.Machine.execMfs w word s
  | .mts w word => Sys2Proof.Machine.execMts w word s
  | .lds w word => Sys2Proof.Machine.execLds w word s
  | .sts w word => Sys2Proof.Machine.execSts w word s
  | .ldv w word => Sys2Proof.Machine.execLdv w word s
  | .stv w word => Sys2Proof.Machine.execStv w word s
  | .ldm w word => Sys2Proof.Machine.execLdm w word s
  | .stm w word => Sys2Proof.Machine.execStm w word s
  | .ldmv w word => Sys2Proof.Machine.execLdmv w word s
  | .stmv w word => Sys2Proof.Machine.execStmv w word s
  | .lda w word => Sys2Proof.Machine.execLda w word s
  | .str w word => Sys2Proof.Machine.execStr w word s
  | .stn w word => Sys2Proof.Machine.execStn w word s
  | .amo w word => Sys2Proof.Machine.execAmo w word s
  | .vacc w word => Sys2Proof.Machine.execVacc w word s
  | .ldsb w word => Sys2Proof.Machine.execLdsb w word s
  | .stsb w word => Sys2Proof.Machine.execStsb w word s
  | .fadd w word => Sys2Proof.Machine.execFadd w word s
  | .fsub w word => Sys2Proof.Machine.execFsub w word s
  | .fmul w word => Sys2Proof.Machine.execFmul w word s
  | .fma w word => Sys2Proof.Machine.execFma w word s
  | .fnma w word => Sys2Proof.Machine.execFnma w word s
  | .fmin w word => Sys2Proof.Machine.execFmin w word s
  | .fmax w word => Sys2Proof.Machine.execFmax w word s
  | .fabs w word => Sys2Proof.Machine.execFabs w word s
  | .fneg w word => Sys2Proof.Machine.execFneg w word s
  | .iadd w word => Sys2Proof.Machine.execIadd w word s
  | .isub w word => Sys2Proof.Machine.execIsub w word s
  | .imul w word => Sys2Proof.Machine.execImul w word s
  | .valuAnd w word => Sys2Proof.Machine.execValuAnd w word s
  | .valuOr w word => Sys2Proof.Machine.execValuOr w word s
  | .valuXor w word => Sys2Proof.Machine.execValuXor w word s
  | .valuShl w word => Sys2Proof.Machine.execValuShl w word s
  | .valuShr w word => Sys2Proof.Machine.execValuShr w word s
  | .valuSar w word => Sys2Proof.Machine.execValuSar w word s
  | .imin w word => Sys2Proof.Machine.execImin w word s
  | .imax w word => Sys2Proof.Machine.execImax w word s
  | .mov w word => Sys2Proof.Machine.execMov w word s
  | .cvtif w word => Sys2Proof.Machine.execCvtif w word s
  | .cvtfi w word => Sys2Proof.Machine.execCvtfi w word s
  | .feq w word => Sys2Proof.Machine.execFeq w word s
  | .flt w word => Sys2Proof.Machine.execFlt w word s
  | .fle w word => Sys2Proof.Machine.execFle w word s
  | .funord w word => Sys2Proof.Machine.execFunord w word s
  | .ieq w word => Sys2Proof.Machine.execIeq w word s
  | .ilt w word => Sys2Proof.Machine.execIlt w word s
  | .iltu w word => Sys2Proof.Machine.execIltu w word s
  | .kand w word => Sys2Proof.Machine.execKand w word s
  | .kor w word => Sys2Proof.Machine.execKor w word s
  | .kxor w word => Sys2Proof.Machine.execKxor w word s
  | .kandn w word => Sys2Proof.Machine.execKandn w word s
  | .kfroms w word => Sys2Proof.Machine.execKfroms w word s
  | .ktos w word => Sys2Proof.Machine.execKtos w word s
  | .kpop w word => Sys2Proof.Machine.execKpop w word s
  | .bcst w word => Sys2Proof.Machine.execBcst w word s
  | .ext w word => Sys2Proof.Machine.execExt w word s
  | .ins w word => Sys2Proof.Machine.execIns w word s
  | .lane w word => Sys2Proof.Machine.execLane w word s
  | .redsum w word => Sys2Proof.Machine.execRedsum w word s
  | .redmax w word => Sys2Proof.Machine.execRedmax w word s
  | .rediadd w word => Sys2Proof.Machine.execRediadd w word s
  | .exp w word => Sys2Proof.Machine.execExp w word s
  | .rcp w word => Sys2Proof.Machine.execRcp w word s
  | .rsq w word => Sys2Proof.Machine.execRsq w word s
  | .vcvtWiden w word => Sys2Proof.Machine.execVcvtWiden w word s
  | .vcvtNarrow w word => Sys2Proof.Machine.execVcvtNarrow w word s
  | .vsbToSb w word => Sys2Proof.Machine.execVsbToSb w word s
  | .vsbFromSb w word => Sys2Proof.Machine.execVsbFromSb w word s
  | .dot w word => Sys2Proof.Machine.execDot w word s
  | .dotsb w word => Sys2Proof.Machine.execDotsb w word s
  | .azero w word => Sys2Proof.Machine.execAzero w word s
  | .aread w word => Sys2Proof.Machine.execAread w word s
  | .awrite w word => Sys2Proof.Machine.execAwrite w word s
  | .mvt w word => Sys2Proof.Machine.execMvt w word s
  | .mvx w word => Sys2Proof.Machine.execMvx w word s
  | .moverTransferDone w id => Sys2Proof.Machine.execMoverTransferDone w id s
  | .cwait w word => Sys2Proof.Machine.execCwait w word s
  | .cwaitBound w => Sys2Proof.Machine.execCwaitBound w s
  | .cread w word => Sys2Proof.Machine.execCread w word s
  | .cadd w word => Sys2Proof.Machine.execCadd w word s
  | .semop w word => Sys2Proof.Machine.execSemop w word s
  | .wickFence w word => Sys2Proof.Machine.execWickFence w word s
  | .fenceComplete eng => Sys2Proof.Machine.execFenceComplete eng s
  | .acquire w word => Sys2Proof.Machine.execAcquire w word s
  | .mwait w word => Sys2Proof.Machine.execMwait w word s
  | .lossOfSignal port lane => Sys2Proof.Machine.execLossOfSignal port lane s
  | .linkChange stat => Sys2Proof.Machine.execLinkChange stat s
  | .perstRelease => Sys2Proof.Machine.execPerstRelease s
  | .framingError => Sys2Proof.Machine.execFramingError s
  | .opkeyStored => Sys2Proof.Machine.execOpkeyStored s
  | .doeRequest req => Sys2Proof.Machine.execDoeRequest req s

end Sys2Proof.Machine
end

