-- ==== Sys2Proof/Machine/Tick.lean ====
section
/-! DEFINITION. What one tick of module time does when no command waits (01 R28, R29; log entry 3). -/
namespace Sys2Proof.Machine

/-- The islands that the manual names (01 R28). -/
def islands : List Nat :=
  List.range 69 ++ (List.range 10).map (0x48 + ·) ++ (List.range 6).map (0x58 + ·) ++ (List.range 4).map (0x60 + ·)

/-- Every island's clock passes its own number of cycles (01 R29). -/
def tickIslands (s : State) : State :=
  s.setErrs (fun e => { e with
    ticks := islands.foldl (fun m i => tmod 0 m i (· + Config.islandTicks i s.lamp.moduleTime.toNat)) e.ticks })

/-- What the main-rail logic does by itself: the next sweep starts, resets end, a rebuild goes on, and what follows from
packets and wicks reaches the queues and plans. -/
def tickMain (s : State) : State :=
  let s := tickIslands s
  let s := if s.lamp.moduleTime.toNat % 100 = 0 then meterUs s else s
  settle (stepRebuild (endResets (nextSweep s)))

/-- One 10 ns tick of module time. -/
def tick (s : State) : State :=
  let s := s.setLamp (fun l => { l with moduleTime := l.moduleTime + 1 })
  if mainUp s then tickMain s else s

end Sys2Proof.Machine
end

