-- ==== Sys2Proof/Safety.lean ====
section
/-! DEFINITION. The terms in which statements are made: the canonical form of every byte memory, what the factory
wrote, a wick that reaches an instruction, and what is left unchanged. -/
namespace Sys2Proof.Safety
open Sys2Proof.Machine

/-- The byte memories that a state holds. -/
def memories (s : State) : List (List Host.Cell) :=
  [s.store.cells, s.store.shadowMem, s.scratch, s.imem, s.reservoir, s.host.mem, s.remote, s.lamp.spi,
   s.lamp.emberA.bytes, s.lamp.emberB.bytes]

/-- Every byte memory is in its canonical form, so that equal memories are equal data. -/
def Canonical (s : State) : Prop := ∀ m ∈ memories s, Memory.wf m = true

/-- What the factory wrote: the blob's records and serial, and the variant in the fuses (16 R458). -/
def factoryData (s : State) : List Factory × BitVec 128 × Bool := (s.lamp.factory, s.lamp.serial, s.lamp.variantA)

/-- A step answers a next state. -/
def Runs (o : Host.Outcome State Fault Refusal) : Prop := ∃ t, o = .next t

/-! ### Wicks -/

/-- A running wick that waits for nothing has reached instruction `op` as `word`: the word at its PC is readable, is
this one, and is one that the decoder accepts as `op` (08 R223 to R225). -/
def Reaches (op : Op) (s : State) (w : Nat) (word : W32) : Prop :=
  w < Config.wicks ∧ canIssue (s.wick w) = true ∧ frozen s = false ∧ imemBad s w (s.wick w).pc = false ∧
    imemWord s w (s.wick w).pc = word ∧ decodeOp word = some op

/-- Everything is as before, all of memory too, but the named wick's registers and the count of free values drawn. -/
def OnlyWick (s t : State) (w : Nat) : Prop :=
  t = { s with wicks := t.wicks, free := t.free } ∧ ∀ v, v ≠ w → t.wick v = s.wick v

/-- The instruction changed the wick's registers as `f` says, took some cycles and went on to the next instruction
index; nothing else changed. -/
def Steps (s t : State) (w : Nat) (f : Wick → Wick) : Prop :=
  OnlyWick s t w ∧ ∃ c : W64, t.wick w = { f { s.wick w with cycle := c } with pc := (s.wick w).pc + 1 }

/-- The command answers a next state in which the wick's registers changed as `f` says. -/
def Completes (i : Instr) (s : State) (w : Nat) (f : Wick → Wick) : Prop :=
  ∃ t, exec i s = .next t ∧ Steps s t w f

/-- The instruction is not the last of instruction memory, where the next index would be out of range (08 R229). -/
def HasNext (s : State) (w : Nat) : Prop := (s.wick w).pc < 4095

/-- The byte that pieces (offset, bytes) put at an offset, if one covers it. -/
def pieceByte (pieces : List (Nat × List Byte)) (o : Nat) : Option Byte :=
  pieces.findSome? (fun p => if p.1 ≤ o ∧ o < p.1 + p.2.length then some (p.2.getD (o - p.1) 0) else none)

/-- A scratch access of `n` bytes at `a` is in range, aligned, not held by the range tracker and readable. -/
def ScratchOk (s : State) (w a n align : Nat) (writes : Bool) : Prop :=
  a + n ≤ Config.scratchBytes ∧ a % align = 0 ∧ tracked (s.wick w) (.scratch w a n) writes = false ∧
    (writes = true ∨ scratchBad s w a n = false)

/-- The command stores the pieces into the wick's scratch from `a` on, changes the wick's registers as `f` says and goes
on. Every other byte of scratch is as before, and so is every other component, but for a spot check's count of outputs. -/
def StoresScratch (i : Instr) (s : State) (w a : Nat) (pieces : List (Nat × List Byte)) (f : Wick → Wick) : Prop :=
  ∃ t, exec i s = .next t ∧
    t = { s with wicks := t.wicks, free := t.free, scratch := t.scratch, badScratch := t.badScratch,
                 sconces := t.sconces } ∧
    (∀ v, v ≠ w → t.wick v = s.wick v) ∧
    (∃ c : W64, t.wick w = { f { s.wick w with cycle := c } with pc := (s.wick w).pc + 1 }) ∧
    ∀ x, cellGet t.scratch x = if scratchAddr w a ≤ x
      then (pieceByte pieces (x - scratchAddr w a)).getD (cellGet s.scratch x) else cellGet s.scratch x

/-- A store access of `n` bytes is in range, aligned and not held by the range tracker, and translates: the state after
the translation, the store address and the leaf. -/
def Translates (s : State) (w a n : Nat) (use : Use) (writes : Bool) (u : State) (sa : Nat) (leaf : Leaf) : Prop :=
  a < 2 ^ 57 ∧ a % n = 0 ∧ tracked (s.wick w) (.store a n) writes = false ∧
    ∃ base, runEng (translate (wickWho s w) (.wick w) use a) s = some (.ok (base, leaf), u) ∧ sa = saUnder base leaf a

/-! ### Queue commands -/

/-- The entry `e` is next on the enabled queue `q` and may start, its header and unused bits are as they must be, and
its context may be used: the command it starts on engine `eng`, and the state once it has started. -/
def Starts (s : State) (q : Nat) (e : W512) (fields : List (Nat × Nat)) (eng : Engine) (c : Cmd) (u : State) : Prop :=
  q < Config.queues ∧ frozen s = false ∧ canStart s q e = true ∧
    (∃ i r, (s.queue q).fetched = ⟨i, e⟩ :: r ∧ startEntry s q ⟨i, e⟩ eng = (c, u)) ∧ headStatus u c fields = 0

/-- The command ends with a status and a result: its completion follows, and all else of the next state is `u`. -/
def Ends (i : Instr) (s : State) (c : Cmd) (u : State) (st : Status) (result : W64) : Prop :=
  exec i s = .next (settle (endCommand u c.q c.idx st result))

/-- The command goes on: it ends later. -/
def GoesOn (i : Instr) (s u : State) : Prop := exec i s = .next (settle u)

/-! ### Requests at the home -/

/-- A request packet is taken in on a live port by the controller that it names: its epoch is current, its duplicate
window has not seen it, its form is right, and its agent may send for its partition (05 R137, R142; 14 R391). The state
after: the cells are freed and the window holds its SEQ. -/
def TakenIn (s : State) (n : Nat) (p : Packet) (w : State) : Prop :=
  n < Config.ports ∧ p.ok = true ∧ portData s n = true ∧ isLocal s p.dst = true ∧
    epochIs (takeIn s n p) p.epoch = .ok ∧
    (p.opc ≠ 0 → let x := rxWindow (takeIn s n p) p.src
      judge 32 (x.newest.map (·.toNat)) x.seqs x.restarted p.seq.toNat = .perform) ∧
    firstReadOk p = true ∧ agentMay s p.src p.part = true ∧ w = markSeq (takeIn s n p) p .inProgress

/-- A request that the home accepts at the offset `off` meets no bad stage, no flash, no older write that waits, and no
mirror or twin. -/
def HomeReady (w : State) (p : Packet) (off : Nat) : Prop :=
  formatOk p = true ∧ alignOk p = true ∧ p.coh = false ∧ offsetOf w p = off ∧ stageStatus w p off = 0 ∧
    flashBlocksOf w p off = [] ∧ behindDeferred w.store.deferred p = false ∧ twinPeers w off = [] ∧
    mirrorOf w (extentOf off) = none

/-- The bytes that a request leaves at its address: its payload, the bytes that its mask enables, the rounded sums of an
ACCUMULATE, or the new value of an ATOMIC. -/
def newBytes (w : State) (p : Packet) (off : Nat) (t : Target) : List Byte :=
  let n := packetBytes p
  let old := homeBytes w p.key off n
  match p.opc.toNat with
  | 0 => old
  | 1 => p.payload
  | 2 => (List.range 64).map (fun i => if (maskOf p).getD i false then p.payload.getD i 0 else old.getD i 0)
  | 3 => (accApply p.arg.toNat (genGet w (genKey t)) old [p.payload]).1
  | _ => leBytes n (atomicNew p.arg.toNat (leNat old) (leNat (slice p.payload 0 n)) (leNat (slice p.payload 16 n)))

/-- The home has applied a request: its bytes, every other line as stored before, and its counter's addition. -/
def HomeServes (w y : State) (p : Packet) (off : Nat) (t : Target) : Prop :=
  let n := packetBytes p
  homeBytes y p.key off n = newBytes w p off t ∧
  (∀ l, l ∉ linesOf off n ∨ p.opc = 0 → lineStored y l = lineStored w l) ∧
  (∀ k, hubGet y k = hubGet w k +
    (if p.cen = true ∧ k = p.counter.toNat then BitVec.ofNat 64 (countOf p) else 0)) ∧
  y.wicks = w.wicks ∧ y.scratch = w.scratch ∧ y.imem = w.imem ∧ y.reservoir = w.reservoir ∧ y.keys = w.keys ∧
  y.plans = w.plans ∧ y.work.queues = w.work.queues ∧ y.sync.sems = w.sync.sems

/-- What a request's answer carries: the bytes read, or an ATOMIC's old value. -/
def answerBytes (w : State) (p : Packet) (off : Nat) : List Byte :=
  if p.opc = 0 ∨ p.opc = 4 then homeBytes w p.key off (packetBytes p) else []

/-- The physical function or the Lamplighter reaches the registers of a page that no reset holds. -/
def ByPf (s : State) (src : RegSrc) (page : Nat) : Prop :=
  src.ok = true ∧ (∀ v, src ≠ .vf v) ∧ mainUp s = true ∧ inReset s page = false

/-- A CNT_ADD or SEM_OP is taken in on a live port by the controller that it names: its epoch is current, its duplicate
window has not seen it, and its agent may send for its partition. The state after. -/
def CtlTaken (s : State) (n : Nat) (m : CtlMsg) (w : State) : Prop :=
  n < Config.ports ∧ portLive s n = true ∧ isLocal s m.dst = true ∧ epochIs (takeCtl s n m) m.epoch = .ok ∧
    (let x := rxWindow (takeCtl s n m) m.src
     judge 16 (x.cnewest.map (·.toNat)) x.cseqs x.restarted m.cseq.toNat = .perform) ∧
    agentMay s m.src m.part = true ∧ w = markCseq (takeCtl s n m) m .inProgress

end Sys2Proof.Safety
end

