-- ==== Sys2Proof/Certificates/Slice0/Obligations.lean ====
section
/-! DEFINITION. The statements for the provers. -/
section
open Sys2Proof Sys2Proof.Machine Sys2Proof.Safety

/-- The machine's step on a queue with a command in front is that command on the queue's rest. -/
def Obligations.StepRunsFront : Prop :=
  ∀ (c : Instr) (r : List Instr) (s : State), step { s with pending := c :: r } = exec c { s with pending := r }

/-! ### Wicks: registers and scalar instructions -/

/-- 08 R220: s0 reads 0 and k0 reads 0xFFFF whatever is written; any other register reads what was last written to it,
and a write changes no other register of its file. -/
def Obligations.RegisterFiles : Prop :=
  ∀ (k : Wick) (d n : Nat),
    (∀ v, rdS (wrS k d v) n = if n = 0 then 0 else if n = d then v else rdS k n) ∧
    (∀ v, rdK (wrK k d v) n = if n = 0 then 0xFFFF else if n = d then v else rdK k n) ∧
    (∀ v, rdV (wrV k d v) n = if n = d then v else rdV k n) ∧
    (∀ v, rdAcc (wrAcc k d v) n = if n = d then v else rdAcc k n)

/-- 08 R226: each SALU instruction writes its result to sD and goes on; QUO and MOD by 0 give 0 and set DZ, and no other
sets a flag. FN selects the instruction; PK must be 0, and so must B for POPC and CLZ; no other word of the form is one. -/
def Obligations.ScalarResults : Prop :=
  ∀ (s : State) (w : Nat) (i : W32), HasNext s w →
    let a := rdS (s.wick w) (wA i)
    let b := rdS (s.wick w) (wB i)
    let put (v : W64) : Wick → Wick := fun k => wrS k (wD i) v
    let div (v : W64) : Wick → Wick := fun k =>
      if b = 0 then { wrS k (wD i) 0 with flags := k.flags ||| flDZ } else wrS k (wD i) v
    let table : List (Nat × Op) := [(0, .saluAdd), (1, .saluSub), (2, .saluAnd), (3, .saluOr), (4, .saluXor), (5, .andn),
      (8, .saluShl), (9, .saluShr), (0xA, .saluSar), (0xB, .ror), (0x10, .clt), (0x11, .cltu), (0x12, .ceq),
      (0x14, .saluMin), (0x15, .saluMax), (0x16, .minu), (0x17, .maxu), (0x18, .mullo), (0x19, .mulhi), (0x1A, .mulhiu),
      (0x1C, .quo), (0x1D, .mod), (0x20, .popc), (0x21, .clz)]
    (wOP i = 1 → decodeOp i = (table.find? (fun e =>
      e.1 == wFN i && decide (wPK i = 0) && (decide (e.1 < 0x20) || decide (wB i = 0)))).map (·.2)) ∧
    (Reaches .quo s w i → Completes (.quo w i) s w (div (BitVec.ofNat 64 (a.toNat / b.toNat)))) ∧
    (Reaches .mod s w i → Completes (.mod w i) s w (div (BitVec.ofNat 64 (a.toNat % b.toNat)))) ∧
    (Reaches .saluAdd s w i → Completes (.saluAdd w i) s w (put (a + b))) ∧
    (Reaches .saluSub s w i → Completes (.saluSub w i) s w (put (a - b))) ∧
    (Reaches .saluAnd s w i → Completes (.saluAnd w i) s w (put (a &&& b))) ∧
    (Reaches .saluOr s w i → Completes (.saluOr w i) s w (put (a ||| b))) ∧
    (Reaches .saluXor s w i → Completes (.saluXor w i) s w (put (a ^^^ b))) ∧
    (Reaches .andn s w i → Completes (.andn w i) s w (put (a &&& ~~~ b))) ∧
    (Reaches .saluShl s w i → Completes (.saluShl w i) s w (put (a <<< (b.toNat % 64)))) ∧
    (Reaches .saluShr s w i → Completes (.saluShr w i) s w (put (a >>> (b.toNat % 64)))) ∧
    (Reaches .saluSar s w i → Completes (.saluSar w i) s w (put (a.sshiftRight (b.toNat % 64)))) ∧
    (Reaches .ror s w i → Completes (.ror w i) s w (put (a.rotateRight (b.toNat % 64)))) ∧
    (Reaches .clt s w i → Completes (.clt w i) s w (put (if a.toInt < b.toInt then 1 else 0))) ∧
    (Reaches .cltu s w i → Completes (.cltu w i) s w (put (if a.toNat < b.toNat then 1 else 0))) ∧
    (Reaches .ceq s w i → Completes (.ceq w i) s w (put (if a = b then 1 else 0))) ∧
    (Reaches .saluMin s w i → Completes (.saluMin w i) s w (put (if b.toInt < a.toInt then b else a))) ∧
    (Reaches .saluMax s w i → Completes (.saluMax w i) s w (put (if a.toInt < b.toInt then b else a))) ∧
    (Reaches .minu s w i → Completes (.minu w i) s w (put (if b.toNat < a.toNat then b else a))) ∧
    (Reaches .maxu s w i → Completes (.maxu w i) s w (put (if a.toNat < b.toNat then b else a))) ∧
    (Reaches .mullo s w i → Completes (.mullo w i) s w (put (BitVec.ofNat 64 (a.toNat * b.toNat)))) ∧
    (Reaches .mulhi s w i → Completes (.mulhi w i) s w (put (BitVec.ofInt 64 (a.toInt * b.toInt / 2 ^ 64)))) ∧
    (Reaches .mulhiu s w i → Completes (.mulhiu w i) s w (put (BitVec.ofNat 64 (a.toNat * b.toNat / 2 ^ 64)))) ∧
    (Reaches .popc s w i → Completes (.popc w i) s w
      (put (BitVec.ofNat 64 ((List.range 64).countP (fun j => a.getLsbD j))))) ∧
    (Reaches .clz s w i → Completes (.clz w i) s w
      (put (if a = 0 then 64 else BitVec.ofNat 64 (63 - Nat.log2 a.toNat))))

/-- 08 R227, R228: the immediate forms take IMM sign-extended, shifts by its low 6 bits; SETQ writes a quarter with
zeros below and copies of IMM16's top bit above, PUTQ replaces one quarter and leaves the others. F3 selects the
immediate form, whose shifts need IMM[11:6] = 0; KEEP selects SETQ or PUTQ. -/
def Obligations.ScalarImmediates : Prop :=
  ∀ (s : State) (w : Nat) (i : W32), HasNext s w →
    let a := rdS (s.wick w) (wA i)
    let m := BitVec.ofInt 64 (wIMM i)
    let put (v : W64) : Wick → Wick := fun k => wrS k (wD i) v
    let table : List (Nat × Op) := [(0, .addi), (1, .andi), (2, .ori), (3, .xori), (4, .shli), (5, .shri), (6, .sari), (7, .muli)]
    (wOP i = 2 → decodeOp i = (table.find? (fun e => e.1 == wF3 i &&
      (decide (e.1 < 4) || decide (e.1 = 7) || decide (wIMMu i < 64)))).map (·.2)) ∧
    (wOP i = 3 → ∀ op, decodeOp i = some op → op = if wKEEP i then .putq else .setq) ∧
    (Reaches .addi s w i → Completes (.addi w i) s w (put (a + m))) ∧
    (Reaches .andi s w i → Completes (.andi w i) s w (put (a &&& m))) ∧
    (Reaches .ori s w i → Completes (.ori w i) s w (put (a ||| m))) ∧
    (Reaches .xori s w i → Completes (.xori w i) s w (put (a ^^^ m))) ∧
    (Reaches .shli s w i → Completes (.shli w i) s w (put (a <<< (m.toNat % 64)))) ∧
    (Reaches .shri s w i → Completes (.shri w i) s w (put (a >>> (m.toNat % 64)))) ∧
    (Reaches .sari s w i → Completes (.sari w i) s w (put (a.sshiftRight (m.toNat % 64)))) ∧
    (Reaches .muli s w i → Completes (.muli w i) s w (put (a * m))) ∧
    (Reaches .setq s w i → Completes (.setq w i) s w
      (put (BitVec.signExtend 64 (BitVec.ofNat 16 (wIMM16 i)) <<< (16 * wH i)))) ∧
    (Reaches .putq s w i → ∃ v : W64, Completes (.putq w i) s w (put v) ∧
      (∀ n < 64, v.getLsbD n = if 16 * wH i ≤ n ∧ n < 16 * wH i + 16 then (wIMM16 i).testBit (n - 16 * wH i)
        else (rdS (s.wick w) (wD i)).getLsbD n))

/-- 08 R229: BR, CALL and JIND continue at their target, or at the next index where a branch is not taken; a target
outside 0 to 4,095 stops the wick with FORMAT_ERROR, and so does execution that passes instruction 4,095 without a
jump, said of every instruction that changes registers and goes on. DNZ (F3 = 7) decrements sD first, and its A is 0. -/
def Obligations.BranchesAndJumps : Prop :=
  ∀ (s : State) (w : Nat) (i : W32),
    let k := s.wick w
    let a := rdS k (wA i)
    let d := rdS k (wD i)
    let taken : Bool := match wF3 i with
      | 0 => a == d | 1 => a != d | 2 => decide (a.toInt < d.toInt) | 3 => decide (a.toInt ≤ d.toInt)
      | 4 => decide (a.toNat < d.toNat) | 5 => decide (a.toNat ≤ d.toNat) | 6 => (a &&& d) != 0 | _ => d - 1 != 0
    let goes (c : Instr) (f : Wick → Wick) (target : Int) : Prop :=
      ∃ t, exec c s = .next t ∧ (∀ v, v ≠ w → t.wick v = s.wick v) ∧ ∃ y : W64,
        if 0 ≤ target ∧ target < 4096 then
          OnlyWick s t w ∧ t.wick w = { f { k with cycle := y } with pc := target.toNat }
        else (t.wick w).state = .stopped ∧ (t.wick w).stop = stFormat
    (∀ f : Wick → Wick, (∀ k, (f k).pc = k.pc) → k.pc = 4095 →
      ((wickDo w f s).wick w).state = .stopped ∧ ((wickDo w f s).wick w).stop = stFormat) ∧
    (decodeOp i = some .br → wF3 i = 7 → wA i = 0) ∧
    (Reaches .br s w i → goes (.br w i) (fun k => if wF3 i = 7 then wrS k (wD i) (d - 1) else k)
      (if taken then (k.pc : Int) + wIMM i else (k.pc : Int) + 1)) ∧
    (Reaches .call s w i → goes (.call w i) (fun k' => wrS k' (wD i) (BitVec.ofNat 64 (k.pc + 1))) (wTARGET i)) ∧
    (Reaches .jind s w i → goes (.jind w i) (fun k' => wrS k' (wD i) (BitVec.ofNat 64 (k.pc + 1)))
      ((rdS k (wA i) + BitVec.ofInt 64 (wIMM i)).toNat))

/-- 08 R236, R237, R253: NOP changes nothing; END ends the wick's part of the step; MFS reads the special register that A
selects, as the wick stands once the instruction has taken its cycles; MTS writes FLAGS, MSTAT or CNTSEL. -/
def Obligations.SystemInstructions : Prop :=
  ∀ (s : State) (w : Nat) (i : W32),
    (Reaches .nop s w i → HasNext s w → Completes (.nop w i) s w id) ∧
    (Reaches .endProgram s w i → ∃ t, exec (.endProgram w i) s = .next t ∧ OnlyWick s t w ∧
      ∃ c : W64, t.wick w = { s.wick w with state := .ended, cycle := c }) ∧
    (Reaches .mfs s w i → HasNext s w → Completes (.mfs w i) s w (fun k => wrS k (wD i) (
      if wA i = 0 then BitVec.ofNat 64 w else if wA i = 1 then k.step.setWidth 64 else if wA i = 2 then k.cycle
      else if wA i = 3 then k.flags.setWidth 64 else if wA i = 4 then k.mstat.setWidth 64
      else if wA i = 5 then k.cntsel.setWidth 64 else if wA i = 6 then k.ctx.setWidth 64
      else if wA i = 7 then k.part.setWidth 64 else k.rel.getD (wA i - 8) 0))) ∧
    (Reaches .mts s w i → HasNext s w → (wA i = 3 ∨ wA i = 4 ∨ wA i = 5) ∧
      Completes (.mts w i) s w (fun k => let v := rdS k (wB i)
        if wA i = 3 then { k with flags := v.setWidth 5 } else if wA i = 4 then { k with mstat := v.setWidth 9 }
        else { k with cntsel := v.setWidth 19 }))

/-! ### Wicks: vectors -/

/-- 08 R238: a predicated write gives each lane whose mask bit is set its result and keeps the others, and only enabled
lanes raise flags. -/
def Obligations.PredicatedLanes : Prop :=
  ∀ (m : W16) (old : W512) (rs : List LaneRes) (l : Nat), rs.length = 16 → l < 16 →
    laneAt (mergeLanes m old rs) l = (if m.getLsbD l then (rs.getD l (0, 0)).1 % 2 ^ 32 else laneAt old l) ∧
    ∀ b, (lanesFlags m rs).getLsbD b = (List.range 16).any (fun j => m.getLsbD j && (rs.getD j (0, 0)).2.getLsbD b)

/-- 08 R239: the VALU instructions: FP32 lanes by the exact operation rounded once to nearest even, 32-bit integer lanes
that wrap, shifts by B[4:0], moves and conversions, each predicated. -/
def Obligations.VectorArithmetic : Prop :=
  ∀ (s : State) (w : Nat) (i : W32), HasNext s w →
    let two (f : Nat → Nat → LaneRes) : Wick → Wick :=
      vecWrite i (fun k l => f (laneAt (rdV k (wA i)) l) (laneAt (rdV k (wB i)) l))
    let three (f : Nat → Nat → Nat → LaneRes) : Wick → Wick :=
      vecWrite i (fun k l => f (laneAt (rdV k (wA i)) l) (laneAt (rdV k (wB i)) l) (laneAt (rdV k (wD i)) l))
    let one (f : Nat → LaneRes) : Wick → Wick := vecWrite i (fun k l => f (laneAt (rdV k (wA i)) l))
    let int (f : W32 → W32 → W32) : Wick → Wick :=
      two (fun a b => ((f (BitVec.ofNat 32 a) (BitVec.ofNat 32 b)).toNat, 0))
    (Reaches .fadd s w i → Completes (.fadd w i) s w (two f32Add)) ∧
    (Reaches .fsub s w i → Completes (.fsub w i) s w (two (fun a b => f32Add a (b ^^^ 0x80000000)))) ∧
    (Reaches .fmul s w i → Completes (.fmul w i) s w (two f32Mul)) ∧
    (Reaches .fma s w i → Completes (.fma w i) s w (three f32Fma)) ∧
    (Reaches .fnma s w i → Completes (.fnma w i) s w (three f32Fnma)) ∧
    (Reaches .fmin s w i → Completes (.fmin w i) s w (two (fun a b => (f32Code (fmin (f32 a) (f32 b)), 0)))) ∧
    (Reaches .fmax s w i → Completes (.fmax w i) s w (two (fun a b => (f32Code (fmax (f32 a) (f32 b)), 0)))) ∧
    (Reaches .fabs s w i → Completes (.fabs w i) s w (one (fun a => (a % 2 ^ 31, 0)))) ∧
    (Reaches .fneg s w i → Completes (.fneg w i) s w (one (fun a => (a ^^^ 0x80000000, 0)))) ∧
    (Reaches .iadd s w i → Completes (.iadd w i) s w (int (· + ·))) ∧
    (Reaches .isub s w i → Completes (.isub w i) s w (int (· - ·))) ∧
    (Reaches .imul s w i → Completes (.imul w i) s w (int (· * ·))) ∧
    (Reaches .valuAnd s w i → Completes (.valuAnd w i) s w (int (· &&& ·))) ∧
    (Reaches .valuOr s w i → Completes (.valuOr w i) s w (int (· ||| ·))) ∧
    (Reaches .valuXor s w i → Completes (.valuXor w i) s w (int (· ^^^ ·))) ∧
    (Reaches .valuShl s w i → Completes (.valuShl w i) s w (int (fun a b => a <<< (b.toNat % 32)))) ∧
    (Reaches .valuShr s w i → Completes (.valuShr w i) s w (int (fun a b => a >>> (b.toNat % 32)))) ∧
    (Reaches .valuSar s w i → Completes (.valuSar w i) s w (int (fun a b => a.sshiftRight (b.toNat % 32)))) ∧
    (Reaches .imin s w i → Completes (.imin w i) s w (int (fun a b => if b.toInt < a.toInt then b else a))) ∧
    (Reaches .imax s w i → Completes (.imax w i) s w (int (fun a b => if a.toInt < b.toInt then b else a))) ∧
    (Reaches .mov s w i → Completes (.mov w i) s w (one (fun a => (a, 0)))) ∧
    (Reaches .cvtif s w i → Completes (.cvtif w i) s w (one (fun a => toFP32 (fint (BitVec.ofNat 32 a).toInt)))) ∧
    (Reaches .cvtfi s w i → Completes (.cvtfi w i) s w (one (fun a =>
      ((BitVec.ofInt 32 (toInt 32 .rne (f32 a)).1).toNat, (toInt 32 .rne (f32 a)).2))))

/-- 08 R240: a compare gives kD a bit for each enabled lane where the relation holds, none of them true with a NaN but
FUNORD; mask operations and moves between masks and scalars; k0 keeps 0xFFFF. No compare raises a flag. -/
def Obligations.MaskInstructions : Prop :=
  ∀ (s : State) (w : Nat) (i : W32), HasNext s w →
    let k := s.wick w
    let cmp (f : Nat → Nat → Prop) (c : Instr) : Prop := ∃ m : W16, Completes c s w (fun k => wrK k (wD i) m) ∧
      ∀ l < 16, (m.getLsbD l = true ↔ (rdK k (wPK i)).getLsbD l = true ∧
        f (laneAt (rdV k (wA i)) l) (laneAt (rdV k (wB i)) l))
    let fp (r : Ordering → Prop) (a b : Nat) : Prop := f32 a ≠ .nan ∧ f32 b ≠ .nan ∧ r (fcmp (f32 a) (f32 b))
    let put (v : W16) : Wick → Wick := fun k => wrK k (wD i) v
    (Reaches .feq s w i → cmp (fp (· = .eq)) (.feq w i)) ∧
    (Reaches .flt s w i → cmp (fp (· = .lt)) (.flt w i)) ∧
    (Reaches .fle s w i → cmp (fp (· ≠ .gt)) (.fle w i)) ∧
    (Reaches .funord s w i → cmp (fun a b => f32 a = .nan ∨ f32 b = .nan) (.funord w i)) ∧
    (Reaches .ieq s w i → cmp (· = ·) (.ieq w i)) ∧
    (Reaches .ilt s w i → cmp (fun a b => (BitVec.ofNat 32 a).toInt < (BitVec.ofNat 32 b).toInt) (.ilt w i)) ∧
    (Reaches .iltu s w i → cmp (· < ·) (.iltu w i)) ∧
    (Reaches .kand s w i → Completes (.kand w i) s w (put (rdK k (wA i) &&& rdK k (wB i)))) ∧
    (Reaches .kor s w i → Completes (.kor w i) s w (put (rdK k (wA i) ||| rdK k (wB i)))) ∧
    (Reaches .kxor s w i → Completes (.kxor w i) s w (put (rdK k (wA i) ^^^ rdK k (wB i)))) ∧
    (Reaches .kandn s w i → Completes (.kandn w i) s w (put (rdK k (wA i) &&& ~~~ rdK k (wB i)))) ∧
    (Reaches .kfroms s w i → Completes (.kfroms w i) s w (put ((rdS k (wA i)).setWidth 16))) ∧
    (Reaches .ktos s w i → Completes (.ktos w i) s w (fun y => wrS y (wD i) ((rdK k (wA i)).setWidth 64))) ∧
    (Reaches .kpop s w i → Completes (.kpop w i) s w (fun y => wrS y (wD i)
      (BitVec.ofNat 64 ((List.range 16).countP (fun l => (rdK k (wA i)).getLsbD l)))))

/-- 08 R241, R242: lane moves, the reductions into every lane (REDSUM by its fixed tree), and the special functions. -/
def Obligations.LaneMovesAndReductions : Prop :=
  ∀ (s : State) (w : Nat) (i : W32), HasNext s w →
    let all (x : Nat) : W512 := ofLanes (List.replicate 16 x)
    let add (x y : LaneRes) : LaneRes := ((f32Add x.1 y.1).1, x.2 ||| y.2 ||| (f32Add x.1 y.1).2)
    (Reaches .bcst s w i → Completes (.bcst w i) s w
      (vecWrite i (fun k _ => ((rdS k (wA i)).toNat % 2 ^ 32, 0)))) ∧
    (Reaches .ext s w i → Completes (.ext w i) s w
      (fun k => wrS k (wD i) (BitVec.ofNat 64 (laneAt (rdV k (wA i)) (wB i))))) ∧
    (Reaches .ins s w i → ∃ v : W512, Completes (.ins w i) s w (fun k => wrV k (wD i) v) ∧ ∀ l < 16,
      laneAt v l = if l = wB i then (rdS (s.wick w) (wA i)).toNat % 2 ^ 32 else laneAt (rdV (s.wick w) (wD i)) l) ∧
    (Reaches .lane s w i → Completes (.lane w i) s w (vecWrite i (fun _ l => (l, 0)))) ∧
    (Reaches .redsum s w i → Completes (.redsum w i) s w (fun k =>
      let x (l : Nat) : LaneRes := (laneAt (rdV k (wA i)) l, 0)
      let a (l : Nat) : LaneRes := add (x l) (x (l + 8))
      let b (l : Nat) : LaneRes := add (a l) (a (l + 4))
      let c (l : Nat) : LaneRes := add (b l) (b (l + 2))
      let r := add (c 0) (c 1)
      { wrV k (wD i) (all r.1) with flags := k.flags ||| r.2 })) ∧
    (Reaches .redmax s w i → Completes (.redmax w i) s w (fun k => wrV k (wD i)
      (all (f32Code (((lanesOf (rdV k (wA i))).map f32).tail.foldl fmax (f32 (laneAt (rdV k (wA i)) 0))))))) ∧
    (Reaches .rediadd s w i → Completes (.rediadd w i) s w (fun k => wrV k (wD i)
      (all ((lanesOf (rdV k (wA i))).sum % 2 ^ 32)))) ∧
    (Reaches .exp s w i → Completes (.exp w i) s w (vecWrite i (fun k l => f32Exp (laneAt (rdV k (wA i)) l)))) ∧
    (Reaches .rcp s w i → Completes (.rcp w i) s w (vecWrite i (fun k l => f32Recip (laneAt (rdV k (wA i)) l)))) ∧
    (Reaches .rsq s w i → Completes (.rsq w i) s w (vecWrite i (fun k l => f32Rsqrt (laneAt (rdV k (wA i)) l))))

/-- 08 R243 to R246; 07 R193: conversions between vectors and parts of narrow or SB elements, the dot unit's 64 sums, and
moves of accumulators. VCVT to narrow and VSB to SB keep the other parts of vD; only they take rounding bits. -/
def Obligations.ConversionsAndDots : Prop :=
  ∀ (s : State) (w : Nat) (i : W32), HasNext s w →
    let f := bits (wFN i) 0 3
    let n := 8 * narrowSize f
    let p := bits (wFN i) 3 2
    (Reaches .vcvtWiden s w i → Completes (.vcvtWiden w i) s w (fun k => wrV k (wD i) (ofLanes
      ((List.range 16).map (fun e => f32Code (widenFrom (f + 1) (bits (rdV k (wA i)).toNat (16 * n * p + n * e) n))))))) ∧
    (Reaches .vcvtNarrow s w i → ∃ (v : W512) (g : W32) (fl : FFlags), Completes (.vcvtNarrow w i) s w
        (fun k => { wrV k (wD i) v with gen := g, flags := k.flags ||| fl }) ∧
      (∀ b < 512, b < 16 * n * p ∨ 16 * n * (p + 1) ≤ b → v.getLsbD b = (rdV (s.wick w) (wD i)).getLsbD b) ∧
      (bit (wPK i) 0 = false → g = (s.wick w).gen ∧ ∀ e < 16, bits v.toNat (16 * n * p + n * e) n =
        (narrowTo (f + 1) .rne (!bit (wPK i) 1) (f32 (laneAt (rdV (s.wick w) (wA i)) e))).1 % 2 ^ n)) ∧
    (Reaches .vsbToSb s w i → Completes (.vsbToSb w i) s w (toSb i)) ∧
    (Reaches .vsbFromSb s w i → Completes (.vsbFromSb w i) s w (fromSb i)) ∧
    (Reaches .dot s w i → ∃ (v : BitVec 2048) (fl : FFlags),
      Completes (.dot w i) s w (fun k => { wrAcc k (wACC i) v with flags := k.flags ||| fl }) ∧
      ∀ r < 8, ∀ j < 8, bits v.toNat (32 * (8 * r + j)) 32 =
        (dotOut (bits (rdAcc (s.wick w) (wACC i)).toNat (32 * (8 * r + j)) 32)
          (dotRow (dotFormats (wFMT i)).1 (rdV (s.wick w) (wA i)) r)
          (dotRow (dotFormats (wFMT i)).2 (rdV (s.wick w) (wB i)) j)).1 % 2 ^ 32) ∧
    (Reaches .dotsb s w i → ∃ (v : BitVec 2048) (fl : FFlags),
      Completes (.dotsb w i) s w (fun k => { wrAcc k (wACC i) v with flags := k.flags ||| fl }) ∧
      ∀ r < 8, ∀ j < 8, bits v.toNat (32 * (8 * r + j)) 32 =
        (dotOut (bits (rdAcc (s.wick w) (wACC i)).toNat (32 * (8 * r + j)) 32)
          (sbRow (bit (wFMT i) 0) (s.wick w) (wA i) (wSCA i) r)
          (sbRow (bit (wFMT i) 0) (s.wick w) (wB i) (wSCB i) j)).1 % 2 ^ 32) ∧
    (Reaches .azero s w i → Completes (.azero w i) s w (fun k => wrAcc k (wD i) 0)) ∧
    (Reaches .aread s w i → Completes (.aread w i) s w (fun k => wrV k (wD i)
      (BitVec.ofNat 512 (bits (rdAcc k (wA i)).toNat (512 * wB i) 512)))) ∧
    (Reaches .awrite s w i → ∃ v : BitVec 2048, Completes (.awrite w i) s w (fun k => wrAcc k (wD i) v) ∧
      ∀ b < 2048, v.getLsbD b = if 512 * wB i ≤ b ∧ b < 512 * wB i + 512
        then (rdV (s.wick w) (wA i)).getLsbD (b - 512 * wB i) else (rdAcc (s.wick w) (wD i)).getLsbD b)

/-! ### Wicks: memory -/

/-- 08 R230, R231, R235: a load from scratch reads little-endian bytes at A + IMM × size (LDSB at A) into its register
or register group, sign-extended where F3 says so, and goes on; nothing else changes. -/
def Obligations.ScratchLoads : Prop :=
  ∀ (s : State) (w : Nat) (i : W32), HasNext s w →
    let k := s.wick w
    let n : Nat := 2 ^ (wF3 i % 4)
    let ea (m : Nat) : Nat := (rdS k (wA i) + BitVec.ofInt 64 (wIMM i * m)).toNat
    let m := if bit (wFN i) 0 then 136 else 264
    (Reaches .lds s w i → ScratchOk s w (ea n) n n false → Completes (.lds w i) s w (fun k =>
      let x := leNat (scratchRead s w (ea n) n)
      wrS k (wD i) (if bit (wF3 i) 2 then (BitVec.ofNat (8 * n) x).signExtend 64 else BitVec.ofNat 64 x))) ∧
    (Reaches .ldv s w i → ScratchOk s w (ea 64) 64 64 false → Completes (.ldv w i) s w (fun k =>
      wrV k (wD i) (BitVec.ofNat 512 (leNat (scratchRead s w (ea 64) 64))))) ∧
    (Reaches .ldsb s w i → ScratchOk s w (rdS k (wA i)).toNat m 1 false → Completes (.ldsb w i) s w
      (unpackSb (bit (wFN i) 0) i (scratchRead s w (rdS k (wA i)).toNat m)))

/-- 08 R231 to R235: a store to scratch writes exactly its bytes: a scalar's low bytes, the lanes of a vector that a mask
enables, eight SB blocks, or the enabled lanes narrowed. -/
def Obligations.ScratchStores : Prop :=
  ∀ (s : State) (w : Nat) (i : W32), HasNext s w →
    let k := s.wick w
    let n : Nat := 2 ^ (wF3 i % 4)
    let ea (m : Nat) : Nat := (rdS k (wA i) + BitVec.ofInt 64 (wIMM i * m)).toNat
    let m := if bit (wFN i) 0 then 136 else 264
    let nn := 16 * narrowSize (bits (wFN i) 0 3)
    let a := (rdS k (wA i)).toNat
    (Reaches .sts s w i → ScratchOk s w (ea n) n n true →
      StoresScratch (.sts w i) s w (ea n) [(0, leBytes n (rdS k (wD i)).toNat)] id) ∧
    (Reaches .stv s w i → ScratchOk s w (ea 64) 64 64 true →
      StoresScratch (.stv w i) s w (ea 64) (((List.range 16).filter (fun l => (rdK k (wF3 i)).getLsbD l)).map
        (fun l => (4 * l, leBytes 4 (laneAt (rdV k (wD i)) l)))) id) ∧
    (Reaches .stsb s w i → ScratchOk s w a m 1 true →
      StoresScratch (.stsb w i) s w a [(0, packSb (bit (wFN i) 0) i k)] id) ∧
    (Reaches .stn s w i → bit (wFN i) 5 = false → ScratchOk s w a nn nn true →
      StoresScratch (.stn w i) s w a (narrowStore i k).1
        (fun y => { y with flags := (narrowStore i k).2.flags, gen := (narrowStore i k).2.gen }))

/-- 08 R225, R230, R255; 07 R191: what stops a wick. An uncorrectable word of its instruction memory, or a word that the
decoder refuses, stops it with UNCORRECTABLE or FORMAT_ERROR, its PC still at that word (shown for NOP's row, which is
where the wick is); a scratch access that passes 128 KiB stops it with XLATE_FAULT, a misaligned one with ALIGN_ERROR.
No byte of memory changes, and no other wick. -/
def Obligations.WickStops : Prop :=
  ∀ (s : State) (w : Nat) (i : W32),
    let n : Nat := 2 ^ (wF3 i % 4)
    let ea (m : Nat) : Nat := (rdS (s.wick w) (wA i) + BitVec.ofInt 64 (wIMM i * m)).toNat
    let stopped (t : State) (st : Status) : Prop := (t.wick w).state = .stopped ∧ (t.wick w).stop = st ∧
      (t.wick w).pc = (s.wick w).pc ∧ t.imem = s.imem ∧ t.scratch = s.scratch ∧ ∀ v, v ≠ w → t.wick v = s.wick v
    let stops (c : Instr) (m : Nat) : Prop :=
      (131072 < ea m + m → ∃ t, exec c s = .next t ∧ stopped t stXlate) ∧
      (ea m + m ≤ 131072 → ea m % m ≠ 0 → ∃ t, exec c s = .next t ∧ stopped t stAlign)
    (w < Config.wicks → canIssue (s.wick w) = true → frozen s = false →
      (imemBad s w (s.wick w).pc = true → ∃ t, exec (.nop w i) s = .next t ∧ stopped t stUncorr) ∧
      (imemBad s w (s.wick w).pc = false → imemWord s w (s.wick w).pc = i → decodeOp i = none →
        ∃ t, exec (.nop w i) s = .next t ∧ stopped t stFormat)) ∧
    (Reaches .lds s w i → stops (.lds w i) n) ∧ (Reaches .sts s w i → stops (.sts w i) n) ∧
    (Reaches .ldv s w i → stops (.ldv w i) 64) ∧ (Reaches .stv s w i → stops (.stv w i) 64)

/-- 08 R231, R233; 06 R176: a load from the store that its sliver port and its read buffer do not serve sends a READ of
its line under the page's leaf, and waits for the response. A load-acquire is never served from the buffer. -/
def Obligations.StoreLoads : Prop :=
  ∀ (s u : State) (w sa : Nat) (i : W32) (leaf : Leaf),
    let k := s.wick w
    let n : Nat := 2 ^ (wF3 i % 4)
    let ea (m : Nat) : Nat := (rdS k (wA i) + BitVec.ofInt 64 (wIMM i * m)).toNat
    let p := wickPacket u w 0 leaf (sa / 64 * 64) 64 []
    let sends (c : Instr) (o : Origin) : Prop := ownSliver u w p = none →
      exec c s = .next (submit (u.setWick w (fun k => { k with wait := .response })) { pkt := p, origin := o } false)
    let miss : Prop := (u.wick w).buf.find? (fun e => e.1 = sa / 64) = none
    (Reaches .ldm s w i → Translates (issue s w) w (ea n) n .read false u sa leaf → miss →
      sends (.ldm w i) (.wickLoad w (wD i) n (sa % 64) (bit (wF3 i) 2) false)) ∧
    (Reaches .lda s w i → Translates (issue s w) w (ea n) n .read false u sa leaf →
      sends (.lda w i) (.wickLoad w (wD i) n (sa % 64) (bit (wF3 i) 2) true)) ∧
    (Reaches .ldmv s w i → Translates (issue s w) w (ea 64) 64 .read false u sa leaf → miss →
      sends (.ldmv w i) (.wickVLoad w (wD i)))

/-- 08 R231, R232, R234, R236: a posted store sends a WRITE_MASKED of its line (STMV of every lane a WRITE, VACC an
ACCUMULATE) with the counter fields of CNTSEL, and the wick goes on at once. Its bytes are those of the register. One
that fails its translation is recorded in MSTAT, the first status in [7:0] and MORE for a further one, and the wick goes on. -/
def Obligations.PostedStores : Prop :=
  ∀ (s u : State) (w sa : Nat) (i : W32) (leaf : Leaf),
    let k := u.wick w
    let n : Nat := 2 ^ (wF3 i % 4)
    let ea (m : Nat) : Nat := (rdS (s.wick w) (wA i) + BitVec.ofInt 64 (wIMM i * m)).toNat
    let a := (rdS (s.wick w) (wA i)).toNat
    let counted (p : Packet) : Packet :=
      { p with counter := k.cntsel.setWidth 17, cen := k.cntsel.getLsbD 17, cunit := k.cntsel.getLsbD 18 }
    let posts (c : Instr) (p : Packet) (f : Wick → Wick) : Prop :=
      exec c s = .next (advance (sendPosted (spotOutput (u.setWick w f) w) w (counted p) false) w)
    let masked (pieces : List (Nat × List Byte)) : Packet :=
      wickPacket u w 2 leaf (sa / 64 * 64) 0 (maskedPayload (linePayload (sa % 64) pieces).1
        (linePayload (sa % 64) pieces).2)
    let buffered (pieces : List (Nat × List Byte)) (k : Wick) : Wick :=
      bufStore k (sa / 64) (linePayload (sa % 64) pieces).1 (linePayload (sa % 64) pieces).2
    let word := [(0, leBytes n (rdS (s.wick w) (wD i)).toNat)]
    let lanes := lanePieces (rdK (s.wick w) (wF3 i)) (rdV (s.wick w) (wD i))
    let nn := 16 * narrowSize (bits (wFN i) 0 3)
    let row := bytesOf (rdV k (wD i))
    (Reaches .stm s w i → Translates (issue s w) w (ea n) n .write true u sa leaf →
      posts (.stm w i) (masked word) (buffered word)) ∧
    (Reaches .stmv s w i → Translates (issue s w) w (ea 64) 64 .write true u sa leaf →
      if wF3 i = 0 then posts (.stmv w i) (wickPacket u w 1 leaf sa 0 row)
        (fun k => bufStore k (sa / 64) row (List.replicate 64 true))
      else posts (.stmv w i) (masked lanes) (buffered lanes)) ∧
    (Reaches .stn s w i → bit (wFN i) 5 = true → Translates (issue s w) w a nn .write true u sa leaf →
      posts (.stn w i) (masked (narrowStore i (s.wick w)).1) (fun k => buffered (narrowStore i (s.wick w)).1
        { k with flags := (narrowStore i (s.wick w)).2.flags, gen := (narrowStore i (s.wick w)).2.gen })) ∧
    (Reaches .vacc s w i → Translates (issue s w) w a 64 .accum true u sa leaf →
      posts (.vacc w i) (wickPacket u w 3 leaf sa (bits (wFN i) 0 3 + 16 * b2n (bit (wFN i) 3)) row)
        (fun k => { k with buf := k.buf.filter (fun e => e.1 ≠ sa / 64) })) ∧
    (∀ st : Status, HasNext s w →
      let y := s.wick w
      let t := postedFailed w st s
      (t.wick w).pc = y.pc + 1 ∧ (t.wick w).state = y.state ∧
      (if y.mstat.toNat % 256 = 0 then (t.wick w).mstat.toNat % 256 = st.toNat ∧ (t.wick w).mstat.getLsbD 8 = y.mstat.getLsbD 8
        else (t.wick w).mstat.toNat % 256 = y.mstat.toNat % 256 ∧ (t.wick w).mstat.getLsbD 8 = true) ∧
      t.store.cells = s.store.cells ∧ t.scratch = s.scratch ∧ t.reservoir = s.reservoir)

/-- 08 R233, R252; 06 R176: AMO sends an ATOMIC with its operand and its comparand and waits; a store-release sends its
store at once where no packet of the wick is open and its fence finds no failure, and waits where one is open. -/
def Obligations.AtomicsAndReleases : Prop :=
  ∀ (s u : State) (w sa : Nat) (i : W32) (leaf : Leaf),
    let fn := wFN i
    let an : Nat := 4 * 2 ^ bits fn 2 1
    let n : Nat := 2 ^ (wF3 i % 4)
    let ea := (rdS (s.wick w) (wA i) + BitVec.ofInt 64 (wIMM i * n)).toNat
    let ap := withCntsel (u.wick w) (wickPacket u w 4 leaf sa (bits fn 0 2 + 4 * bits fn 2 1 + 16 * bits fn 3 3)
      (leBytes 16 ((rdS (s.wick w) (wB i)).toNat % 2 ^ (8 * an)) ++
        leBytes 16 ((rdS (s.wick w) (wD i)).toNat % 2 ^ (8 * an))))
    let lp := linePayload (sa % 64) [(0, leBytes n (rdS (s.wick w) (wD i)).toNat)]
    let sp := withCntsel (u.wick w) (wickPacket u w 2 leaf (sa / 64 * 64) 0 (maskedPayload lp.1 lp.2))
    (Reaches .amo s w i → Translates (issue s w) w (rdS (s.wick w) (wA i)).toNat an .accum true u sa leaf →
      ownSliver ((spotOutput u w).setWick w (fun k => { k with wait := .response })) w ap = none →
      exec (.amo w i) s = .next (submit ((spotOutput u w).setWick w (fun k => { k with wait := .response }))
        { pkt := ap, origin := .wickAmo w (wD i) an } false)) ∧
    (Reaches .str s w i → Translates (issue s w) w ea n .write true u sa leaf →
      (wickOpen u w = true → exec (.str w i) s =
        .next (u.setWick w (fun k => { k with wait := .release { pkt := sp, origin := .engine (.wick w) } }))) ∧
      (wickOpen u w = false → (takeFence u w).1 = 0 →
        exec (.str w i) s = .next (performStr w sp (takeFence u w).2)))

/-! ### Wicks: movers, counters, semaphores, fences -/

/-- 08 R247 to R249: a granted, aligned and in-range MVT or MVX that its tracker does not hold enters its mover channel:
both its ranges are tracked until it ends, and the wick goes on. -/
def Obligations.MoverIssue : Prop :=
  ∀ (s : State) (w : Nat) (i : W32),
    let v := issue s w
    let k := v.wick w
    let a := (rdS k (wA i)).toNat
    let b := (rdS k (wB i)).toNat
    let p := (rdS k (wD i)).toNat
    let n := bits p 0 17
    let d := lineOf (scratchRead v w a 64)
    let t := tileOf d
    let ch := bits (wFN i) 0 3
    let toScr := bit (wFN i) 3
    let unit := if toScr then 16 else if bit (wFN i) 4 then 32 else 64
    let src : Range := .scratch w a n
    let dst : Range := if toScr then .scratch (bits b 17 12) (bits b 0 17) n else .store b n
    let free (src dst : Range) : Prop := k.track.length < 16 ∧ channelFull v (.mover (w / 64) ch) = false ∧
      tracked k src false = false ∧ tracked k dst true = false
    let enters (c : Instr) (src dst : Range) (x : Xfer) (start : State → Xfer → Option State) : Prop :=
      ∀ u, start (v.setWick w (fun k => { k with track := k.track ++ [⟨x.id, src, dst⟩] }))
          { x with wick := some w, handle := some k.handle } = some u →
        exec c s = .next (advance (spotOutput u w) w)
    (Reaches .mvt s w i → ScratchOk v w a 64 64 false → t.space = 0 → t.dwick / 64 = w / 64 →
      channelGranted v w ch = true → t.src % elemAlign t.sf = 0 → t.daddr % 16 = 0 →
      free (.store t.src t.sfoot) (.scratch t.dwick t.daddr t.dfoot) →
      enters (.mvt w i) (.store t.src t.sfoot) (.scratch t.dwick t.daddr t.dfoot)
        (newXfer v (.mover (w / 64) ch) k.part k.ctx d) issueTile) ∧
    (Reaches .mvx s w i → channelGranted v w ch = true → bits p 40 24 = 0 → 0 < n → n ≤ 65536 →
      (if toScr then bits b 17 12 / 64 = w / 64 ∧ b < 2 ^ 29 ∧ bits b 0 17 + n ≤ 131072
        else b < 2 ^ 57 ∧ (bit (wFN i) 4 = true → accumOk (bits p 36 3 + 16 * bits p 39 1) = true)) →
      a + n ≤ 131072 → a % 16 = 0 → b % unit = 0 → n % unit = 0 → free src dst →
      enters (.mvx w i) src dst { newXfer v (.mover (w / 64) ch) k.part k.ctx (BitVec.ofNat 512 (wFN i)) with
        raw := true, params := BitVec.ofNat 64 p, srcScratch := a, dstAddr := BitVec.ofNat 64 b } startRaw)

/-- 08 R250; 06 R172, R177: CWAIT whose counter is at or above its target, unsigned, goes on at once with sD = 1 and an
empty read buffer, an acquire; below it the wick waits with its bound in sD, and the counter's reaching the target ends
the wait in the same way, its bound with sD = 0 and no acquire. CREAD reads the counter. -/
def Obligations.CounterWaits : Prop :=
  ∀ (s : State) (w : Nat) (i : W32), HasNext s w →
    let k := s.wick w
    let loc := bit (wFN i) 4
    let id := (rdS k (wA i)).toNat % 2 ^ 17
    let value := if loc then localGet s (w / 64) (id % 1024) else hubGet s id
    let goesOn (t : State) (d : Nat) (taken : Bool) : Prop :=
      t = { s with wicks := t.wicks, free := t.free, sync := t.sync } ∧ t.sync = { s.sync with waits := t.sync.waits } ∧
      (∀ v, v ≠ w → t.wick v = s.wick v) ∧ ∃ c : W64, t.wick w =
        { wrS { k with cycle := c, wait := .none } d (if taken then 1 else 0) with
          pc := k.pc + 1, buf := if taken then [] else k.buf }
    (Reaches .cwait s w i → waitAborted s loc id = false →
      (rdS k (wB i) ≤ value → ∃ t, exec (.cwait w i) s = .next t ∧ goesOn t (wD i) true) ∧
      (¬ rdS k (wB i) ≤ value → ∃ t, exec (.cwait w i) s = .next t ∧
        (t.wick w).wait = .counter loc id (rdS k (wB i)) (wD i) ∧ (t.wick w).pc = k.pc ∧
        (.wick w, id, loc, rdS k (wB i)) ∈ t.sync.waits)) ∧
    (∀ loc id target d, w < Config.wicks → k.wait = .counter loc id target d → k.state = .running →
      let value := if loc then localGet s (w / 64) (id % 1024) else hubGet s id
      (waitAborted s loc id = false → target ≤ value → ∃ u,
        exec (.counterTargetReached (.wick w)) s = .next (settle u) ∧ goesOn u d true) ∧
      (rdS k d ≠ 0 → ¬ target ≤ value → ∃ t, exec (.cwaitBound w) s = .next t ∧ goesOn t d false)) ∧
    (Reaches .cread s w i → Completes (.cread w i) s w (fun k => wrS k (wD i) value))

/-- 08 R250 to R252; 06 R172 to R176: with none of the wick's packets open and no failure for its fence to report, a
local CADD adds sB to the sconce's counter, a CADD or SEMOP of another agent sends its message, FENCE returns OK in sD;
a fence that waited returns when the packets have completed. ACQUIRE empties the read buffer, and MWAIT with no
transfer in flight returns the status of MSTAT. -/
def Obligations.ReleasesFencesAcquires : Prop :=
  ∀ (s : State) (w : Nat) (i : W32), HasNext s w →
    let k := s.wick w
    let a := (rdS k (wA i)).toNat
    let quiet : Prop := wickOpen (issue s w) w = false ∧ tfind s.xbar.fenceBad w = none
    (Reaches .cadd s w i → quiet → bit (wFN i) 4 = true → a % 2 ^ 17 < 1024 → sconceOwner s (w / 64) = k.part →
      ∃ t, exec (.cadd w i) s = .next t ∧ (t.wick w).pc = k.pc + 1 ∧
        ∀ sc n, n < 1024 → localGet t sc n =
          if sc = w / 64 ∧ n = a % 2 ^ 17 then localGet s sc n + rdS k (wB i) else localGet s sc n) ∧
    (Reaches .cadd s w i → quiet → bit (wFN i) 4 = false → ∃ u t, exec (.cadd w i) s = .next t ∧
      (u.wick w).pc = k.pc + 1 ∧ u.sync = s.sync ∧
      t = sendCntAdd u (BitVec.ofNat 10 (bits a 17 10)) k.part (a % 2 ^ 17) (rdS k (wB i)) (.wickCadd w s.xbar.issued)) ∧
    (Reaches .semop s w i → quiet → ∃ u, exec (.semop w i) s = .next (performSem u w (wD i)
        (mkCtl (issue s w) 5 (BitVec.ofNat 10 (bits a 15 10)) k.part
          (a % 2 ^ 15 + 2 ^ 32 * bits (wFN i) 4 3 + 2 ^ 64 * (rdS k (wB i)).toNat))) ∧ u.sync = s.sync) ∧
    (Reaches .wickFence s w i → quiet → ∃ t, exec (.wickFence w i) s = .next t ∧ (t.wick w).pc = k.pc + 1 ∧
      ∀ n, rdS (t.wick w) n = if n = wD i then 0 else rdS k n) ∧
    (∀ d, w < Config.wicks → k.state = .running → wickOpen s w = false → k.wait = .fence d →
      ∃ t, exec (.fenceComplete (.wick w)) s = .next t ∧ (t.wick w).pc = k.pc + 1 ∧
        ∀ n, rdS (t.wick w) n = if n ≠ 0 ∧ n = d then (takeFence s w).1.setWidth 64 else rdS k n) ∧
    (Reaches .acquire s w i → Completes (.acquire w i) s w (fun k => { k with buf := [] })) ∧
    (Reaches .mwait s w i → k.track = [] → Completes (.mwait w i) s w (fun y =>
      { wrS y (wD i) (BitVec.ofNat 64 (k.mstat.toNat % 256)) with wait := .none }))

/-! ### Registers, arrays of counters and semaphores -/

/-- 17 R471 to R474: a register write. One that names no register, or one that its source does not see, is dropped and
counted with its source and offset; a write of a read-only register or of a counter that a read clears changes
nothing; a 4 B write of a write-only register is dropped; selectors are kept per source; a plain register takes the
bits that the manual lets it hold, a 4 B write leaving the other half. -/
def Obligations.RegisterWrites : Prop :=
  ∀ (s : State) (src : RegSrc) (p rel : Nat) (v : W64), src.ok = true → reaches s src = true → p < 154 → rel < 4096 →
    rel % 8 = 0 →
    let write (size : Nat) (t : State) : Prop := exec (.registerWrite src (rk p rel) size v) s = .next (settle t)
    let dropped : State := dropWrite s src (rk p rel)
    let n := bits (regGet s (rk pTOP 0x138)).toNat 0 32
    (n + 1 < 2 ^ 32 → (regGet dropped (rk pTOP 0x138)).toNat =
      n + 1 + 2 ^ 32 * (srcDrop src % 256) + 2 ^ 40 * (rk p rel / 4 % 2 ^ 24)) ∧
    (regDesc p rel = none ∨ writes s src p rel = false → write 8 dropped ∧ write 4 dropped) ∧
    (∀ d, regDesc p rel = some d → writes s src p rel = true → inReset s p = false → isHeld p rel = false →
      (d.acc = .ro → write 8 s) ∧ (∀ k, d.acc = .rc k → write 8 s) ∧ (d.acc = .wo → write 4 dropped) ∧
      (∀ m, d.acc = .rw m → isBanked p rel = true →
        write 8 (s.setReg (rkBank p rel (srcBank src)) (v &&& BitVec.ofNat 64 m))) ∧
      (∀ m, d.acc = .rw m → (p = pTHM ∨ 26 ≤ p ∧ p < 58) → 0x100 ≤ rel →
        write 8 (s.setReg (rk p rel) (v &&& BitVec.ofNat 64 m)) ∧
        write 4 (s.setReg (rk p rel) (((pageReg s src p rel &&& 0xFFFFFFFF00000000) ||| (v &&& 0xFFFFFFFF)) &&&
          BitVec.ofNat 64 m))))

/-- 17 R471, R472, R477: a read returns the register's value and clears it where its access is RC; one that is not
aligned, or that the link does not carry, is Unsupported Request. Writing ones to ERR_STAT clears those bits, and once
none is left ERR_FIRST loses VALID and NO_RECORD. -/
def Obligations.RegisterReads : Prop :=
  ∀ (s : State) (src : RegSrc), src.ok = true →
    (∀ off, barOk off = true →
      (off % 8 ≠ 0 ∨ reaches s src = false → exec (.rcRead src off) s = .next (emit s .barUR)) ∧
      (off % 8 = 0 → reaches s src = true → ∃ t, exec (.rcRead src off) s = .next t ∧
        t = { emit s (.regRead src off (readReg s src off)) with regs := t.regs } ∧
        ((∀ p, pageOf off = some p → ∀ d, regDesc p (off - pageBase p) = some d → ∀ k, d.acc ≠ .rc k) → t.regs = s.regs) ∧
        (∀ p d k, pageOf off = some p → regDesc p (off - pageBase p) = some d → d.acc = .rc k →
          seesReg s src p (off - pageBase p) = true → ∀ j, regGet t j =
            if j = rcKey s src p (off - pageBase p) then 0 else regGet s j))) ∧
    (∀ p v, p < 154 → reaches s src = true → writes s src p 0x20 = true → s.lamp.gaveUp = false →
      s.lamp.restarting = false →
      let left := regGet s (rk p 0x20) &&& ~~~ v
      ∃ t, exec (.errStatClear src p v) s = .next t ∧ (∀ j, regGet t j =
        if j = rk p 0x20 then left else if j = rk p 0x30 ∧ left = 0 then regGet s j &&& ~~~ (0xC000 : W64) else regGet s j) ∧
        t = { s with regs := t.regs, errs := t.errs } ∧ (left ≠ 0 → t.errs = s.errs))

/-- 06 R171, R173, R174; 17 R482 to R484: an 8 B write adds to a hub counter, a local counter or a semaphore that the
writer's partition owns; another partition's is not changed and gives PERM_FAULT; another size is dropped. A read of a
semaphore returns its value, or 0 to a virtual function that does not own it. -/
def Obligations.CounterArrays : Prop :=
  ∀ (s : State) (src : RegSrc) (v : W64), src.ok = true →
    (∀ k, k < Config.hubCounters →
      (counterOwner s k = srcPart src → ∃ t, exec (.hubCounterWrite src k 8 v) s = .next t ∧
        ∀ j, hubGet t j = if j = k then hubGet s j + v else hubGet s j) ∧
      (counterOwner s k ≠ srcPart src →
        exec (.hubCounterWrite src k 8 v) s = .next (ownerFault s (srcPart src) none k)) ∧
      exec (.hubCounterWrite src k 4 v) s = .next (dropWrite s src (0x1000000 + 8 * k))) ∧
    (∀ sc n, sc < Config.sconces → n < 1024 →
      (sconceOwner s sc = srcPart src → ∃ t, exec (.localCounterWrite src sc n 8 v) s = .next t ∧
        ∀ b j, j < 1024 → localGet t b j = if b = sc ∧ j = n then localGet s b j + v else localGet s b j) ∧
      (sconceOwner s sc ≠ srcPart src →
        exec (.localCounterWrite src sc n 8 v) s = .next (ownerFault s (srcPart src) none n)) ∧
      exec (.localCounterWrite src sc n 4 v) s = .next (dropWrite s src (0x1180000 + 0x2000 * sc + 8 * n))) ∧
    (∀ k, k < Config.semaphores →
      exec (.semaphoreRead src k) s = .next (emit s (.regRead src (0x1100000 + 8 * k)
        (match src with
          | .vf n => if semOwner s k = BitVec.ofNat 6 n then semGet s k else 0
          | _ => semGet s k))) ∧
      (semOwner s k = srcPart src → (∀ h ∈ s.sync.held, h.sem ≠ k) →
        ∃ t, exec (.semaphoreWrite src k 8 v) s = .next t ∧
          t = { s with sync := { s.sync with sems := t.sync.sems } } ∧
          ∀ j, semGet t j = if j = k then semGet s j + v else semGet s j) ∧
      (semOwner s k ≠ srcPart src →
        exec (.semaphoreWrite src k 8 v) s = .next (ownerFault s (srcPart src) none k)) ∧
      exec (.semaphoreWrite src k 4 v) s = .next (dropWrite s src (0x1100000 + 8 * k)))

/-! ### Queues -/

/-- 14 R395: an accepted doorbell sets the tail and reads entries from the head up to it, each as it stood and in their
order; a tail further ahead than the ring is long, or one that moves backwards, stops the queue with FORMAT_ERROR; a
write of another size, to a queue that its source does not reach or that is not enabled, or to one whose tail follows
a counter, is dropped. -/
def Obligations.Doorbells : Prop :=
  ∀ (s : State) (src : RegSrc) (q size : Nat) (v : W64) (hc : HostCpl), src.ok = true → q < Config.queues →
    s.host.notFront = false →
    let k := s.queue q
    let tail : W32 := v.setWidth 32
    (size ≠ 8 ∨ reachesQueue s src q = false ∨ qEnabled k = false ∨ k.tailcnt.getLsbD 17 = true →
      exec (.doorbell src q size v hc) s = .next (bump s (rk pHOST 0x150) 32 1)) ∧
    (size = 8 → reachesQueue s src q = true → qEnabled k = true → k.tailcnt.getLsbD 17 = false → k.stopped = false →
      (tail ≠ k.tail → (tail - k.head).toNat ≤ 2 ^ qN k → (tail - k.tail).toNat < 2 ^ 31 →
        exec (.doorbell src q size v hc) s = .next (settle (fetchQueue (s.setQueue q (fun k => { k with tail := tail })) q hc))) ∧
      (2 ^ qN k < (tail - k.head).toNat → tail ≠ k.tail → ∃ u, exec (.doorbell src q size v hc) s = .next (settle u) ∧
        u.queue q = { k with stopped := true, stop := stFormat })) ∧
    (∀ d t, qEnabled k = true → k.stopped = false → k.head ≠ k.tail → readEntry s q hc = some (.ok d, t) →
      t.queue q = k → fetchQueue s q hc = fetchQueue (t.setQueue q (fun k =>
        { k with head := k.head + 1, fetched := k.fetched ++ [⟨k.head, d⟩] })) q hc) ∧
    (∀ d a, ringHost k.ring = true → a = ringBase k.ring + 64 * (k.head.toNat % 2 ^ qN k) →
      inAperture s (qCtx k) a 64 = true → d = lineOf (cellRead s.host.mem a 64) →
      ∃ t, readEntry s q .ok = some (.ok d, t) ∧ t = { s with xlt := t.xlt })

/-- 14 R394: writing ENABLE = 1 to Q_CFG of a disabled queue enables it, its head and tail 0, if its context is
installed for its partition, its composition is ACTIVE in that partition and N is 6 to 16; otherwise the write is
refused. Writing ENABLE = 0 disables it: entries not started are gone, commands that run go on. -/
def Obligations.QueueEnabling : Prop :=
  ∀ (s : State) (src : RegSrc) (v : W64), src.ok = true → inReset s pWORK = false →
    let q := bits (regGet s (rkBank pWORK 0x168 (srcBank src))).toNat 0 18
    let k := s.queue q
    let cfg : W64 := match src with
      | .vf _ => (k.cfg &&& ~~~ (0x1000000000000 : W64)) ||| (v &&& 0x1000000000000)
      | _ => v &&& 0x3FFFFFFFFFFFF
    let x := { k with cfg := cfg }
    let may : Prop := 6 ≤ qN x ∧ qN x ≤ 16 ∧ (∃ c, ctxOf s (qCtx x) = some c ∧ c.part = queuePart s q) ∧
      (s.comp (qComp x)).state = 1 ∧ (s.comp (qComp x)).part = queuePart s q ∧ partResetting s (queuePart s q) = false
    reachesQueue s src q = true →
    (qEnabled k = false → v.getLsbD 48 = true →
      (may → exec (.qEnable src v) s = .next (settle (s.setQueue q (fun _ => { x with
        head := 0, tail := 0, stopped := false, stop := 0, fetched := [], failed := [] })))) ∧
      (¬ may → exec (.qEnable src v) s = .next (refuse s pWORK 1 0x180))) ∧
    (qEnabled k = true → v.getLsbD 48 = false → ∃ t, exec (.qEnable src v) s = .next t ∧
      qEnabled (t.queue q) = false ∧ (t.queue q).fetched = [] ∧ (t.queue q).active = k.active ∧
      t = { s with work := { s.work with queues := t.work.queues } } ∧ ∀ j, j ≠ q → t.queue j = s.queue j)

/-- 14 R391, R396 to R398: how a queue command starts and ends, shown with FENCE's row: an entry with a reserved bit
set, or whose context is another partition's or in reset, ends with its status and does nothing else. What ends leaves
the commands that run; a failure is kept for the queue's next fence, but a FENCE's own is not. A completion entry holds
the tag, the status, the phase and the result, and its MSI-X message follows it. -/
def Obligations.QueueCommandsStartAndEnd : Prop :=
  ∀ (s : State) (q : Nat) (e : W512) (i : W32) (r : List QEntry), q < Config.queues → frozen s = false →
    (s.queue q).fetched = ⟨i, e⟩ :: r →
    let fields := [(128, 1), (192, 10), (224, 17), (256, 64)]
    let c := (startEntry s q ⟨i, e⟩ .work).1
    let u := (startEntry s q ⟨i, e⟩ .work).2
    (canStart s q e = false → exec (.fence q e) s = .next s) ∧
    (c.q = q ∧ c.idx = i ∧ c.raw = e ∧ c.part = queuePart s q ∧
      c.ctx = if e.getLsbD 95 then qCtx (s.queue q) else e.extractLsb' 64 20) ∧
    (u.queue q = { s.queue q with fetched := r, active := (s.queue q).active ++ [⟨i, e, none, false⟩] }) ∧
    (fld e 0 1 = 3 → canStart s q e = true → headStatus u c fields ≠ 0 →
      exec (.fence q e) s = .next (settle (failCmd u c (headStatus u c fields)))) ∧
    ((∃ n, (10 ≤ n ∧ n < 32 ∨ 84 ≤ n ∧ n < 95 ∨ 96 ≤ n ∧ n < 128) ∧ e.getLsbD n = true) →
      fld e 0 1 = 3 → headStatus u c fields = stFormat) ∧
    (∀ (a : Active) (st : Status) (res : W64) (l m : List Active), (s.queue q).active = l ++ a :: m →
      (∀ b ∈ l ++ m, b.idx ≠ a.idx) →
      let t := endCommand s q a.idx st res
      (t.queue q).active = l ++ m ∧ t.work.ended = s.work.ended ++ [⟨q, a, st, res⟩] ∧
      (t.queue q).failed = (if st = 0 ∨ fld a.raw 0 1 = 3 then (s.queue q).failed else (s.queue q).failed ++ [(a.idx, st)])) ∧
    (∀ x : Ended, let k := s.queue x.q
      let at_ := ringBase k.cpl + 16 * (x.act.idx.toNat % 2 ^ qN k)
      ringHost k.cpl = true → inAperture s (qCtx k) at_ 16 = true → ∃ t d, writeCompletion s x = some t ∧
        cellRead t.host.mem at_ 16 = d ∧ leNat (slice d 0 4) = fld x.act.raw 4 4 ∧ d.getD 4 0 = x.status ∧
        (d.getD 5 0 = if x.act.idx.toNat / 2 ^ qN k % 2 = 0 then 1 else 0) ∧ slice d 6 2 = [0, 0] ∧
        leNat (slice d 8 8) = x.result.toNat ∧
        t.out = s.out ++ [.hostWrite at_ d] ++
          (if x.act.raw.getLsbD 9 = true ∧ qIrq k = true then [.msix (queuePart s x.q).toNat (qVector k)] else []))

/-- 05 R157; 06 R172; 14 R398, R399: a FENCE ends when no earlier command of its queue runs, with the first failure since
the fence before it; with RELEASE it then sends its CNT_ADD, unless it found a failure. A COUNTER_WAIT whose counter is
at or above its target ends at once with result 1; below it the queue waits, until the target is reached or its bound
passes (result 0). A gate whose counter reaches its target lets its plan's step start. -/
def Obligations.QueueFencesAndWaits : Prop :=
  ∀ (s u : State) (q : Nat) (e : W512) (c : Cmd),
    (Starts s q e [(128, 1), (192, 10), (224, 17), (256, 64)] .work c u → fld e 0 1 = 3 → GoesOn (.fence q e) s u) ∧
    (∀ (a : Active) (r : List Active), (s.queue q).active = a :: r → fld a.raw 0 1 = 3 → a.sent = false →
      let bad := ((s.queue q).failed.filter (fun f => (a.idx - f.1).toNat < 2 ^ 31)).map (·.2)
      let t := s.setQueue q (fun k => { k with failed := k.failed.filter (fun f => ¬ (a.idx - f.1).toNat < 2 ^ 31) })
      (a.raw.getLsbD 128 = false → stepFence s q a = endCommand t q a.idx (firstBad bad) 0) ∧
      (a.raw.getLsbD 128 = true → firstBad bad = 0 → ∃ w, w = { t with work := w.work } ∧
        stepFence s q a = sendCntAdd w (BitVec.ofNat 10 (fld a.raw 24 2 % 2 ^ 10)) (queuePart w q) (fld a.raw 28 4 % 2 ^ 17)
          (BitVec.ofNat 64 (fld a.raw 32 8)) (.queueFence q a.idx))) ∧
    (Starts s q e [(128, 17), (192, 64), (256, 32)] .work c u → fld e 0 1 = 4 → fld e 32 4 ≤ 10 ^ 7 →
      let k := fld e 16 4
      let target := BitVec.ofNat 64 (fld e 24 8)
      counterOwner u k = c.part → abortedGroup u k = none →
      (target ≤ hubGet u k →
        Ends (.counterWait q e) s c (dropWait u (.queue q (BitVec.ofNat 32 c.tag))) 0 1) ∧
      (¬ target ≤ hubGet u k → GoesOn (.counterWait q e) s (addWait u (.queue q (BitVec.ofNat 32 c.tag), k, false, target)))) ∧
    (∀ (tag : W32) (a : Active), q < Config.queues → counterWaitOf s q tag = some a →
      let k := fld a.raw 16 4
      let target := BitVec.ofNat 64 (fld a.raw 24 8)
      let done (r : W64) := endCommand (dropWait s (.queue q tag)) q a.idx 0 r
      (¬ target ≤ hubGet s k → fld a.raw 32 4 ≠ 0 → exec (.counterWaitBound q tag) s = .next (settle (done 0))) ∧
      (target ≤ hubGet s k → abortedGroup s k = none →
        exec (.counterTargetReached (.queue q tag)) s = .next (settle (done 1)))) ∧
    (∀ h p st, h < 256 → s.plan h = some p → stepOf p = some st → p.run = .gate →
      abortedGroup s st.gateCounter.toNat = none →
      st.gateBase + p.runIndex * st.gateStride ≤ hubGet s st.gateCounter.toNat →
      let t := (dropWait s (.gate h)).setPlan h (fun p => { p with run := .ready })
      exec (.counterTargetReached (.gate h)) s = .next (settle t) ∧ exec (.gateOpen h) s = .next (settle t))

/-- 02 R53; 12 R335; 14 R398: the commands that copy. COPY within the partition's Reservoir delivers the source bytes and
counts them; the tiles of any COPY run in address order, the first that fails ending it. TILE_STREAM of 1 to 65,536
descriptors starts its stream. ACCUM_STREAM translates its ranges before it sends and ends with its first failure. Host
copies move a multiple of 64 B, at most 1 GiB, inside the context's aperture. -/
def Obligations.CopyCommands : Prop :=
  ∀ (s u t t1 t2 t3 : State) (q : Nat) (e : W512) (c : Cmd) (hc : HostCpl),
    let eng := Engine.copy (copyOf q)
    let tl := tlbOf eng
    let a := fld e 16 8
    let b := fld e 24 8
    let n := fld e 32 4
    let hostLen : Prop := 0 < n ∧ n % 64 = 0 ∧ n ≤ 2 ^ 30
    copyHeld u q = false →
    (Starts s q e [(128, 64), (192, 64), (256, 32), (288, 17), (319, 1)] eng c u → fld e 0 1 = 1 →
      let k := fld e 36 4 % 2 ^ 17
      let cen := e.getLsbD 319
      (spaceOk a = false ∨ spaceOk b = false ∨ n = 0 ∨ n % 16 ≠ 0 →
        exec (.copy q e) s = .next (settle (failCmd u c stFormat))) ∧
      (spaceOk a = true → spaceOk b = true → n ≠ 0 → n % 16 = 0 →
        (∀ r, runEng (copyTiles c a b n k cen) u = some (.ok r, t) → Ends (.copy q e) s c t 0 0) ∧
        (∀ st, runEng (copyTiles c a b n k cen) u = some (.error st, t) → Ends (.copy q e) s c t st 0) ∧
        (a / 2 ^ 60 = 1 → b / 2 ^ 60 = 1 → n ≤ 65536 → b % 16 = 0 → a % 2 ^ 60 + n ≤ Config.reservoirBytes →
          b % 2 ^ 60 + n ≤ Config.reservoirBytes → reservoirOwned u c.part (a % 2 ^ 60) n = true →
          reservoirOwned u c.part (b % 2 ^ 60) n = true → reservoirBad u (a % 2 ^ 60) n = false →
          (cen = true → counterOwner u k = c.part) →
          let w := reservoirWrite u (b % 2 ^ 60) (cellRead u.reservoir (a % 2 ^ 60) n)
          Ends (.copy q e) s c (if cen then hubAdd w k (BitVec.ofNat 64 n) else w) 0 0))) ∧
    (Starts s q e [(128, 57), (192, 32), (224, 8)] eng c u → fld e 0 1 = 2 →
      let m := fld e 24 4
      (m = 0 ∨ 65536 < m ∨ 8 < fld e 28 1 → exec (.tileStream q e) s = .next (settle (failCmd u c stFormat))) ∧
      (1 ≤ m → m ≤ 65536 → fld e 28 1 ≤ 8 → a % 64 = 0 → GoesOn (.tileStream q e) s (endTstreams (refillQueue 9
        (u.setWork (fun k => { k with tstreams := k.tstreams ++ [⟨q, c.idx, a, m, 0, 0, 0, 0, 0⟩] })) q c.idx c.part
        c.ctx)))) ∧
    (Starts s q e [(128, 64), (192, 57), (256, 32), (288, 8), (296, 8), (304, 1), (320, 17), (350, 2), (352, 32)] eng c u →
      fld e 0 1 = 0x1C →
      let sf := fld e 36 1
      let df := fld e 37 1
      let scale := fld e 44 4
      let k := n / accSize df * accSize sf
      spaceOk a = true → n ≠ 0 → n % 32 = 0 → accumPair sf df scale = true → a % 2 ^ 60 % accSize sf = 0 → b % 32 = 0 →
      ∀ sp dp st, runEng (if inReservoir a then pure [] else translateAll c.who tl .read (a % 2 ^ 60) k) u = some (.ok sp, t1) →
        runEng (translateAll c.who tl .accum b n) t1 = some (.ok dp, t2) →
        runEng (accumPackets c a b n sf df scale (e.getLsbD 304) (fld e 40 4) sp dp) t2 = some (.ok st, t3) →
        Ends (.accumStream q e) s c t3 st 0) ∧
    (Starts s q e [(128, 64), (192, 64), (256, 32)] eng c u → fld e 0 1 = 9 →
      (¬ hostLen → exec (.prefetchFromHost q e hc) s = .next (settle (failCmd u c stFormat))) ∧
      (hostLen → inAperture u c.ctx a n = true → ∀ ps, runEng (translateAll c.who tl .write b n) u = some (.ok ps, t1) →
        inAperture t1 c.ctx a n = true →
        runEng (writePages c.who ps b (cellRead t1.host.mem a n)) (atcFill t1 c.ctx a n) = some (.ok (), t2) →
        Ends (.prefetchFromHost q e .ok) s c t2 0 0)) ∧
    (Starts s q e [(128, 64), (192, 64), (256, 32), (288, 1)] eng c u → fld e 0 1 = 0x0A →
      (¬ hostLen → exec (.evictToHost q e hc) s = .next (settle (failCmd u c stFormat))) ∧
      (hostLen → inAperture u c.ctx a n = true → ∀ d, runEng (readDva c.who tl b n) u = some (.ok d, t1) → d.length = n →
        inAperture t1 c.ctx a n = true → e.getLsbD 288 = false →
        ∃ v, Ends (.evictToHost q e .ok) s c v 0 0 ∧ cellRead v.host.mem a n = d ∧ v.out = t1.out ++ [.hostWrite a d] ∧
          v.store = t1.store))

/-! ### Advice, reclaim -/

/-- 02 R50 to R55: an advice command whose fields are as its operation needs them translates its whole range before any
block is touched, and then asks for each block: PREFETCH and COLD for a move, PIN for a move and one pin more, UNPIN for
one pin less (QUOTA with none, or with 255 for PIN), COLD of a pinned block ends BUSY, MARK_SHADOW reserves the shadow's
space and leaves it stale, UNMARK_SHADOW frees it. RECLAIM (13 R383; 15 R432) of whole lines returns how many lines it
reclaimed and how many blocks it left: a forfeit or LOST block that the range does not cover whole is left, and a LOST one
is reclaimed only with ZERO. -/
def Obligations.AdviceCommands : Prop :=
  ∀ (s u t : State) (q : Nat) (e : W512) (c : Cmd) (bs : List (Nat × BitVec 12)),
    let w := fld e 18 2
    let n := fld e 20 4
    let wick := if w.testBit 15 then some (w % 4096) else none
    let goes (k : Nat) (i : Instr) : Prop :=
      Starts s q e [(128, 8), (136, 8), (144, 12), (159, 1), (160, 32), (192, 64), (256, if k = 5 then 3 else 0)] .work c u →
      fld e 0 1 = 8 → fld e 16 1 = k →
      (adviceForm k (fld e 17 1) n (w.testBit 15) (fld e 32 1 % 8) = false → exec i s = .next (settle (failCmd u c stFormat))) ∧
      (adviceForm k (fld e 17 1) n (w.testBit 15) (fld e 32 1 % 8) = true → fld e 24 8 % 65536 = 0 →
        runEng (rangeBlocks c .read (fld e 24 8) n) u = some (.ok bs, t) →
        GoesOn i s (startAdvice t c k (fld e 17 1) wick (fld e 32 1 % 8) bs))
    goes 1 (.prefetch q e) ∧ goes 2 (.pin q e) ∧ goes 3 (.unpin q e) ∧ goes 4 (.cold q e) ∧ goes 5 (.markShadow q e) ∧
    goes 6 (.unmarkShadow q e) ∧
    (∀ (b : Nat) (key : BitVec 12), (blockGet t b).lost = false → (blockGet t b).forfeit = false →
      extentStatus t (65536 * b) 65536 c.part = 0 → pendingMove t b = none → t.store.moves.length < 4096 →
      let x := blockGet t b
      let done (v : State) (st : Status) : State := adviceDone v c.q c.idx b st
      (∀ d, x.pins = 0 → ¬ isThere x.loc 0 (some d) = true → residencyQuota t (blockPart t b) 0 = 0 → ∀ l, freeInWick t d = some l →
        adviseBlock t c 1 1 (some d) 0 (b, key) = addMove t ⟨b, l, some d, 2, .advice c.q c.idx, [], false, x.loc⟩) ∧
      (tierOf x.loc = 0 → adviseBlock t c 1 0 none 0 (b, key) = done t 0) ∧
      (tierOf x.loc = 0 → x.pins ≠ 255 → pinQuota t (blockPart t b) 0 = 0 →
        adviseBlock t c 2 0 none 0 (b, key) = done (blockSet t b (fun k => { k with pins := k.pins + 1 })) 0) ∧
      (x.pins = 255 → adviseBlock t c 2 0 none 0 (b, key) = done t stQuota) ∧
      (x.pins = 0 → adviseBlock t c 3 0 none 0 (b, key) = done t stQuota) ∧
      (x.pins ≠ 0 → adviseBlock t c 3 0 none 0 (b, key) =
        done (blockSet t b (fun k => { k with pins := k.pins - 1 })) 0) ∧
      (x.pins ≠ 0 → adviseBlock t c 4 0 none 0 (b, key) = done (bumpBusy t) stBusy) ∧
      (x.pins = 0 → tierOf x.loc ≠ 2 → adviseBlock t c 4 0 none 0 (b, key) =
        addMove t ⟨b, .flash none, none, 2, .advice c.q c.idx, [], false, x.loc⟩) ∧
      (∀ f : Nat, let h : Shadow := { srcFmt := BitVec.ofNat 2 f, sb4 := f.testBit 2, stale := true, key := key }
        let old := (x.shadow.map shadowUnits).getD 0
        let use := t.store.shadowUse - old + shadowUnits h
        adviseBlock t c 5 0 none f (b, key) = if shadowPool t < use then done t stQuota
          else done (blockSet (t.setStore (fun z => { z with shadowUse := use })) b (fun k => { k with shadow := some h })) 0) ∧
      (adviseBlock t c 6 0 none 0 (b, key) = done (blockSet (t.setStore (fun z =>
          { z with shadowUse := z.shadowUse - (x.shadow.map shadowUnits).getD 0,
                   shadowMem := cellZero z.shadowMem (65536 * b) 65536 })) b (fun k => { k with shadow := none })) 0)) ∧
    (let dva := fld e 16 8
     let n := fld e 24 8
     let zero := e.getLsbD 256
     (Starts s q e [(128, 57), (192, 64), (256, 1)] .work c u → fld e 0 1 = 0x0C →
       (n = 0 ∨ n % 64 ≠ 0 ∨ 2 ^ 30 < n → exec (.reclaim q e) s = .next (settle (failCmd u c stFormat))) ∧
       (n ≠ 0 → n % 64 = 0 → n ≤ 2 ^ 30 → dva % 64 = 0 → runEng (reclaimBlocks c dva n zero) u = some (.ok bs, t) →
         let r := reclaimAll t c dva n zero bs
         Ends (.reclaim q e) s c r.2.2 0 (BitVec.ofNat 64 (r.1 % 2 ^ 32 + 2 ^ 32 * min r.2.1 0xFFFF)))) ∧
     (∀ (m left lo hi b : Nat) (key : BitVec 12) (z : Bool),
       let r := reclaimBlock c z lo hi (m, left, t) (b, key)
       let whole : Prop := lo = 0 ∧ hi = 1024
       let marked := (blockGet t b).lost = true ∨ (blockGet t b).forfeit = true
       (marked → ¬ whole → r = (m, left + 1, t)) ∧
       ((blockGet t b).lost = true → z = false → r = (m, left + 1, t)) ∧
       ((blockGet t b).lost = true → whole → z = true → r.1 = m + 1024 ∧ r.2.1 = left ∧
         (blockGet r.2.2 b).lost = false ∧ (blockGet r.2.2 b).forfeit = false) ∧
       ((blockGet t b).lost = false → (blockGet t b).forfeit = true → whole → r.1 = m + 1024 ∧ r.2.1 = left ∧
         (blockGet r.2.2 b).forfeit = false) ∧
       (¬ marked → r.2.1 = left)))

/-! ### Translation, shootdowns, contexts -/

/-- 03 R76, R78, R79: a shootdown invalidates at once every cached translation of its context and range, and ends when
every engine that held pre-translated tiles has acknowledged and no access under an old translation is left. SHOOT_CMD
starts one from the source's staged registers, unless 16 run. -/
def Obligations.Shootdowns : Prop :=
  ∀ (s u : State) (q : Nat) (e : W512) (c : Cmd),
    let dropped (u t : State) (ctx : BitVec 20) (all : Bool) (base blocks : Nat) : Prop :=
      (∀ x, x ∈ t.xlt.tlb ↔ x ∈ u.xlt.tlb ∧ ¬ (x.ctx = ctx ∧
        (all = true ∨ x.base < base + 65536 * blocks ∧ base < x.base + x.leaf.size)))
    (Starts s q e [(128, 20), (159, 1), (192, 57), (256, 32)] .work c u → fld e 0 1 = 0x0B →
      let all := e.getLsbD 159
      let id : BitVec 20 := e.extractLsb' 128 20
      let base := fld e 24 8
      ((∃ x, ctxOf u id = some x ∧ x.part ≠ c.part) → exec (.shootdown q e) s = .next (settle (failCmd u c stPerm))) ∧
      ((∀ x, ctxOf u id = some x → x.part = c.part) → (all = true ∨ base % 65536 = 0) → u.xlt.shoots.length < 16 →
        ∃ t, GoesOn (.shootdown q e) s t ∧ dropped u t id all base (fld e 32 4) ∧
          t.xlt.shoots = u.xlt.shoots ++ [⟨u.xlt.nextShoot, id, all, base, fld e 32 4, shootEngines u id, oldAccesses u id,
            some (q, c.idx), none, false, false⟩])) ∧
    (∀ (src : RegSrc) (v : W64), src.ok = true → (∀ n, src ≠ .vf n) → mainUp s = true → inReset s pXLT = false →
      v.getLsbD 0 = true → s.xlt.shoots.length < 16 →
      let g (rel : Nat) : W64 := regGet s (rkBank pXLT rel (srcBank src))
      ∃ t, exec (.shootCmdGo src v) s = .next t ∧ dropped s t ((g 0x100).setWidth 20) ((g 0x100).getLsbD 32)
        (bits (g 0x108).toNat 16 41 * 65536) (bits (g 0x110).toNat 16 41) ∧
        ∃ x, t.xlt.shoots = s.xlt.shoots ++ [x] ∧ x.bank = some (srcBank src) ∧ x.queue = none ∧ x.id = s.xlt.nextShoot) ∧
    (∀ id eng sh, eng.ok = true → findShoot s id = some sh → eng ∈ sh.engines → (∀ x ∈ onEngine s eng, x.ctx ≠ sh.ctx) →
      ∃ t, exec (.shootdownAck id eng) s = .next t ∧ t = { s with xlt := { s.xlt with shoots := t.xlt.shoots } } ∧
        ∃ sh', findShoot t id = some sh' ∧ eng ∉ sh'.engines ∧ ∀ g, g ≠ eng → (g ∈ sh'.engines ↔ g ∈ sh.engines)) ∧
    (∀ id sh, findShoot s id = some sh → sh.engines = [] → oldLeft s sh = false → waitingAccess s sh.ctx = false →
      ∃ t, exec (.shootdownComplete id) s = .next (settle t) ∧ (∀ x ∈ t.xlt.shoots, x.id ≠ id) ∧ t = endShoot s sh (if sh.failed then stReset else 0)) ∧
    (∀ ctx (dva : W64) cx r t, ctxOf s ctx = some cx → cx.resetting = false → dva.toNat < 2 ^ 57 →
      tlbFind s .l2 ctx dva.toNat = none →
      runEng (walkNow { eng := .work, part := cx.part, ctx := ctx } cx dva.toNat) s = some (r, t) →
      exec (.walk ctx dva) s = .next t)

/-- 03 R68; 14 R392, R393: CTX_INSTALL enters the descriptor that 64 B of the partition's Reservoir hold, checked in order:
the id's partition, the descriptor's partition, an entry already valid, its form. CTX_WITHDRAW of a context that nothing
names makes the entry invalid and shoots its translations down; of one that is named it is BUSY. -/
def Obligations.Contexts : Prop :=
  ∀ (s u : State) (q : Nat) (e : W512) (c : Cmd),
    let id : BitVec 20 := e.extractLsb' 128 20
    (Starts s q e [(128, 20), (160, 27)] .work c u → fld e 0 1 = 0x28 →
      let a := fld e 20 4
      let d := lineOf (cellRead u.reservoir a 64)
      a % 64 = 0 →
      (ctxPart u id ≠ c.part → exec (.ctxInstall q e) s = .next (settle (failCmd u c stPerm))) ∧
      (ctxPart u id = c.part → a + 64 ≤ Config.reservoirBytes → reservoirOwned u c.part a 64 = true →
        reservoirBad u a 64 = false →
        ((ctxFrom d).part ≠ c.part → exec (.ctxInstall q e) s = .next (settle (failCmd u c stPerm))) ∧
        ((ctxFrom d).part = c.part → (∃ x, ctxOf u id = some x) →
          exec (.ctxInstall q e) s = .next (settle (failCmd u c stBusy))) ∧
        ((ctxFrom d).part = c.part → ctxOf u id = none → ctxForm d = false →
          exec (.ctxInstall q e) s = .next (settle (failCmd u c stFormat))) ∧
        ((ctxFrom d).part = c.part → ctxOf u id = none → ctxForm d = true →
          ∃ t, Ends (.ctxInstall q e) s c t 0 0 ∧ ctxOf t id = some (ctxFrom d) ∧
            (∀ j, j ≠ id → ctxOf t j = ctxOf u j) ∧ t = { u with xlt := { u.xlt with ctxs := t.xlt.ctxs } }))) ∧
    (Starts s q e [(128, 20)] .work c u → fld e 0 1 = 0x29 → ctxPart u id = c.part →
      (ctxOf u id = none → Ends (.ctxWithdraw q e) s c u 0 0) ∧
      ((∃ x, ctxOf u id = some x) → ctxNamed u id = true →
        exec (.ctxWithdraw q e) s = .next (settle (failCmd u c stBusy))) ∧
      ((∃ x, ctxOf u id = some x) → ctxNamed u id = false → u.xlt.shoots.length < 16 →
        ∃ t, GoesOn (.ctxWithdraw q e) s t ∧ ctxOf t id = none ∧ (∀ j, j ≠ id → ctxOf t j = ctxOf u j) ∧
          (∀ x ∈ t.xlt.tlb, x.ctx ≠ id) ∧ ∃ x, t.xlt.shoots = u.xlt.shoots ++ [x] ∧ x.all = true ∧ x.queue = some (q, c.idx)))

/-! ### Rebuilds, placement -/

/-- 15 R432 to R437, R443: REBUILD starts where none runs and its extents allow it (BUSY otherwise, or the status that
names why); RECEIVE first zeroes its counter and marks every block of its extents LOST. SEND that has copied every block
ends and names the spare in the mirror map; RECEIVE ends LOST when its counter stands still for STALL µs. LOST_CMD marks
every block of the extents it names. -/
def Obligations.Rebuilding : Prop :=
  ∀ (s u : State) (q : Nat) (e : W512) (c : Cmd),
    let r := rebuildOf u c (fld e 16 1 == 1)
    (Starts s q e rebuildFields .work c u → fld e 0 1 = 0x0D →
      (fld e 16 1 = 1 → u.store.rebuild ≠ none → exec (.rebuildSend q e) s = .next (settle (failCmd u c stBusy))) ∧
      (fld e 16 1 = 1 → u.store.rebuild = none → sendStatus u r ≠ 0 →
        exec (.rebuildSend q e) s = .next (settle (failCmd u c (sendStatus u r)))) ∧
      (fld e 16 1 = 1 → u.store.rebuild = none → sendStatus u r = 0 → GoesOn (.rebuildSend q e) s
        { u with store := { u.store with rebuild := some r, nextTwin := u.store.nextTwin + 1 } }) ∧
      (fld e 16 1 = 2 → u.store.rebuild ≠ none → exec (.rebuildReceive q e) s = .next (settle (failCmd u c stBusy))) ∧
      (fld e 16 1 = 2 → u.store.rebuild = none → receiveStatus u r = 0 →
        ∃ t, GoesOn (.rebuildReceive q e) s t ∧ t.store.rebuild = some r ∧
          (∀ k, hubGet t k = if k = r.counter then 0 else hubGet u k) ∧
          ∀ x l i, x ∈ rebuildExtents r → rebuildExtent u r.srcHome x false = some l → i < 16384 →
            (blockGet t (16384 * l + i)).lost = true)) ∧
    (∀ x : Rebuild, s.store.rebuild = some x → x.send = true → x.bad = 0 → x.open_ = 0 → x.copied = rebuildTotal x →
      x.done = x.copied → ∃ t, exec .rebuildSendDone s = .next (settle t) ∧ t.store.rebuild = none ∧
        (x.srcHome = s.store.homeId → x.count = 1 → ∀ i v, mirrorOf s x.extent.toNat = some (i, v) →
          tget 0 t.store.mirror i =
            BitVec.ofNat 64 (v.toNat % 2 ^ 16 + 2 ^ 16 * (x.peer.toNat % 64)) ||| (v &&& 0xC00000))) ∧
    (∀ x : Rebuild, s.store.rebuild = some x → x.send = false → (hubGet s x.counter).toNat ≤ x.done →
      ∃ t, exec .rebuildStall s = .next (settle t) ∧ t.store.rebuild = none ∧
        (∀ a, (s.queue x.q).active.find? (fun b => b.idx = x.tag) = some a → ⟨x.q, a, stLost,
          BitVec.ofNat 64 (x.done % 2 ^ 32 + 2 ^ 32 * (x.done / 16384))⟩ ∈ t.work.ended)) ∧
    (∀ (src : RegSrc) (v : W64), src.ok = true → (∀ n, src ≠ .vf n) → mainUp s = true → v.getLsbD 32 = true →
      let x := bits v.toNat 0 16
      let n := bits v.toNat 16 13
      (x + n) * 2 ^ 30 ≤ s.store.homeLen → ∃ t, exec (.lostCmd src v) s = .next t ∧
        ∀ b, blockGet t b = if 16384 * x ≤ b ∧ b < 16384 * (x + n) then { blockGet s b with lost := true } else blockGet s b)

/-- 02 R39 to R49, R55 to R58: the placement engine. The counter policy takes a candidate to a free place one tier up; at
its flip a move's block is at its destination, and its old place is free once the move completes; a move that meets data
it cannot correct does not flip. A stale shadow is rewritten from its block. Collection counts and frees flash blocks; a
flash page that neither its code nor its stripe corrects is lost to every later read. -/
def Obligations.Placement : Prop :=
  ∀ (s : State) (b : Nat),
    let x := blockGet s b
    (migShare s ≠ 0 → isCandidate s b = true → pendingMove s b = none → computeReset s = none →
      s.store.moves.length < 4096 → residencyQuota s (blockPart s b) (tierOf x.loc - 1) = 0 →
      ∀ l, (tierOf x.loc = 1 → freeStacked s b = some l) → (tierOf x.loc ≠ 1 → freeCapacity s = some l) →
      exec (.policyMove b) s = .next (addMove s ⟨b, l, none, 3, .policy, [], false, x.loc⟩)) ∧
    (∀ m, pendingMove s b = some m → m.flipped = false → dstFree s m.dst = true → moveHeld s m = false →
      computeReset s = none → (m.why = .policy → migShare s ≠ 0) →
      (blockBad s b = none → ∃ t, exec (.moveFlip b) s = .next (settle (retryDeferred t)) ∧
        tierOf (blockGet t b).loc = tierOf m.dst ∧ (tierOf m.dst ≠ 2 → (blockGet t b).loc = m.dst) ∧
        (blockGet t b).pins = x.pins ∧ t.store.cells = s.store.cells) ∧
      (∀ l, blockBad s b = some l → m.why ≠ .demand →
        exec (.moveFlip b) s = .next (settle (retryDeferred (rehome (stopMove s m l) m))) ∧
        (blockGet (stopMove s m l) b).loc = x.loc ∧ (blockGet (stopMove s m l) b).noPolicy = true)) ∧
    (∀ m, pendingMove s b = some m → m.flipped = true →
      exec (.moveComplete b) s = .next (settle (retryDeferred (finishMove s m)))) ∧
    (∀ w i, occupant (placeSet s (.stacked w i) none) (.stacked w i) = none) ∧
    (∀ h, x.shadow = some h → h.stale = true → tierOf x.loc ≠ 0 → migShare s ≠ 0 → blockBad s b = none →
      computeReset s = none → inHome s b = true → (keySlot s h.key).valid = true →
      ∃ t, exec (.shadowRewrite b) s = .next t ∧ blockGet t b = { x with shadow := some { h with stale := false } } ∧
        t.store.cells = s.store.cells) ∧
    (∀ channel pages freed retired, channel < 32 → ∃ t, exec (.garbageCollection channel pages freed retired) s = .next (settle t) ∧
      t.store.flashFree = min (s.store.flashFree + freed) flashBlocks ∧ t.store.cells = s.store.cells) ∧
    (∀ page corrected pos, page < 4 → x.loc = .flash (some pos) → inHome s b = true →
      (∀ r, ∃ t, exec (.flashReadComplete b page corrected true r) s = .next t ∧ t.store = s.store) ∧
      (∃ t, exec (.flashReadComplete b page corrected false true) s = .next t ∧ t.store = s.store) ∧
      (∃ t, exec (.flashReadComplete b page corrected false false) s = .next t ∧
        ∀ l, l ∈ t.store.badLines ↔ l ∈ s.store.badLines ∨ 1024 * b + 256 * page ≤ l ∧ l < 1024 * b + 256 * page + 256))

/-! ### Plans -/

/-- 09 R272 to R275; 14 R390: PLAN_ADMIT grants every claim of a well-formed image, or none: the plan takes the lowest free
handle and its hub counters read 0; a denied one leaves every plan as it was and says why. PLAN_ARM arms a MULTI part
whose tag matches; PLAN_RETIRE of an idle plan frees it; a handle without a plan is DENIED with NO_PLAN. -/
def Obligations.PlanAdmission : Prop :=
  ∀ (s u t t2 : State) (q : Nat) (e : W512) (c : Cmd),
    (Starts s q e [(128, 64), (192, 32)] .work c u → fld e 0 1 = 0x10 → u.lamp.restarting = false → u.lamp.gaveUp = false →
      let dva := fld e 16 8
      let ctx : BitVec 20 := e.extractLsb' 192 20
      dva < 2 ^ 57 → dva % 64 = 0 → fld e 24 4 < 2 ^ 20 → (∃ x, ctxOf u ctx = some x ∧ x.type = 1 ∧ x.part = c.part) →
      ∀ img p, runEng (readImage { c.who with ctx := ctx } dva) u = some (.ok (some img), t) →
        parsePlan img t.xbar.agentId c.part ctx = some p →
        (∀ r, admitReason t p = some r → ∃ v, Ends (.planAdmit q e) s c v stDenied (BitVec.ofNat 64 r) ∧
          v.plans = t.plans ∧ v.sync = t.sync ∧
          regGet v (rk pPLAN 0x130) = BitVec.ofNat 64 (r + 2 ^ 8 * ctx.toNat)) ∧
        (admitReason t p = none → runEng (codePages { c.who with ctx := ctx } dva img) t = some (.ok true, t2) →
          ∀ h, h < 256 → t2.plan h = none → (∀ j < h, t2.plan j ≠ none) →
          ∃ v, Ends (.planAdmit q e) s c v 0 (BitVec.ofNat 64 h) ∧
            v.plan h = some { p with comp := BitVec.ofNat 12 (qComp (t2.queue q)) } ∧ (∀ j, j ≠ h → v.plan j = t2.plan j) ∧
            ∀ k, hubGet v k = if planHub p k then 0 else hubGet t2 k)) ∧
    (∀ (op : Nat) (fields : List (Nat × Nat)) (i : Instr), (op, fields, i) ∈ [(0x11, [(128, 8), (192, 64)], .planArm q e),
        (0x12, [(128, 8), (136, 1), (192, 256)], .planRun q e), (0x13, [(128, 8)], .planRetire q e)] →
      Starts s q e fields .work c u → fld e 0 1 = op → u.plan (fld e 16 1) = none →
      exec i s = .next (settle (denyPlan u c rsNoPlan))) ∧
    (∀ p, let h := fld e 16 1
      u.plan h = some p → p.part = c.part → p.retire = none →
      (Starts s q e [(128, 8), (192, 64)] .work c u → fld e 0 1 = 0x11 →
        (p.multi = true → p.tag = BitVec.ofNat 64 (fld e 24 8) →
          ∃ v, Ends (.planArm q e) s c v 0 0 ∧ v.plan h = some { p with armed := true } ∧
            ∀ j, j ≠ h → v.plan j = u.plan j) ∧
        ((p.multi = false ∨ p.tag ≠ BitVec.ofNat 64 (fld e 24 8)) →
          exec (.planArm q e) s = .next (settle (denyPlan u c rsFormat)))) ∧
      (Starts s q e [(128, 8)] .work c u → fld e 0 1 = 0x13 → p.run = .idle →
        ∃ v, Ends (.planRetire q e) s c v 0 0 ∧ v.plan h = none ∧ ∀ j, j ≠ h → v.plan j = u.plan j))

/-- 08 R220, R221; 09 R276 to R279: PLAN_RUN starts a run of an idle, armed plan with its four arguments; a step that starts
resets every wick of the plan and sets the launched ones running at their entry, their generators seeded from the plan,
the wick and the step; a step that ends goes to the next or ends the run, which counts it and returns its first error.
An overrun stops the plan's wicks with STEP_OVERRUN; a gate whose bound passes ends the run the same way. -/
def Obligations.PlanRuns : Prop :=
  ∀ (s u : State) (q : Nat) (e : W512) (c : Cmd) (h : Nat) (p : Plan) (st : PStep),
    let done (v : State) (st : Status) : Prop :=
      v.plan h = some { p with run := .idle, runIndex := p.runIndex + 1, runs := p.runs + 1, status := 0, misses := 0,
                               lates := 0, streamRuns := [], runner := none } ∧
      ∀ q i a, p.runner = some (q, i) → (s.queue q).active.find? (fun b => b.idx = i) = some a →
        ⟨q, a, st, runResult p⟩ ∈ v.work.ended
    (Starts s q e [(128, 8), (136, 1), (192, 256)] .work c u → fld e 0 1 = 0x12 → h = fld e 16 1 → u.plan h = some p →
      p.part = c.part → p.retire = none → p.service = false →
      (p.armed = false → exec (.planRun q e) s = .next (settle (denyPlan u c rsNotArmed))) ∧
      (p.armed = true → p.run = .idle → p.steps.head? = some st → st.gate = false →
        ∃ v, GoesOn (.planRun q e) s v ∧ v.plan h = some { p with
          rel := (List.range 4).map (fun i => BitVec.ofNat 64 (fld e (24 + 8 * i) 8)),
          runIndex := if e.getLsbD 136 then 0 else p.runIndex, curStep := 0, status := 0, misses := 0, lates := 0,
          runner := some (q, c.idx), run := .ready } ∧
          ∀ k, hubGet v k = if e.getLsbD 136 ∧ planHub p k then 0 else hubGet u k)) ∧
    (h < 256 → s.plan h = some p → stepOf p = some st →
      (p.run = .ready → (planSconces p).all (sconceReady s) = true → frozen s = false → st.spot = false → st.streamCount = 0 →
        ∃ v, exec (.stepStart h) s = .next (settle v) ∧ v.plan h = some { p with run := .running, streamRuns := [] } ∧
          ∀ w, v.wick w = if w ∈ planWicks p then
              let k := { Wick.fresh with ctx := p.ctx, part := p.part, handle := BitVec.ofNat 8 h,
                                         step := BitVec.ofNat 32 p.curStep, rel := p.rel }
              match (stepLaunches p st).find? (fun l => l.wick.toNat == w) with
              | none => k
              | some l => { k with
                  pc := l.entry.toNat, state := .running,
                  gen := genSeed (p.seed ^^^ BitVec.ofNat 32 (w * 2 ^ 16) ^^^ BitVec.ofNat 32 p.curStep) }
            else s.wick w) ∧
      (p.run = .running → stepOver s h p = true → p.status = 0 → (∀ w ∈ planWicks p, wickStatus (s.wick w) = 0) →
        st.post = false → p.retire = none →
        (p.curStep + 1 = p.steps.length → ∃ v, exec (.stepEnd h) s = .next (settle v) ∧ done v 0) ∧
        (∀ st', p.steps[p.curStep + 1]? = some st' → st'.gate = false → ∃ v, exec (.stepEnd h) s = .next (settle v) ∧
          v.plan h = some { p with streamRuns := [], curStep := p.curStep + 1, run := .ready })) ∧
      (p.run = .running → stepOver s h p = true → p.status ≠ 0 → p.retire = none →
        ∃ v, exec (.stepEnd h) s = .next (settle v) ∧ done v p.status) ∧
      (p.run = .running → p.status ≠ stOverrun → ∃ v, exec (.stepOverrun h 0xFFF) s = .next (settle v) ∧
        v.plan h = some { p with status := stOverrun, streamRuns := p.streamRuns.map (fun r => { r with ended := true }) } ∧
        ∀ w ∈ planWicks p, (s.wick w).state = .running ∨ (s.wick w).state = .held →
          (v.wick w).state = .stopped ∧ (v.wick w).stop = stOverrun) ∧
      (p.run = .gate → st.gateBound ≠ 0 → ¬ gateTarget p st ≤ hubGet s st.gateCounter.toNat → p.retire = none →
        ∃ v, exec (.gateBoundExpiry h) s = .next (settle v) ∧ done v stOverrun))

/-- 07 R214 to R217: when the copy of the chosen wick's state ends, the wick runs on; when the wick has ended, the check is
recorded as a match or a mismatch, which of the two being the hardware's; a wick that stopped is not compared. -/
def Obligations.SpotChecks : Prop :=
  ∀ (s : State) (sc : Nat) (sp : Spot), sc < Config.sconces → (s.sconce sc).spot = some sp →
    (sp.copied = false → (s.wick sp.wick).state = .held → ∃ t, exec (.spotCopyDone sc) s = .next t ∧
      (t.wick sp.wick).state = .running ∧ (t.sconce sc).spot = some { sp with copied := true } ∧
      ∀ w, w ≠ sp.wick → t.wick w = s.wick w) ∧
    (sp.copied = true → (s.wick sp.wick).state = .ended →
      let n (v : State) (rel : Nat) : Nat := (regGet v (rk (pSCN sc) rel)).toNat
      n s 0x128 + 1 < 2 ^ 32 → n s 0x138 + 1 < 2 ^ 32 → ∃ t, exec (.spotCompare sc) s = .next (settle t) ∧
        (t.sconce sc).spot = none ∧ t.wicks = s.wicks ∧
        (n t 0x128 = n s 0x128 + 1 ∧ n t 0x138 = n s 0x138 ∨ n t 0x128 = n s 0x128 ∧ n t 0x138 = n s 0x138 + 1)) ∧
    ((s.wick sp.wick).state = .stopped → ∃ t, exec (.spotCompare sc) s = .next (settle t) ∧ (t.sconce sc).spot = none ∧
      t.wicks = s.wicks)

/-! ### Functions: KV sessions, embedding tables, optimizers -/

/-- 09 R283; 10 R293, R299; 11 R310, R325 to R329: a function command runs as one instance of its service plan once the
plan's gate is open and its sconces are ready; its work's first failure is its status, and the instance counts in its
plan. APPEND and ATTEND perform the entries of their batch in order; an EMBED operation reads its arguments and works on
its open table; TABLE_OPEN enters the described table at the lowest free id, TABLE_CLOSE removes it. -/
def Obligations.FunctionCommands : Prop :=
  ∀ (s u t t1 t2 : State) (q : Nat) (e : W512) (c : Cmd) (p : Plan) (st : Status) (r : W64) (n : Nat) (hc : HostCpl),
    let h := fld e 16 1
    let w := { c.who with eng := .work }
    let start := serviceStart u h p
    let ready : Prop := serviceReady u c p = some 0
    let embed := [(128, 16), (144, 12), (192, 57)]
    let id := fld e 18 2
    (Starts s q e [(128, 8), (136, 2), (144, 10), (160, 32), (192, 57)] .work c u → fld e 0 1 = 0x18 →
      let pl := if h = 0xFF then none else attendPlan u c.part h
      ((h ≠ 0xFF ∧ pl = none) ∨ fld e 20 4 = 0 ∨ 4096 < fld e 20 4 ∨ fld e 24 8 % 64 ≠ 0 →
        exec (.append q e) s = .next (settle (failCmd u c stFormat))) ∧
      ((h = 0xFF ∨ pl ≠ none) → 1 ≤ fld e 20 4 → fld e 20 4 ≤ 4096 → fld e 24 8 % 64 = 0 →
        runEng (batchDo c (fld e 24 8) (fld e 20 4)
          (fun _ => appendEntry c pl (e.getLsbD 136) (e.getLsbD 137) (fld e 18 2))) u = some (.ok (st, n), t) →
        Ends (.append q e) s c t st (BitVec.ofNat 64 (min n 0xFFFF)))) ∧
    (∀ seed, Starts s q e [(128, 8), (136, 3), (144, 10), (160, 8), (168, 4), (192, 32), (224, 32), (256, 57), (320, 32),
        (352, 17), (383, 1), (384, 57)] .work c u → fld e 0 1 = 0x19 →
      let a := attendOf c
      let ref := batchShape u c a.layer (fld e 32 8) (fld e 40 4) 0
      attendPlan u c.part h = some p → attendForm c p a ref = true → ready →
      runEng (batchDo c (fld e 32 8) (fld e 40 4) (fun i => attendEntry c p a (ref.getD (0, 0)) (seed + i))) start =
        some (.ok (st, n), t) →
      Ends (.attend q e seed) s c (serviceEnd t h p st) st 0) ∧
    (∀ (op : Nat) (i : Instr) (work : Cmd → Plan → Nat → Table → Nat → Eng (Status × W64)) (late : List Nat),
      (op, i, work) ∈ [(1, .gather q e late hc, gatherWork late hc), (2, .pool q e late hc, poolWork late hc),
        (3, .scatterAdd q e hc, scatterWork hc), (4, .updateRow q e hc, updateWork hc)] →
      Starts s q e embed .work c u → fld e 0 1 = 0x1A → fld e 17 1 = op → embedPlan u c.part h = some p →
      ∀ tb, tfind u.emb.tables id = some tb →
        (tb.part ≠ c.part → exec i s = .next (settle (failCmd u c stPerm))) ∧
        (tb.part = c.part → fld e 24 8 % 64 = 0 → ready → ∀ d, runEng (readDva w .l2 (fld e 24 8) 128) start = some (.ok d, t1) →
          argsForm op p tb (leNat d) = true → argsAlign (embArgs (leNat d)) = true →
          (runEng (work c p id tb (leNat d)) t1 = some (.ok (st, r), t2) → Ends i s c (serviceEnd t2 h p st) st r) ∧
          (runEng (work c p id tb (leNat d)) t1 = some (.error st, t2) → Ends i s c (serviceEnd t2 h p st) st 0))) ∧
    (Starts s q e embed .work c u → fld e 0 1 = 0x1A → embedPlan u c.part h = some p → ready →
      (fld e 17 1 = 5 → id = 0 → fld e 24 8 % 64 = 0 → ∀ d, runEng (readDva w .l2 (fld e 24 8) 64) start = some (.ok d, t) →
        tableForm (leNat d) = true → (∃ x, ctxOf t c.ctx = some x ∧ x.part = c.part) → bits (leNat d) 160 28 = 0 →
        ∀ k, k < 4096 → tfind t.emb.tables k = none → (∀ j < k, tfind t.emb.tables j ≠ none) →
        ∃ v, Ends (.tableOpen q e) s c (serviceEnd v h p 0) 0 (BitVec.ofNat 64 k) ∧
          tfind v.emb.tables k = some (tableOf (leNat d) c.part c.ctx (Config.freeWord t.free)) ∧
          ∀ j, j ≠ k → tfind v.emb.tables j = tfind t.emb.tables j) ∧
      (fld e 17 1 = 6 → ∀ tb, tfind u.emb.tables id = some tb → tb.part = c.part → tb.sets = 0 →
        ∃ v, Ends (.tableClose q e hc) s c (serviceEnd v h p 0) 0 0 ∧ tfind v.emb.tables id = none ∧
          ∀ j, j ≠ id → tfind v.emb.tables j = tfind u.emb.tables j)) ∧
    (∀ x, t.plan h = some x → x.retire = none → (st ≠ 0 ∨ ∀ z, stepOf p = some z → z.post = false) →
      (serviceEnd t h p st).plan h = some { x with
        run := .idle, runner := none, runIndex := x.runIndex + 1, runs := x.runs + 1 })

/-- 11 R314, R319, R326, R327: a pending row move runs while the migration share is not 0, and is no longer pending once it
has filled its way. A pooled bag with no rows is zero; the SUM of one row that occurs once is that row fused with zero;
a plain SCATTER_ADD gives fma(SCALE, g, w) with one rounding, an ADAGRAD one divides SCALE by the root of its new state. -/
def Obligations.EmbeddingRows : Prop :=
  (∀ (s v : State) (t u : Nat) (hc : HostCpl) (tb : Table) (m : RowMove), tfind s.emb.tables t = some tb →
    s.emb.moves.find? (fun m => m.table = t ∧ m.row = u) = some m → migShare s ≠ 0 →
    ∃ comp, runEng (fillWay { eng := .work, part := tb.part, ctx := tb.ctx } tb comp hc m) s = some (.ok true, v) →
      ∃ y, exec (.rowMove t u hc) s = .next y ∧ y = { v with emb := { v.emb with moves := y.emb.moves } } ∧
        ∀ x ∈ y.emb.moves, ¬ (x.table = t ∧ x.row = u)) ∧
  (∀ (mode dim : Nat) (vals : Nat → Except Status (List Nat)), mode < 4 →
    poolBag mode dim [] vals = .ok (List.replicate dim 0)) ∧
  (∀ (dim u w : Nat) (xs : List Nat) (vals : Nat → Except Status (List Nat)), vals u = .ok xs → xs.length = dim →
    poolBag 0 dim [(u, w)] vals = .ok (xs.map (fun x => (f32Fma 0x3F800000 x 0).1)) ∧
    poolBag 3 dim [(u, w)] vals = .ok xs) ∧
  (∀ (a : EmbArgs) (dim eps g0 : Nat) (gs ws : List Nat), a.adagrad = false →
    scatterRow a dim eps g0 gs ws = (List.zipWith (fun g w => (f32Fma a.scale g w).1) gs ws, g0)) ∧
  (∀ (a : EmbArgs) (dim eps g0 g w : Nat), a.adagrad = true →
    let sq := (f32Fma g g 0).1
    let g1 := (f32Add g0 (f32Mul sq (f32Recip (f32Code (fint dim))).1).1).1
    scatterRow a dim eps g0 [g] [w] = ([(f32Fma ((f32Mul a.scale (f32Rsqrt (f32Add g1 eps).1).1).1 ^^^ 0x80000000) g w).1], g1))

/-- 12 R341, R342, R345: an OPTIM operator runs as one instance over its chunks, whose first failure is its status, and
computes for each element as R341 says; NORM2 adds the squares of a chunk in sixteen lanes by REDSUM's tree. -/
def Obligations.OptimizerOperators : Prop :=
  (∀ (s u t : State) (q : Nat) (e : W512) (c : Cmd) (p : Plan) (st : Status) (r : W64) (op : Nat) (i : Instr),
    let h := fld e 16 1
    (op, i) ∈ [(1, .adamw q e), (2, .sgdM q e), (3, .signM q e), (4, .rowAdagrad q e), (5, .norm2 q e)] →
    Starts s q e [(128, 16), (144, 3), (160, 32), (192, 57)] .work c u → fld e 0 1 = 0x1B → fld e 17 1 = op →
    (optimPlan u c.part h = none → exec i s = .next (settle (failCmd u c stFormat))) ∧
    (optimPlan u c.part h = some p → fld e 24 8 % 64 = 0 → (e.getLsbD 146 = true → op = 2) → serviceReady u c p = some 0 →
      (runEng (optInstance c p op) (serviceStart u h p) = some (.ok (st, r), t) → Ends i s c (serviceEnd t h p st) st r) ∧
      (runEng (optInstance c p op) (serviceStart u h p) = some (.error st, t) →
        Ends i s c (serviceEnd t h p st) st 0))) ∧
  (∀ (o : Optim) (g m v w : Nat) (nest : Bool),
    let fl (x : LaneRes) : Nat := x.1
    let mul (a b : Nat) : Nat := fl (f32Mul a b)
    let add (a b : Nat) : Nat := fl (f32Add a b)
    let fma (a b c : Nat) : Nat := fl (f32Fma a b c)
    let neg (a : Nat) : Nat := a ^^^ 0x80000000
    let c1 := add 0x3F800000 (neg o.b1)
    let c2 := add 0x3F800000 (neg o.b2)
    let wd := mul w (add 0x3F800000 (neg (mul o.lr o.wd)))
    let m1 := fma o.b1 m (mul c1 g)
    let v1 := fma o.b2 v (mul c2 (mul g g))
    let vh := mul v1 o.bc2
    let q := if vh % 2 ^ 31 = 0 ∨ vh = 0x7F800000 then vh else mul vh (fl (f32Rsqrt vh))
    let ms := fma o.b1 m g
    let row := add v (mul (fma g g 0) (fl (f32Recip (f32Code (fint o.row)))))
    adamwElem o (optConst o) g m v w = (m1, v1, fma (neg o.lr) (mul (mul m1 o.bc1) (fl (f32Recip (add q o.eps)))) wd) ∧
    sgdmElem o (optConst o) nest g m w = (ms, fma (neg o.lr) (if nest then fma o.b1 ms g else ms) wd) ∧
    signmElem o (optConst o) g m w = (fma o.b2 m (mul c2 g), fma (neg o.lr) (signOf m1) wd) ∧
    rowState o [g] v = row ∧
    rowElem o (optConst o) v g w = fma (neg (mul o.lr (fl (f32Rsqrt (add v o.eps))))) g wd) ∧
  (∀ g : Nat, norm2Chunk [g] = (redSum ((f32Fma g g 0).1 :: List.replicate 15 0)).1)

/-! ### Collective groups -/

/-- 12 R347 to R351: COLL_OPEN of a well-formed list that names this controller adds an ACTIVE group; COLL_ABORT and an
ABORT message from a member bring it to ABORTED with its cause, once, and the ABORT is repeated twice; COLL_RESET, refused
for 100 µs after the abort, zeroes the group's hub counters here and makes it ACTIVE again; COLL_CLOSE removes it and
leaves its counters. -/
def Obligations.CollectiveGroups : Prop :=
  ∀ (s u t : State) (q : Nat) (e : W512) (c : Cmd) (g : Group),
    let gid : W16 := e.extractLsb' 128 16
    let dva := fld e 16 8
    (Starts s q e [(128, 57)] .work c u → fld e 0 1 = 0x20 → dva % 64 = 0 → ∀ d l ms t2,
      runEng (readDva c.who .l2 dva 64) u = some (.ok d, t) → groupForm (lineOf d) = true →
      runEng (readDva c.who .l2 (bits (fld (lineOf d) 8 8) 0 57) (8 * fld (lineOf d) 2 2)) t = some (.ok l, t2) →
      membersOf l (fld (lineOf d) 2 2) = some ms → (∃ m ∈ ms, m.agent = t2.xbar.agentId) →
      findGroup t2 c.part (BitVec.ofNat 16 (fld (lineOf d) 0 2)) = none → t2.sync.groups.length < 1024 →
      foreignCounter t2 c.part ms = none → ∃ v, Ends (.collOpen q e) s c v 0 0 ∧ v.sync.groups = t2.sync.groups ++
        [⟨c.part, BitVec.ofNat 16 (fld (lineOf d) 0 2), ms, some (BitVec.ofNat 12 (qComp (t2.queue q))), false, 0, 0, 0⟩]) ∧
    (∀ (op : Nat) (fields : List (Nat × Nat)) (i : Instr), (op, fields, i) ∈ [(0x21, [(128, 16), (144, 8)], .collAbort q e),
        (0x22, [(128, 16)], .collReset q e), (0x23, [(128, 16)], .collClose q e)] →
      Starts s q e fields .work c u → fld e 0 1 = op → findGroup u c.part gid = none →
      exec i s = .next (settle (failCmd u c stFormat))) ∧
    (findGroup u c.part gid = some g →
      (Starts s q e [(128, 16), (144, 8)] .work c u → fld e 0 1 = 0x21 →
        Ends (.collAbort q e) s c (enterAborted u c.part gid (BitVec.ofNat 8 (fld e 18 1))) 0 0) ∧
      (Starts s q e [(128, 16)] .work c u → fld e 0 1 = 0x22 →
        (g.aborted = true → u.lamp.moduleTime - g.abortedAt < 10000 →
          exec (.collReset q e) s = .next (settle (failCmd u c stBusy))) ∧
        ((g.aborted = true → ¬ u.lamp.moduleTime - g.abortedAt < 10000) → ∃ v, Ends (.collReset q e) s c v 0 0 ∧
          (∃ h, findGroup v c.part gid = some h ∧ h.aborted = false ∧ h.members = g.members) ∧
          ∀ k, hubGet v k = if g.owns u.xbar.agentId k then 0 else hubGet u k)) ∧
      (Starts s q e [(128, 16)] .work c u → fld e 0 1 = 0x23 → ∃ v, Ends (.collClose q e) s c v 0 0 ∧
        findGroup v c.part gid = none ∧ v.sync.hub = u.sync.hub)) ∧
    (∀ part id cause, findGroup s part id = some g → g.aborted = false → s.sync.waits = [] →
      let v := enterAborted s part id cause
      ∃ h, findGroup v part id = some h ∧ h.aborted = true ∧ h.cause = cause ∧ h.members = g.members ∧
        h.abortedAt = s.lamp.moduleTime) ∧
    (∀ part id cause, findGroup s part id = some g → g.aborted = true → enterAborted s part id cause = s) ∧
    (∀ (port : Nat) (m : CtlMsg), port < Config.ports → portLive s port = true → m.ctype = 7 → m.dst = s.xbar.agentId →
      let v := takeCtl s port m
      (findGroup v m.part (m.body.extractLsb' 0 16) = some g → (∃ x ∈ g.members, x.agent = m.src) →
        exec (.abort port m) s = .next (settle (enterAborted v m.part (m.body.extractLsb' 0 16) (m.body.extractLsb' 16 8)))) ∧
      ((∀ g, findGroup v m.part (m.body.extractLsb' 0 16) = some g → ∀ x ∈ g.members, x.agent ≠ m.src) →
        exec (.abort port m) s = .next (bump v (rk pSYNC 0x140) 32 1))) ∧
    (∀ part id, findGroup s part id = some g → g.aborted = true → g.repeats < 2 →
      exec (.abortRepeat part id) s = .next (sendAborts (setGroup s part id (fun g => { g with repeats := g.repeats + 1 })) g))

/-! ### Compositions, extents, owners -/

/-- 14 R400: COMPOSE of partition 0. CREATE makes a FREE composition ACTIVE with its partition and host, unless another
ACTIVE one has the host (BUSY); ADD_AGENT adds an accelerator that none has, with its forwarding slot; REMOVE_AGENT takes
it out; END makes a composition FREE once it owns no extent, queue or plan. -/
def Obligations.Compositions : Prop :=
  ∀ (s u : State) (q : Nat) (e : W512) (c : Cmd),
    let k := fld e 18 2
    let x := u.comp k
    let a : BitVec 10 := BitVec.ofNat 10 (fld e 22 2)
    let slot := fld e 24 1
    let starts (op : Nat) (fields : List (Nat × Nat)) : Prop :=
      Starts s q e ([(128, 8), (144, 12)] ++ fields) .work c u ∧ fld e 0 1 = 0x2B ∧ fld e 16 1 = op
    (starts 1 [(160, 6), (176, 10)] →
      (x.state ≠ 0 ∨ agentTaken u k a = true → exec (.create q e) s = .next (settle (failCmd u c stBusy))) ∧
      (x.state = 0 → agentTaken u k a = false → Ends (.create q e) s c (u.setComp k (fun _ =>
        { Comp.free with state := 1, part := BitVec.ofNat 6 (fld e 20 1), host := a, created := true })) 0 0)) ∧
    (starts 2 [(176, 10), (192, 8), (256, 48)] → x.state = 1 → agentTaken u k a = false → x.host ≠ a →
      (∀ y ∈ x.accels, y.agent ≠ a) →
      (64 ≤ x.accels.length → exec (.addAgent q e) s = .next (settle (failCmd u c stQuota))) ∧
      (x.accels.length < 64 → (slot = 0xFF ∨ slot ≤ 63 ∧ ∀ y ∈ x.accels, y.slot ≠ some slot) →
        Ends (.addAgent q e) s c (u.setComp k (fun x => { x with accels := x.accels ++
          [⟨a, if slot = 0xFF then none else some slot, BitVec.ofNat 48 (fld e 32 8)⟩] })) 0 0)) ∧
    (starts 3 [(176, 10)] → x.state = 1 →
      ((∀ y ∈ x.accels, y.agent ≠ a) → exec (.removeAgent q e) s = .next (settle (failCmd u c stFormat))) ∧
      ((∃ y ∈ x.accels, y.agent = a) → Ends (.removeAgent q e) s c (u.setComp k (fun x =>
        { x with accels := x.accels.filter (fun y => y.agent ≠ a) })) 0 0)) ∧
    (starts 4 [] →
      (x.state = 0 → exec (.composeEnd q e) s = .next (settle (failCmd u c stFormat))) ∧
      (x.state ≠ 0 → compInUse u k = true → exec (.composeEnd q e) s = .next (settle (failCmd u c stBusy))) ∧
      (x.state ≠ 0 → compInUse u k = false → Ends (.composeEnd q e) s c (u.setComp k (fun x =>
        { x with state := 0, accels := [], teardown := false })) 0 0))

/-- 14 R403, R404; 13 R381: GRANT gives unowned extents of this home to an ACTIVE composition, all or none. REVOKE
and HANDOVER raise each extent's epoch and mark it REVOKING; once its directory entries and its requests in flight are
gone, a revoked extent is unowned and a handed one is the new composition's; the command ends with its last extent. -/
def Obligations.Extents : Prop :=
  ∀ (s u : State) (q : Nat) (e : W512) (c : Cmd),
    let first := fld e 18 2
    let n := fld e 20 2
    let k : BitVec 12 := BitVec.ofNat 12 (fld e 22 2)
    let base := [(128, 8), (144, 16), (160, 16), (176, 12)]
    let mine (x : Nat) : Prop := first ≤ x ∧ x < first + n
    let fits : Prop := 1 ≤ n ∧ n ≤ 4096 ∧ (first + n) * 2 ^ 30 ≤ u.store.homeLen
    let quiet (s : State) : Prop := s.dir.entries = [] ∧ s.dir.waiting = [] ∧ s.dir.answers = []
    let begun (t : State) (hand : Bool) (keys : List (BitVec 12)) : Prop :=
      t.work.extCmds = u.work.extCmds ++ [⟨c.q, c.idx, hand, k, keys, (List.range n).map (· + first)⟩] ∧
      ∀ x, t.extent x = if mine x then { u.extent x with epoch := (u.extent x).epoch + 1, revoking := true }
        else u.extent x
    (Starts s q e base .work c u → fld e 0 1 = 0x2A →
      (fld e 16 1 = 1 → fits → (u.comp k.toNat).state = 1 →
        ((∃ x, mine x ∧ (u.extent x).owned = true) → exec (.grant q e) s = .next (settle (failCmd u c stBusy))) ∧
        ((∀ x, mine x → (u.extent x).owned = false) → ∃ t, Ends (.grant q e) s c t 0 0 ∧ ∀ x, t.extent x =
          if mine x then { u.extent x with owned := true, comp := k } else u.extent x)) ∧
      (fld e 16 1 = 1 → ¬ fits ∨ (u.comp k.toNat).state ≠ 1 → exec (.grant q e) s = .next (settle (failCmd u c stFormat))) ∧
      (fld e 16 1 = 2 → fits →
        ((∃ x, mine x ∧ (u.extent x).revoking = true) → exec (.revoke q e) s = .next (settle (failCmd u c stBusy))) ∧
        ((∀ x, mine x → (u.extent x).revoking = false) → quiet u → ∃ t, GoesOn (.revoke q e) s t ∧ begun t false []))) ∧
    (Starts s q e (base ++ (List.range 16).map (fun i => (192 + 16 * i, 12))) .work c u → fld e 0 1 = 0x2A →
      fld e 16 1 = 3 → fits → (u.comp k.toNat).state = 1 → (∀ x, mine x → (u.extent x).revoking = false) →
      quiet u → ∃ t, GoesOn (.handover q e) s t ∧ begun t true (listedKeys c)) ∧
    (∀ x y, s.work.extCmds.find? (fun k => k.todo.contains x) = some y → quiet s → (s.extent x).inflight = 0 →
      (y.todo = [x] → ∀ z ∈ y.keys, (keySlot s z).busy = false) →
      exec (.extentDrain x) s = .next (finishExtent s x y)) ∧
    (∀ x (y : ExtentCmd), (∃ z ∈ y.todo, z ≠ x) → let t := finishExtent s x y
      ((t.extent x).revoking = false ∧ (t.extent x).owned = y.hand ∧
        ((t.extent x).comp = if y.hand then y.comp else 0)) ∧ ∀ z, z ≠ x → t.extent z = s.extent z) ∧
    (∀ x (y : ExtentCmd), y.todo = [x] → y.hand = true → y.keys = [] → finishExtent s x y = settle (endCommand (logEvt
      ((s.setExtent x (fun e => { e with comp := y.comp, owned := true, revoking := false })).setWork (fun w => { w with
        extCmds := w.extCmds.filter (fun z => ¬ (z.q = y.q ∧ z.tag = y.tag)) })) pWORK 2) y.q y.tag 0 0))

/-- 14 R388, R389; 03 R87; 17 R480: the physical function's OWN_CMD grants a sconce, a block of 1,024 hub counters, of 256
semaphores, or a MiB of the Reservoir to a partition: it is zeroed and changes hands, BUSY until the zeroing ends; a kind
or index out of range is FORMAT_ERROR, a unit that an admitted plan claims BUSY. -/
def Obligations.Grants : Prop :=
  ∀ (s : State) (src : RegSrc) (idx : BitVec 12) (p : BitVec 6), src.ok = true →
    let n := idx.toNat
    let no (st : Status) : Host.Outcome State Fault Refusal := .next (lastDone (refuse s pWORK 1 0x100) lcOwn (srcBank src) st)
    let may (kind : Nat) : Prop := (∀ v, src ≠ .vf v) ∧ mainUp s = true ∧ inReset s pWORK = false ∧ s.work.grant = none ∧
      grantClaimed s kind n = false ∧ grantOwner s kind n ≠ p
    let busy (t : State) (kind : Nat) : Prop := t.work.grant = some (kind, n, p, srcBank src)
    ((∀ v, src ≠ .vf v) → mainUp s = true → inReset s pWORK = false →
      (64 ≤ n → exec (.grantSconce src idx p) s = no stFormat) ∧
      (128 ≤ n → exec (.grantHubCounters src idx p) s = no stFormat ∧ exec (.grantSemaphores src idx p) s = no stFormat ∧
        exec (.grantReservoir src idx p) s = no stFormat)) ∧
    (may 1 → n < 64 → ∃ t, exec (.grantSconce src idx p) s = .next t ∧ busy t 1 ∧
      (∀ j, sconceOwner t j = if j = n then p else sconceOwner s j) ∧
      (∀ sc i, i < 1024 → localGet t sc i = if sc = n then 0 else localGet s sc i) ∧
      (∀ a, cellGet t.scratch a = if a / (64 * 0x20000) = n then 0 else cellGet s.scratch a) ∧
      (∀ a, cellGet t.imem a = if a / (64 * 16384) = n then 0 else cellGet s.imem a)) ∧
    (may 2 → n < 128 → ∃ t, exec (.grantHubCounters src idx p) s = .next t ∧ busy t 2 ∧
      (∀ k, counterOwner t k = if k / 1024 = n then p else counterOwner s k) ∧
      ∀ k, hubGet t k = if k / 1024 = n then 0 else hubGet s k) ∧
    (may 3 → n < 128 → ∃ t, exec (.grantSemaphores src idx p) s = .next t ∧ busy t 3 ∧
      (∀ k, semOwner t k = if k / 256 = n then p else semOwner s k) ∧
      ∀ k, semGet t k = if k / 256 = n then 0 else semGet s k) ∧
    (may 4 → n < 128 → ∃ t, exec (.grantReservoir src idx p) s = .next t ∧ busy t 4 ∧
      (∀ a, reservoirOwner t a = if a / 2 ^ 20 = n then p else reservoirOwner s a) ∧
      ∀ a, cellGet t.reservoir a = if a / 2 ^ 20 = n then 0 else cellGet s.reservoir a) ∧
    (∀ x, s.work.grant = some x → ∃ t, exec .grantZeroingDone s = .next t ∧ t.work.grant = none ∧
      lastCmd t lcOwn x.2.2.2 = 0x100 ∧ t = { s with work := { s.work with grant := none }, lastCmd := t.lastCmd })

/-- 14 R402, R405, R406; 17 R492: a snuff of a composition ends its runs, commands and groups with TORN_DOWN, disables its
queues and leaves it ended; a teardown request not yet snuffed is sent again; SNAP copies a composition's metering and the
module time into the writer's snapshot registers. -/
def Obligations.SnuffsAndSnapshots : Prop :=
  ∀ (s : State) (src : RegSrc) (v : W64), src.ok = true →
    let k : BitVec 12 := v.setWidth 12
    let x := s.comp (bits (regGet s (rkBank pMET 0x100 (srcBank src))).toNat 0 12)
    ((∀ n, src ≠ .vf n) → mainUp s = true → inReset s pWORK = false → v.getLsbD 16 = true →
      ((s.comp k.toNat).state = 0 → exec (.snuff src v) s = .next s) ∧
      ((s.comp k.toNat).state ≠ 0 → ∃ t, exec (.snuff src v) s = .next t ∧ (t.comp k.toNat).state = 2 ∧
        (t.comp k.toNat).teardown = false ∧ k ∉ t.xbar.teardowns)) ∧
    (∀ n, n ∈ s.xbar.teardowns → exec (.teardownRepeat n) s = .next (sendTeardown s n)) ∧
    ((∀ n, src = .vf n → x.created = true ∧ x.part = BitVec.ofNat 6 n) → v.getLsbD 0 = true →
      ∃ t, exec (.snap src v) s = .next t ∧ t = { s with regs := t.regs } ∧
        let g (rel : Nat) : W64 := regGet t (rkBank pMET rel (srcBank src))
        g 0x110 = (if x.created then s.lamp.moduleTime else 0) ∧ g 0x118 = (if x.created then x.activeUs else 0) ∧
        g 0x120 = (if x.created then x.sconceUs else 0) ∧ g 0x128 = (if x.created then x.gibUs else 0))

/-! ### Packets -/

/-- 05 R128, R137, R142, R149 to R153; 12 R333, R336; 14 R391: a request that the home may serve is served: READ answers its bytes;
WRITE, WRITE_MASKED, ACCUMULATE and ATOMIC leave theirs; the counter that it names grows; its answer follows. A stale
epoch is answered, an unknown one discarded and counted; a malformed request ends in FORMAT_ERROR, one of an agent that
may not send for its partition in PERM_FAULT. A held request waits until its target accepts its group; a combined
group's members see each other's effects in turn. A TWIN_WRITE replaces stored lines. -/
def Obligations.RequestsAtTheHome : Prop :=
  ∀ (s w : State) (n off : Nat) (p : Packet),
    let t := targetOf (off / 65536) (blockGet w (off / 65536)).loc
    let v := takeIn s n p
    let rows (h : Bool) : List (Instr × Prop) := [(.read n p h, p.opc = 0), (.write n p h, p.opc = 1),
      (.writeMasked n p h, p.opc = 2), (.accumulate n p h, p.opc = 3), (.atomicAdd n p h, p.opc = 4 ∧ p.arg.toNat % 4 = 0),
      (.atomicMin n p h, p.opc = 4 ∧ p.arg.toNat % 4 = 1), (.atomicMax n p h, p.opc = 4 ∧ p.arg.toNat % 4 = 2),
      (.atomicCas n p h, p.opc = 4 ∧ p.arg.toNat % 4 = 3)]
    (∀ i c, (i, c) ∈ rows false → c → TakenIn s n p w → isHostAgent s p.dst = false → p.xl = true →
      (match admitted w p with | .ok o => o = off | .error _ => False) → HomeReady w p off → windowOf w t = [] →
      targetHeld w t = false →
      ∃ y, exec i s = .next (finishPeer y p 0 (answerBytes w p off)) ∧ HomeServes w y p off t) ∧
    (∀ i c, (i, c) ∈ rows true → c → TakenIn s n p w → isHostAgent s p.dst = false → p.xl = true →
      (match admitted w p with | .ok o => o = off | .error _ => False) → p.coh = false →
      exec i s = .next (enqueue (noteInflight w off true) t ⟨p, .peer p⟩)) ∧
    (∀ h i c, (i, c) ∈ rows h → c → n < Config.ports → p.ok = true → portData s n = true → isLocal s p.dst = true →
      isHostAgent s p.dst = false →
      (epochIs v p.epoch = .unknown → exec i s = .next (bump v (rk pXBAR 0x158) 32 1)) ∧
      (epochIs v p.epoch = .stale → exec i s = .next (answer v p stStaleEpoch [])) ∧
      (epochIs v p.epoch = .ok → let x := rxWindow v p.src
        let j := if p.opc = 0 then Arrival.perform else judge 32 (x.newest.map (·.toNat)) x.seqs x.restarted p.seq.toNat
        let u := markSeq v p .inProgress
        (j = .expired → exec i s = .next (answer v p stReplayExpired [])) ∧
        (∀ st d, j = .again st d → exec i s = .next (answer (bump v (rk pXBAR 0x148) 32 1) p st d)) ∧
        (j = .perform → firstReadOk p = false → (p.cen && p.cls != 0) = false →
          exec i s = .next (failPeer u p stFormat pXBAR 0x3F)) ∧
        (j = .perform → firstReadOk p = true → agentMay u p.src p.part = false →
          exec i s = .next (failPeer u p stPerm pXBAR 0x3F)))) ∧
    (∀ x, p.ok = true → p.opc.toNat ≤ 4 → windowOf s x = [[⟨p, .peer p⟩]] → x.ok = true → targetHeld s x = false → HomeReady s p off →
      ∃ y, exec (.tierApply x) s = .next (finishPeer y p 0 (answerBytes s p off)) ∧ HomeServes s y p off x ∧
        windowOf y x = []) ∧
    (∀ (arg old : Nat) (xs : List (Nat × Nat)) (x y : Nat), arg / 16 % 8 < 2 →
      let g := atomicGroup arg old xs
      atomicGroup arg old (xs ++ [(x, y)]) = (g.1 ++ [g.2], atomicNew arg g.2 x y)) ∧
    (TakenIn s n p w → isHostAgent s p.dst = false → p.opc = 0xB → p.xl = true → alignOk p = true →
      twinOffset w p.addr.toNat = some off → lookupStatus w p off = 0 → flashBlocksOf w p off = [] →
      ∃ y, exec (.twinWrite n p) s = .next (finishPeer y p 0 []) ∧ ∀ l, lineStored y l =
        if l ∈ linesOf off (packetBytes p) then lineOf (slice p.payload (64 * (l - off / 64)) 64) else lineStored w l)

/-- 05 R119, R130, R135, R138, R152 to R156; 13 R366, R372, R376: an accelerator's request in virtual addresses goes on under
its page's leaf; a packet for another agent goes on by its bank; a response or ACK completes the packet that it names, or
counts as an orphan: a wick's load, atomic or failure as its rule says; a packet unanswered for the replay timeout is
sent again, and one at the dead-target bound fails with TARGET_DEAD or PATH_LOST, or asks for a teardown. A snoop for this
controller's host becomes its BISnp. -/
def Obligations.PacketsThatGoOn : Prop :=
  ∀ (s w : State) (n : Nat) (p : Packet),
    let v := takeIn s n p
    let mine : Prop := n < Config.ports ∧ p.ok = true ∧ portData s n = true ∧ p.dst = s.xbar.agentId
    (∀ h i c, (i, c) ∈ [((.read n p h : Instr), p.opc = 0), (.write n p h, p.opc = 1), (.writeMasked n p h, p.opc = 2),
        (.accumulate n p h, p.opc = 3), (.atomicAdd n p h, p.opc = 4 ∧ p.arg.toNat % 4 = 0),
        (.atomicMin n p h, p.opc = 4 ∧ p.arg.toNat % 4 = 1), (.atomicMax n p h, p.opc = 4 ∧ p.arg.toNat % 4 = 2),
        (.atomicCas n p h, p.opc = 4 ∧ p.arg.toNat % 4 = 3)] → c → TakenIn s n p w →
      isHostAgent s p.dst = false → p.xl = false → (∃ x, ctxOf w p.ctx = some x ∧ x.part = p.part) →
      partResetting w p.part = false → alignOk p = true → ∀ ps t,
      runEng (translateAll { eng := .work, part := p.part, ctx := p.ctx } (.port n) (useOf p) p.addr.toNat
        (packetBytes p)) w = some (.ok ps, t) → piecesOf p.addr.toNat (packetBytes p) = [(0, packetBytes p)] →
      let x := pageFor ps p.addr.toNat
      exec i s = .next (submit t ⟨onward t p x.2 (saUnder x.1 x.2 p.addr.toNat) p.src 3, .ingress p⟩ h)) ∧
    (n < Config.ports → p.ok = true → portData s n = true → isLocal s p.dst = false →
      let u := freeCells s n (subClass p) (cellsOf p)
      let bank := if p.cls = 1 then u.xbar.routeCur else bankOf u p.epoch
      (p.cls = 1 ∨ epochIs u p.epoch = .ok) → ∀ m act, routePort u (routeGet bank p.dst) = some (m, act) →
      exec (.packetForward n p) s = .next (portSend u m { p with dl := applyDL p.dl act })) ∧
    (mine → ∀ i c (req : Nat) (q : Packet), (i, c, req, q) ∈ [((.readRsp n p : Instr), p.opc = 5, 0, p),
        (.atomicRsp n p, p.opc = 6, 4, p), (.errRsp n p, p.opc = 7, p.arg.toNat % 16, p),
        (.snoopRsp n p, p.opc = 9, 8, { p with payload := if p.arg.getLsbD 0 then p.payload else [] })] → c →
      let f := (txStream v p.src).pkts.find? (fun u => u.pkt.seq == p.seq && u.pkt.opc.toNat == req)
      (f = none → exec i s = .next (bump v (rk pXBAR 0x160) 32 1)) ∧
      (∀ u, f = some u → (p.opc = 7 → p.status ≠ stStaleEpoch) →
        exec i s = .next (answered v p.src u (if p.opc = 7 then p.status else 0) q.payload)) ∧
      (∀ u, f = some u → p.opc = 7 → p.status = stStaleEpoch → exec i s = .next (staleAnswer v p.src u))) ∧
    (∀ (a : BitVec 10) (u : Unfinished) (st : Status) (d : List Byte) (k dst size : Nat), u.pkt.cen = false →
      (s.wick k).wait = .response → (txStream s a).waiting = [] →
      let t := answered s a u st d
      let free : Prop := (txStream t a).pkts.find? (fun x => x.pkt.seq == u.pkt.seq) = none
      (∀ off sx acq, u.origin = .wickLoad k dst size off sx acq → st = 0 → free ∧ (t.wick k).wait = .none ∧
        rdS (t.wick k) dst = if dst = 0 then 0 else extendLoad size sx (leNat (slice d off size))) ∧
      (u.origin = .wickVLoad k dst → st = 0 → free ∧ (t.wick k).wait = .none ∧ rdV (t.wick k) dst = lineOf d) ∧
      (u.origin = .wickAmo k dst size → st = 0 → free ∧ (t.wick k).wait = .none ∧
        rdS (t.wick k) dst = if dst = 0 then 0 else BitVec.ofNat 64 (leNat (slice d 0 size))) ∧
      ((∃ off sx acq, u.origin = .wickLoad k dst size off sx acq) ∨ u.origin = .wickVLoad k dst ∨
        u.origin = .wickAmo k dst size → st ≠ 0 → free ∧ (t.wick k).state = .stopped ∧ (t.wick k).stop = st)) ∧
    (∀ m : CtlMsg, n < Config.ports → portLive s n = true → m.ctype = 3 → m.dst = s.xbar.agentId →
      m.body.extractLsb' 32 64 = 1#64 → let x := takeCtl s n m
      let st : Status := m.body.extractLsb' 96 8
      let f := (txStream x m.src).pkts.find? (fun u => u.pkt.seq == m.body.extractLsb' 0 32 && u.pkt.opc != 0 &&
        u.pkt.opc != 4 && u.pkt.opc != 8)
      (f = none → exec (.ack n m) s = .next (bump x (rk pXBAR 0x160) 32 1)) ∧
      (∀ u, f = some u → exec (.ack n m) s = .next (if st = stStaleEpoch then staleAnswer x m.src u
        else answered x m.src u st []))) ∧
    (∀ (a : BitVec 10) (seq : W32) u, (txStream s a).pkts.find? (fun u => u.pkt.seq == seq && !u.held) = some u →
      exec (.replayTimeout a false seq) s = .next (noteDrained (resend (bump s (rk pXBAR 0x140) 32 1) a u)) ∧
      ((u.pkt.jc = false ∨ jobOf s u.origin = none) → let st := if u.noRoute then stPathLost else stTargetDead
        exec (.deadTargetBound a false seq) s = .next (noteDrained (finishSource
          (logErr (takeUnfinished s a seq).2 pXBAR (if u.noRoute then 2 else 1) (packetFail u.pkt st)) u st [] true))) ∧
      (∀ c, u.pkt.jc = true → jobOf s u.origin = some c → ∃ t, exec (.deadTargetBound a false seq) s = .next t ∧
        c ∈ t.xbar.teardowns ∧ (t.comp c.toNat).teardown = true)) ∧
    (∀ i c inv, (i, c, inv) ∈ [((.invalidate n p : Instr), p.arg = 0, true), (.recallShared n p, p.arg = 1, false)] → c →
      p.opc = 8 → TakenIn s n p w → isHostAgent s p.dst = true →
      (w.host.dead = true → exec i s = .next (finishPeer (logRecord w pHOST (packetFail p stTargetDead)) p stTargetDead [])) ∧
      (w.host.dead = false → w.host.bisnp.length < 1024 → exec i s = .next (emit (w.setHost (fun h =>
        { h with bisnp := h.bisnp ++ [(p.addr.toNat / 64, inv, p)] })) (.bisnp inv (p.addr.toNat / 64))))) ∧
    (∀ l x, s.dir.lineBuf.find? (fun e => decide (e.1 = l)) = some x → s.dir.waiting = [] → s.dir.answers = [] →
      ∃ t, exec (.lineBufferWriteback l) s = .next t ∧ (dirEntry t l).state = 1 ∧
        t.dir.lineBuf = s.dir.lineBuf.filter (fun e => decide (e.1 ≠ l)) ∧
        ((blockGet s (l / 1024)).lost = false → tierOf (blockGet s (l / 1024)).loc ≠ 2 → twinPeers s (64 * l) = [] →
          pendingMove s (l / 1024) = none → lineRead t (dirEntry s l).key l = x.2))

/-! ### Sync messages and epochs -/

/-- 05 R132, R142, R155; 06 R171, R173 to R175: CNT_ADD adds to a hub counter; SEM_OPs read, add, take or set a semaphore,
and a WAIT_DEC that cannot take waits in order, or is answered untaken after half the dead-target bound or when 4,096
wait; a counter or semaphore of another partition answers PERM_FAULT, a reserved operation FORMAT_ERROR. SEM_RSP and CSACK
complete what they name; NO_ROUTE marks what its destination still owes. -/
def Obligations.SyncMessages : Prop :=
  ∀ (s w : State) (n : Nat) (m : CtlMsg),
    let k := (m.body.extractLsb' 0 32).toNat
    let x := m.body.extractLsb' 64 64
    let old := semGet w k
    let back (y : State) (v : W64) (taken : Bool) : Host.Outcome State Fault Refusal := .next (answerSem y m 0 v taken)
    let sem (op : Nat) : Prop := CtlTaken s n m w ∧ m.ctype = 5 ∧ m.rsvd = false ∧ k < 2 ^ 15 ∧ semOwner w k = m.part ∧
      (m.body.extractLsb' 32 8).toNat = op
    let mine : Prop := n < Config.ports ∧ portLive s n = true ∧ m.dst = s.xbar.agentId
    let t := takeCtl s n m
    (CtlTaken s n m w → m.ctype = 4 →
      (counterOwner w (k % 2 ^ 17) ≠ m.part → exec (.cntAdd n m) s =
        .next (finishCtl (ownerFault w m.part (some m.src) (k % 2 ^ 17)) m stPerm)) ∧
      (m.rsvd = false → k < 2 ^ 17 → counterOwner w k = m.part → ∃ y,
        exec (.cntAdd n m) s = .next (finishCtl y m 0) ∧ y.sync.sems = w.sync.sems ∧ y.sync.local_ = w.sync.local_ ∧
        ∀ j, hubGet y j = if j = k then hubGet w k + m.body.extractLsb' 32 64 else hubGet w j)) ∧
    (∀ i op, (i, op) ∈ [((.semRead n m : Instr), 0), (.signal n m, 1), (.waitDec n m, 2), (.tryDec n m, 3), (.set n m, 4)] →
      CtlTaken s n m w → m.ctype = 5 → (m.body.extractLsb' 32 8).toNat = op → semOwner w (k % 2 ^ 15) ≠ m.part →
      exec i s = .next (finishCtl (ownerFault w m.part (some m.src) (k % 2 ^ 15)) m stPerm)) ∧
    (sem 0 → exec (.semRead n m) s = back w old false) ∧
    (sem 1 → (∀ h ∈ w.sync.held, h.sem ≠ k) → exec (.signal n m) s = back (semSet w k (old + x)) old false) ∧
    (sem 2 →
      (x ≤ old → (∀ h ∈ w.sync.held, h.sem ≠ k) → exec (.waitDec n m) s = back (semSet w k (old - x)) old true) ∧
      (¬ x ≤ old → 4096 ≤ w.sync.held.length → exec (.waitDec n m) s = back (bump w (rk pSYNC 0x110) 32 1) old false) ∧
      (¬ x ≤ old ∨ (∃ h ∈ w.sync.held, h.sem = k) → w.sync.held.length < 4096 → exec (.waitDec n m) s =
        .next (w.setSync (fun y => { y with held := y.held ++ [⟨k, x, m.part, some m, none⟩] })))) ∧
    (sem 3 → exec (.tryDec n m) s = if x ≤ old then back (semSet w k (old - x)) old true else back w old false) ∧
    (sem 4 → (∀ h ∈ w.sync.held, h.sem ≠ k) → exec (.set n m) s = back (semSet w k x) old false) ∧
    (CtlTaken s n m w → m.ctype = 5 → 4 < (m.body.extractLsb' 32 8).toNat → semOwner w (k % 2 ^ 15) = m.part →
      exec (.set n m) s = .next (finishCtl (logErr w pSYNC 2
        { status := stFormat, part := some m.part, agent := some m.src, info := k % 2 ^ 15 }) m stFormat)) ∧
    (∀ (j : Nat) (h : HeldWait) (q : CtlMsg), j < Config.semaphores → s.sync.held = [h] → h.sem = j → h.peer = some q →
      exec (.waitDecTimeout j) s = .next (answerSem (bump (s.setSync (fun y => { y with held := [] })) (rk pSYNC 0x110) 32 1)
        q 0 (semGet s j) false)) ∧
    (mine → m.ctype = 6 → ∀ u wk d op isWait,
      (txStream t m.src).ctls.find? (fun u => u.msg.cseq == m.cseq && u.msg.ctype == 5) = some u →
      u.origin = .wickSem wk d op isWait → m.body.extractLsb' 32 8 = 0#8 →
      let y := (takeUnfinishedCtl t m.src m.cseq).2
      let taken := m.body.getLsbD 40
      ((isWait && !taken) = true → exec (.semRsp n m) s =
        .next (launchCtl y { u.msg with epoch := y.xbar.epochCur } (.wickSem wk d op isWait))) ∧
      ((isWait && !taken) = false → (∃ j, (s.wick wk).wait = .semaphore j) → ∃ z, exec (.semRsp n m) s = .next z ∧
        (z.wick wk).wait = .none ∧ (rdS (z.wick wk) d = if d = 0 then 0 else m.body.extractLsb' 64 64) ∧
        (taken = true → (z.wick wk).buf = []))) ∧
    (mine → m.ctype = 0xB → m.body.extractLsb' 16 64 = 1#64 → m.body.extractLsb' 80 8 = 0#8 →
      let f := (txStream t m.src).ctls.find? (fun u => u.msg.cseq == m.body.extractLsb' 0 16 && u.msg.ctype == 4)
      (f = none → exec (.csack n m) s = .next (bump t (rk pXBAR 0x160) 32 1)) ∧
      (∀ u wk o, f = some u → u.origin = .wickCadd wk o → exec (.csack n m) s =
        .next (takeUnfinishedCtl t m.src u.msg.cseq).2)) ∧
    (mine → m.ctype = 9 → ∃ z, exec (.noRoute n m) s = .next z ∧ ∀ u, u ∈ (txStream z (m.body.extractLsb' 0 10)).pkts →
      u.noRoute = true)

/-- 05 R136 to R139: a change of routes: ROUTE_DATA writes the bank that is not current; PREPARE freezes it for the next
epoch; once every attached accelerator has answered PREPARED, COMMIT makes it current and the old epoch's requests
drain; RETIRE then frees it. Any other order is refused. -/
def Obligations.RouteEpochs : Prop :=
  ∀ (s : State) (src : RegSrc) (ep : Byte) (added : List (BitVec 10)) (v : W64),
    let x := s.xbar
    let no (reg : Nat) (bit : Nat) : Host.Outcome State Fault Refusal := .next (refuse s pXBAR bit reg)
    let sel := (regGet s (rkBank pXBAR 0x120 (srcBank src))).toNat
    (ByPf s src pXBAR →
      (sel.testBit 16 = false ∨ x.otherFrozen = true → exec (.routeData src v) s = no 0x128 0) ∧
      (sel.testBit 16 = true → x.otherFrozen = false → ∃ t, exec (.routeData src v) s = .next t ∧
        t = { s with xbar := { x with routeOther := t.xbar.routeOther } } ∧
        ∀ a : BitVec 10, routeGet t.xbar.routeOther a = if a.toNat = sel % 1024 then (v.setWidth 13).setWidth 32
          else routeGet x.routeOther a) ∧
      (x.otherState ≠ 0 ∨ ep ≠ x.epochCur + 1 → exec (.prepare src ep) s = no 0x118 3) ∧
      (x.otherState = 0 → ep = x.epochCur + 1 → ∃ t, exec (.prepare src ep) s = .next t ∧ t.xbar.otherState = 1 ∧
        t.xbar.otherFrozen = true ∧ t.xbar.epochOther = ep ∧ t.xbar.epochCur = x.epochCur ∧
        t.xbar.routeCur = x.routeCur ∧ t.xbar.routeOther = x.routeOther ∧ t.xbar.preparedBy = [] ∧
        (t.xbar.prepared = true ↔ attached s = [])) ∧
      (x.otherState ≠ 1 ∨ x.prepared = false ∨ ep ≠ x.epochOther → exec (.commit src ep added) s = no 0x118 3) ∧
      (x.otherState = 1 → x.prepared = true → ep = x.epochOther → ∃ t, exec (.commit src ep added) s = .next t ∧
        t.xbar.epochCur = ep ∧ t.xbar.epochOther = x.epochCur ∧ t.xbar.otherState = 2 ∧
        t.xbar.routeCur = x.routeOther ∧ t.xbar.routeOther = x.routeCur ∧
        ∀ a ∈ added, (txStream t a).nextSeq = 0 ∧ (txStream t a).nextCseq = 0 ∧ rxWindow t a = RxWindow.fresh) ∧
      (x.otherState ≠ 2 ∨ x.drained = false ∨ ep ≠ x.epochOther → exec (.retire src ep) s = no 0x118 3) ∧
      (x.otherState = 2 → x.drained = true → ep = x.epochOther → ∃ t, exec (.retire src ep) s = .next t ∧
        t.xbar.otherState = 0 ∧ t.xbar.otherFrozen = false ∧ t.xbar.drained = false ∧
        t.xbar.epochCur = x.epochCur ∧ t.xbar.routeCur = x.routeCur)) ∧
    (∀ (n : Nat) (m : CtlMsg), n < Config.ports → portLive s n = true → m.ctype = 8 → m.body.extractLsb' 0 8 = 2#8 →
      m.dst = x.agentId → x.otherState = 1 → x.otherFrozen = true → m.body.extractLsb' 8 8 = x.epochOther →
      ∃ t, exec (.prepared n m) s = .next t ∧ t.xbar.preparedBy = x.preparedBy ++ [m.src] ∧
        (t.xbar.prepared = true ↔ x.prepared = true ∨ ∀ a ∈ attached s, a ∈ x.preparedBy ++ [m.src]))

/-! ### Ports, lanes and light -/

/-- 04 R113, R115; 05 R134, R144 to R146, R122: a CREDIT's counts are the credit held, and what waits goes; freed cells are
told by CREDIT; a MARK's counts free what was lost and end the wait for a mark stripe. A codeword's cells are counted,
and one that cannot be corrected is discarded, which costs a lane in use its cells up to the next mark. -/
def Obligations.CreditsMarksCodewords : Prop :=
  ∀ (s : State) (n k : Nat) (counts cells : List W16) (tag : Byte) (h : BitVec 20) (bad : Nat),
    let p := s.port n
    let inUse : Prop := ∃ d, dataOfLane k = some d ∧ p.rxUse.getLsbD d = true
    let takes : Prop := k < 5 ∧ laneUsable s n = true ∧ (portLane p k).state.toNat ∈ [2, 3, 4]
    (n < Config.ports → portLive s n = true →
      (counts.length = 12 → exec (.credit n counts) s = .next (portDrain (s.setPort n (fun t => { t with
        peerReq := if t.credit.all (· == 0) then (counts.getD 0 0).toNat + (counts.getD 1 0).toNat else t.peerReq,
        credit := counts })) n)) ∧
      (p.creditDue = true → ∃ m : CtlMsg, exec (.creditSend n) s =
          .next (emit (s.setPort n (fun t => { t with creditDue := false })) (.ctl n m)) ∧
        m.ctype = 1 ∧ ∀ i < 12, m.body.extractLsb' (16 * i) 16 = p.freed.getD i 0) ∧
      (counts.length = 12 → ∃ t, exec (.mark n tag counts) s = .next t ∧ (t.port n).framingLost = false ∧
        (t.port n).cwSeqRx = tag ∧ (∀ i < 10, (t.port n).received.getD i 0 = counts.getD i 0) ∧
        ∀ i < 12, (t.port n).freed.getD i 0 = p.freed.getD i 0 + (if i < 10 then counts.getD i 0 - p.received.getD i 0 else 0)) ∧
      (∃ m : CtlMsg, exec (.markSend n) s = .next (emit s (.ctl n m)) ∧ m.ctype = 2 ∧
        m.tag = BitVec.ofNat 8 (p.cwSeqTx.toNat / 64 * 64) ∧ ∀ i < 12, m.body.extractLsb' (16 * i) 16 = p.sent.getD i 0)) ∧
    (n < Config.ports → takes → ∀ cw, (cw = .bad ∨ (cw = .good h bad cells ∧ 15 < bad)) →
      let t := bump s (rk (pLNT n) (0x168 + 8 * k)) 32 1
      (inUse → exec (.codewordReceive n k cw) s = .next (t.setPort n (fun p => { p with framingLost := true }))) ∧
      (¬ inUse → exec (.codewordReceive n k cw) s = .next t)) ∧
    (n < Config.ports → takes → bad ≤ 15 → h.extractLsb' 0 2 = 0#2 → (h.extractLsb' 2 3).toNat = k → h.getLsbD 11 = false →
      inUse ∨ k = p.ctlLane.toNat → ∃ t, exec (.codewordReceive n k (.good h bad cells)) s = .next t ∧
        (t.port n).rxMap = h.extractLsb' 6 4 ∧ (t.port n).cwSeqRx = h.extractLsb' 12 8 ∧
        (portLane (t.port n) k).signal = true ∧
        ∀ i < 12, (t.port n).received.getD i 0 = p.received.getD i 0 + cells.getD i 0)

/-- 04 R101 to R106, R108 to R113, R115, R116: enabling a port trains its lanes and disabling it turns them off; an attempt that ends
makes its lane ACTIVE, the third miss in a row FAILED; uncorrectable or corrected codewords past their limits, a lost
lock or signal retrain an ACTIVE lane, or fail it without AUTO_RETRAIN; a map of both ends takes effect; control traffic
fails over and returns; LANE_CMD retrains, disables or enables a lane; light lost, switched over and restored. -/
def Obligations.PortsLanesLight : Prop :=
  ∀ (s : State) (src : RegSrc) (n k : Nat) (a b : BitVec 12) (map : BitVec 4) (litA litB : BitVec 5),
    let p := s.port n
    let l := portLane p k
    let lane (t : State) : Lane := portLane (t.port n) k
    let ok : Prop := n < Config.ports ∧ k < 5
    let cfg := portCfg s n
    let reg := (regGet s (rk (pLNT n) 0x190)).toNat
    let lit (m : BitVec 5) : Bool := m == 31
    let on := if s.lantern.activeB then litB else litA
    let other := if s.lantern.activeB then litA else litB
    (n < Config.ports → ByPf s src (pLNT n) → p.lanes.length = 5 →
      (portOn s n = false → s.lantern.dark = false → ∃ t, exec (.portEnable src n) s = .next t ∧ portOn t n = true ∧
        ∀ j < 5, (portLane (t.port n) j).state = lnTune) ∧
      (portOn s n = true → ∃ t, exec (.portDisable src n) s = .next t ∧ portOn t n = false ∧ (t.port n).state = 0 ∧
        ∀ j < 5, (portLane (t.port n) j).state = lnOff) ∧
      (k < 5 → portOn s n = true → ∃ t, exec (.laneDisable src n (BitVec.ofNat 3 k)) s = .next t ∧
        (lane t).state = lnDisabled) ∧
      (k < 5 → laneUsable s n = true → l.state = lnActive ∨ l.state = lnFailed →
        ∃ t, exec (.laneRetrain src n (BitVec.ofNat 3 k)) s = .next t ∧ (lane t).state = lnRetrain) ∧
      (k < 5 → laneUsable s n = true → l.state = lnDisabled ∨ l.state = lnFailed →
        ∃ t, exec (.laneEnable src n (BitVec.ofNat 3 k)) s = .next t ∧ (lane t).state = lnTune)) ∧
    (ok → attempting s n k = true →
      (a ≠ 0 → a ≠ 0xFFF → b ≠ 0 → b ≠ 0xFFF → ∃ t, exec (.trainingAttempt n k a b) s = .next t ∧
        (lane t).state = lnActive ∧ (lane t).tx = a ∧ (lane t).rx = b ∧ (t.port n).met = true) ∧
      (p.met = true → ∃ t, exec (.trainingBoundMiss n k) s = .next t ∧
        (2 ≤ l.failed → (lane t).state = lnFailed) ∧
        (l.failed < 2 → (lane t).state = l.state ∧ (lane t).failed = l.failed + 1))) ∧
    (n < Config.ports → laneUsable s n = true → p.met = false → p.noPeerSeen = false → exec (.noPeerTimeout n) s =
      .next (logErr (s.setPort n (fun p => { p with noPeerSeen := true })) (pLNT n) 4 { status := stPathLost })) ∧
    (ok → laneUsable s n = true → l.state = lnActive → ∀ (i : Instr) (c : Prop) (x y : Nat) (r top : Bool),
      (i, c) ∈ [((.uncorrWindow n k x : Instr), reg % 256 < x), (.serWindow n k x y, y < x * 10 ^ (reg / 256 % 16)),
        (.signalLossTimeout n k, l.signal = false), (.ringLockLoss n k r top, l.lock = true)] → c →
      ∃ t, exec i s = .next t ∧ (lane t).state = if cfg.testBit 0 then lnRetrain else lnFailed) ∧
    (ok → exec (.lossOfSignal n k) s = .next (setLane s n k (fun l => { l with signal := false })) ∧
      (laneUsable s n = true → l.state = lnActive →
        exec (.signalReturn n k) s = .next (setLane s n k (fun l => { l with signal := true })))) ∧
    (n < Config.ports → laneUsable s n = true →
      (map = p.txMap &&& p.rxMap →
        (∃ t, exec (.activeMapChange n true map) s = .next t ∧ (t.port n).txUse = withoutCtl p map ∧
          (t.port n).rxUse = p.rxUse) ∧
        (∃ t, exec (.activeMapChange n false map) s = .next t ∧ (t.port n).rxUse = withoutCtl p map ∧
          (t.port n).txUse = p.txUse)) ∧
      (cfg.testBit 1 = true → (laneActive p p.ctlLane.toNat = false ∨ p.failReq = true) → ∀ j, failoverLane p = some j →
        ∃ t, exec (.controlFailover n) s = .next t ∧ (t.port n).ctlLane = BitVec.ofNat 3 j) ∧
      (laneActive p 2 = true → p.ctlLane ≠ 2 → ∃ t, exec (.controlReturn n) s = .next t ∧ (t.port n).ctlLane = 2)) ∧
    (s.lantern.dark = false → lit on = false →
      (∀ w, lit other = true → autoSwitch s = true → ∃ t, exec (.lossOfLight litA litB w) s = .next t ∧
        t.lantern.activeB = !s.lantern.activeB ∧ t.lantern.dark = false) ∧
      (lit other = false ∨ autoSwitch s = false →
        (∀ w, ∃ t, exec (.lossOfLight litA litB w) s = .next t ∧ t.lantern.dark = true) ∧
        ∃ t, exec (.lasersLost litA litB) s = .next t ∧ t.lantern.dark = true)) ∧
    (s.lantern.dark = true → lit on = true → ∃ t, exec (.lightRestored litA litB) s = .next t ∧ t.lantern.dark = false ∧
      t.lantern.activeB = s.lantern.activeB) ∧
    (∀ v : W64, ByPf s src (pLNT 0) → v.getLsbD 0 = true →
      (otherLit s = false → exec (.switch src v) s = .next (refuse s (pLNT 0) 8 0x210)) ∧
      (otherLit s = true → ∃ t, exec (.switch src v) s = .next t ∧ t.lantern.activeB = !s.lantern.activeB ∧
        t.lantern.dark = false))

/-! ### Key slots, transfers, retraining -/

/-- 03 R79, R84 to R86; 17 R474: LOAD takes the staged wrapped pair into a free slot if its integrity check passes, and zeroes the staging
registers; CLEAR and SET_OWNER make their slot busy until the accesses before them have drained, when a cleared slot's
pair is zero; slot 0 takes no command. An engine that misses a shootdown's bound is reset. -/
def Obligations.KeySlots : Prop :=
  ∀ (s : State) (src : RegSrc) (owner : BitVec 6) (slot : BitVec 12),
    let b := srcBank src
    let k : BitVec 12 := (regGet s (rkBank pKEY 0x100 b)).setWidth 12
    let x := keySlot s k
    let ends (i : Instr) (st : W16) (f : State → KeySlot → Prop) : Prop :=
      ∃ t, exec i s = .next t ∧ lastCmd t lcSlot b = 0x100 + st ∧ (∀ j, j ≠ k → keySlot t j = keySlot s j) ∧ f t (keySlot t k)
    (ByPf s src pKEY →
      (∀ i, i ∈ [(.load src owner : Instr), .clear src, .setOwner src owner] →
        (k = 0 → ends i 0x11 (fun _ y => y = x)) ∧ (k ≠ 0 → x.busy = true → ends i 0x10 (fun _ y => y = x))) ∧
      (k ≠ 0 → x.busy = false →
        (x.valid = true → ends (.load src owner) 0x10 (fun t y => y = x ∧ wrapBuf t b = 0)) ∧
        (x.valid = false → Config.unwrapKey (wrapBuf s b) = none →
          ends (.load src owner) 0x11 (fun t y => y = x ∧ wrapBuf t b = 0)) ∧
        (x.valid = false → ∀ p, Config.unwrapKey (wrapBuf s b) = some p → ends (.load src owner) 0 (fun t y =>
          y = { x with pair := p, valid := true, owner := owner } ∧ wrapBuf t b = 0)) ∧
        ends (.clear src) 0 (fun _ y => y = { x with valid := false, busy := true, clearing := true }) ∧
        (x.valid = false → ends (.setOwner src owner) 0x03 (fun _ y => y = x)) ∧
        (x.valid = true → ends (.setOwner src owner) 0 (fun _ y => y = { x with owner := owner, busy := true })))) ∧
    ((keySlot s slot).busy = true → ∃ t, exec (.keyDrainDone slot) s = .next t ∧ t = { s with keys := t.keys } ∧
      keySlot t slot = { keySlot s slot with busy := false, clearing := false,
                                             pair := if (keySlot s slot).clearing then 0 else (keySlot s slot).pair } ∧
      ∀ j, j ≠ slot → keySlot t j = keySlot s j) ∧
    (∀ id (eng : Engine) sh, eng.ok = true → findShoot s id = some sh → eng ∈ sh.engines →
      let f (y : Shootdown) : Shootdown :=
        if y.id = id then { y with failed := true, engines := y.engines.filter (fun g => g ≠ eng) } else y
      let u := (logErr s pXLT 1 { status := stReset, ctx := some sh.ctx }).setXlt (fun x =>
        { x with shoots := x.shoots.map f })
      (∀ sc, (∃ ch, eng = .mover sc ch) → exec (.shootdownOverrun id eng) s = .next (autoReset u 2 sc false)) ∧
      (∀ n, eng = .copy n → exec (.shootdownOverrun id eng) s = .next (autoReset u 2 (64 + n) false)))

/-- 02 R49, R64, R65; 08 R248, R249; 16 R454 to R456: a tile delivers all its bytes or none and frees its place in its stream; an MVX
to scratch copies its bytes and leaves the tracker; a tile past its budget waits on, reads fresh shadows, or ends with
DEADLINE. A die or channel is due for retraining past its temperature or correction limit or by command; a die trains
when no running plan uses it, one channel of a group at a time; a third failed attempt becomes a compute reset. -/
def Obligations.TransfersAndRetraining : Prop :=
  ∀ (s t : State) (id w d c : Nat) (x : Xfer) (late : List Nat) (now : W16) (n : Nat) (src : RegSrc) (v : W64),
    let tl := tileOf x.desc
    let moved := runEng (allOrNone (moveTile (whoOf s x) tl x.srcPages x.dstPages x.lateBlocks (engGenOf s x.eng))) s
    let die := stackTraining s d
    let chn := capTraining s c
    let limits (page : Nat) : Nat := (regGet s (rk page 0x108)).toNat
    let hot (page : Nat) (u : Training) : Prop := limits page % 256 ≠ 0 ∧
      16 * (limits page % 256) < (now.toInt - u.temp.toInt).natAbs
    let worn (page : Nat) : Prop := limits page / 65536 % 65536 ≠ 0 ∧ limits page / 65536 % 65536 < n
    let busy : Prop := ∃ i < 4, (capTraining s (4 * (c / 4) + i)).state = 2
    let up (u : Training) (temp : W16) : Training :=
      { u with state := 0, retrains := if u.retrains = 255 then 255 else u.retrains + 1, temp := temp, fails := 0 }
    (findXfer s id = some x → x.raw = false → frozen s = false → isTurn s x = true →
      (∀ st, moved = some (.error st, t) →
        exec (.tileComplete id) s = .next (endTstreams (refillAfter (finishXfer t x.id st) x))) ∧
      (∀ r, tl.stoch = false → x.shadow = false → moved = some (.ok r, t) →
        exec (.tileComplete id) s = .next (endTstreams (refillAfter (finishXfer t x.id 0) x)))) ∧
    (findXfer s id = some x → x.id = id → x.raw = true → x.moved = false → x.wick = some w → w < Config.wicks →
      frozen s = false → isTurn s x = true → x.desc.getLsbD 3 = true → x.params.getLsbD 34 = false →
      (s.sconce (w / 64)).resetting = false → let k := x.params.toNat % 2 ^ 17
      scratchBad s w x.srcScratch k = false → x.handle = none → x.queue = none → ∃ u,
        exec (.moverTransferDone w id) s = .next u ∧ findXfer u id = none ∧
        scratchRead u (bits x.dstAddr.toNat 17 12) (bits x.dstAddr.toNat 0 17) k = scratchRead s w x.srcScratch k ∧
        ∀ e ∈ (u.wick w).track, e.id ≠ id) ∧
    (findXfer s id = some x → x.raw = false → x.late = false → tl.budget ≠ 0 → late ≠ [] →
      (∀ b ∈ late, b ∈ tileBlocks s x) → let u := bump s (rk pPLC 0x148) 32 1
      (tl.fall = 0 → exec (.deadlineExpiry id late) s = .next (setXfer u x.id (fun y => { y with late := true }))) ∧
      (tl.fall = 1 → (∀ b ∈ late, freshShadow u b tl.sf = true) → exec (.deadlineExpiry id late) s =
        .next (setXfer u x.id (fun y => { y with late := true, shadow := true, lateBlocks := late }))) ∧
      (tl.fall ≠ 0 → tl.fall ≠ 1 ∨ (∃ b ∈ late, freshShadow u b tl.sf = false) → exec (.deadlineExpiry id late) s =
        .next (endTstreams (refillAfter (finishXfer (logRecord u pXBAR ((whoOf u x).site
          ((whoOf u x).fail stDeadline 1 tl.src))) x.id stDeadline) x)))) ∧
    (d < 8 →
      (die.state = 0 → (hot (pSTK d) die → ∃ u, exec (.dieRetrainDue d (.temperature now)) s = .next u ∧
          (stackTraining u d).state = 1) ∧
        (worn (pSTK d) → ∃ u, exec (.dieRetrainDue d (.corrections n)) s = .next u ∧ (stackTraining u d).state = 1) ∧
        (ByPf s src (pSTK d) → v.getLsbD 0 = true → ∃ u, exec (.retrainCmd src (pSTK d) v) s = .next u ∧
          (stackTraining u d).state = 1)) ∧
      (die.state = 1 → dieIdle s d = true → ∃ u, exec (.dieTrainingStart d) s = .next u ∧ (stackTraining u d).state = 2 ∧
        targetHeld u (.sconce (8 * d)) = true) ∧
      (die.state = 2 →
        exec (.dieReady d true now) s = .next (settle (logEvt (setStack s d (fun u => up u now)) (pSTK d) 0)) ∧
        (die.fails < 2 → exec (.dieReady d false now) s = .next (setStack s d (fun u => { u with fails := u.fails + 1 }))) ∧
        (2 ≤ die.fails → computeReset s ≠ some true → exec (.dieReady d false now) s = .next (autoReset
          (setStack (logErr s (pSTK d) 0 { status := stUncorr }) d (fun u => { u with fails := 0 })) 4 0 true)))) ∧
    (c < 24 →
      (chn.state = 0 →
        let starts (i : Instr) : Prop := ∃ u, exec i s = .next u ∧ (capTraining u c).state = (if busy then 1 else 2)
        (hot (pCAP c) chn → starts (.channelRetrainDue c (.temperature now))) ∧
        (worn (pCAP c) → starts (.channelRetrainDue c (.corrections n))) ∧
        (ByPf s src (pCAP c) → v.getLsbD 0 = true → starts (.retrainCmd src (pCAP c) v))) ∧
      (chn.state = 2 →
        exec (.channelReady c true) s = .next (settle (nextChannel (logEvt (setCap s c (fun u =>
          up u (sensorReading s 64))) (pCAP c) 0) (c / 4))) ∧
        (chn.fails < 2 → exec (.channelReady c false) s = .next (setCap s c (fun u => { u with fails := u.fails + 1 }))) ∧
        (2 ≤ chn.fails → computeReset s ≠ some true → exec (.channelReady c false) s = .next (nextChannel (autoReset
          (setCap (logErr s (pCAP c) 0 { status := stUncorr }) c (fun u => { u with fails := 0 })) 4 0 true) (c / 4)))))

/-! ### The host link -/

/-- 13 R359 to R367, R371, R376, R380, R381, R384 to R386; 14 R401; 16 R452; 17 R494: a CXL.mem request goes to its home under its
decoder's context and view for the host's agent, or answers poisoned data or a counted failure; BIRsp answers a snoop, its
bound or a lost link declares the host dead; sweeps, window maps, HDM commits; resets of a function and of the link; ATS
invalidation; configuration, Reservoir and forwarding-slot accesses; the mailboxes; LINK_STAT. -/
def Obligations.HostLink : Prop :=
  ∀ (s t : State) (src : RegSrc) (addr v mask : W64) (mv : BitVec 2) (d : List Byte) (line n off len : Nat) (ag : BitVec 10),
    let a := addr.toNat / 64 * 64
    let host := hostAgent s
    let intent := if mv = 3 then 0 else mv.toNat
    let free := (Config.freeWord s.free).toNat
    let quiet : Prop := s.dir.entries = [] ∧ s.dir.waiting = [] ∧ s.dir.answers = []
    let reg (k : Nat) : W64 := regGet s (rkBank pDIR k (srcBank src))
    (cxlOn s = true →
      (decoderOf s a = none →
        (∃ u, exec (.memrd addr mv) s = .next (emit u (.memData addr (ones 64) true))) ∧
        (∃ u, exec (.memwr addr mv mask d false) s = .next (emit u (.memCmp addr)) ∧ u.store = s.store)) ∧
      (∀ w c base leaf, decoderOf s a = some w → ctxOf s w.ctx = some c → agentMay s host c.part = true →
        partResetting s c.part = false → leaf.c = w.coherent →
        let dva := c.viewBase.toNat + (a - w.base.toNat)
        let under (q : Packet) (opc : BitVec 4) (arg : W32) (payload : List Byte) : Prop := q.opc = opc ∧ q.arg = arg ∧
          q.payload = payload ∧ q.addr = BitVec.ofNat 57 (saUnder base leaf dva) ∧ q.key = leaf.key ∧ q.part = c.part ∧
          q.coh = leaf.c ∧ q.ekind = 0 ∧ q.eidx = BitVec.ofNat 12 (host.toNat + 1024 * intent)
        (runEng (translate { eng := .work, part := c.part, ctx := w.ctx } .l2 .read dva) s = some (.ok (base, leaf), t) →
          hostAgent t = host → ∃ q, exec (.memrd addr mv) s = .next (submit t ⟨q, .hostRead addr⟩ false) ∧ under q 0 64 []) ∧
        (runEng (translate { eng := .work, part := c.part, ctx := w.ctx } .l2 .write dva) s = some (.ok (base, leaf), t) →
          hostAgent t = host → d.length = 64 → ∃ q,
          exec (.memwr addr mv mask d false) s = .next (submit t ⟨q, .hostWrite addr⟩ false) ∧
          if mask = BitVec.allOnes 64 then under q 1 0 d else under q 2 0 (d ++ leBytes 8 mask.toNat ++ zeros 24)) ∧
        ∃ u, exec (.memwr addr mv mask d true) s = .next (emit u (.memCmp addr)) ∧ u.store = s.store)) ∧
    (∀ p st r, deliver s (.hostRead addr) p 0 d r = emit s (.memData addr d false) ∧
      (st ≠ 0 → ∃ u, deliver s (.hostRead addr) p st d r = emit u (.memData addr (ones 64) true)) ∧
      deliver s (.hostWrite addr) p 0 d r = emit s (.memCmp addr)) ∧
    (∀ x, (s.host.bisnp.take 1024).find? (fun b => decide (b.1 = line)) = some x →
      let data := (some d).map (fun e => (e ++ zeros 64).take 64)
      (x.2.2.src = s.xbar.agentId → exec (.birsp line (some d)) s = .next (settleDir (dirAnswer (dropBisnp s line)
        (homeLine (dropBisnp s line) x.2.2) x.2.2.dst 0 (data.getD []) false))) ∧
      (x.2.2.src ≠ s.xbar.agentId → exec (.birsp line (some d)) s = .next (answer (dropBisnp s line) x.2.2 0 (data.getD []))) ∧
      exec (.bisnpTimeout line) s = .next (hostDies (logErr s pHOST 2
        { status := stTargetDead, kind := 2, addr := 64 * line, agent := some host }))) ∧
    (s.host.dead = false →
      (s.host.deadTimer = true → dlActive s = false → exec .dlInactiveTimeout s = .next (hostDies s)) ∧
      (ByPf s src pHOST → exec (.declareDead src) s = .next (hostDies s)) ∧
      (quiet → s.host.bisnp = [] → (hostDies s).host.dead = true ∧ (hostDies s).host.deadTimer = false)) ∧
    (ByPf s src pHOST → s.host.dead = true → s.dir.hostDue = none → (∀ w, s.dir.sweep = some w → w.hostDead = false) →
      exec (.revive src) s = .next (s.setHost (fun h => { h with dead := false }))) ∧
    (ByPf s src pDIR → s.dir.sweep = none →
      exec (.deadSweep src ag) s = .next (startSweep s ag false false) ∧
      exec (.removeSweep src ag) s = .next (startSweep s ag true false) ∧
      (∀ r, quiet → (startSweep s ag r false).dir.sweep = some ⟨ag, r, false⟩)) ∧
    (hasEntry s line = true → (dirEntry s line).busy = false → (dirEntry s line).state = 2 → ag ∈ (dirEntry s line).ptrs →
      sweepEntry s ag false line = forfeitLine (putEntry s line (entryI (dirEntry s line))) line ag) ∧
    (s.dir.sweep ≠ none → s.dir.txns = [] → exec .sweepEnd s = .next (nextSweep (logEvt (s.setDir (fun x =>
      { x with sweep := none, walked := 0x1000000 })) pDIR 0))) ∧
    (ByPf s src pDIR → let k := (reg 0x100).toNat % 16
      let i := (reg 0x100).toNat / 16 % 16
      let old := wordOf (tget CohWin.off s.dir.windows k).cache i
      (old &&& ~~~ v = 0 → ∃ u, exec (.cwinCacheClear src v) s = .next u ∧
        wordOf (tget CohWin.off u.dir.windows k).cache i = v ∧ u.dir.sweep = s.dir.sweep) ∧
      (old &&& ~~~ v ≠ 0 → s.dir.sweep ≠ none → exec (.cwinCacheClear src v) s = .next (refuse s pDIR 3 0x110)) ∧
      (old &&& ~~~ v ≠ 0 → s.dir.sweep = none → s.dir.hostDue = none → s.dir.sweepDue = [] → quiet → ∃ u w,
        exec (.cwinCacheClear src v) s = .next u ∧ wordOf (tget CohWin.off u.dir.windows k).cache i = v ∧
        u.dir.sweep = some w ∧ w.remove = true)) ∧
    (n < 16 → let w := tget Window.off s.host.windows n
      w.committed = false → s.host.stopped = false → ∀ coh ways,
      (mayCommit s w addr.toNat v.toNat coh ways = true → exec (.hdmCommit n addr v coh ways) s = .next (s.setHost (fun h =>
        { h with windows := tput h.windows n { w with committed := true, base := addr, size := v, status := 0 } }))) ∧
      (mayCommit s w addr.toNat v.toNat coh ways = false → ∃ u, exec (.hdmCommit n addr v coh ways) s = .next u ∧
        tget Window.off u.host.windows n = { w with status := stFormat })) ∧
    (∀ f : BitVec 6, f ≠ 0 → functionOn s f = true → s.host.stopped = false → exec (.functionLevelReset f) s = .next (autoReset
      (s.setHost (fun h => { h with cfgSpace := h.cfgSpace.filter (fun e => e.1 / 4096 ≠ f.toNat) })) 3 f.toNat false)) ∧
    (s.power.mainOn = true →
      (s.power.perstN = true → exec (.hostLinkReset true) s = .next (resetHostLink
        ((s.setPower (fun p => { p with perstN := false })).setHost (fun h => { h with inReset := true })))) ∧
      (s.host.inReset = false → dlActive s = true → exec (.hostLinkReset false) s = .next (resetHostLink s)) ∧
      (s.host.inReset = false → v &&& 0x1FFF ≠ s.host.linkStat → ∃ u, exec (.linkChange v) s = .next u ∧
        u.host.linkStat = v &&& 0x1FFF ∧
        u.host.deadTimer = (if v.getLsbD 12 then false else s.host.deadTimer || dlActive s))) ∧
    (s.power.perstN = false → ∃ u, exec .perstRelease s = .next u ∧ u.power.perstN = true ∧ u.host.inReset = false) ∧
    (∃ u, exec (.atsInvalidation addr v) s = .next (emit u .atsDone) ∧ u.xlt.atc = s.xlt.atc.filter (fun e =>
      ¬ (e.1.toNat < addr.toNat + v.toNat ∧ addr.toNat < e.1.toNat + 4096))) ∧
    (∀ (f : BitVec 6) (o : BitVec 12) (x : W32), dlActive s = true → s.host.stopped = false →
      (s.lamp.booting = true → ∀ w, exec (.configRequest f w o x) s = .next (emit s .cfgRetry)) ∧
      (s.lamp.booting = false → functionOn s f = true →
        (f ≠ 0 → exec (.configRequest f true o x) s =
          .next (s.setHost (fun h => { h with cfgSpace := tput h.cfgSpace (cfgKey f o) x }))) ∧
        (∀ y, tfind s.host.cfgSpace (cfgKey f o) = some y →
          exec (.configRequest f false o x) s = .next (emit s (.cfgData y))))) ∧
    (src = .pf → s.host.stopped = false → s.host.notFront = false →
      (d ≠ [] → off + d.length ≤ 0x8000000 →
        exec (.reservoirBarAccess src off len (some d)) s = .next (reservoirWrite s off d)) ∧
      (0 < len → off + len ≤ 0x8000000 → reservoirBad s off len = false →
        exec (.reservoirBarAccess src off len none) s = .next (emit s (.barData (reservoirRead s off len))))) ∧
    (src.ok = true → ∀ c x, slotFor s src n = some (c, x) → let b := x.base.toNat + off
      (0 < d.length → off + d.length ≤ 0x40000 → b % 64 + d.length ≤ 64 → ∃ q : Packet,
        exec (.forwardWrite src n off d) s = .next (sendNew s q .forwardWrite) ∧ q.opc = 2 ∧ q.dst = x.agent ∧
        q.xl = false ∧ q.part = c.part ∧ q.addr = BitVec.ofNat 57 (b / 64 * 64 % 2 ^ 48) ∧
        ∀ i < 64, (maskOf q).getD i false = decide (b % 64 ≤ i ∧ i < b % 64 + d.length) ∧
          (b % 64 ≤ i → i < b % 64 + d.length → q.payload.getD i 0 = d.getD (i - b % 64) 0)) ∧
      (off + len ≤ 0x40000 → b % 64 + len ≤ 64 → ∃ q : Packet,
        exec (.forwardRead src n off len) s = .next (sendNew s q (.forwardRead len (b % 64))) ∧ q.opc = 0 ∧
        q.dst = x.agent ∧ q.xl = false ∧ q.part = c.part ∧ q.addr = BitVec.ofNat 57 (b / 64 * 64 % 2 ^ 48))) ∧
    (let gives (op : W16) (l : List AnsVal) : Host.Outcome State Fault Refusal :=
      .next (emit { s with free := s.free + 1 } (.mailbox op true (l ++ [.num free])))
     exec .identifyMemoryDevice s = gives 0x4000 [.num s.store.homeLen] ∧ exec .getSupportedLogs s = gives 0x0400 [] ∧
      (∀ k, exec (.getLog k off len) s = gives 0x0401 [.num k, .num off, .num len]) ∧
      exec .getHealthInfo s = gives 0x4200 [.num (sensorReading s 64).toNat] ∧
      exec (.getEventRecords n) s = .next (emit s (.mailbox 0x0100 true (s.host.events.getD n []))) ∧
      (∃ u, exec (.clearEventRecords n len) s = .next (emit u (.mailbox 0x0101 true [])) ∧
        u.host.events.getD n [] = (s.host.events.getD n []).drop len) ∧
      ∀ op, exec (.mailboxUnsupported op) s = .next (emit s (.mailbox op false []))) ∧
    (dlActive s = true → s.host.stopped = false →
      (∀ c, exec (.doeRequest (.spdm c)) s = .next (emit s (.doe (Config.spdmAnswer c)))) ∧
      (∀ m k, m ≤ 8 → exec (.doeRequest (.ideKeyProg m k)) s =
        .next (emit (s.setHost (fun h => { h with ide := tput h.ide m k })) (.doe []))) ∧
      (∀ m, (tfind s.host.ide m).isSome → ∃ u, exec (.doeRequest (.ideKeyGo m)) s = .next (emit u (.doe [])) ∧
        m ∈ u.host.ideGo ∧ (m = 0 → u.host.linkStat.getLsbD 11 = true)) ∧
      (∀ m, ∃ u, exec (.doeRequest (.ideKeyStop m)) s = .next (emit u (.doe [])) ∧ m ∉ u.host.ideGo))

/-! ### Errors, the Lamplighter, resets -/

/-- 15 R413, R414, R416 to R418, R423, R426, R427, R429; 17 R476, R477: an error sets its bit and enters its island's queue; the ring
writer takes the oldest record and gives it the next SEQ; an export copies records for its partition, or counts them when
its ring is full; beacons count; a hang restarts the Lamplighter and the third within 10 s makes the watchdog give up.
RESET_CMD starts a reset of its level, or joins one that holds its scope; a missed bound starts the next level; level 5
asks for a power cycle; a fatal stop freezes the engines and the host link and begins a dump. -/
def Obligations.ErrorsAndResets : Prop :=
  ∀ (s : State) (src : RegSrc) (v : W64) (sc n : Nat) (island : Byte) (pt : BitVec 6) (hc : HostCpl),
    let level := v.toNat % 8
    let target := v.toNat / 2 ^ 32 % 2 ^ 20
    let x := exportOf s pt.toNat
    (∀ p b f, p < 154 → b < 64 → (regGet (logErr s p b f) (rk p 0x20)).getLsbD b = true ∧
      (regGet s (rk p 0x20) ≠ 0 → regGet (logErr s p b f) (rk p 0x30) = regGet s (rk p 0x30))) ∧
    (∀ r cap rest, s.power.mainOn = true → tget [] s.errs.queues island.toNat = (r, cap) :: rest → ∃ t,
      exec (.errorRecordWrite island) s = .next t ∧ tget [] t.errs.queues island.toNat = rest ∧
      tfind t.errs.ring (s.errs.seq.toNat % 262144) = some { r with seq := s.errs.seq } ∧ t.errs.seq = s.errs.seq + 1 ∧
      ∀ p, cap = some p → (regGet t (rk p 0x30)).extractLsb' 32 32 = s.errs.seq) ∧
    (lampServes s = true → x.enabled = true → frozen s = false → (s.errs.seq - x.next).toNat ≤ 262144 →
      ∀ r, nextRecord s pt.toNat = some r →
      (x.full = true → exec (.recordExport pt hc) s = .next (logEvt (dropExport
        (setExport s pt.toNat (fun x => { x with next := r.seq + 1 })) pt.toNat 1) pLMP 0)) ∧
      (x.full = false → x.ring.getLsbD 63 = false → x.cfg.getLsbD 42 = false → x.cfg.getLsbD 54 = false → ∀ y t,
        runEng (writeDva (exportWho pt.toNat x) .l2 (bits x.ring.toNat 6 51 * 64 + 64 * (x.head.toNat % 2 ^ x.n))
          (recordBytes r)) s = some (.ok y, t) → exportOf t pt.toNat = x →
        ∃ u, exec (.recordExport pt hc) s = .next u ∧ u = { t with errs := u.errs } ∧
          exportOf u pt.toNat = { x with next := r.seq + 1, head := x.head + 1 })) ∧
    (lampServes s = true → s.lamp.booting = false → ∃ t, exec .beacon s = .next t ∧ t.lamp.beacon = s.lamp.beacon + 1 ∧
      ∀ k < 2, ∃ rest, Out.frame 1 k none 0 [.bytes (leBytes 8 (s.lamp.beacon + 1).toNat ++ rest)] ∈ t.out) ∧
    (s.power.mainOn = true → s.lamp.booting = false → s.lamp.gaveUp = false → ∀ within : Bool,
      let k := if within then s.lamp.hangs + 1 else 1
      (3 ≤ k → ∃ t, exec (.watchdogHang within) s = .next t ∧ t.lamp.gaveUp = true ∧ t.lamp.restarting = false ∧
        t.power.alert.getLsbD 2 = true) ∧
      (k < 3 → ∃ t, exec (.watchdogHang within) s = .next t ∧ t.lamp.gaveUp = false ∧ t.lamp.restarting = true ∧
        t.power.alert.getLsbD 1 = true ∧ (s.lamp.restarts ≠ 255 → t.lamp.restarts = s.lamp.restarts + 1))) ∧
    (s.lamp.restarting = true → s.lamp.heldWrites = [] → exec .lamplighterResume s = .next (settle (emit
      ((s.setLamp (fun l => { l with restarting := false })).setMon (fun m => { m with sessions := [] }))
      (.serialBanner s.lamp.beacon)))) ∧
    (n < 32 → ∀ (int : Bool) (g : Option Nat), int = true ∨ copyHolds s n = true →
      exec (.copyEngineHang n int g) s = .next (suspectReplay s n (if int then stUncorr else stReset) g)) ∧
    (src.ok = true → mayReset s src level target = true → s.lamp.gaveUp = false →
      (level = 1 → exec (.contextReset src v) s = .next (beginReset s 1 target false false)) ∧
      (level = 2 → target < 96 → exec (.engineReset src v) s = .next (beginReset s 2 target false false)) ∧
      (level = 3 → target < 64 → exec (.partitionReset src v) s = .next (beginReset s 3 target false false)) ∧
      (level = 4 → exec (.computeReset src v) s = .next (beginReset s 4 target (v.getLsbD 3) (v.getLsbD 4))) ∧
      (level = 5 → ∃ t, exec (.powerCycleRequest src v) s = .next t ∧ t.power.cycleReq = true ∧
        t.power.alert.getLsbD 4 = true ∧ t.lamp.running = s.lamp.running)) ∧
    (src.ok = true → level ∈ [1, 2, 3, 4] → mayReset s src level target = false →
      ∀ i, (level, i) ∈ [(1, (.contextReset src v : Instr)), (2, .engineReset src v), (3, .partitionReset src v),
        (4, .computeReset src v)] → exec i s = .next (refuse s pTOP 1 0x100)) ∧
    (∀ lv tg (re ma : Bool), let r : Running := ⟨lv, tg, re, ma, false⟩
      (s.lamp.running.any (fun y => scopeHolds s y lv tg) = true → beginReset s lv tg re ma =
        setResetStat (s.setLamp (fun l => { l with running := l.running ++ [{ r with taken := true }] })) true lv 0 tg) ∧
      (s.lamp.running = [] → beginReset s lv tg re ma =
        settle (resetActs (setResetStat (s.setLamp (fun l => { l with running := [r] })) true lv 0 tg) lv tg re ma))) ∧
    (sc < 64 → ((resetActs s 2 sc false false).sconce sc).resetting = true) ∧
    (n < 32 → n ∈ (resetActs s 2 (64 + n) false false).work.copyReset) ∧
    (pt ∈ (resetActs s 3 pt.toNat false false).work.partReset) ∧
    (sc < 64 → ByPf s src (pSCN sc) →
      (∀ on, exec (.quiesce src sc on) s = .next (settle (s.setSconce sc (fun c => { c with quiesce := on })))) ∧
      exec (.sconceReset src sc) s = .next (beginReset s 2 sc false false)) ∧
    (∀ r : Running, s.lamp.running.find? (fun y => y.level == r.level && y.target == r.target && !y.taken) = some r →
      let u := (logErr s pTOP 0 { status := stReset }).setLamp (fun l =>
        { l with escalated := if l.escalated = 255 then 255 else l.escalated + 1 })
      (r.level = 2 → r.target < 64 → exec (.resetOverrun r.level r.target) s =
        .next (settle (autoReset u 3 (sconceOwner s r.target).toNat false))) ∧
      (r.level = 2 → 64 ≤ r.target → exec (.resetOverrun r.level r.target) s = .next (settle (autoReset u 4 0 false))) ∧
      (r.level = 3 → exec (.resetOverrun r.level r.target) s = .next (settle (autoReset u 4 0 false)))) ∧
    (∀ c : Byte, 2 ≤ c.toNat → c.toNat ≤ 5 → s.power.mainOn = true → s.lamp.dump = none → ∃ t d,
      exec (.fatalStop c) s = .next t ∧ t.lamp.fatal = true ∧ t.host.stopped = true ∧ frozen t = true ∧
      t.power.alert.getLsbD 3 = true ∧ t.lamp.dump = some d ∧ d.cause = c ∧ d.status = stUncorr ∧
      ∀ k, (t.port k).state = if (s.port k).state = 0 then 0 else 5)

/-! ### Boot, calibration, ember -/

/-- 16 R444 to R447, R453, R459, R461; 02 R36, R66; 18 R510, R514: a cold boot finds every memory clear and keeps the factory's data;
it halts without an image, without a good blob, or when capacity memory or flash fails, and otherwise waits at its last
step, whose end sends the first beacon. CAL_CMD, CLASS_REQ and POOL_CFG start a new copy of the user area, which
becomes current once written. A dump that has been written asks for a power cycle, and EMBER_READ returns its bytes. -/
def Obligations.BootCalibrationEmber : Prop :=
  ∀ (s u : State) (scan : BootScan) (src : RegSrc) (v : W64) (q : Nat) (e : W512) (c : Cmd) (hc : HostCpl),
    let lamp := s.lamp
    let starts (t : State) (es : List W64) : Prop := t.lamp.newCopy = some ⟨true, (userCopy s).generation + 1, es⟩
    let kept (item : Nat) : List W64 := (userCopy s).entries.filter (fun x => !(entItem x == item && entIndex x == 0))
    let usable (slot : Bool) : Prop := if slot then scan.slotBOk = true ∧ lamp.minVer ≤ lamp.slotBVer
      else scan.slotAOk = true ∧ lamp.minVer ≤ lamp.slotAVer
    (bootDue s = true → ∃ t, exec (.coldBoot scan) s = .next t ∧ t.scratch = [] ∧ t.imem = [] ∧ t.reservoir = [] ∧
      t.store.cells = [] ∧ t.store.written = [] ∧ t.wicks = [] ∧ t.plans = [] ∧ t.work.queues = [] ∧
      factoryData t = factoryData s ∧
      ((¬ usable true ∧ ¬ usable false) ∨ scan.blobOk = false ∨ scan.capOk = false ∨ scan.flashBad ≠ 0 →
        t.lamp.halted = true ∧ t.lamp.booting = true ∧ t.power.alert.getLsbD 0 = true) ∧
      (usable true ∨ usable false → scan.blobOk = true → scan.capOk = true → scan.flashBad = 0 →
        t.lamp.halted = false ∧ t.lamp.booting = true ∧ t.lamp.bootStep = 9 ∧ (keySlot t 0).valid = true ∧
        t.store.homeLen = homeLength t.store)) ∧
    (mainUp s = true → lamp.booting = true → lamp.bootStep = 9 → lamp.halted = false → exec .coldBootReady s =
      .next (settle (sendBeacon (s.setLamp (fun l => { l with bootStep := 10, booting := false }))))) ∧
    (ByPf s src pLMP → lamp.gaveUp = false → lamp.restarting = false → v.getLsbD 32 = true →
      (lamp.newCopy ≠ none → exec (.calCmd src v) s = .next (lastDone s lcCal (srcBank src) stBusy)) ∧
      (∀ st, lamp.newCopy = none → readCopy s (64 * (v.toNat / 64 % 2 ^ 21)) = .error st →
        exec (.calCmd src v) s = .next (lastDone s lcCal (srcBank src) st)) ∧
      (∀ es, lamp.newCopy = none → readCopy s (64 * (v.toNat / 64 % 2 ^ 21)) = .ok es → ∃ t,
        exec (.calCmd src v) s = .next t ∧ starts t es ∧ lastCmd t lcCal (srcBank src) = 0x100)) ∧
    (∀ x, lamp.newCopy = some x → ∃ t, exec .calWritten s = .next t ∧ userCopy t = x ∧ t.lamp.newCopy = none ∧
      (t.lamp.userA = lamp.userA ∨ t.lamp.userB = lamp.userB)) ∧
    (ByPf s src pPWR → v.toNat % 4 ≠ 0 → lamp.newCopy = none → (kept 1).length < 8184 → ∃ t,
      exec (.classReq src v) s = .next t ∧ starts t (kept 1 ++ [BitVec.ofNat 64 (1 + 2 ^ 32 * (v.toNat % 4))])) ∧
    (ByPf s src pPLC → v.toNat % 256 ≤ 96 → v.toNat / 256 % 256 ≤ 32 → lamp.newCopy = none → (kept 2).length < 8184 → ∃ t,
      exec (.poolCfg src v) s = .next t ∧ starts t (kept 2 ++ [BitVec.ofNat 64 (2 + 2 ^ 32 * (v.toNat % 65536))]) ∧
      regGet t (rk pPLC 0x108) = BitVec.ofNat 64 (v.toNat % 65536)) ∧
    (∀ d, lamp.dump = some d → s.power.heldCmds = [] → ∃ t, exec (.emberDump true) s = .next t ∧ t.lamp.dump = none ∧
      t.power.cycleReq = true ∧ t.power.alert.getLsbD 4 = true ∧
      (d.early = false → emberSlot t false = emberOf s d ∧
        (lamp.emberA.valid = true → emberSlot t true = emberSlot s false))) ∧
    (Starts s q e [(128, 8), (192, 64), (256, 32), (288, 32)] .work c u → fld e 0 1 = 0x0E →
      let dst := fld e 24 8
      let off := fld e 32 4
      let n := fld e 36 4
      let x := emberSlot u (fld e 16 1 == 1)
      fld e 16 1 ≤ 1 → 1 ≤ n → n ≤ 262144 → (bits dst 60 4 = 3 ∨ spaceOk dst = true) →
      (x.valid = false → exec (.emberRead q e hc) s = .next (settle (failCmd u c stLost))) ∧
      (x.valid = true → 2 ^ 20 < off + n → exec (.emberRead q e hc) s = .next (settle (failCmd u c stFormat))) ∧
      (x.valid = true → off + n ≤ 2 ^ 20 → bits dst 60 4 = 3 → inAperture u c.ctx (dst % 2 ^ 60) (4096 * n) = true →
        ∃ v, Ends (.emberRead q e .ok) s c v 0 x.generation ∧
          cellRead v.host.mem (dst % 2 ^ 60) (4096 * n) = emberBytes u x (4096 * off) (4096 * n) ∧
          v.reservoir = u.reservoir))

/-! ### The monitor -/

/-- 18 R501 to R509, R515; 19 R527: a session's command line is counted and answered if its level allows it and answered PERM_FAULT otherwise;
what each command answers and does; the unlock exchange and its lockout; sessions opened by MON_REQ, whose repeated SEQ is
answered from store; breaks, framing errors, expiries; the operator key and the pins' registers of the same page. -/
def Obligations.Monitor : Prop :=
  ∀ (s : State) (ss : MonSess) (src : RegSrc) (off n : Nat) (v : W64) (seq : W32) (h : W512) (mac : BitVec 48) (sq : W16),
    let k := sessionKey ss
    let z := session s k
    let s1 := if k = 0 then s.setMon (fun m => { m with breakHeld := false }) else s
    let u := (setSession s1 k (fun z => { z with open_ := true })).setMon (fun m =>
      { m with commands := if m.commands = 0xFFFF then m.commands else m.commands + 1 })
    let rows : List (Instr × MonCmd) := [(.help ss 4 false, .help), (.stat ss, .stat), (.rd ss off n, .rd off n),
      (.wr ss off v, .wr off v), (.ering ss seq n, .ering seq n), (.fblob ss, .fblob), (.reset ss off n, .reset off n),
      (.emberList ss, .emberList), (.monEmberRead ss off n 1, .emberRead off n 1), (.emberErase ss off, .emberErase off),
      (.spird ss off n, .spird off n), (.sard ss v n, .sard v n), (.chal ss n, .chal n), (.ans ss n h, .ans n h),
      (.lock ss, .lock)]
    let serves : Prop := ss.ok = true ∧ monServes s = true ∧ (k = 0 ∨ z.open_ = true)
    let replies (t : State) (c : MonCmd) (body : List AnsVal) (after : State) : Prop := runMon t k c = ⟨body, 0, after⟩
    let msg (nonce : BitVec 128) (level : BitVec 2) : List Byte := [0x4C, 0x45, 0x52, 0x54, 0x45, 0x52, 0x30, 0x31] ++
      leBytes 16 nonce.toNat ++ leBytes 16 s.lamp.serial.toNat ++ [level.setWidth 8]
    (serves → ∀ i c, (i, c) ∈ rows →
      (levelOf c ≤ z.level.toNat → (s.lamp.halted = true → romAccepts c = true) → exec i s =
        .next (answerTo (runMon u k c).after ss (runMon u k c).body (runMon u k c).final)) ∧
      (z.level.toNat < levelOf c ∨ (s.lamp.halted = true ∧ romAccepts c = false) → exec i s =
        .next (answerTo (setSession s1 k (fun z => { z with open_ := true })) ss [] stPerm))) ∧
    (serves → ∀ len lost, 255 < len ∨ lost = true → exec (.help ss len lost) s = .next (answerTo s1 ss [] stFormat)) ∧
    (0 < n → n ≤ 64 → off % 8 = 0 → off + 8 * n ≤ 2 ^ 26 → let r := readAll s (sessionSrc k) off n
      replies s (.rd off n) r.1 r.2) ∧
    (off < 2 ^ 26 → replies s (.wr off v) [] (settle (barWrite s (sessionSrc k) off 8 v))) ∧
    (0 < n → n ≤ 64 → ∃ body, replies s (.ering seq n) body s ∧ ∀ j < n, ∀ e, s.errs.ring.find? (fun e =>
      e.2.seq == seq + BitVec.ofNat 32 j) = some e → AnsVal.bytes (recordBytes e.2) ∈ body) ∧
    (replies s .fblob (s.lamp.factory.map (fun f => .bytes (leBytes 2 f.item.toNat ++ leBytes 2 f.index.toNat ++
      leBytes 4 f.value.toNat ++ leBytes 4 f.min.toNat ++ leBytes 4 f.max.toNat))) s) ∧
    (off < 8 → n < 2 ^ 20 → replies s (.reset off n) [] (settle (resetWrite s (sessionSrc k) (word [(0, off), (32, n)])))) ∧
    (off ≤ 1 → (emberSlot s (off == 1)).valid = true → 64 * n + 64 ≤ 2 ^ 32 →
      replies s (.emberRead off (64 * n) 1) [.bytes (emberBytes s (emberSlot s (off == 1)) (64 * n) 64)] s) ∧
    (off ≤ 1 → emberReading s (off == 1) = false → ∃ t, replies s (.emberErase off) [] t ∧
      (off = 1 → emberSlot t false = emberSlot s false ∧ (emberSlot t true).valid = false) ∧
      (off = 0 → emberSlot t false = emberSlot s true ∧ (emberSlot t true).valid = false)) ∧
    (0 < n → n ≤ 4096 → replies s (.spird off n) [.bytes (cellRead s.lamp.spi off n)] s) ∧
    (let o := v.toNat % 2 ^ 50
     let ls := (List.range ((n + 63) / 64)).map (o / 64 + ·)
     0 < n → n ≤ 4096 → v.toNat / 2 ^ 50 = s.store.homeId.toNat → o + n ≤ s.store.homeLen → o % 64 = 0 →
     (∀ l ∈ ls, l ∈ s.store.written ∧ lineBad s l = false ∧ (blockGet s (l / 1024)).lost = false) →
     replies s (.sard v n) [.bytes ((ls.map (fun l => bytesOf (lineStored s l))).flatten.take n)] s) ∧
    ((n = 1 ∨ n = 2) → (s.lamp.moduleTime < z.lockUntil → runMon s k (.chal n) = ⟨[], stBusy, s⟩) ∧
      (¬ s.lamp.moduleTime < z.lockUntil → (n = 1 → s.mon.opkey ≠ none) → ∃ t,
        replies s (.chal n) [.bytes (leBytes 16 (Config.entropyNonce s.free).toNat)] t ∧
        (session t k).nonce = some (Config.entropyNonce s.free) ∧ (session t k).want.toNat = n)) ∧
    (n < 7 → ∃ t, replies s (.ans n h) [] t ∧ tget 0 (session t k).parts n = h ∧ (session t k).nonce = z.nonce) ∧
    (∀ nonce, z.nonce = some nonce → let sig := ((List.range 7).map (fun i => (bytesOf (tget 0 z.parts i)).reverse)).flatten ++
        (bytesOf h).reverse
      (∀ i < 7, ∃ x, (i, x) ∈ z.parts) →
      let good := if z.want = 2 then Config.rsaVerify Config.serviceKey (msg nonce z.want) sig
        else (s.mon.opkey.map (fun key => Config.rsaVerify key (msg nonce z.want) sig)).getD false
      (good = true → ∃ t, replies s (.ans 7 h) [] t ∧ (session t k).level = z.want ∧ (session t k).fails = 0 ∧
        (session t k).nonce = none) ∧
      (good = false → ∃ t, runMon s k (.ans 7 h) = ⟨[], stPerm, t⟩ ∧ (session t k).level = z.level ∧
        (session t k).nonce = none ∧ (z.fails < 2 → (session t k).fails = z.fails + 1) ∧
        (2 ≤ z.fails → (session t k).lockUntil = s.lamp.moduleTime + 6000000000))) ∧
    (∃ t, replies s .lock [] t ∧ (session t k).level = 0) ∧
    (∀ p i c, p < 2 → i < 4 → monServes s = true → let j := sessionKey (.eth p i)
      findSlot s p (fun z => z.open_ && z.mac == mac) = some i →
      ((session s j).lastSeq = some sq → exec (.monReq p mac sq c) s =
        .next (answerTo s (.eth p i) (session s j).answer (session s j).final)) ∧
      ((session s j).lastSeq ≠ some sq → let r := monCommand (setSession s j (fun z => { z with lastSeq := some sq })) j c
        exec (.monReq p mac sq c) s = .next (answerTo r.after (.eth p i) r.body r.final))) ∧
    (∀ p c, p < 2 → monServes s = true → findSlot s p (fun z => z.open_ && z.mac == mac) = none →
      findSlot s p (fun z => !z.open_) = none → exec (.monReq p mac sq c) s = .next (emit s (.frame 4 p (some mac) sq [.num 0x10]))) ∧
    (monServes s = true →
      (s.mon.breakHeld = false → ∃ t, exec .breakReset s = .next t ∧ (session t 0).nonce = none ∧
        (session t 0).parts = [] ∧ t.mon.breakHeld = true) ∧
      exec .framingError s = .next (bump (s.setMon (fun m => { m with breakHeld := false })) (rk pMON 0x118) 32 1)) ∧
    (ss.ok = true → exec (.nonceExpiry ss) s = .next (setSession s k (fun z => { z with nonce := none, parts := [] })) ∧
      exec (.sessionTimeout ss) s = .next (setSession s k (fun z => { z with open_ := false, level := 0 }))) ∧
    (ByPf s src pMON → s.lamp.gaveUp = false → s.lamp.restarting = false →
      (v.getLsbD 0 = true → ∃ t, exec (.monCmdLock src v) s = .next t ∧ (session t 0).level = 0 ∧
        (session t 0).open_ = false) ∧
      (v.getLsbD 32 = true → s.mon.newKey = none → let a := 64 * (v.toNat / 64 % 2 ^ 21)
        a + 512 ≤ 0x8000000 → reservoirBad s a 512 = false → ∃ t, exec (.opkeyCmd src v) s = .next t ∧
        t.mon.newKey = some (reservoirRead s a 512) ∧ t.mon.opkey = s.mon.opkey)) ∧
    (∀ key, s.mon.newKey = some key → ∃ t, exec .opkeyStored s = .next t ∧ t.mon.opkey = some key ∧ t.mon.newKey = none ∧
      ∀ e ∈ t.mon.sessions, e.2.level ≠ 1)

/-! ### Power, pins, sensors -/

/-- 17 R489, R490; 19 R519 to R525, R528, R531: PWR_EN and POWER_CMD turn the main rails on and off, not before the minimum time off,
and not while a dump is written; SYS_RESET_N, COLD_RESET and compute resets; trips; held resets and the coolant input
alert; alerts are cleared once their condition ends and repeated; a sensor's sample is calibrated, a failed one replaced,
and three samples above the limit stop the module. Power-down clears every memory of the main domain. -/
def Obligations.PowerAndPins : Prop :=
  ∀ (s : State) (src : RegSrc) (v : W64) (n : Nat) (raw al : W16) (addr : BitVec 7),
    let p := s.power
    let off (t : State) (cause : Byte) : Prop := t.power.mainOn = false ∧ t.power.pwrgd = false ∧ t.power.offWait = true ∧
      t.power.startCause = cause ∧ t.scratch = [] ∧ t.imem = [] ∧ t.reservoir = [] ∧ t.store.cells = [] ∧ t.wicks = [] ∧
      factoryData t = factoryData s
    let same (t : State) : Prop := t = { s with power := t.power }
    (p.feed = true →
      (∃ t, exec .powerOn s = .next t ∧ same t ∧ t.power.cmdOff = false ∧
        t.power.powerDue = (p.powerDue || (p.pwrEn && !p.mainOn))) ∧
      (s.lamp.dump = none → p.mainOn = true →
        (∃ t, exec .powerOff s = .next t ∧ off t 2 ∧ t.power.cmdOff = true ∧ t.power.powerDue = false) ∧
        (p.cycling = false → ∃ t, exec .cycle s = .next t ∧ off t 3 ∧ t.power.powerDue = p.pwrEn) ∧
        (∃ t, exec .coldReset s = .next t ∧ t.power.mainOn = true ∧ t.power.startCause = 7 ∧ t.scratch = [] ∧
          t.store.cells = [] ∧ t.lamp.booting = true ∧ factoryData t = factoryData s)) ∧
      (s.lamp.dump ≠ none → p.cycling = false → ∀ i c, (i, c) ∈ [((.powerOff : Instr), (2 : Byte)), (.cycle, 3), (.coldReset, 4)] →
        exec i s = .next (s.setPower (fun p => { p with heldCmds := p.heldCmds ++ [c] }))) ∧
      exec (.dynamicAddress addr) s = .next (s.setPower (fun p => { p with i3cAddr := some addr }))) ∧
    (mainUp s = true → s.lamp.booting = false → frozen s = false →
      exec .i3cComputeReset s = .next (autoReset s 4 0 false)) ∧
    (∃ t, exec (.alertClear al) s = .next t ∧ same t ∧
      ∀ b, t.power.alert.getLsbD b = (p.alert.getLsbD b && !(al.getLsbD b && !(heldAlerts s).getLsbD b))) ∧
    (∀ b < 16, p.alert.getLsbD b = true → (∀ c < b, p.alert.getLsbD c = false) →
      exec .alertRepeat s = .next (emit s (.ibi b))) ∧
    (p.pwrEn = false → ∃ t, exec .pwrEnHigh s = .next t ∧ same t ∧ t.power.pwrEn = true ∧
      t.power.powerDue = (p.powerDue || (!p.cmdOff && !p.mainOn))) ∧
    (p.mainOn = true → ∃ t, exec .pwrEnLow s = .next t ∧ off t 1 ∧ t.power.pwrEn = false ∧ t.power.powerDue = false) ∧
    (p.powerDue = true → p.offWait = false → p.feed = true → p.tripped = false → p.mainOn = false → p.pwrEn = true →
      exec .powerUp s = .next (s.setPower (fun p => { p with mainOn := true, pwrgd := true, powerDue := false, cycling := false }))) ∧
    (exec .minOffTimeEnd s = .next (s.setPower (fun p => { p with offWait := false }))) ∧
    (p.sysResetN = true → p.mainOn = true → s.lamp.dump = none → ∃ t, exec .sysResetAssert s = .next t ∧
      t.power.sysResetN = false ∧ t.power.startCause = 6 ∧ t.scratch = [] ∧ t.reservoir = [] ∧ t.lamp.booting = true) ∧
    (p.sysResetN = false → ∃ t, exec .sysResetRelease s = .next t ∧ same t ∧ t.power.sysResetN = true ∧
      t.power.heldNow.getLsbD 0 = false) ∧
    (∀ perst, (if perst then p.perstN else p.sysResetN) = false → p.heldNow.getLsbD (b2n perst) = false → ∃ t,
      exec (.resetHeld perst) s = .next t ∧ t.power.heldNow.getLsbD (b2n perst) = true ∧ t.power.alert.getLsbD 6 = true) ∧
    (∃ t, exec .coolantFault s = .next t ∧ t.power.coolantN = false ∧
      (coolantOn s = true → t.power.alert.getLsbD 9 = true) ∧ (coolantOn s = false → same t)) ∧
    (coolantOn s = true → 1000 < n → ∃ t, exec (.inputMasked n) s = .next t ∧ t.power.masked = true ∧
      t.power.alert.getLsbD 5 = true) ∧
    (ByPf s src pPWR → v.getLsbD 0 = true →
      exec (.pinUnmask src v) s = .next (s.setPower (fun p => { p with masked := false }))) ∧
    (p.feed = false → ∃ t, exec .feedConnect s = .next t ∧ t.power.feed = true ∧ t.power.tripped = false ∧
      t.power.mainOn = false ∧ t.power.powerDue = p.pwrEn) ∧
    (p.feed = true → p.tripped = false → ∃ t, exec .inputRangeTrip s = .next t ∧ off t 5 ∧ t.power.tripped = true) ∧
    (p.feed = true → p.mainOn = true → ∃ t, exec .overcurrentTrip s = .next t ∧ off t 4 ∧ t.power.tripped = true ∧
      t.power.alert.getLsbD 7 = true) ∧
    (n < 66 → let z := tget Sensor.fresh p.sensors n
      let r : Int := raw.toInt + (tget 0 p.tempOffset n).toInt
      z.failed = false →
      (-32768 ≤ r → r < 32768 → r ≤ stopLimitOf s n → ∃ t, exec (.sensorSample n raw) s = .next t ∧
        (tget Sensor.fresh t.power.sensors n).reading = BitVec.ofInt 16 r ∧
        (tget Sensor.fresh t.power.sensors n).overCount = 0 ∧ t.lamp.fatal = s.lamp.fatal) ∧
      (-32768 ≤ r → r < 32768 → stopLimitOf s n < r → 2 ≤ z.overCount → p.mainOn = true → ∃ t,
        exec (.sensorSample n raw) s = .next t ∧ t.lamp.fatal = true ∧ (s.lamp.fatal = false → s.lamp.dump = none → t.host.stopped = true)) ∧
      ∃ t, exec (.sensorFail n) s = .next t ∧ (tget Sensor.fresh t.power.sensors n).failed = true ∧
        (regGet t (rk pTHM 0x20)).getLsbD 0 = true)

/-! ### The whole machine -/

/-- Whatever the state, a command whose operands name units that the part has answers a next state; one that is not well
formed reaches no hardware, and answers the fault NO_SUCH_UNIT (the model's choice, log entry 2). -/
def Obligations.CommandsComplete : Prop :=
  ∀ (i : Instr) (s : State), (i.wellFormed = true → Runs (exec i s)) ∧
    (i.wellFormed = false → exec i s = .fault .noSuchUnit)

/-- 16 R458: no step, a tick among them, changes what the factory wrote; every step keeps every byte memory in its
canonical form (the model's own); and it takes at most the command at the front of the queue. -/
def Obligations.StepKeeps : Prop :=
  ∀ s t : State, step s = .next t →
    factoryData t = factoryData s ∧ (Canonical s → Canonical t) ∧ t.pending = s.pending.tail

/-- 02 R66; 17 R475, R477: right after reset every memory reads as zero and is canonical, every plain register holds its
reset value, and the placement page reads as its table gives; no wick runs, no plan exists and no queue is enabled. That
the cold boot has not begun is the model's choice of the moment (log entry 4). -/
def Obligations.ResetState : Prop :=
  let s := State.reset
  Canonical s ∧ (∀ m ∈ memories s, ∀ a, cellGet m a = 0) ∧ s.pending = [] ∧
  (∀ p rel d, regDesc p rel = some d → p < 154 → rel < 4096 → regGet s (rk p rel) = BitVec.ofNat 64 d.reset) ∧
  (∀ e ∈ [((0x100 : Nat), (0x3B2940000000 : W64)), (0x108, 0), (0x110, 5), (0x118, 0x80040), (0x120, 0x20010), (0x128, 0),
      (0x130, 0), (0x138, 0), (0x140, 0), (0x148, 0), (0x150, 0), (0x168, 0)],
    readReg s .pf (rk pPLC e.1) = e.2) ∧
  (∀ w, (s.wick w).state = .idle ∧ rdS (s.wick w) 1 = 0) ∧ (∀ h, s.plan h = none) ∧ (∀ q, qEnabled (s.queue q) = false) ∧
  bootDue s = true

end
end

