-- ==== Sys2Proof/Laws/Engine.lean ====
section
/-! SUPPORT. How an engine's work runs, piece by piece: each piece from the state that the one before it left. -/
namespace Sys2Proof.Laws
open Sys2Proof Machine

theorem runEng_pure {α : Type} (a : α) (s : State) : runEng (pure a) s = some (.ok a, s) := rfl

theorem runEng_bind {α β : Type} (e : Eng α) (f : α → Eng β) (s : State) : runEng (e >>= f) s =
    match runEng e s with
    | some (.ok a, t) => runEng (f a) t
    | some (.error st, t) => some (.error st, t)
    | none => none := by
  show (match (e >>= f) s with | (.ok a, t) => _ | (.error (.stat st), t) => _ | (.error .wait, _) => _) = _
  have hb : (e >>= f) s = (match e s with
    | (.ok a, t) => f a t
    | (.error x, t) => (.error x, t)) := by
    show (ExceptT.bind e f) s = _
    simp only [ExceptT.bind, ExceptT.mk, bind, StateT.bind]
    cases h : e s with
    | mk r t => cases r <;> rfl
  rw [hb]
  unfold runEng
  cases h : e s with
  | mk r t =>
    cases r with
    | ok a => rfl
    | error x => cases x <;> rfl

theorem runEng_get (s : State) : runEng get s = some (.ok s, s) := rfl
theorem runEng_set (s t : State) : runEng (set t) s = some (.ok (), t) := rfl
theorem runEng_modify (f : State → State) (s : State) : runEng (modify f) s = some (.ok (), f s) := rfl
theorem runEng_failNow {α : Type} (st : Status) (s : State) : runEng (failNow (α := α) st) s = some (.error st, s) := rfl
theorem runEng_waitNow {α : Type} (s : State) : runEng (waitNow (α := α)) s = none := rfl
theorem runEng_failLog {α : Type} (st : Status) (f : State → State) (s : State) :
    runEng (failLog (α := α) st f) s = some (.error st, f s) := rfl
theorem runEng_failAt {α : Type} (w : Who) (st : Status) (kind : BitVec 3) (addr : Nat) (s : State) :
    runEng (failAt (α := α) w st kind addr) s =
      some (.error st, logRecord s pXBAR (w.site (w.fail st kind addr))) := rfl

/-- An access to the host's memory inside the aperture passes its check and leaves the state as it was. -/
theorem runEng_hostCheck (w : Who) (a n : Nat) (s : State) (h : inAperture s w.ctx a n = true) :
    runEng (hostCheck w a n) s = some (.ok (), s) := by
  unfold hostCheck
  rw [runEng_bind, runEng_get]
  simp [h, runEng_pure]

end Sys2Proof.Laws
end

