-- ==== Sys2Proof/Laws/Exec.lean ====
section
/-! SUPPORT. `exec` of each command is its meaning: one equation per constructor, so that a proof about a command
rewrites with its equation and never unfolds `exec`. -/
namespace Sys2Proof.Laws
open Sys2Proof Machine

@[simp] theorem exec_registerWrite (a0 : RegSrc) (a1 : Nat) (a2 : Nat) (a3 : W64) (st : State) :
    exec (.registerWrite a0 a1 a2 a3) st = Sys2Proof.Machine.execRegisterWrite a0 a1 a2 a3 st := rfl
@[simp] theorem exec_rcRead (a0 : RegSrc) (a1 : Nat) (st : State) :
    exec (.rcRead a0 a1) st = Sys2Proof.Machine.execRcRead a0 a1 st := rfl
@[simp] theorem exec_errStatClear (a0 : RegSrc) (a1 : Nat) (a2 : W64) (st : State) :
    exec (.errStatClear a0 a1 a2) st = Sys2Proof.Machine.execErrStatClear a0 a1 a2 st := rfl
@[simp] theorem exec_hubCounterWrite (a0 : RegSrc) (a1 : Nat) (a2 : Nat) (a3 : W64) (st : State) :
    exec (.hubCounterWrite a0 a1 a2 a3) st = Sys2Proof.Machine.execHubCounterWrite a0 a1 a2 a3 st := rfl
@[simp] theorem exec_localCounterWrite (a0 : RegSrc) (a1 : Nat) (a2 : Nat) (a3 : Nat) (a4 : W64) (st : State) :
    exec (.localCounterWrite a0 a1 a2 a3 a4) st = Sys2Proof.Machine.execLocalCounterWrite a0 a1 a2 a3 a4 st := rfl
@[simp] theorem exec_semaphoreRead (a0 : RegSrc) (a1 : Nat) (st : State) :
    exec (.semaphoreRead a0 a1) st = Sys2Proof.Machine.execSemaphoreRead a0 a1 st := rfl
@[simp] theorem exec_semaphoreWrite (a0 : RegSrc) (a1 : Nat) (a2 : Nat) (a3 : W64) (st : State) :
    exec (.semaphoreWrite a0 a1 a2 a3) st = Sys2Proof.Machine.execSemaphoreWrite a0 a1 a2 a3 st := rfl
@[simp] theorem exec_doorbell (a0 : RegSrc) (a1 : Nat) (a2 : Nat) (a3 : W64) (a4 : HostCpl) (st : State) :
    exec (.doorbell a0 a1 a2 a3 a4) st = Sys2Proof.Machine.execDoorbell a0 a1 a2 a3 a4 st := rfl
@[simp] theorem exec_qEnable (a0 : RegSrc) (a1 : W64) (st : State) :
    exec (.qEnable a0 a1) st = Sys2Proof.Machine.execQEnable a0 a1 st := rfl
@[simp] theorem exec_copy (a0 : Nat) (a1 : W512) (st : State) :
    exec (.copy a0 a1) st = Sys2Proof.Machine.execCopy a0 a1 st := rfl
@[simp] theorem exec_tileStream (a0 : Nat) (a1 : W512) (st : State) :
    exec (.tileStream a0 a1) st = Sys2Proof.Machine.execTileStream a0 a1 st := rfl
@[simp] theorem exec_fence (a0 : Nat) (a1 : W512) (st : State) :
    exec (.fence a0 a1) st = Sys2Proof.Machine.execFence a0 a1 st := rfl
@[simp] theorem exec_counterWait (a0 : Nat) (a1 : W512) (st : State) :
    exec (.counterWait a0 a1) st = Sys2Proof.Machine.execCounterWait a0 a1 st := rfl
@[simp] theorem exec_counterWaitBound (a0 : Nat) (a1 : W32) (st : State) :
    exec (.counterWaitBound a0 a1) st = Sys2Proof.Machine.execCounterWaitBound a0 a1 st := rfl
@[simp] theorem exec_counterTargetReached (a0 : Waiter) (st : State) :
    exec (.counterTargetReached a0) st = Sys2Proof.Machine.execCounterTargetReached a0 st := rfl
@[simp] theorem exec_prefetch (a0 : Nat) (a1 : W512) (st : State) :
    exec (.prefetch a0 a1) st = Sys2Proof.Machine.execPrefetch a0 a1 st := rfl
@[simp] theorem exec_pin (a0 : Nat) (a1 : W512) (st : State) :
    exec (.pin a0 a1) st = Sys2Proof.Machine.execPin a0 a1 st := rfl
@[simp] theorem exec_unpin (a0 : Nat) (a1 : W512) (st : State) :
    exec (.unpin a0 a1) st = Sys2Proof.Machine.execUnpin a0 a1 st := rfl
@[simp] theorem exec_cold (a0 : Nat) (a1 : W512) (st : State) :
    exec (.cold a0 a1) st = Sys2Proof.Machine.execCold a0 a1 st := rfl
@[simp] theorem exec_markShadow (a0 : Nat) (a1 : W512) (st : State) :
    exec (.markShadow a0 a1) st = Sys2Proof.Machine.execMarkShadow a0 a1 st := rfl
@[simp] theorem exec_unmarkShadow (a0 : Nat) (a1 : W512) (st : State) :
    exec (.unmarkShadow a0 a1) st = Sys2Proof.Machine.execUnmarkShadow a0 a1 st := rfl
@[simp] theorem exec_prefetchFromHost (a0 : Nat) (a1 : W512) (a2 : HostCpl) (st : State) :
    exec (.prefetchFromHost a0 a1 a2) st = Sys2Proof.Machine.execPrefetchFromHost a0 a1 a2 st := rfl
@[simp] theorem exec_evictToHost (a0 : Nat) (a1 : W512) (a2 : HostCpl) (st : State) :
    exec (.evictToHost a0 a1 a2) st = Sys2Proof.Machine.execEvictToHost a0 a1 a2 st := rfl
@[simp] theorem exec_shootdown (a0 : Nat) (a1 : W512) (st : State) :
    exec (.shootdown a0 a1) st = Sys2Proof.Machine.execShootdown a0 a1 st := rfl
@[simp] theorem exec_shootCmdGo (a0 : RegSrc) (a1 : W64) (st : State) :
    exec (.shootCmdGo a0 a1) st = Sys2Proof.Machine.execShootCmdGo a0 a1 st := rfl
@[simp] theorem exec_shootdownAck (a0 : Nat) (a1 : Engine) (st : State) :
    exec (.shootdownAck a0 a1) st = Sys2Proof.Machine.execShootdownAck a0 a1 st := rfl
@[simp] theorem exec_shootdownComplete (a0 : Nat) (st : State) :
    exec (.shootdownComplete a0) st = Sys2Proof.Machine.execShootdownComplete a0 st := rfl
@[simp] theorem exec_shootdownOverrun (a0 : Nat) (a1 : Engine) (st : State) :
    exec (.shootdownOverrun a0 a1) st = Sys2Proof.Machine.execShootdownOverrun a0 a1 st := rfl
@[simp] theorem exec_reclaim (a0 : Nat) (a1 : W512) (st : State) :
    exec (.reclaim a0 a1) st = Sys2Proof.Machine.execReclaim a0 a1 st := rfl
@[simp] theorem exec_rebuildSend (a0 : Nat) (a1 : W512) (st : State) :
    exec (.rebuildSend a0 a1) st = Sys2Proof.Machine.execRebuildSend a0 a1 st := rfl
@[simp] theorem exec_rebuildReceive (a0 : Nat) (a1 : W512) (st : State) :
    exec (.rebuildReceive a0 a1) st = Sys2Proof.Machine.execRebuildReceive a0 a1 st := rfl
@[simp] theorem exec_rebuildSendDone  (st : State) :
    exec (.rebuildSendDone) st = Sys2Proof.Machine.execRebuildSendDone st := rfl
@[simp] theorem exec_rebuildStall  (st : State) :
    exec (.rebuildStall) st = Sys2Proof.Machine.execRebuildStall st := rfl
@[simp] theorem exec_emberRead (a0 : Nat) (a1 : W512) (a2 : HostCpl) (st : State) :
    exec (.emberRead a0 a1 a2) st = Sys2Proof.Machine.execEmberRead a0 a1 a2 st := rfl
@[simp] theorem exec_planAdmit (a0 : Nat) (a1 : W512) (st : State) :
    exec (.planAdmit a0 a1) st = Sys2Proof.Machine.execPlanAdmit a0 a1 st := rfl
@[simp] theorem exec_planArm (a0 : Nat) (a1 : W512) (st : State) :
    exec (.planArm a0 a1) st = Sys2Proof.Machine.execPlanArm a0 a1 st := rfl
@[simp] theorem exec_planRun (a0 : Nat) (a1 : W512) (st : State) :
    exec (.planRun a0 a1) st = Sys2Proof.Machine.execPlanRun a0 a1 st := rfl
@[simp] theorem exec_planRetire (a0 : Nat) (a1 : W512) (st : State) :
    exec (.planRetire a0 a1) st = Sys2Proof.Machine.execPlanRetire a0 a1 st := rfl
@[simp] theorem exec_gateOpen (a0 : Nat) (st : State) :
    exec (.gateOpen a0) st = Sys2Proof.Machine.execGateOpen a0 st := rfl
@[simp] theorem exec_stepStart (a0 : Nat) (st : State) :
    exec (.stepStart a0) st = Sys2Proof.Machine.execStepStart a0 st := rfl
@[simp] theorem exec_spotCopyDone (a0 : Nat) (st : State) :
    exec (.spotCopyDone a0) st = Sys2Proof.Machine.execSpotCopyDone a0 st := rfl
@[simp] theorem exec_spotCompare (a0 : Nat) (st : State) :
    exec (.spotCompare a0) st = Sys2Proof.Machine.execSpotCompare a0 st := rfl
@[simp] theorem exec_stepEnd (a0 : Nat) (st : State) :
    exec (.stepEnd a0) st = Sys2Proof.Machine.execStepEnd a0 st := rfl
@[simp] theorem exec_stepOverrun (a0 : Nat) (a1 : BitVec 12) (st : State) :
    exec (.stepOverrun a0 a1) st = Sys2Proof.Machine.execStepOverrun a0 a1 st := rfl
@[simp] theorem exec_gateBoundExpiry (a0 : Nat) (st : State) :
    exec (.gateBoundExpiry a0) st = Sys2Proof.Machine.execGateBoundExpiry a0 st := rfl
@[simp] theorem exec_append (a0 : Nat) (a1 : W512) (st : State) :
    exec (.append a0 a1) st = Sys2Proof.Machine.execAppend a0 a1 st := rfl
@[simp] theorem exec_attend (a0 : Nat) (a1 : W512) (a2 : Nat) (st : State) :
    exec (.attend a0 a1 a2) st = Sys2Proof.Machine.execAttend a0 a1 a2 st := rfl
@[simp] theorem exec_gather (a0 : Nat) (a1 : W512) (a2 : List Nat) (a3 : HostCpl) (st : State) :
    exec (.gather a0 a1 a2 a3) st = Sys2Proof.Machine.execGather a0 a1 a2 a3 st := rfl
@[simp] theorem exec_pool (a0 : Nat) (a1 : W512) (a2 : List Nat) (a3 : HostCpl) (st : State) :
    exec (.pool a0 a1 a2 a3) st = Sys2Proof.Machine.execPool a0 a1 a2 a3 st := rfl
@[simp] theorem exec_scatterAdd (a0 : Nat) (a1 : W512) (a2 : HostCpl) (st : State) :
    exec (.scatterAdd a0 a1 a2) st = Sys2Proof.Machine.execScatterAdd a0 a1 a2 st := rfl
@[simp] theorem exec_updateRow (a0 : Nat) (a1 : W512) (a2 : HostCpl) (st : State) :
    exec (.updateRow a0 a1 a2) st = Sys2Proof.Machine.execUpdateRow a0 a1 a2 st := rfl
@[simp] theorem exec_tableOpen (a0 : Nat) (a1 : W512) (st : State) :
    exec (.tableOpen a0 a1) st = Sys2Proof.Machine.execTableOpen a0 a1 st := rfl
@[simp] theorem exec_tableClose (a0 : Nat) (a1 : W512) (a2 : HostCpl) (st : State) :
    exec (.tableClose a0 a1 a2) st = Sys2Proof.Machine.execTableClose a0 a1 a2 st := rfl
@[simp] theorem exec_rowMove (a0 : Nat) (a1 : Nat) (a2 : HostCpl) (st : State) :
    exec (.rowMove a0 a1 a2) st = Sys2Proof.Machine.execRowMove a0 a1 a2 st := rfl
@[simp] theorem exec_adamw (a0 : Nat) (a1 : W512) (st : State) :
    exec (.adamw a0 a1) st = Sys2Proof.Machine.execAdamw a0 a1 st := rfl
@[simp] theorem exec_sgdM (a0 : Nat) (a1 : W512) (st : State) :
    exec (.sgdM a0 a1) st = Sys2Proof.Machine.execSgdM a0 a1 st := rfl
@[simp] theorem exec_signM (a0 : Nat) (a1 : W512) (st : State) :
    exec (.signM a0 a1) st = Sys2Proof.Machine.execSignM a0 a1 st := rfl
@[simp] theorem exec_rowAdagrad (a0 : Nat) (a1 : W512) (st : State) :
    exec (.rowAdagrad a0 a1) st = Sys2Proof.Machine.execRowAdagrad a0 a1 st := rfl
@[simp] theorem exec_norm2 (a0 : Nat) (a1 : W512) (st : State) :
    exec (.norm2 a0 a1) st = Sys2Proof.Machine.execNorm2 a0 a1 st := rfl
@[simp] theorem exec_accumStream (a0 : Nat) (a1 : W512) (st : State) :
    exec (.accumStream a0 a1) st = Sys2Proof.Machine.execAccumStream a0 a1 st := rfl
@[simp] theorem exec_collOpen (a0 : Nat) (a1 : W512) (st : State) :
    exec (.collOpen a0 a1) st = Sys2Proof.Machine.execCollOpen a0 a1 st := rfl
@[simp] theorem exec_collAbort (a0 : Nat) (a1 : W512) (st : State) :
    exec (.collAbort a0 a1) st = Sys2Proof.Machine.execCollAbort a0 a1 st := rfl
@[simp] theorem exec_collReset (a0 : Nat) (a1 : W512) (st : State) :
    exec (.collReset a0 a1) st = Sys2Proof.Machine.execCollReset a0 a1 st := rfl
@[simp] theorem exec_collClose (a0 : Nat) (a1 : W512) (st : State) :
    exec (.collClose a0 a1) st = Sys2Proof.Machine.execCollClose a0 a1 st := rfl
@[simp] theorem exec_abortRepeat (a0 : BitVec 6) (a1 : BitVec 16) (st : State) :
    exec (.abortRepeat a0 a1) st = Sys2Proof.Machine.execAbortRepeat a0 a1 st := rfl
@[simp] theorem exec_ctxInstall (a0 : Nat) (a1 : W512) (st : State) :
    exec (.ctxInstall a0 a1) st = Sys2Proof.Machine.execCtxInstall a0 a1 st := rfl
@[simp] theorem exec_ctxWithdraw (a0 : Nat) (a1 : W512) (st : State) :
    exec (.ctxWithdraw a0 a1) st = Sys2Proof.Machine.execCtxWithdraw a0 a1 st := rfl
@[simp] theorem exec_grant (a0 : Nat) (a1 : W512) (st : State) :
    exec (.grant a0 a1) st = Sys2Proof.Machine.execGrant a0 a1 st := rfl
@[simp] theorem exec_revoke (a0 : Nat) (a1 : W512) (st : State) :
    exec (.revoke a0 a1) st = Sys2Proof.Machine.execRevoke a0 a1 st := rfl
@[simp] theorem exec_handover (a0 : Nat) (a1 : W512) (st : State) :
    exec (.handover a0 a1) st = Sys2Proof.Machine.execHandover a0 a1 st := rfl
@[simp] theorem exec_extentDrain (a0 : Nat) (st : State) :
    exec (.extentDrain a0) st = Sys2Proof.Machine.execExtentDrain a0 st := rfl
@[simp] theorem exec_create (a0 : Nat) (a1 : W512) (st : State) :
    exec (.create a0 a1) st = Sys2Proof.Machine.execCreate a0 a1 st := rfl
@[simp] theorem exec_addAgent (a0 : Nat) (a1 : W512) (st : State) :
    exec (.addAgent a0 a1) st = Sys2Proof.Machine.execAddAgent a0 a1 st := rfl
@[simp] theorem exec_removeAgent (a0 : Nat) (a1 : W512) (st : State) :
    exec (.removeAgent a0 a1) st = Sys2Proof.Machine.execRemoveAgent a0 a1 st := rfl
@[simp] theorem exec_composeEnd (a0 : Nat) (a1 : W512) (st : State) :
    exec (.composeEnd a0 a1) st = Sys2Proof.Machine.execComposeEnd a0 a1 st := rfl
@[simp] theorem exec_grantSconce (a0 : RegSrc) (a1 : BitVec 12) (a2 : BitVec 6) (st : State) :
    exec (.grantSconce a0 a1 a2) st = Sys2Proof.Machine.execGrantSconce a0 a1 a2 st := rfl
@[simp] theorem exec_grantHubCounters (a0 : RegSrc) (a1 : BitVec 12) (a2 : BitVec 6) (st : State) :
    exec (.grantHubCounters a0 a1 a2) st = Sys2Proof.Machine.execGrantHubCounters a0 a1 a2 st := rfl
@[simp] theorem exec_grantSemaphores (a0 : RegSrc) (a1 : BitVec 12) (a2 : BitVec 6) (st : State) :
    exec (.grantSemaphores a0 a1 a2) st = Sys2Proof.Machine.execGrantSemaphores a0 a1 a2 st := rfl
@[simp] theorem exec_grantReservoir (a0 : RegSrc) (a1 : BitVec 12) (a2 : BitVec 6) (st : State) :
    exec (.grantReservoir a0 a1 a2) st = Sys2Proof.Machine.execGrantReservoir a0 a1 a2 st := rfl
@[simp] theorem exec_grantZeroingDone  (st : State) :
    exec (.grantZeroingDone) st = Sys2Proof.Machine.execGrantZeroingDone st := rfl
@[simp] theorem exec_snuff (a0 : RegSrc) (a1 : W64) (st : State) :
    exec (.snuff a0 a1) st = Sys2Proof.Machine.execSnuff a0 a1 st := rfl
@[simp] theorem exec_teardownRepeat (a0 : BitVec 12) (st : State) :
    exec (.teardownRepeat a0) st = Sys2Proof.Machine.execTeardownRepeat a0 st := rfl
@[simp] theorem exec_snap (a0 : RegSrc) (a1 : W64) (st : State) :
    exec (.snap a0 a1) st = Sys2Proof.Machine.execSnap a0 a1 st := rfl
@[simp] theorem exec_walk (a0 : BitVec 20) (a1 : W64) (st : State) :
    exec (.walk a0 a1) st = Sys2Proof.Machine.execWalk a0 a1 st := rfl
@[simp] theorem exec_read (a0 : Nat) (a1 : Packet) (a2 : Bool) (st : State) :
    exec (.read a0 a1 a2) st = Sys2Proof.Machine.execRead a0 a1 a2 st := rfl
@[simp] theorem exec_write (a0 : Nat) (a1 : Packet) (a2 : Bool) (st : State) :
    exec (.write a0 a1 a2) st = Sys2Proof.Machine.execWrite a0 a1 a2 st := rfl
@[simp] theorem exec_writeMasked (a0 : Nat) (a1 : Packet) (a2 : Bool) (st : State) :
    exec (.writeMasked a0 a1 a2) st = Sys2Proof.Machine.execWriteMasked a0 a1 a2 st := rfl
@[simp] theorem exec_accumulate (a0 : Nat) (a1 : Packet) (a2 : Bool) (st : State) :
    exec (.accumulate a0 a1 a2) st = Sys2Proof.Machine.execAccumulate a0 a1 a2 st := rfl
@[simp] theorem exec_atomicAdd (a0 : Nat) (a1 : Packet) (a2 : Bool) (st : State) :
    exec (.atomicAdd a0 a1 a2) st = Sys2Proof.Machine.execAtomicAdd a0 a1 a2 st := rfl
@[simp] theorem exec_atomicMin (a0 : Nat) (a1 : Packet) (a2 : Bool) (st : State) :
    exec (.atomicMin a0 a1 a2) st = Sys2Proof.Machine.execAtomicMin a0 a1 a2 st := rfl
@[simp] theorem exec_atomicMax (a0 : Nat) (a1 : Packet) (a2 : Bool) (st : State) :
    exec (.atomicMax a0 a1 a2) st = Sys2Proof.Machine.execAtomicMax a0 a1 a2 st := rfl
@[simp] theorem exec_atomicCas (a0 : Nat) (a1 : Packet) (a2 : Bool) (st : State) :
    exec (.atomicCas a0 a1 a2) st = Sys2Proof.Machine.execAtomicCas a0 a1 a2 st := rfl
@[simp] theorem exec_readRsp (a0 : Nat) (a1 : Packet) (st : State) :
    exec (.readRsp a0 a1) st = Sys2Proof.Machine.execReadRsp a0 a1 st := rfl
@[simp] theorem exec_atomicRsp (a0 : Nat) (a1 : Packet) (st : State) :
    exec (.atomicRsp a0 a1) st = Sys2Proof.Machine.execAtomicRsp a0 a1 st := rfl
@[simp] theorem exec_errRsp (a0 : Nat) (a1 : Packet) (st : State) :
    exec (.errRsp a0 a1) st = Sys2Proof.Machine.execErrRsp a0 a1 st := rfl
@[simp] theorem exec_invalidate (a0 : Nat) (a1 : Packet) (st : State) :
    exec (.invalidate a0 a1) st = Sys2Proof.Machine.execInvalidate a0 a1 st := rfl
@[simp] theorem exec_recallShared (a0 : Nat) (a1 : Packet) (st : State) :
    exec (.recallShared a0 a1) st = Sys2Proof.Machine.execRecallShared a0 a1 st := rfl
@[simp] theorem exec_snoopRsp (a0 : Nat) (a1 : Packet) (st : State) :
    exec (.snoopRsp a0 a1) st = Sys2Proof.Machine.execSnoopRsp a0 a1 st := rfl
@[simp] theorem exec_lineBufferWriteback (a0 : Nat) (st : State) :
    exec (.lineBufferWriteback a0) st = Sys2Proof.Machine.execLineBufferWriteback a0 st := rfl
@[simp] theorem exec_twinWrite (a0 : Nat) (a1 : Packet) (st : State) :
    exec (.twinWrite a0 a1) st = Sys2Proof.Machine.execTwinWrite a0 a1 st := rfl
@[simp] theorem exec_tierApply (a0 : Target) (st : State) :
    exec (.tierApply a0) st = Sys2Proof.Machine.execTierApply a0 st := rfl
@[simp] theorem exec_packetForward (a0 : Nat) (a1 : Packet) (st : State) :
    exec (.packetForward a0 a1) st = Sys2Proof.Machine.execPacketForward a0 a1 st := rfl
@[simp] theorem exec_replayTimeout (a0 : BitVec 10) (a1 : Bool) (a2 : W32) (st : State) :
    exec (.replayTimeout a0 a1 a2) st = Sys2Proof.Machine.execReplayTimeout a0 a1 a2 st := rfl
@[simp] theorem exec_deadTargetBound (a0 : BitVec 10) (a1 : Bool) (a2 : W32) (st : State) :
    exec (.deadTargetBound a0 a1 a2) st = Sys2Proof.Machine.execDeadTargetBound a0 a1 a2 st := rfl
@[simp] theorem exec_credit (a0 : Nat) (a1 : List (BitVec 16)) (st : State) :
    exec (.credit a0 a1) st = Sys2Proof.Machine.execCredit a0 a1 st := rfl
@[simp] theorem exec_creditSend (a0 : Nat) (st : State) :
    exec (.creditSend a0) st = Sys2Proof.Machine.execCreditSend a0 st := rfl
@[simp] theorem exec_mark (a0 : Nat) (a1 : BitVec 8) (a2 : List (BitVec 16)) (st : State) :
    exec (.mark a0 a1 a2) st = Sys2Proof.Machine.execMark a0 a1 a2 st := rfl
@[simp] theorem exec_markSend (a0 : Nat) (st : State) :
    exec (.markSend a0) st = Sys2Proof.Machine.execMarkSend a0 st := rfl
@[simp] theorem exec_ack (a0 : Nat) (a1 : CtlMsg) (st : State) :
    exec (.ack a0 a1) st = Sys2Proof.Machine.execAck a0 a1 st := rfl
@[simp] theorem exec_csack (a0 : Nat) (a1 : CtlMsg) (st : State) :
    exec (.csack a0 a1) st = Sys2Proof.Machine.execCsack a0 a1 st := rfl
@[simp] theorem exec_cntAdd (a0 : Nat) (a1 : CtlMsg) (st : State) :
    exec (.cntAdd a0 a1) st = Sys2Proof.Machine.execCntAdd a0 a1 st := rfl
@[simp] theorem exec_semRead (a0 : Nat) (a1 : CtlMsg) (st : State) :
    exec (.semRead a0 a1) st = Sys2Proof.Machine.execSemRead a0 a1 st := rfl
@[simp] theorem exec_signal (a0 : Nat) (a1 : CtlMsg) (st : State) :
    exec (.signal a0 a1) st = Sys2Proof.Machine.execSignal a0 a1 st := rfl
@[simp] theorem exec_waitDec (a0 : Nat) (a1 : CtlMsg) (st : State) :
    exec (.waitDec a0 a1) st = Sys2Proof.Machine.execWaitDec a0 a1 st := rfl
@[simp] theorem exec_waitDecTimeout (a0 : Nat) (st : State) :
    exec (.waitDecTimeout a0) st = Sys2Proof.Machine.execWaitDecTimeout a0 st := rfl
@[simp] theorem exec_tryDec (a0 : Nat) (a1 : CtlMsg) (st : State) :
    exec (.tryDec a0 a1) st = Sys2Proof.Machine.execTryDec a0 a1 st := rfl
@[simp] theorem exec_set (a0 : Nat) (a1 : CtlMsg) (st : State) :
    exec (.set a0 a1) st = Sys2Proof.Machine.execSet a0 a1 st := rfl
@[simp] theorem exec_semRsp (a0 : Nat) (a1 : CtlMsg) (st : State) :
    exec (.semRsp a0 a1) st = Sys2Proof.Machine.execSemRsp a0 a1 st := rfl
@[simp] theorem exec_abort (a0 : Nat) (a1 : CtlMsg) (st : State) :
    exec (.abort a0 a1) st = Sys2Proof.Machine.execAbort a0 a1 st := rfl
@[simp] theorem exec_noRoute (a0 : Nat) (a1 : CtlMsg) (st : State) :
    exec (.noRoute a0 a1) st = Sys2Proof.Machine.execNoRoute a0 a1 st := rfl
@[simp] theorem exec_prepared (a0 : Nat) (a1 : CtlMsg) (st : State) :
    exec (.prepared a0 a1) st = Sys2Proof.Machine.execPrepared a0 a1 st := rfl
@[simp] theorem exec_prepare (a0 : RegSrc) (a1 : BitVec 8) (st : State) :
    exec (.prepare a0 a1) st = Sys2Proof.Machine.execPrepare a0 a1 st := rfl
@[simp] theorem exec_commit (a0 : RegSrc) (a1 : BitVec 8) (a2 : List (BitVec 10)) (st : State) :
    exec (.commit a0 a1 a2) st = Sys2Proof.Machine.execCommit a0 a1 a2 st := rfl
@[simp] theorem exec_retire (a0 : RegSrc) (a1 : BitVec 8) (st : State) :
    exec (.retire a0 a1) st = Sys2Proof.Machine.execRetire a0 a1 st := rfl
@[simp] theorem exec_routeData (a0 : RegSrc) (a1 : W64) (st : State) :
    exec (.routeData a0 a1) st = Sys2Proof.Machine.execRouteData a0 a1 st := rfl
@[simp] theorem exec_codewordReceive (a0 : Nat) (a1 : Nat) (a2 : Codeword) (st : State) :
    exec (.codewordReceive a0 a1 a2) st = Sys2Proof.Machine.execCodewordReceive a0 a1 a2 st := rfl
@[simp] theorem exec_portEnable (a0 : RegSrc) (a1 : Nat) (st : State) :
    exec (.portEnable a0 a1) st = Sys2Proof.Machine.execPortEnable a0 a1 st := rfl
@[simp] theorem exec_portDisable (a0 : RegSrc) (a1 : Nat) (st : State) :
    exec (.portDisable a0 a1) st = Sys2Proof.Machine.execPortDisable a0 a1 st := rfl
@[simp] theorem exec_trainingAttempt (a0 : Nat) (a1 : Nat) (a2 : BitVec 12) (a3 : BitVec 12) (st : State) :
    exec (.trainingAttempt a0 a1 a2 a3) st = Sys2Proof.Machine.execTrainingAttempt a0 a1 a2 a3 st := rfl
@[simp] theorem exec_trainingBoundMiss (a0 : Nat) (a1 : Nat) (st : State) :
    exec (.trainingBoundMiss a0 a1) st = Sys2Proof.Machine.execTrainingBoundMiss a0 a1 st := rfl
@[simp] theorem exec_noPeerTimeout (a0 : Nat) (st : State) :
    exec (.noPeerTimeout a0) st = Sys2Proof.Machine.execNoPeerTimeout a0 st := rfl
@[simp] theorem exec_uncorrWindow (a0 : Nat) (a1 : Nat) (a2 : Nat) (st : State) :
    exec (.uncorrWindow a0 a1 a2) st = Sys2Proof.Machine.execUncorrWindow a0 a1 a2 st := rfl
@[simp] theorem exec_serWindow (a0 : Nat) (a1 : Nat) (a2 : Nat) (a3 : Nat) (st : State) :
    exec (.serWindow a0 a1 a2 a3) st = Sys2Proof.Machine.execSerWindow a0 a1 a2 a3 st := rfl
@[simp] theorem exec_ringLockLoss (a0 : Nat) (a1 : Nat) (a2 : Bool) (a3 : Bool) (st : State) :
    exec (.ringLockLoss a0 a1 a2 a3) st = Sys2Proof.Machine.execRingLockLoss a0 a1 a2 a3 st := rfl
@[simp] theorem exec_signalLossTimeout (a0 : Nat) (a1 : Nat) (st : State) :
    exec (.signalLossTimeout a0 a1) st = Sys2Proof.Machine.execSignalLossTimeout a0 a1 st := rfl
@[simp] theorem exec_signalReturn (a0 : Nat) (a1 : Nat) (st : State) :
    exec (.signalReturn a0 a1) st = Sys2Proof.Machine.execSignalReturn a0 a1 st := rfl
@[simp] theorem exec_activeMapChange (a0 : Nat) (a1 : Bool) (a2 : BitVec 4) (st : State) :
    exec (.activeMapChange a0 a1 a2) st = Sys2Proof.Machine.execActiveMapChange a0 a1 a2 st := rfl
@[simp] theorem exec_controlFailover (a0 : Nat) (st : State) :
    exec (.controlFailover a0) st = Sys2Proof.Machine.execControlFailover a0 st := rfl
@[simp] theorem exec_controlReturn (a0 : Nat) (st : State) :
    exec (.controlReturn a0) st = Sys2Proof.Machine.execControlReturn a0 st := rfl
@[simp] theorem exec_laneRetrain (a0 : RegSrc) (a1 : Nat) (a2 : BitVec 3) (st : State) :
    exec (.laneRetrain a0 a1 a2) st = Sys2Proof.Machine.execLaneRetrain a0 a1 a2 st := rfl
@[simp] theorem exec_laneDisable (a0 : RegSrc) (a1 : Nat) (a2 : BitVec 3) (st : State) :
    exec (.laneDisable a0 a1 a2) st = Sys2Proof.Machine.execLaneDisable a0 a1 a2 st := rfl
@[simp] theorem exec_laneEnable (a0 : RegSrc) (a1 : Nat) (a2 : BitVec 3) (st : State) :
    exec (.laneEnable a0 a1 a2) st = Sys2Proof.Machine.execLaneEnable a0 a1 a2 st := rfl
@[simp] theorem exec_lossOfLight (a0 : BitVec 5) (a1 : BitVec 5) (a2 : Bool) (st : State) :
    exec (.lossOfLight a0 a1 a2) st = Sys2Proof.Machine.execLossOfLight a0 a1 a2 st := rfl
@[simp] theorem exec_lasersLost (a0 : BitVec 5) (a1 : BitVec 5) (st : State) :
    exec (.lasersLost a0 a1) st = Sys2Proof.Machine.execLasersLost a0 a1 st := rfl
@[simp] theorem exec_lightRestored (a0 : BitVec 5) (a1 : BitVec 5) (st : State) :
    exec (.lightRestored a0 a1) st = Sys2Proof.Machine.execLightRestored a0 a1 st := rfl
@[simp] theorem exec_switch (a0 : RegSrc) (a1 : W64) (st : State) :
    exec (.switch a0 a1) st = Sys2Proof.Machine.execSwitch a0 a1 st := rfl
@[simp] theorem exec_policyMove (a0 : Nat) (st : State) :
    exec (.policyMove a0) st = Sys2Proof.Machine.execPolicyMove a0 st := rfl
@[simp] theorem exec_moveFlip (a0 : Nat) (st : State) :
    exec (.moveFlip a0) st = Sys2Proof.Machine.execMoveFlip a0 st := rfl
@[simp] theorem exec_moveComplete (a0 : Nat) (st : State) :
    exec (.moveComplete a0) st = Sys2Proof.Machine.execMoveComplete a0 st := rfl
@[simp] theorem exec_shadowRewrite (a0 : Nat) (st : State) :
    exec (.shadowRewrite a0) st = Sys2Proof.Machine.execShadowRewrite a0 st := rfl
@[simp] theorem exec_garbageCollection (a0 : Nat) (a1 : Nat) (a2 : Nat) (a3 : Nat) (st : State) :
    exec (.garbageCollection a0 a1 a2 a3) st = Sys2Proof.Machine.execGarbageCollection a0 a1 a2 a3 st := rfl
@[simp] theorem exec_flashReadComplete (a0 : Nat) (a1 : Nat) (a2 : Nat) (a3 : Bool) (a4 : Bool) (st : State) :
    exec (.flashReadComplete a0 a1 a2 a3 a4) st = Sys2Proof.Machine.execFlashReadComplete a0 a1 a2 a3 a4 st := rfl
@[simp] theorem exec_tileComplete (a0 : Nat) (st : State) :
    exec (.tileComplete a0) st = Sys2Proof.Machine.execTileComplete a0 st := rfl
@[simp] theorem exec_deadlineExpiry (a0 : Nat) (a1 : List Nat) (st : State) :
    exec (.deadlineExpiry a0 a1) st = Sys2Proof.Machine.execDeadlineExpiry a0 a1 st := rfl
@[simp] theorem exec_channelRetrainDue (a0 : Nat) (a1 : RetrainWhy) (st : State) :
    exec (.channelRetrainDue a0 a1) st = Sys2Proof.Machine.execChannelRetrainDue a0 a1 st := rfl
@[simp] theorem exec_channelReady (a0 : Nat) (a1 : Bool) (st : State) :
    exec (.channelReady a0 a1) st = Sys2Proof.Machine.execChannelReady a0 a1 st := rfl
@[simp] theorem exec_dieRetrainDue (a0 : Nat) (a1 : RetrainWhy) (st : State) :
    exec (.dieRetrainDue a0 a1) st = Sys2Proof.Machine.execDieRetrainDue a0 a1 st := rfl
@[simp] theorem exec_dieTrainingStart (a0 : Nat) (st : State) :
    exec (.dieTrainingStart a0) st = Sys2Proof.Machine.execDieTrainingStart a0 st := rfl
@[simp] theorem exec_dieReady (a0 : Nat) (a1 : Bool) (a2 : BitVec 16) (st : State) :
    exec (.dieReady a0 a1 a2) st = Sys2Proof.Machine.execDieReady a0 a1 a2 st := rfl
@[simp] theorem exec_retrainCmd (a0 : RegSrc) (a1 : Nat) (a2 : W64) (st : State) :
    exec (.retrainCmd a0 a1 a2) st = Sys2Proof.Machine.execRetrainCmd a0 a1 a2 st := rfl
@[simp] theorem exec_load (a0 : RegSrc) (a1 : BitVec 6) (st : State) :
    exec (.load a0 a1) st = Sys2Proof.Machine.execLoad a0 a1 st := rfl
@[simp] theorem exec_clear (a0 : RegSrc) (st : State) :
    exec (.clear a0) st = Sys2Proof.Machine.execClear a0 st := rfl
@[simp] theorem exec_setOwner (a0 : RegSrc) (a1 : BitVec 6) (st : State) :
    exec (.setOwner a0 a1) st = Sys2Proof.Machine.execSetOwner a0 a1 st := rfl
@[simp] theorem exec_keyDrainDone (a0 : BitVec 12) (st : State) :
    exec (.keyDrainDone a0) st = Sys2Proof.Machine.execKeyDrainDone a0 st := rfl
@[simp] theorem exec_memrd (a0 : W64) (a1 : BitVec 2) (st : State) :
    exec (.memrd a0 a1) st = Sys2Proof.Machine.execMemrd a0 a1 st := rfl
@[simp] theorem exec_memwr (a0 : W64) (a1 : BitVec 2) (a2 : W64) (a3 : List Byte) (a4 : Bool) (st : State) :
    exec (.memwr a0 a1 a2 a3 a4) st = Sys2Proof.Machine.execMemwr a0 a1 a2 a3 a4 st := rfl
@[simp] theorem exec_birsp (a0 : Nat) (a1 : Option (List Byte)) (st : State) :
    exec (.birsp a0 a1) st = Sys2Proof.Machine.execBirsp a0 a1 st := rfl
@[simp] theorem exec_bisnpTimeout (a0 : Nat) (st : State) :
    exec (.bisnpTimeout a0) st = Sys2Proof.Machine.execBisnpTimeout a0 st := rfl
@[simp] theorem exec_dlInactiveTimeout  (st : State) :
    exec (.dlInactiveTimeout) st = Sys2Proof.Machine.execDlInactiveTimeout st := rfl
@[simp] theorem exec_declareDead (a0 : RegSrc) (st : State) :
    exec (.declareDead a0) st = Sys2Proof.Machine.execDeclareDead a0 st := rfl
@[simp] theorem exec_revive (a0 : RegSrc) (st : State) :
    exec (.revive a0) st = Sys2Proof.Machine.execRevive a0 st := rfl
@[simp] theorem exec_deadSweep (a0 : RegSrc) (a1 : BitVec 10) (st : State) :
    exec (.deadSweep a0 a1) st = Sys2Proof.Machine.execDeadSweep a0 a1 st := rfl
@[simp] theorem exec_removeSweep (a0 : RegSrc) (a1 : BitVec 10) (st : State) :
    exec (.removeSweep a0 a1) st = Sys2Proof.Machine.execRemoveSweep a0 a1 st := rfl
@[simp] theorem exec_sweepEnd  (st : State) :
    exec (.sweepEnd) st = Sys2Proof.Machine.execSweepEnd st := rfl
@[simp] theorem exec_cwinCacheClear (a0 : RegSrc) (a1 : W64) (st : State) :
    exec (.cwinCacheClear a0 a1) st = Sys2Proof.Machine.execCwinCacheClear a0 a1 st := rfl
@[simp] theorem exec_hdmCommit (a0 : Nat) (a1 : W64) (a2 : W64) (a3 : Bool) (a4 : Nat) (st : State) :
    exec (.hdmCommit a0 a1 a2 a3 a4) st = Sys2Proof.Machine.execHdmCommit a0 a1 a2 a3 a4 st := rfl
@[simp] theorem exec_functionLevelReset (a0 : BitVec 6) (st : State) :
    exec (.functionLevelReset a0) st = Sys2Proof.Machine.execFunctionLevelReset a0 st := rfl
@[simp] theorem exec_hostLinkReset (a0 : Bool) (st : State) :
    exec (.hostLinkReset a0) st = Sys2Proof.Machine.execHostLinkReset a0 st := rfl
@[simp] theorem exec_atsInvalidation (a0 : W64) (a1 : W64) (st : State) :
    exec (.atsInvalidation a0 a1) st = Sys2Proof.Machine.execAtsInvalidation a0 a1 st := rfl
@[simp] theorem exec_configRequest (a0 : BitVec 6) (a1 : Bool) (a2 : BitVec 12) (a3 : W32) (st : State) :
    exec (.configRequest a0 a1 a2 a3) st = Sys2Proof.Machine.execConfigRequest a0 a1 a2 a3 st := rfl
@[simp] theorem exec_reservoirBarAccess (a0 : RegSrc) (a1 : Nat) (a2 : Nat) (a3 : Option (List Byte)) (st : State) :
    exec (.reservoirBarAccess a0 a1 a2 a3) st = Sys2Proof.Machine.execReservoirBarAccess a0 a1 a2 a3 st := rfl
@[simp] theorem exec_forwardWrite (a0 : RegSrc) (a1 : Nat) (a2 : Nat) (a3 : List Byte) (st : State) :
    exec (.forwardWrite a0 a1 a2 a3) st = Sys2Proof.Machine.execForwardWrite a0 a1 a2 a3 st := rfl
@[simp] theorem exec_forwardRead (a0 : RegSrc) (a1 : Nat) (a2 : Nat) (a3 : Nat) (st : State) :
    exec (.forwardRead a0 a1 a2 a3) st = Sys2Proof.Machine.execForwardRead a0 a1 a2 a3 st := rfl
@[simp] theorem exec_identifyMemoryDevice  (st : State) :
    exec (.identifyMemoryDevice) st = Sys2Proof.Machine.execIdentifyMemoryDevice st := rfl
@[simp] theorem exec_getSupportedLogs  (st : State) :
    exec (.getSupportedLogs) st = Sys2Proof.Machine.execGetSupportedLogs st := rfl
@[simp] theorem exec_getLog (a0 : Nat) (a1 : Nat) (a2 : Nat) (st : State) :
    exec (.getLog a0 a1 a2) st = Sys2Proof.Machine.execGetLog a0 a1 a2 st := rfl
@[simp] theorem exec_getEventRecords (a0 : Nat) (st : State) :
    exec (.getEventRecords a0) st = Sys2Proof.Machine.execGetEventRecords a0 st := rfl
@[simp] theorem exec_clearEventRecords (a0 : Nat) (a1 : Nat) (st : State) :
    exec (.clearEventRecords a0 a1) st = Sys2Proof.Machine.execClearEventRecords a0 a1 st := rfl
@[simp] theorem exec_getHealthInfo  (st : State) :
    exec (.getHealthInfo) st = Sys2Proof.Machine.execGetHealthInfo st := rfl
@[simp] theorem exec_mailboxUnsupported (a0 : BitVec 16) (st : State) :
    exec (.mailboxUnsupported a0) st = Sys2Proof.Machine.execMailboxUnsupported a0 st := rfl
@[simp] theorem exec_errorRecordWrite (a0 : BitVec 8) (st : State) :
    exec (.errorRecordWrite a0) st = Sys2Proof.Machine.execErrorRecordWrite a0 st := rfl
@[simp] theorem exec_recordExport (a0 : BitVec 6) (a1 : HostCpl) (st : State) :
    exec (.recordExport a0 a1) st = Sys2Proof.Machine.execRecordExport a0 a1 st := rfl
@[simp] theorem exec_beacon  (st : State) :
    exec (.beacon) st = Sys2Proof.Machine.execBeacon st := rfl
@[simp] theorem exec_watchdogHang (a0 : Bool) (st : State) :
    exec (.watchdogHang a0) st = Sys2Proof.Machine.execWatchdogHang a0 st := rfl
@[simp] theorem exec_lamplighterResume  (st : State) :
    exec (.lamplighterResume) st = Sys2Proof.Machine.execLamplighterResume st := rfl
@[simp] theorem exec_copyEngineHang (a0 : Nat) (a1 : Bool) (a2 : Option Nat) (st : State) :
    exec (.copyEngineHang a0 a1 a2) st = Sys2Proof.Machine.execCopyEngineHang a0 a1 a2 st := rfl
@[simp] theorem exec_contextReset (a0 : RegSrc) (a1 : W64) (st : State) :
    exec (.contextReset a0 a1) st = Sys2Proof.Machine.execContextReset a0 a1 st := rfl
@[simp] theorem exec_engineReset (a0 : RegSrc) (a1 : W64) (st : State) :
    exec (.engineReset a0 a1) st = Sys2Proof.Machine.execEngineReset a0 a1 st := rfl
@[simp] theorem exec_partitionReset (a0 : RegSrc) (a1 : W64) (st : State) :
    exec (.partitionReset a0 a1) st = Sys2Proof.Machine.execPartitionReset a0 a1 st := rfl
@[simp] theorem exec_computeReset (a0 : RegSrc) (a1 : W64) (st : State) :
    exec (.computeReset a0 a1) st = Sys2Proof.Machine.execComputeReset a0 a1 st := rfl
@[simp] theorem exec_powerCycleRequest (a0 : RegSrc) (a1 : W64) (st : State) :
    exec (.powerCycleRequest a0 a1) st = Sys2Proof.Machine.execPowerCycleRequest a0 a1 st := rfl
@[simp] theorem exec_resetOverrun (a0 : Nat) (a1 : Nat) (st : State) :
    exec (.resetOverrun a0 a1) st = Sys2Proof.Machine.execResetOverrun a0 a1 st := rfl
@[simp] theorem exec_quiesce (a0 : RegSrc) (a1 : Nat) (a2 : Bool) (st : State) :
    exec (.quiesce a0 a1 a2) st = Sys2Proof.Machine.execQuiesce a0 a1 a2 st := rfl
@[simp] theorem exec_sconceReset (a0 : RegSrc) (a1 : Nat) (st : State) :
    exec (.sconceReset a0 a1) st = Sys2Proof.Machine.execSconceReset a0 a1 st := rfl
@[simp] theorem exec_fatalStop (a0 : BitVec 8) (st : State) :
    exec (.fatalStop a0) st = Sys2Proof.Machine.execFatalStop a0 st := rfl
@[simp] theorem exec_emberDump (a0 : Bool) (st : State) :
    exec (.emberDump a0) st = Sys2Proof.Machine.execEmberDump a0 st := rfl
@[simp] theorem exec_lostCmd (a0 : RegSrc) (a1 : W64) (st : State) :
    exec (.lostCmd a0 a1) st = Sys2Proof.Machine.execLostCmd a0 a1 st := rfl
@[simp] theorem exec_coldBoot (a0 : BootScan) (st : State) :
    exec (.coldBoot a0) st = Sys2Proof.Machine.execColdBoot a0 st := rfl
@[simp] theorem exec_coldBootReady  (st : State) :
    exec (.coldBootReady) st = Sys2Proof.Machine.execColdBootReady st := rfl
@[simp] theorem exec_calCmd (a0 : RegSrc) (a1 : W64) (st : State) :
    exec (.calCmd a0 a1) st = Sys2Proof.Machine.execCalCmd a0 a1 st := rfl
@[simp] theorem exec_calWritten  (st : State) :
    exec (.calWritten) st = Sys2Proof.Machine.execCalWritten st := rfl
@[simp] theorem exec_classReq (a0 : RegSrc) (a1 : W64) (st : State) :
    exec (.classReq a0 a1) st = Sys2Proof.Machine.execClassReq a0 a1 st := rfl
@[simp] theorem exec_poolCfg (a0 : RegSrc) (a1 : W64) (st : State) :
    exec (.poolCfg a0 a1) st = Sys2Proof.Machine.execPoolCfg a0 a1 st := rfl
@[simp] theorem exec_opkeyCmd (a0 : RegSrc) (a1 : W64) (st : State) :
    exec (.opkeyCmd a0 a1) st = Sys2Proof.Machine.execOpkeyCmd a0 a1 st := rfl
@[simp] theorem exec_monCmdLock (a0 : RegSrc) (a1 : W64) (st : State) :
    exec (.monCmdLock a0 a1) st = Sys2Proof.Machine.execMonCmdLock a0 a1 st := rfl
@[simp] theorem exec_pinUnmask (a0 : RegSrc) (a1 : W64) (st : State) :
    exec (.pinUnmask a0 a1) st = Sys2Proof.Machine.execPinUnmask a0 a1 st := rfl
@[simp] theorem exec_sensorSample (a0 : Nat) (a1 : BitVec 16) (st : State) :
    exec (.sensorSample a0 a1) st = Sys2Proof.Machine.execSensorSample a0 a1 st := rfl
@[simp] theorem exec_sensorFail (a0 : Nat) (st : State) :
    exec (.sensorFail a0) st = Sys2Proof.Machine.execSensorFail a0 st := rfl
@[simp] theorem exec_help (a0 : MonSess) (a1 : Nat) (a2 : Bool) (st : State) :
    exec (.help a0 a1 a2) st = Sys2Proof.Machine.execHelp a0 a1 a2 st := rfl
@[simp] theorem exec_stat (a0 : MonSess) (st : State) :
    exec (.stat a0) st = Sys2Proof.Machine.execStat a0 st := rfl
@[simp] theorem exec_rd (a0 : MonSess) (a1 : Nat) (a2 : Nat) (st : State) :
    exec (.rd a0 a1 a2) st = Sys2Proof.Machine.execRd a0 a1 a2 st := rfl
@[simp] theorem exec_wr (a0 : MonSess) (a1 : Nat) (a2 : W64) (st : State) :
    exec (.wr a0 a1 a2) st = Sys2Proof.Machine.execWr a0 a1 a2 st := rfl
@[simp] theorem exec_ering (a0 : MonSess) (a1 : W32) (a2 : Nat) (st : State) :
    exec (.ering a0 a1 a2) st = Sys2Proof.Machine.execEring a0 a1 a2 st := rfl
@[simp] theorem exec_fblob (a0 : MonSess) (st : State) :
    exec (.fblob a0) st = Sys2Proof.Machine.execFblob a0 st := rfl
@[simp] theorem exec_reset (a0 : MonSess) (a1 : Nat) (a2 : Nat) (st : State) :
    exec (.reset a0 a1 a2) st = Sys2Proof.Machine.execReset a0 a1 a2 st := rfl
@[simp] theorem exec_emberList (a0 : MonSess) (st : State) :
    exec (.emberList a0) st = Sys2Proof.Machine.execEmberList a0 st := rfl
@[simp] theorem exec_monEmberRead (a0 : MonSess) (a1 : Nat) (a2 : Nat) (a3 : Nat) (st : State) :
    exec (.monEmberRead a0 a1 a2 a3) st = Sys2Proof.Machine.execMonEmberRead a0 a1 a2 a3 st := rfl
@[simp] theorem exec_emberErase (a0 : MonSess) (a1 : Nat) (st : State) :
    exec (.emberErase a0 a1) st = Sys2Proof.Machine.execEmberErase a0 a1 st := rfl
@[simp] theorem exec_spird (a0 : MonSess) (a1 : Nat) (a2 : Nat) (st : State) :
    exec (.spird a0 a1 a2) st = Sys2Proof.Machine.execSpird a0 a1 a2 st := rfl
@[simp] theorem exec_sard (a0 : MonSess) (a1 : W64) (a2 : Nat) (st : State) :
    exec (.sard a0 a1 a2) st = Sys2Proof.Machine.execSard a0 a1 a2 st := rfl
@[simp] theorem exec_chal (a0 : MonSess) (a1 : Nat) (st : State) :
    exec (.chal a0 a1) st = Sys2Proof.Machine.execChal a0 a1 st := rfl
@[simp] theorem exec_ans (a0 : MonSess) (a1 : Nat) (a2 : BitVec 512) (st : State) :
    exec (.ans a0 a1 a2) st = Sys2Proof.Machine.execAns a0 a1 a2 st := rfl
@[simp] theorem exec_lock (a0 : MonSess) (st : State) :
    exec (.lock a0) st = Sys2Proof.Machine.execLock a0 st := rfl
@[simp] theorem exec_breakReset  (st : State) :
    exec (.breakReset) st = Sys2Proof.Machine.execBreakReset st := rfl
@[simp] theorem exec_nonceExpiry (a0 : MonSess) (st : State) :
    exec (.nonceExpiry a0) st = Sys2Proof.Machine.execNonceExpiry a0 st := rfl
@[simp] theorem exec_sessionTimeout (a0 : MonSess) (st : State) :
    exec (.sessionTimeout a0) st = Sys2Proof.Machine.execSessionTimeout a0 st := rfl
@[simp] theorem exec_monReq (a0 : Nat) (a1 : BitVec 48) (a2 : BitVec 16) (a3 : MonCmd) (st : State) :
    exec (.monReq a0 a1 a2 a3) st = Sys2Proof.Machine.execMonReq a0 a1 a2 a3 st := rfl
@[simp] theorem exec_powerOn  (st : State) :
    exec (.powerOn) st = Sys2Proof.Machine.execPowerOn st := rfl
@[simp] theorem exec_powerOff  (st : State) :
    exec (.powerOff) st = Sys2Proof.Machine.execPowerOff st := rfl
@[simp] theorem exec_cycle  (st : State) :
    exec (.cycle) st = Sys2Proof.Machine.execCycle st := rfl
@[simp] theorem exec_coldReset  (st : State) :
    exec (.coldReset) st = Sys2Proof.Machine.execColdReset st := rfl
@[simp] theorem exec_i3cComputeReset  (st : State) :
    exec (.i3cComputeReset) st = Sys2Proof.Machine.execI3cComputeReset st := rfl
@[simp] theorem exec_alertClear (a0 : BitVec 16) (st : State) :
    exec (.alertClear a0) st = Sys2Proof.Machine.execAlertClear a0 st := rfl
@[simp] theorem exec_alertRepeat  (st : State) :
    exec (.alertRepeat) st = Sys2Proof.Machine.execAlertRepeat st := rfl
@[simp] theorem exec_dynamicAddress (a0 : BitVec 7) (st : State) :
    exec (.dynamicAddress a0) st = Sys2Proof.Machine.execDynamicAddress a0 st := rfl
@[simp] theorem exec_pwrEnHigh  (st : State) :
    exec (.pwrEnHigh) st = Sys2Proof.Machine.execPwrEnHigh st := rfl
@[simp] theorem exec_pwrEnLow  (st : State) :
    exec (.pwrEnLow) st = Sys2Proof.Machine.execPwrEnLow st := rfl
@[simp] theorem exec_powerUp  (st : State) :
    exec (.powerUp) st = Sys2Proof.Machine.execPowerUp st := rfl
@[simp] theorem exec_minOffTimeEnd  (st : State) :
    exec (.minOffTimeEnd) st = Sys2Proof.Machine.execMinOffTimeEnd st := rfl
@[simp] theorem exec_sysResetAssert  (st : State) :
    exec (.sysResetAssert) st = Sys2Proof.Machine.execSysResetAssert st := rfl
@[simp] theorem exec_sysResetRelease  (st : State) :
    exec (.sysResetRelease) st = Sys2Proof.Machine.execSysResetRelease st := rfl
@[simp] theorem exec_resetHeld (a0 : Bool) (st : State) :
    exec (.resetHeld a0) st = Sys2Proof.Machine.execResetHeld a0 st := rfl
@[simp] theorem exec_coolantFault  (st : State) :
    exec (.coolantFault) st = Sys2Proof.Machine.execCoolantFault st := rfl
@[simp] theorem exec_inputMasked (a0 : Nat) (st : State) :
    exec (.inputMasked a0) st = Sys2Proof.Machine.execInputMasked a0 st := rfl
@[simp] theorem exec_feedConnect  (st : State) :
    exec (.feedConnect) st = Sys2Proof.Machine.execFeedConnect st := rfl
@[simp] theorem exec_inputRangeTrip  (st : State) :
    exec (.inputRangeTrip) st = Sys2Proof.Machine.execInputRangeTrip st := rfl
@[simp] theorem exec_overcurrentTrip  (st : State) :
    exec (.overcurrentTrip) st = Sys2Proof.Machine.execOvercurrentTrip st := rfl
@[simp] theorem exec_saluAdd (a0 : Nat) (a1 : W32) (st : State) :
    exec (.saluAdd a0 a1) st = Sys2Proof.Machine.execSaluAdd a0 a1 st := rfl
@[simp] theorem exec_saluSub (a0 : Nat) (a1 : W32) (st : State) :
    exec (.saluSub a0 a1) st = Sys2Proof.Machine.execSaluSub a0 a1 st := rfl
@[simp] theorem exec_saluAnd (a0 : Nat) (a1 : W32) (st : State) :
    exec (.saluAnd a0 a1) st = Sys2Proof.Machine.execSaluAnd a0 a1 st := rfl
@[simp] theorem exec_saluOr (a0 : Nat) (a1 : W32) (st : State) :
    exec (.saluOr a0 a1) st = Sys2Proof.Machine.execSaluOr a0 a1 st := rfl
@[simp] theorem exec_saluXor (a0 : Nat) (a1 : W32) (st : State) :
    exec (.saluXor a0 a1) st = Sys2Proof.Machine.execSaluXor a0 a1 st := rfl
@[simp] theorem exec_andn (a0 : Nat) (a1 : W32) (st : State) :
    exec (.andn a0 a1) st = Sys2Proof.Machine.execAndn a0 a1 st := rfl
@[simp] theorem exec_saluShl (a0 : Nat) (a1 : W32) (st : State) :
    exec (.saluShl a0 a1) st = Sys2Proof.Machine.execSaluShl a0 a1 st := rfl
@[simp] theorem exec_saluShr (a0 : Nat) (a1 : W32) (st : State) :
    exec (.saluShr a0 a1) st = Sys2Proof.Machine.execSaluShr a0 a1 st := rfl
@[simp] theorem exec_saluSar (a0 : Nat) (a1 : W32) (st : State) :
    exec (.saluSar a0 a1) st = Sys2Proof.Machine.execSaluSar a0 a1 st := rfl
@[simp] theorem exec_ror (a0 : Nat) (a1 : W32) (st : State) :
    exec (.ror a0 a1) st = Sys2Proof.Machine.execRor a0 a1 st := rfl
@[simp] theorem exec_clt (a0 : Nat) (a1 : W32) (st : State) :
    exec (.clt a0 a1) st = Sys2Proof.Machine.execClt a0 a1 st := rfl
@[simp] theorem exec_cltu (a0 : Nat) (a1 : W32) (st : State) :
    exec (.cltu a0 a1) st = Sys2Proof.Machine.execCltu a0 a1 st := rfl
@[simp] theorem exec_ceq (a0 : Nat) (a1 : W32) (st : State) :
    exec (.ceq a0 a1) st = Sys2Proof.Machine.execCeq a0 a1 st := rfl
@[simp] theorem exec_saluMin (a0 : Nat) (a1 : W32) (st : State) :
    exec (.saluMin a0 a1) st = Sys2Proof.Machine.execSaluMin a0 a1 st := rfl
@[simp] theorem exec_saluMax (a0 : Nat) (a1 : W32) (st : State) :
    exec (.saluMax a0 a1) st = Sys2Proof.Machine.execSaluMax a0 a1 st := rfl
@[simp] theorem exec_minu (a0 : Nat) (a1 : W32) (st : State) :
    exec (.minu a0 a1) st = Sys2Proof.Machine.execMinu a0 a1 st := rfl
@[simp] theorem exec_maxu (a0 : Nat) (a1 : W32) (st : State) :
    exec (.maxu a0 a1) st = Sys2Proof.Machine.execMaxu a0 a1 st := rfl
@[simp] theorem exec_mullo (a0 : Nat) (a1 : W32) (st : State) :
    exec (.mullo a0 a1) st = Sys2Proof.Machine.execMullo a0 a1 st := rfl
@[simp] theorem exec_mulhi (a0 : Nat) (a1 : W32) (st : State) :
    exec (.mulhi a0 a1) st = Sys2Proof.Machine.execMulhi a0 a1 st := rfl
@[simp] theorem exec_mulhiu (a0 : Nat) (a1 : W32) (st : State) :
    exec (.mulhiu a0 a1) st = Sys2Proof.Machine.execMulhiu a0 a1 st := rfl
@[simp] theorem exec_quo (a0 : Nat) (a1 : W32) (st : State) :
    exec (.quo a0 a1) st = Sys2Proof.Machine.execQuo a0 a1 st := rfl
@[simp] theorem exec_mod (a0 : Nat) (a1 : W32) (st : State) :
    exec (.mod a0 a1) st = Sys2Proof.Machine.execMod a0 a1 st := rfl
@[simp] theorem exec_popc (a0 : Nat) (a1 : W32) (st : State) :
    exec (.popc a0 a1) st = Sys2Proof.Machine.execPopc a0 a1 st := rfl
@[simp] theorem exec_clz (a0 : Nat) (a1 : W32) (st : State) :
    exec (.clz a0 a1) st = Sys2Proof.Machine.execClz a0 a1 st := rfl
@[simp] theorem exec_addi (a0 : Nat) (a1 : W32) (st : State) :
    exec (.addi a0 a1) st = Sys2Proof.Machine.execAddi a0 a1 st := rfl
@[simp] theorem exec_andi (a0 : Nat) (a1 : W32) (st : State) :
    exec (.andi a0 a1) st = Sys2Proof.Machine.execAndi a0 a1 st := rfl
@[simp] theorem exec_ori (a0 : Nat) (a1 : W32) (st : State) :
    exec (.ori a0 a1) st = Sys2Proof.Machine.execOri a0 a1 st := rfl
@[simp] theorem exec_xori (a0 : Nat) (a1 : W32) (st : State) :
    exec (.xori a0 a1) st = Sys2Proof.Machine.execXori a0 a1 st := rfl
@[simp] theorem exec_shli (a0 : Nat) (a1 : W32) (st : State) :
    exec (.shli a0 a1) st = Sys2Proof.Machine.execShli a0 a1 st := rfl
@[simp] theorem exec_shri (a0 : Nat) (a1 : W32) (st : State) :
    exec (.shri a0 a1) st = Sys2Proof.Machine.execShri a0 a1 st := rfl
@[simp] theorem exec_sari (a0 : Nat) (a1 : W32) (st : State) :
    exec (.sari a0 a1) st = Sys2Proof.Machine.execSari a0 a1 st := rfl
@[simp] theorem exec_muli (a0 : Nat) (a1 : W32) (st : State) :
    exec (.muli a0 a1) st = Sys2Proof.Machine.execMuli a0 a1 st := rfl
@[simp] theorem exec_setq (a0 : Nat) (a1 : W32) (st : State) :
    exec (.setq a0 a1) st = Sys2Proof.Machine.execSetq a0 a1 st := rfl
@[simp] theorem exec_putq (a0 : Nat) (a1 : W32) (st : State) :
    exec (.putq a0 a1) st = Sys2Proof.Machine.execPutq a0 a1 st := rfl
@[simp] theorem exec_br (a0 : Nat) (a1 : W32) (st : State) :
    exec (.br a0 a1) st = Sys2Proof.Machine.execBr a0 a1 st := rfl
@[simp] theorem exec_call (a0 : Nat) (a1 : W32) (st : State) :
    exec (.call a0 a1) st = Sys2Proof.Machine.execCall a0 a1 st := rfl
@[simp] theorem exec_jind (a0 : Nat) (a1 : W32) (st : State) :
    exec (.jind a0 a1) st = Sys2Proof.Machine.execJind a0 a1 st := rfl
@[simp] theorem exec_nop (a0 : Nat) (a1 : W32) (st : State) :
    exec (.nop a0 a1) st = Sys2Proof.Machine.execNop a0 a1 st := rfl
@[simp] theorem exec_endProgram (a0 : Nat) (a1 : W32) (st : State) :
    exec (.endProgram a0 a1) st = Sys2Proof.Machine.execEndProgram a0 a1 st := rfl
@[simp] theorem exec_mfs (a0 : Nat) (a1 : W32) (st : State) :
    exec (.mfs a0 a1) st = Sys2Proof.Machine.execMfs a0 a1 st := rfl
@[simp] theorem exec_mts (a0 : Nat) (a1 : W32) (st : State) :
    exec (.mts a0 a1) st = Sys2Proof.Machine.execMts a0 a1 st := rfl
@[simp] theorem exec_lds (a0 : Nat) (a1 : W32) (st : State) :
    exec (.lds a0 a1) st = Sys2Proof.Machine.execLds a0 a1 st := rfl
@[simp] theorem exec_sts (a0 : Nat) (a1 : W32) (st : State) :
    exec (.sts a0 a1) st = Sys2Proof.Machine.execSts a0 a1 st := rfl
@[simp] theorem exec_ldv (a0 : Nat) (a1 : W32) (st : State) :
    exec (.ldv a0 a1) st = Sys2Proof.Machine.execLdv a0 a1 st := rfl
@[simp] theorem exec_stv (a0 : Nat) (a1 : W32) (st : State) :
    exec (.stv a0 a1) st = Sys2Proof.Machine.execStv a0 a1 st := rfl
@[simp] theorem exec_ldm (a0 : Nat) (a1 : W32) (st : State) :
    exec (.ldm a0 a1) st = Sys2Proof.Machine.execLdm a0 a1 st := rfl
@[simp] theorem exec_stm (a0 : Nat) (a1 : W32) (st : State) :
    exec (.stm a0 a1) st = Sys2Proof.Machine.execStm a0 a1 st := rfl
@[simp] theorem exec_ldmv (a0 : Nat) (a1 : W32) (st : State) :
    exec (.ldmv a0 a1) st = Sys2Proof.Machine.execLdmv a0 a1 st := rfl
@[simp] theorem exec_stmv (a0 : Nat) (a1 : W32) (st : State) :
    exec (.stmv a0 a1) st = Sys2Proof.Machine.execStmv a0 a1 st := rfl
@[simp] theorem exec_lda (a0 : Nat) (a1 : W32) (st : State) :
    exec (.lda a0 a1) st = Sys2Proof.Machine.execLda a0 a1 st := rfl
@[simp] theorem exec_str (a0 : Nat) (a1 : W32) (st : State) :
    exec (.str a0 a1) st = Sys2Proof.Machine.execStr a0 a1 st := rfl
@[simp] theorem exec_stn (a0 : Nat) (a1 : W32) (st : State) :
    exec (.stn a0 a1) st = Sys2Proof.Machine.execStn a0 a1 st := rfl
@[simp] theorem exec_amo (a0 : Nat) (a1 : W32) (st : State) :
    exec (.amo a0 a1) st = Sys2Proof.Machine.execAmo a0 a1 st := rfl
@[simp] theorem exec_vacc (a0 : Nat) (a1 : W32) (st : State) :
    exec (.vacc a0 a1) st = Sys2Proof.Machine.execVacc a0 a1 st := rfl
@[simp] theorem exec_ldsb (a0 : Nat) (a1 : W32) (st : State) :
    exec (.ldsb a0 a1) st = Sys2Proof.Machine.execLdsb a0 a1 st := rfl
@[simp] theorem exec_stsb (a0 : Nat) (a1 : W32) (st : State) :
    exec (.stsb a0 a1) st = Sys2Proof.Machine.execStsb a0 a1 st := rfl
@[simp] theorem exec_fadd (a0 : Nat) (a1 : W32) (st : State) :
    exec (.fadd a0 a1) st = Sys2Proof.Machine.execFadd a0 a1 st := rfl
@[simp] theorem exec_fsub (a0 : Nat) (a1 : W32) (st : State) :
    exec (.fsub a0 a1) st = Sys2Proof.Machine.execFsub a0 a1 st := rfl
@[simp] theorem exec_fmul (a0 : Nat) (a1 : W32) (st : State) :
    exec (.fmul a0 a1) st = Sys2Proof.Machine.execFmul a0 a1 st := rfl
@[simp] theorem exec_fma (a0 : Nat) (a1 : W32) (st : State) :
    exec (.fma a0 a1) st = Sys2Proof.Machine.execFma a0 a1 st := rfl
@[simp] theorem exec_fnma (a0 : Nat) (a1 : W32) (st : State) :
    exec (.fnma a0 a1) st = Sys2Proof.Machine.execFnma a0 a1 st := rfl
@[simp] theorem exec_fmin (a0 : Nat) (a1 : W32) (st : State) :
    exec (.fmin a0 a1) st = Sys2Proof.Machine.execFmin a0 a1 st := rfl
@[simp] theorem exec_fmax (a0 : Nat) (a1 : W32) (st : State) :
    exec (.fmax a0 a1) st = Sys2Proof.Machine.execFmax a0 a1 st := rfl
@[simp] theorem exec_fabs (a0 : Nat) (a1 : W32) (st : State) :
    exec (.fabs a0 a1) st = Sys2Proof.Machine.execFabs a0 a1 st := rfl
@[simp] theorem exec_fneg (a0 : Nat) (a1 : W32) (st : State) :
    exec (.fneg a0 a1) st = Sys2Proof.Machine.execFneg a0 a1 st := rfl
@[simp] theorem exec_iadd (a0 : Nat) (a1 : W32) (st : State) :
    exec (.iadd a0 a1) st = Sys2Proof.Machine.execIadd a0 a1 st := rfl
@[simp] theorem exec_isub (a0 : Nat) (a1 : W32) (st : State) :
    exec (.isub a0 a1) st = Sys2Proof.Machine.execIsub a0 a1 st := rfl
@[simp] theorem exec_imul (a0 : Nat) (a1 : W32) (st : State) :
    exec (.imul a0 a1) st = Sys2Proof.Machine.execImul a0 a1 st := rfl
@[simp] theorem exec_valuAnd (a0 : Nat) (a1 : W32) (st : State) :
    exec (.valuAnd a0 a1) st = Sys2Proof.Machine.execValuAnd a0 a1 st := rfl
@[simp] theorem exec_valuOr (a0 : Nat) (a1 : W32) (st : State) :
    exec (.valuOr a0 a1) st = Sys2Proof.Machine.execValuOr a0 a1 st := rfl
@[simp] theorem exec_valuXor (a0 : Nat) (a1 : W32) (st : State) :
    exec (.valuXor a0 a1) st = Sys2Proof.Machine.execValuXor a0 a1 st := rfl
@[simp] theorem exec_valuShl (a0 : Nat) (a1 : W32) (st : State) :
    exec (.valuShl a0 a1) st = Sys2Proof.Machine.execValuShl a0 a1 st := rfl
@[simp] theorem exec_valuShr (a0 : Nat) (a1 : W32) (st : State) :
    exec (.valuShr a0 a1) st = Sys2Proof.Machine.execValuShr a0 a1 st := rfl
@[simp] theorem exec_valuSar (a0 : Nat) (a1 : W32) (st : State) :
    exec (.valuSar a0 a1) st = Sys2Proof.Machine.execValuSar a0 a1 st := rfl
@[simp] theorem exec_imin (a0 : Nat) (a1 : W32) (st : State) :
    exec (.imin a0 a1) st = Sys2Proof.Machine.execImin a0 a1 st := rfl
@[simp] theorem exec_imax (a0 : Nat) (a1 : W32) (st : State) :
    exec (.imax a0 a1) st = Sys2Proof.Machine.execImax a0 a1 st := rfl
@[simp] theorem exec_mov (a0 : Nat) (a1 : W32) (st : State) :
    exec (.mov a0 a1) st = Sys2Proof.Machine.execMov a0 a1 st := rfl
@[simp] theorem exec_cvtif (a0 : Nat) (a1 : W32) (st : State) :
    exec (.cvtif a0 a1) st = Sys2Proof.Machine.execCvtif a0 a1 st := rfl
@[simp] theorem exec_cvtfi (a0 : Nat) (a1 : W32) (st : State) :
    exec (.cvtfi a0 a1) st = Sys2Proof.Machine.execCvtfi a0 a1 st := rfl
@[simp] theorem exec_feq (a0 : Nat) (a1 : W32) (st : State) :
    exec (.feq a0 a1) st = Sys2Proof.Machine.execFeq a0 a1 st := rfl
@[simp] theorem exec_flt (a0 : Nat) (a1 : W32) (st : State) :
    exec (.flt a0 a1) st = Sys2Proof.Machine.execFlt a0 a1 st := rfl
@[simp] theorem exec_fle (a0 : Nat) (a1 : W32) (st : State) :
    exec (.fle a0 a1) st = Sys2Proof.Machine.execFle a0 a1 st := rfl
@[simp] theorem exec_funord (a0 : Nat) (a1 : W32) (st : State) :
    exec (.funord a0 a1) st = Sys2Proof.Machine.execFunord a0 a1 st := rfl
@[simp] theorem exec_ieq (a0 : Nat) (a1 : W32) (st : State) :
    exec (.ieq a0 a1) st = Sys2Proof.Machine.execIeq a0 a1 st := rfl
@[simp] theorem exec_ilt (a0 : Nat) (a1 : W32) (st : State) :
    exec (.ilt a0 a1) st = Sys2Proof.Machine.execIlt a0 a1 st := rfl
@[simp] theorem exec_iltu (a0 : Nat) (a1 : W32) (st : State) :
    exec (.iltu a0 a1) st = Sys2Proof.Machine.execIltu a0 a1 st := rfl
@[simp] theorem exec_kand (a0 : Nat) (a1 : W32) (st : State) :
    exec (.kand a0 a1) st = Sys2Proof.Machine.execKand a0 a1 st := rfl
@[simp] theorem exec_kor (a0 : Nat) (a1 : W32) (st : State) :
    exec (.kor a0 a1) st = Sys2Proof.Machine.execKor a0 a1 st := rfl
@[simp] theorem exec_kxor (a0 : Nat) (a1 : W32) (st : State) :
    exec (.kxor a0 a1) st = Sys2Proof.Machine.execKxor a0 a1 st := rfl
@[simp] theorem exec_kandn (a0 : Nat) (a1 : W32) (st : State) :
    exec (.kandn a0 a1) st = Sys2Proof.Machine.execKandn a0 a1 st := rfl
@[simp] theorem exec_kfroms (a0 : Nat) (a1 : W32) (st : State) :
    exec (.kfroms a0 a1) st = Sys2Proof.Machine.execKfroms a0 a1 st := rfl
@[simp] theorem exec_ktos (a0 : Nat) (a1 : W32) (st : State) :
    exec (.ktos a0 a1) st = Sys2Proof.Machine.execKtos a0 a1 st := rfl
@[simp] theorem exec_kpop (a0 : Nat) (a1 : W32) (st : State) :
    exec (.kpop a0 a1) st = Sys2Proof.Machine.execKpop a0 a1 st := rfl
@[simp] theorem exec_bcst (a0 : Nat) (a1 : W32) (st : State) :
    exec (.bcst a0 a1) st = Sys2Proof.Machine.execBcst a0 a1 st := rfl
@[simp] theorem exec_ext (a0 : Nat) (a1 : W32) (st : State) :
    exec (.ext a0 a1) st = Sys2Proof.Machine.execExt a0 a1 st := rfl
@[simp] theorem exec_ins (a0 : Nat) (a1 : W32) (st : State) :
    exec (.ins a0 a1) st = Sys2Proof.Machine.execIns a0 a1 st := rfl
@[simp] theorem exec_lane (a0 : Nat) (a1 : W32) (st : State) :
    exec (.lane a0 a1) st = Sys2Proof.Machine.execLane a0 a1 st := rfl
@[simp] theorem exec_redsum (a0 : Nat) (a1 : W32) (st : State) :
    exec (.redsum a0 a1) st = Sys2Proof.Machine.execRedsum a0 a1 st := rfl
@[simp] theorem exec_redmax (a0 : Nat) (a1 : W32) (st : State) :
    exec (.redmax a0 a1) st = Sys2Proof.Machine.execRedmax a0 a1 st := rfl
@[simp] theorem exec_rediadd (a0 : Nat) (a1 : W32) (st : State) :
    exec (.rediadd a0 a1) st = Sys2Proof.Machine.execRediadd a0 a1 st := rfl
@[simp] theorem exec_exp (a0 : Nat) (a1 : W32) (st : State) :
    exec (.exp a0 a1) st = Sys2Proof.Machine.execExp a0 a1 st := rfl
@[simp] theorem exec_rcp (a0 : Nat) (a1 : W32) (st : State) :
    exec (.rcp a0 a1) st = Sys2Proof.Machine.execRcp a0 a1 st := rfl
@[simp] theorem exec_rsq (a0 : Nat) (a1 : W32) (st : State) :
    exec (.rsq a0 a1) st = Sys2Proof.Machine.execRsq a0 a1 st := rfl
@[simp] theorem exec_vcvtWiden (a0 : Nat) (a1 : W32) (st : State) :
    exec (.vcvtWiden a0 a1) st = Sys2Proof.Machine.execVcvtWiden a0 a1 st := rfl
@[simp] theorem exec_vcvtNarrow (a0 : Nat) (a1 : W32) (st : State) :
    exec (.vcvtNarrow a0 a1) st = Sys2Proof.Machine.execVcvtNarrow a0 a1 st := rfl
@[simp] theorem exec_vsbToSb (a0 : Nat) (a1 : W32) (st : State) :
    exec (.vsbToSb a0 a1) st = Sys2Proof.Machine.execVsbToSb a0 a1 st := rfl
@[simp] theorem exec_vsbFromSb (a0 : Nat) (a1 : W32) (st : State) :
    exec (.vsbFromSb a0 a1) st = Sys2Proof.Machine.execVsbFromSb a0 a1 st := rfl
@[simp] theorem exec_dot (a0 : Nat) (a1 : W32) (st : State) :
    exec (.dot a0 a1) st = Sys2Proof.Machine.execDot a0 a1 st := rfl
@[simp] theorem exec_dotsb (a0 : Nat) (a1 : W32) (st : State) :
    exec (.dotsb a0 a1) st = Sys2Proof.Machine.execDotsb a0 a1 st := rfl
@[simp] theorem exec_azero (a0 : Nat) (a1 : W32) (st : State) :
    exec (.azero a0 a1) st = Sys2Proof.Machine.execAzero a0 a1 st := rfl
@[simp] theorem exec_aread (a0 : Nat) (a1 : W32) (st : State) :
    exec (.aread a0 a1) st = Sys2Proof.Machine.execAread a0 a1 st := rfl
@[simp] theorem exec_awrite (a0 : Nat) (a1 : W32) (st : State) :
    exec (.awrite a0 a1) st = Sys2Proof.Machine.execAwrite a0 a1 st := rfl
@[simp] theorem exec_mvt (a0 : Nat) (a1 : W32) (st : State) :
    exec (.mvt a0 a1) st = Sys2Proof.Machine.execMvt a0 a1 st := rfl
@[simp] theorem exec_mvx (a0 : Nat) (a1 : W32) (st : State) :
    exec (.mvx a0 a1) st = Sys2Proof.Machine.execMvx a0 a1 st := rfl
@[simp] theorem exec_moverTransferDone (a0 : Nat) (a1 : Nat) (st : State) :
    exec (.moverTransferDone a0 a1) st = Sys2Proof.Machine.execMoverTransferDone a0 a1 st := rfl
@[simp] theorem exec_cwait (a0 : Nat) (a1 : W32) (st : State) :
    exec (.cwait a0 a1) st = Sys2Proof.Machine.execCwait a0 a1 st := rfl
@[simp] theorem exec_cwaitBound (a0 : Nat) (st : State) :
    exec (.cwaitBound a0) st = Sys2Proof.Machine.execCwaitBound a0 st := rfl
@[simp] theorem exec_cread (a0 : Nat) (a1 : W32) (st : State) :
    exec (.cread a0 a1) st = Sys2Proof.Machine.execCread a0 a1 st := rfl
@[simp] theorem exec_cadd (a0 : Nat) (a1 : W32) (st : State) :
    exec (.cadd a0 a1) st = Sys2Proof.Machine.execCadd a0 a1 st := rfl
@[simp] theorem exec_semop (a0 : Nat) (a1 : W32) (st : State) :
    exec (.semop a0 a1) st = Sys2Proof.Machine.execSemop a0 a1 st := rfl
@[simp] theorem exec_wickFence (a0 : Nat) (a1 : W32) (st : State) :
    exec (.wickFence a0 a1) st = Sys2Proof.Machine.execWickFence a0 a1 st := rfl
@[simp] theorem exec_fenceComplete (a0 : Engine) (st : State) :
    exec (.fenceComplete a0) st = Sys2Proof.Machine.execFenceComplete a0 st := rfl
@[simp] theorem exec_acquire (a0 : Nat) (a1 : W32) (st : State) :
    exec (.acquire a0 a1) st = Sys2Proof.Machine.execAcquire a0 a1 st := rfl
@[simp] theorem exec_mwait (a0 : Nat) (a1 : W32) (st : State) :
    exec (.mwait a0 a1) st = Sys2Proof.Machine.execMwait a0 a1 st := rfl
@[simp] theorem exec_lossOfSignal (a0 : Nat) (a1 : Nat) (st : State) :
    exec (.lossOfSignal a0 a1) st = Sys2Proof.Machine.execLossOfSignal a0 a1 st := rfl
@[simp] theorem exec_linkChange (a0 : W64) (st : State) :
    exec (.linkChange a0) st = Sys2Proof.Machine.execLinkChange a0 st := rfl
@[simp] theorem exec_perstRelease  (st : State) :
    exec (.perstRelease) st = Sys2Proof.Machine.execPerstRelease st := rfl
@[simp] theorem exec_framingError  (st : State) :
    exec (.framingError) st = Sys2Proof.Machine.execFramingError st := rfl
@[simp] theorem exec_opkeyStored  (st : State) :
    exec (.opkeyStored) st = Sys2Proof.Machine.execOpkeyStored st := rfl
@[simp] theorem exec_doeRequest (a0 : DoeReq) (st : State) :
    exec (.doeRequest a0) st = Sys2Proof.Machine.execDoeRequest a0 st := rfl

end Sys2Proof.Laws
end

