-- ==== Sys2Proof/Laws/Tables.lean ====
section
/-! SUPPORT. What sparse tables and byte memories hold after they are written, and that byte memories keep their
canonical form. -/
namespace Sys2Proof.Laws
open Sys2Proof Machine

/-! ### Tables -/

theorem tput_cons {α : Type} (j k : Nat) (u v : α) (r : NatMap α) : tput ((j, u) :: r) k v =
    if k < j then (k, v) :: (j, u) :: r else if k = j then (k, v) :: r else (j, u) :: tput r k v := rfl

theorem tfind_tput {α : Type} (m : NatMap α) (k n : Nat) (v : α) :
    tfind (tput m k v) n = if n = k then some v else tfind m n := by
  have flip : ∀ a b : Nat, (a = b) = (b = a) := fun a b => propext eq_comm
  induction m with
  | nil => simp only [tput, tfind, flip k n]
  | cons e r ih =>
    obtain ⟨j, u⟩ := e
    rw [tput_cons]
    split
    · simp only [tfind, flip k n]
    · split
      · next h => subst h; simp only [tfind, flip k n]; split <;> rfl
      · next h =>
        simp only [tfind, ih]
        by_cases h' : n = k
        · subst h'; simp only [if_true, ite_eq_right_iff]; exact fun e => absurd e.symm h
        · simp [h']

theorem tget_eq_tfind {α : Type} (d : α) (m : NatMap α) (k : Nat) : tget d m k = (tfind m k).getD d := by
  induction m with
  | nil => rfl
  | cons e r ih => obtain ⟨j, u⟩ := e; simp only [tget, tfind, ih]; split <;> rfl

@[simp] theorem tget_tput {α : Type} (d : α) (m : NatMap α) (k n : Nat) (v : α) :
    tget d (tput m k v) n = if n = k then v else tget d m n := by
  simp only [tget_eq_tfind, tfind_tput]; split <;> simp

@[simp] theorem tget_tmod {α : Type} (d : α) (m : NatMap α) (k n : Nat) (f : α → α) :
    tget d (tmod d m k f) n = if n = k then f (tget d m k) else tget d m n := tget_tput d m k n _

theorem tget_tdel {α : Type} (d : α) (m : NatMap α) (k n : Nat) :
    tget d (tdel m k) n = if n = k then d else tget d m n := by
  induction m with
  | nil => simp [tdel, tget]
  | cons e r ih =>
    obtain ⟨j, u⟩ := e
    simp only [tdel, List.filter_cons] at ih ⊢
    by_cases h : j = k
    · subst h; simp only [ne_eq, not_true_eq_false, decide_false, Bool.false_eq_true, if_false, ih, tget]
      by_cases h' : n = j <;> simp [h', eq_comm]
    · simp only [ne_eq, h, not_false_eq_true, decide_true, if_true, tget, ih]
      by_cases h' : j = n
      · subst h'; simp [h]
      · simp [h']

/-! ### Byte memories -/

@[simp] theorem cellGet_cellSet (m : List Host.Cell) (a x : Nat) (b : Byte) :
    cellGet (cellSet m a b) x = if x = a then b else cellGet m x := by
  unfold cellSet cellGet
  split
  · next h => subst h; simp [tget_tdel]
  · simp

theorem cellGet_cellWrite (l : List Byte) : ∀ (m : List Host.Cell) (a x : Nat),
    cellGet (cellWrite m a l) x = if a ≤ x ∧ x < a + l.length then l.getD (x - a) 0 else cellGet m x := by
  induction l with
  | nil => intro m a x; rw [if_neg (by simp)]; rfl
  | cons b r ih =>
    intro m a x
    simp only [cellWrite, ih, cellGet_cellSet, List.length_cons]
    by_cases h1 : x = a
    · subst h1; rw [if_neg (by omega), if_pos rfl, if_pos (by omega)]; simp
    · by_cases h2 : a + 1 ≤ x ∧ x < a + 1 + r.length
      · rw [if_pos h2, if_pos (by omega)]
        obtain ⟨c, hc⟩ : ∃ c, x - a = c + 1 := ⟨x - a - 1, by omega⟩
        have : x - (a + 1) = c := by omega
        simp [hc, this]
      · rw [if_neg h2, if_neg h1, if_neg (by omega)]

theorem cellRead_length (m : List Host.Cell) (a n : Nat) : (cellRead m a n).length = n := by simp [cellRead]

theorem cellRead_cellWrite (m : List Host.Cell) (a : Nat) (l : List Byte) : cellRead (cellWrite m a l) a l.length = l := by
  apply List.ext_getElem
  · simp [cellRead]
  · intro i h1 h2
    simp only [cellRead, List.getElem_map, List.getElem_range, cellGet_cellWrite]
    rw [if_pos (by omega)]
    simp [h2]

theorem cellGet_cellZero (m : List Host.Cell) (a n x : Nat) :
    cellGet (cellZero m a n) x = if a ≤ x ∧ x < a + n then 0 else cellGet m x := by
  induction m with
  | nil => simp [cellZero, cellGet, tget]
  | cons e r ih =>
    obtain ⟨j, u⟩ := e
    simp only [cellZero, cellGet, List.filter_cons] at ih ⊢
    by_cases h : a ≤ j ∧ j < a + n
    · simp only [h, and_self, not_true_eq_false, decide_false, Bool.false_eq_true, if_false, ih, tget]
      by_cases h' : j = x
      · subst h'; simp [h]
      · simp [h']
    · simp only [h, not_false_eq_true, decide_true, if_true, tget, ih]
      by_cases h' : j = x
      · subst h'; simp [h]
      · simp [h']

/-! ### The canonical form -/

theorem wf_iff (m : List Host.Cell) : Memory.wf m = true ↔
    m.Pairwise (fun x y => x.1 < y.1) ∧ ∀ c ∈ m, c.2 ≠ 0 := by simp [Memory.wf]

theorem wf_nil : Memory.wf [] = true := rfl

/-- Whatever is left of a canonical memory is canonical. -/
theorem wf_filter (m : List Host.Cell) (p : Host.Cell → Bool) (h : Memory.wf m = true) : Memory.wf (m.filter p) = true := by
  rw [wf_iff] at h ⊢
  exact ⟨h.1.filter _, fun c hc => h.2 c (List.mem_filter.mp hc).1⟩

theorem mem_tput {α : Type} (m : NatMap α) (k : Nat) (v : α) (e : Nat × α) (h : e ∈ tput m k v) :
    e = (k, v) ∨ e ∈ m := by
  induction m with
  | nil => simpa [tput] using h
  | cons a r ih =>
    obtain ⟨j, u⟩ := a
    rw [tput_cons] at h
    split at h
    · simpa using h
    · split at h
      · simp at h; rcases h with h | h <;> simp [h]
      · simp at h
        rcases h with h | h
        · simp [h]
        · rcases ih h with h | h <;> simp [h]

theorem tput_rising {α : Type} (m : NatMap α) (k : Nat) (v : α) (h : m.Pairwise (fun x y => x.1 < y.1)) :
    (tput m k v).Pairwise (fun x y => x.1 < y.1) := by
  induction m with
  | nil => simp [tput]
  | cons a r ih =>
    obtain ⟨j, u⟩ := a
    rw [List.pairwise_cons] at h
    rw [tput_cons]
    split
    · next hk =>
      refine List.pairwise_cons.mpr ⟨?_, List.pairwise_cons.mpr h⟩
      intro e he; simp at he
      rcases he with rfl | he
      · exact hk
      · exact lt_trans hk (h.1 e he)
    · split
      · next hk => subst hk; exact List.pairwise_cons.mpr h
      · next h1 h2 =>
        refine List.pairwise_cons.mpr ⟨?_, ih h.2⟩
        intro e he
        rcases mem_tput r k v e he with rfl | he
        · show j < k; omega
        · exact h.1 e he

theorem wf_cellSet (m : List Host.Cell) (a : Nat) (b : Byte) (h : Memory.wf m = true) : Memory.wf (cellSet m a b) = true := by
  unfold cellSet
  split
  · exact wf_filter m _ h
  · next hb =>
    rw [wf_iff] at h ⊢
    refine ⟨tput_rising m a b h.1, fun c hc => ?_⟩
    rcases mem_tput m a b c hc with rfl | hc
    · exact hb
    · exact h.2 c hc

theorem wf_cellWrite (l : List Byte) : ∀ (m : List Host.Cell) (a : Nat), Memory.wf m = true →
    Memory.wf (cellWrite m a l) = true := by
  induction l with
  | nil => intro m a h; exact h
  | cons b r ih => intro m a h; exact ih _ _ (wf_cellSet m a b h)

theorem wf_cellZero (m : List Host.Cell) (a n : Nat) (h : Memory.wf m = true) : Memory.wf (cellZero m a n) = true :=
  wf_filter m _ h

end Sys2Proof.Laws
end

