-- ==== Sys2Proof/Laws/State.lean ====
section
/-! SUPPORT. Each update of the state, field by field, and what the accessors read after it. -/
namespace Sys2Proof.Laws
open Sys2Proof Machine

section
variable (s : State)

@[simp] theorem setReg_pending (k : Nat) (v : W64) : (s.setReg k v).pending = s.pending := rfl
@[simp] theorem setReg_out (k : Nat) (v : W64) : (s.setReg k v).out = s.out := rfl
@[simp] theorem setReg_free (k : Nat) (v : W64) : (s.setReg k v).free = s.free := rfl
@[simp] theorem setReg_remote (k : Nat) (v : W64) : (s.setReg k v).remote = s.remote := rfl
@[simp] theorem setReg_remoteStatus (k : Nat) (v : W64) : (s.setReg k v).remoteStatus = s.remoteStatus := rfl
@[simp] theorem setReg_regs (k : Nat) (v : W64) : (s.setReg k v).regs = tput s.regs k v := rfl
@[simp] theorem setReg_lastCmd (k : Nat) (v : W64) : (s.setReg k v).lastCmd = s.lastCmd := rfl
@[simp] theorem setReg_xbar (k : Nat) (v : W64) : (s.setReg k v).xbar = s.xbar := rfl
@[simp] theorem setReg_sync (k : Nat) (v : W64) : (s.setReg k v).sync = s.sync := rfl
@[simp] theorem setReg_lantern (k : Nat) (v : W64) : (s.setReg k v).lantern = s.lantern := rfl
@[simp] theorem setReg_store (k : Nat) (v : W64) : (s.setReg k v).store = s.store := rfl
@[simp] theorem setReg_xlt (k : Nat) (v : W64) : (s.setReg k v).xlt = s.xlt := rfl
@[simp] theorem setReg_keys (k : Nat) (v : W64) : (s.setReg k v).keys = s.keys := rfl
@[simp] theorem setReg_scratch (k : Nat) (v : W64) : (s.setReg k v).scratch = s.scratch := rfl
@[simp] theorem setReg_imem (k : Nat) (v : W64) : (s.setReg k v).imem = s.imem := rfl
@[simp] theorem setReg_reservoir (k : Nat) (v : W64) : (s.setReg k v).reservoir = s.reservoir := rfl
@[simp] theorem setReg_badScratch (k : Nat) (v : W64) : (s.setReg k v).badScratch = s.badScratch := rfl
@[simp] theorem setReg_badImem (k : Nat) (v : W64) : (s.setReg k v).badImem = s.badImem := rfl
@[simp] theorem setReg_badRsv (k : Nat) (v : W64) : (s.setReg k v).badRsv = s.badRsv := rfl
@[simp] theorem setReg_wicks (k : Nat) (v : W64) : (s.setReg k v).wicks = s.wicks := rfl
@[simp] theorem setReg_sconces (k : Nat) (v : W64) : (s.setReg k v).sconces = s.sconces := rfl
@[simp] theorem setReg_plans (k : Nat) (v : W64) : (s.setReg k v).plans = s.plans := rfl
@[simp] theorem setReg_emb (k : Nat) (v : W64) : (s.setReg k v).emb = s.emb := rfl
@[simp] theorem setReg_host (k : Nat) (v : W64) : (s.setReg k v).host = s.host := rfl
@[simp] theorem setReg_dir (k : Nat) (v : W64) : (s.setReg k v).dir = s.dir := rfl
@[simp] theorem setReg_work (k : Nat) (v : W64) : (s.setReg k v).work = s.work := rfl
@[simp] theorem setReg_errs (k : Nat) (v : W64) : (s.setReg k v).errs = s.errs := rfl
@[simp] theorem setReg_lamp (k : Nat) (v : W64) : (s.setReg k v).lamp = s.lamp := rfl
@[simp] theorem setReg_mon (k : Nat) (v : W64) : (s.setReg k v).mon = s.mon := rfl
@[simp] theorem setReg_power (k : Nat) (v : W64) : (s.setReg k v).power = s.power := rfl
@[simp] theorem setWick_pending (w : Nat) (f : Wick → Wick) : (s.setWick w f).pending = s.pending := rfl
@[simp] theorem setWick_out (w : Nat) (f : Wick → Wick) : (s.setWick w f).out = s.out := rfl
@[simp] theorem setWick_free (w : Nat) (f : Wick → Wick) : (s.setWick w f).free = s.free := rfl
@[simp] theorem setWick_remote (w : Nat) (f : Wick → Wick) : (s.setWick w f).remote = s.remote := rfl
@[simp] theorem setWick_remoteStatus (w : Nat) (f : Wick → Wick) : (s.setWick w f).remoteStatus = s.remoteStatus := rfl
@[simp] theorem setWick_regs (w : Nat) (f : Wick → Wick) : (s.setWick w f).regs = s.regs := rfl
@[simp] theorem setWick_lastCmd (w : Nat) (f : Wick → Wick) : (s.setWick w f).lastCmd = s.lastCmd := rfl
@[simp] theorem setWick_xbar (w : Nat) (f : Wick → Wick) : (s.setWick w f).xbar = s.xbar := rfl
@[simp] theorem setWick_sync (w : Nat) (f : Wick → Wick) : (s.setWick w f).sync = s.sync := rfl
@[simp] theorem setWick_lantern (w : Nat) (f : Wick → Wick) : (s.setWick w f).lantern = s.lantern := rfl
@[simp] theorem setWick_store (w : Nat) (f : Wick → Wick) : (s.setWick w f).store = s.store := rfl
@[simp] theorem setWick_xlt (w : Nat) (f : Wick → Wick) : (s.setWick w f).xlt = s.xlt := rfl
@[simp] theorem setWick_keys (w : Nat) (f : Wick → Wick) : (s.setWick w f).keys = s.keys := rfl
@[simp] theorem setWick_scratch (w : Nat) (f : Wick → Wick) : (s.setWick w f).scratch = s.scratch := rfl
@[simp] theorem setWick_imem (w : Nat) (f : Wick → Wick) : (s.setWick w f).imem = s.imem := rfl
@[simp] theorem setWick_reservoir (w : Nat) (f : Wick → Wick) : (s.setWick w f).reservoir = s.reservoir := rfl
@[simp] theorem setWick_badScratch (w : Nat) (f : Wick → Wick) : (s.setWick w f).badScratch = s.badScratch := rfl
@[simp] theorem setWick_badImem (w : Nat) (f : Wick → Wick) : (s.setWick w f).badImem = s.badImem := rfl
@[simp] theorem setWick_badRsv (w : Nat) (f : Wick → Wick) : (s.setWick w f).badRsv = s.badRsv := rfl
@[simp] theorem setWick_wicks (w : Nat) (f : Wick → Wick) : (s.setWick w f).wicks = tmod Wick.fresh s.wicks w f := rfl
@[simp] theorem setWick_sconces (w : Nat) (f : Wick → Wick) : (s.setWick w f).sconces = s.sconces := rfl
@[simp] theorem setWick_plans (w : Nat) (f : Wick → Wick) : (s.setWick w f).plans = s.plans := rfl
@[simp] theorem setWick_emb (w : Nat) (f : Wick → Wick) : (s.setWick w f).emb = s.emb := rfl
@[simp] theorem setWick_host (w : Nat) (f : Wick → Wick) : (s.setWick w f).host = s.host := rfl
@[simp] theorem setWick_dir (w : Nat) (f : Wick → Wick) : (s.setWick w f).dir = s.dir := rfl
@[simp] theorem setWick_work (w : Nat) (f : Wick → Wick) : (s.setWick w f).work = s.work := rfl
@[simp] theorem setWick_errs (w : Nat) (f : Wick → Wick) : (s.setWick w f).errs = s.errs := rfl
@[simp] theorem setWick_lamp (w : Nat) (f : Wick → Wick) : (s.setWick w f).lamp = s.lamp := rfl
@[simp] theorem setWick_mon (w : Nat) (f : Wick → Wick) : (s.setWick w f).mon = s.mon := rfl
@[simp] theorem setWick_power (w : Nat) (f : Wick → Wick) : (s.setWick w f).power = s.power := rfl
@[simp] theorem setSconce_pending (n : Nat) (f : Sconce → Sconce) : (s.setSconce n f).pending = s.pending := rfl
@[simp] theorem setSconce_out (n : Nat) (f : Sconce → Sconce) : (s.setSconce n f).out = s.out := rfl
@[simp] theorem setSconce_free (n : Nat) (f : Sconce → Sconce) : (s.setSconce n f).free = s.free := rfl
@[simp] theorem setSconce_remote (n : Nat) (f : Sconce → Sconce) : (s.setSconce n f).remote = s.remote := rfl
@[simp] theorem setSconce_remoteStatus (n : Nat) (f : Sconce → Sconce) : (s.setSconce n f).remoteStatus = s.remoteStatus := rfl
@[simp] theorem setSconce_regs (n : Nat) (f : Sconce → Sconce) : (s.setSconce n f).regs = s.regs := rfl
@[simp] theorem setSconce_lastCmd (n : Nat) (f : Sconce → Sconce) : (s.setSconce n f).lastCmd = s.lastCmd := rfl
@[simp] theorem setSconce_xbar (n : Nat) (f : Sconce → Sconce) : (s.setSconce n f).xbar = s.xbar := rfl
@[simp] theorem setSconce_sync (n : Nat) (f : Sconce → Sconce) : (s.setSconce n f).sync = s.sync := rfl
@[simp] theorem setSconce_lantern (n : Nat) (f : Sconce → Sconce) : (s.setSconce n f).lantern = s.lantern := rfl
@[simp] theorem setSconce_store (n : Nat) (f : Sconce → Sconce) : (s.setSconce n f).store = s.store := rfl
@[simp] theorem setSconce_xlt (n : Nat) (f : Sconce → Sconce) : (s.setSconce n f).xlt = s.xlt := rfl
@[simp] theorem setSconce_keys (n : Nat) (f : Sconce → Sconce) : (s.setSconce n f).keys = s.keys := rfl
@[simp] theorem setSconce_scratch (n : Nat) (f : Sconce → Sconce) : (s.setSconce n f).scratch = s.scratch := rfl
@[simp] theorem setSconce_imem (n : Nat) (f : Sconce → Sconce) : (s.setSconce n f).imem = s.imem := rfl
@[simp] theorem setSconce_reservoir (n : Nat) (f : Sconce → Sconce) : (s.setSconce n f).reservoir = s.reservoir := rfl
@[simp] theorem setSconce_badScratch (n : Nat) (f : Sconce → Sconce) : (s.setSconce n f).badScratch = s.badScratch := rfl
@[simp] theorem setSconce_badImem (n : Nat) (f : Sconce → Sconce) : (s.setSconce n f).badImem = s.badImem := rfl
@[simp] theorem setSconce_badRsv (n : Nat) (f : Sconce → Sconce) : (s.setSconce n f).badRsv = s.badRsv := rfl
@[simp] theorem setSconce_wicks (n : Nat) (f : Sconce → Sconce) : (s.setSconce n f).wicks = s.wicks := rfl
@[simp] theorem setSconce_sconces (n : Nat) (f : Sconce → Sconce) : (s.setSconce n f).sconces = tmod Sconce.fresh s.sconces n f := rfl
@[simp] theorem setSconce_plans (n : Nat) (f : Sconce → Sconce) : (s.setSconce n f).plans = s.plans := rfl
@[simp] theorem setSconce_emb (n : Nat) (f : Sconce → Sconce) : (s.setSconce n f).emb = s.emb := rfl
@[simp] theorem setSconce_host (n : Nat) (f : Sconce → Sconce) : (s.setSconce n f).host = s.host := rfl
@[simp] theorem setSconce_dir (n : Nat) (f : Sconce → Sconce) : (s.setSconce n f).dir = s.dir := rfl
@[simp] theorem setSconce_work (n : Nat) (f : Sconce → Sconce) : (s.setSconce n f).work = s.work := rfl
@[simp] theorem setSconce_errs (n : Nat) (f : Sconce → Sconce) : (s.setSconce n f).errs = s.errs := rfl
@[simp] theorem setSconce_lamp (n : Nat) (f : Sconce → Sconce) : (s.setSconce n f).lamp = s.lamp := rfl
@[simp] theorem setSconce_mon (n : Nat) (f : Sconce → Sconce) : (s.setSconce n f).mon = s.mon := rfl
@[simp] theorem setSconce_power (n : Nat) (f : Sconce → Sconce) : (s.setSconce n f).power = s.power := rfl
@[simp] theorem setPort_pending (n : Nat) (f : Port → Port) : (s.setPort n f).pending = s.pending := rfl
@[simp] theorem setPort_out (n : Nat) (f : Port → Port) : (s.setPort n f).out = s.out := rfl
@[simp] theorem setPort_free (n : Nat) (f : Port → Port) : (s.setPort n f).free = s.free := rfl
@[simp] theorem setPort_remote (n : Nat) (f : Port → Port) : (s.setPort n f).remote = s.remote := rfl
@[simp] theorem setPort_remoteStatus (n : Nat) (f : Port → Port) : (s.setPort n f).remoteStatus = s.remoteStatus := rfl
@[simp] theorem setPort_regs (n : Nat) (f : Port → Port) : (s.setPort n f).regs = s.regs := rfl
@[simp] theorem setPort_lastCmd (n : Nat) (f : Port → Port) : (s.setPort n f).lastCmd = s.lastCmd := rfl
@[simp] theorem setPort_xbar (n : Nat) (f : Port → Port) : (s.setPort n f).xbar = s.xbar := rfl
@[simp] theorem setPort_sync (n : Nat) (f : Port → Port) : (s.setPort n f).sync = s.sync := rfl
@[simp] theorem setPort_lantern (n : Nat) (f : Port → Port) : (s.setPort n f).lantern = { s.lantern with ports := tmod Port.down s.lantern.ports n f } := rfl
@[simp] theorem setPort_store (n : Nat) (f : Port → Port) : (s.setPort n f).store = s.store := rfl
@[simp] theorem setPort_xlt (n : Nat) (f : Port → Port) : (s.setPort n f).xlt = s.xlt := rfl
@[simp] theorem setPort_keys (n : Nat) (f : Port → Port) : (s.setPort n f).keys = s.keys := rfl
@[simp] theorem setPort_scratch (n : Nat) (f : Port → Port) : (s.setPort n f).scratch = s.scratch := rfl
@[simp] theorem setPort_imem (n : Nat) (f : Port → Port) : (s.setPort n f).imem = s.imem := rfl
@[simp] theorem setPort_reservoir (n : Nat) (f : Port → Port) : (s.setPort n f).reservoir = s.reservoir := rfl
@[simp] theorem setPort_badScratch (n : Nat) (f : Port → Port) : (s.setPort n f).badScratch = s.badScratch := rfl
@[simp] theorem setPort_badImem (n : Nat) (f : Port → Port) : (s.setPort n f).badImem = s.badImem := rfl
@[simp] theorem setPort_badRsv (n : Nat) (f : Port → Port) : (s.setPort n f).badRsv = s.badRsv := rfl
@[simp] theorem setPort_wicks (n : Nat) (f : Port → Port) : (s.setPort n f).wicks = s.wicks := rfl
@[simp] theorem setPort_sconces (n : Nat) (f : Port → Port) : (s.setPort n f).sconces = s.sconces := rfl
@[simp] theorem setPort_plans (n : Nat) (f : Port → Port) : (s.setPort n f).plans = s.plans := rfl
@[simp] theorem setPort_emb (n : Nat) (f : Port → Port) : (s.setPort n f).emb = s.emb := rfl
@[simp] theorem setPort_host (n : Nat) (f : Port → Port) : (s.setPort n f).host = s.host := rfl
@[simp] theorem setPort_dir (n : Nat) (f : Port → Port) : (s.setPort n f).dir = s.dir := rfl
@[simp] theorem setPort_work (n : Nat) (f : Port → Port) : (s.setPort n f).work = s.work := rfl
@[simp] theorem setPort_errs (n : Nat) (f : Port → Port) : (s.setPort n f).errs = s.errs := rfl
@[simp] theorem setPort_lamp (n : Nat) (f : Port → Port) : (s.setPort n f).lamp = s.lamp := rfl
@[simp] theorem setPort_mon (n : Nat) (f : Port → Port) : (s.setPort n f).mon = s.mon := rfl
@[simp] theorem setPort_power (n : Nat) (f : Port → Port) : (s.setPort n f).power = s.power := rfl
@[simp] theorem setQueue_pending (q : Nat) (f : Queue → Queue) : (s.setQueue q f).pending = s.pending := rfl
@[simp] theorem setQueue_out (q : Nat) (f : Queue → Queue) : (s.setQueue q f).out = s.out := rfl
@[simp] theorem setQueue_free (q : Nat) (f : Queue → Queue) : (s.setQueue q f).free = s.free := rfl
@[simp] theorem setQueue_remote (q : Nat) (f : Queue → Queue) : (s.setQueue q f).remote = s.remote := rfl
@[simp] theorem setQueue_remoteStatus (q : Nat) (f : Queue → Queue) : (s.setQueue q f).remoteStatus = s.remoteStatus := rfl
@[simp] theorem setQueue_regs (q : Nat) (f : Queue → Queue) : (s.setQueue q f).regs = s.regs := rfl
@[simp] theorem setQueue_lastCmd (q : Nat) (f : Queue → Queue) : (s.setQueue q f).lastCmd = s.lastCmd := rfl
@[simp] theorem setQueue_xbar (q : Nat) (f : Queue → Queue) : (s.setQueue q f).xbar = s.xbar := rfl
@[simp] theorem setQueue_sync (q : Nat) (f : Queue → Queue) : (s.setQueue q f).sync = s.sync := rfl
@[simp] theorem setQueue_lantern (q : Nat) (f : Queue → Queue) : (s.setQueue q f).lantern = s.lantern := rfl
@[simp] theorem setQueue_store (q : Nat) (f : Queue → Queue) : (s.setQueue q f).store = s.store := rfl
@[simp] theorem setQueue_xlt (q : Nat) (f : Queue → Queue) : (s.setQueue q f).xlt = s.xlt := rfl
@[simp] theorem setQueue_keys (q : Nat) (f : Queue → Queue) : (s.setQueue q f).keys = s.keys := rfl
@[simp] theorem setQueue_scratch (q : Nat) (f : Queue → Queue) : (s.setQueue q f).scratch = s.scratch := rfl
@[simp] theorem setQueue_imem (q : Nat) (f : Queue → Queue) : (s.setQueue q f).imem = s.imem := rfl
@[simp] theorem setQueue_reservoir (q : Nat) (f : Queue → Queue) : (s.setQueue q f).reservoir = s.reservoir := rfl
@[simp] theorem setQueue_badScratch (q : Nat) (f : Queue → Queue) : (s.setQueue q f).badScratch = s.badScratch := rfl
@[simp] theorem setQueue_badImem (q : Nat) (f : Queue → Queue) : (s.setQueue q f).badImem = s.badImem := rfl
@[simp] theorem setQueue_badRsv (q : Nat) (f : Queue → Queue) : (s.setQueue q f).badRsv = s.badRsv := rfl
@[simp] theorem setQueue_wicks (q : Nat) (f : Queue → Queue) : (s.setQueue q f).wicks = s.wicks := rfl
@[simp] theorem setQueue_sconces (q : Nat) (f : Queue → Queue) : (s.setQueue q f).sconces = s.sconces := rfl
@[simp] theorem setQueue_plans (q : Nat) (f : Queue → Queue) : (s.setQueue q f).plans = s.plans := rfl
@[simp] theorem setQueue_emb (q : Nat) (f : Queue → Queue) : (s.setQueue q f).emb = s.emb := rfl
@[simp] theorem setQueue_host (q : Nat) (f : Queue → Queue) : (s.setQueue q f).host = s.host := rfl
@[simp] theorem setQueue_dir (q : Nat) (f : Queue → Queue) : (s.setQueue q f).dir = s.dir := rfl
@[simp] theorem setQueue_work (q : Nat) (f : Queue → Queue) : (s.setQueue q f).work = { s.work with queues := tmod Queue.off s.work.queues q f } := rfl
@[simp] theorem setQueue_errs (q : Nat) (f : Queue → Queue) : (s.setQueue q f).errs = s.errs := rfl
@[simp] theorem setQueue_lamp (q : Nat) (f : Queue → Queue) : (s.setQueue q f).lamp = s.lamp := rfl
@[simp] theorem setQueue_mon (q : Nat) (f : Queue → Queue) : (s.setQueue q f).mon = s.mon := rfl
@[simp] theorem setQueue_power (q : Nat) (f : Queue → Queue) : (s.setQueue q f).power = s.power := rfl
@[simp] theorem setComp_pending (c : Nat) (f : Comp → Comp) : (s.setComp c f).pending = s.pending := rfl
@[simp] theorem setComp_out (c : Nat) (f : Comp → Comp) : (s.setComp c f).out = s.out := rfl
@[simp] theorem setComp_free (c : Nat) (f : Comp → Comp) : (s.setComp c f).free = s.free := rfl
@[simp] theorem setComp_remote (c : Nat) (f : Comp → Comp) : (s.setComp c f).remote = s.remote := rfl
@[simp] theorem setComp_remoteStatus (c : Nat) (f : Comp → Comp) : (s.setComp c f).remoteStatus = s.remoteStatus := rfl
@[simp] theorem setComp_regs (c : Nat) (f : Comp → Comp) : (s.setComp c f).regs = s.regs := rfl
@[simp] theorem setComp_lastCmd (c : Nat) (f : Comp → Comp) : (s.setComp c f).lastCmd = s.lastCmd := rfl
@[simp] theorem setComp_xbar (c : Nat) (f : Comp → Comp) : (s.setComp c f).xbar = s.xbar := rfl
@[simp] theorem setComp_sync (c : Nat) (f : Comp → Comp) : (s.setComp c f).sync = s.sync := rfl
@[simp] theorem setComp_lantern (c : Nat) (f : Comp → Comp) : (s.setComp c f).lantern = s.lantern := rfl
@[simp] theorem setComp_store (c : Nat) (f : Comp → Comp) : (s.setComp c f).store = s.store := rfl
@[simp] theorem setComp_xlt (c : Nat) (f : Comp → Comp) : (s.setComp c f).xlt = s.xlt := rfl
@[simp] theorem setComp_keys (c : Nat) (f : Comp → Comp) : (s.setComp c f).keys = s.keys := rfl
@[simp] theorem setComp_scratch (c : Nat) (f : Comp → Comp) : (s.setComp c f).scratch = s.scratch := rfl
@[simp] theorem setComp_imem (c : Nat) (f : Comp → Comp) : (s.setComp c f).imem = s.imem := rfl
@[simp] theorem setComp_reservoir (c : Nat) (f : Comp → Comp) : (s.setComp c f).reservoir = s.reservoir := rfl
@[simp] theorem setComp_badScratch (c : Nat) (f : Comp → Comp) : (s.setComp c f).badScratch = s.badScratch := rfl
@[simp] theorem setComp_badImem (c : Nat) (f : Comp → Comp) : (s.setComp c f).badImem = s.badImem := rfl
@[simp] theorem setComp_badRsv (c : Nat) (f : Comp → Comp) : (s.setComp c f).badRsv = s.badRsv := rfl
@[simp] theorem setComp_wicks (c : Nat) (f : Comp → Comp) : (s.setComp c f).wicks = s.wicks := rfl
@[simp] theorem setComp_sconces (c : Nat) (f : Comp → Comp) : (s.setComp c f).sconces = s.sconces := rfl
@[simp] theorem setComp_plans (c : Nat) (f : Comp → Comp) : (s.setComp c f).plans = s.plans := rfl
@[simp] theorem setComp_emb (c : Nat) (f : Comp → Comp) : (s.setComp c f).emb = s.emb := rfl
@[simp] theorem setComp_host (c : Nat) (f : Comp → Comp) : (s.setComp c f).host = s.host := rfl
@[simp] theorem setComp_dir (c : Nat) (f : Comp → Comp) : (s.setComp c f).dir = s.dir := rfl
@[simp] theorem setComp_work (c : Nat) (f : Comp → Comp) : (s.setComp c f).work = { s.work with comps := tmod Comp.free s.work.comps c f } := rfl
@[simp] theorem setComp_errs (c : Nat) (f : Comp → Comp) : (s.setComp c f).errs = s.errs := rfl
@[simp] theorem setComp_lamp (c : Nat) (f : Comp → Comp) : (s.setComp c f).lamp = s.lamp := rfl
@[simp] theorem setComp_mon (c : Nat) (f : Comp → Comp) : (s.setComp c f).mon = s.mon := rfl
@[simp] theorem setComp_power (c : Nat) (f : Comp → Comp) : (s.setComp c f).power = s.power := rfl
@[simp] theorem setExtent_pending (e : Nat) (f : Extent → Extent) : (s.setExtent e f).pending = s.pending := rfl
@[simp] theorem setExtent_out (e : Nat) (f : Extent → Extent) : (s.setExtent e f).out = s.out := rfl
@[simp] theorem setExtent_free (e : Nat) (f : Extent → Extent) : (s.setExtent e f).free = s.free := rfl
@[simp] theorem setExtent_remote (e : Nat) (f : Extent → Extent) : (s.setExtent e f).remote = s.remote := rfl
@[simp] theorem setExtent_remoteStatus (e : Nat) (f : Extent → Extent) : (s.setExtent e f).remoteStatus = s.remoteStatus := rfl
@[simp] theorem setExtent_regs (e : Nat) (f : Extent → Extent) : (s.setExtent e f).regs = s.regs := rfl
@[simp] theorem setExtent_lastCmd (e : Nat) (f : Extent → Extent) : (s.setExtent e f).lastCmd = s.lastCmd := rfl
@[simp] theorem setExtent_xbar (e : Nat) (f : Extent → Extent) : (s.setExtent e f).xbar = s.xbar := rfl
@[simp] theorem setExtent_sync (e : Nat) (f : Extent → Extent) : (s.setExtent e f).sync = s.sync := rfl
@[simp] theorem setExtent_lantern (e : Nat) (f : Extent → Extent) : (s.setExtent e f).lantern = s.lantern := rfl
@[simp] theorem setExtent_store (e : Nat) (f : Extent → Extent) : (s.setExtent e f).store = s.store := rfl
@[simp] theorem setExtent_xlt (e : Nat) (f : Extent → Extent) : (s.setExtent e f).xlt = s.xlt := rfl
@[simp] theorem setExtent_keys (e : Nat) (f : Extent → Extent) : (s.setExtent e f).keys = s.keys := rfl
@[simp] theorem setExtent_scratch (e : Nat) (f : Extent → Extent) : (s.setExtent e f).scratch = s.scratch := rfl
@[simp] theorem setExtent_imem (e : Nat) (f : Extent → Extent) : (s.setExtent e f).imem = s.imem := rfl
@[simp] theorem setExtent_reservoir (e : Nat) (f : Extent → Extent) : (s.setExtent e f).reservoir = s.reservoir := rfl
@[simp] theorem setExtent_badScratch (e : Nat) (f : Extent → Extent) : (s.setExtent e f).badScratch = s.badScratch := rfl
@[simp] theorem setExtent_badImem (e : Nat) (f : Extent → Extent) : (s.setExtent e f).badImem = s.badImem := rfl
@[simp] theorem setExtent_badRsv (e : Nat) (f : Extent → Extent) : (s.setExtent e f).badRsv = s.badRsv := rfl
@[simp] theorem setExtent_wicks (e : Nat) (f : Extent → Extent) : (s.setExtent e f).wicks = s.wicks := rfl
@[simp] theorem setExtent_sconces (e : Nat) (f : Extent → Extent) : (s.setExtent e f).sconces = s.sconces := rfl
@[simp] theorem setExtent_plans (e : Nat) (f : Extent → Extent) : (s.setExtent e f).plans = s.plans := rfl
@[simp] theorem setExtent_emb (e : Nat) (f : Extent → Extent) : (s.setExtent e f).emb = s.emb := rfl
@[simp] theorem setExtent_host (e : Nat) (f : Extent → Extent) : (s.setExtent e f).host = s.host := rfl
@[simp] theorem setExtent_dir (e : Nat) (f : Extent → Extent) : (s.setExtent e f).dir = s.dir := rfl
@[simp] theorem setExtent_work (e : Nat) (f : Extent → Extent) : (s.setExtent e f).work = { s.work with extents := tmod Extent.unowned s.work.extents e f } := rfl
@[simp] theorem setExtent_errs (e : Nat) (f : Extent → Extent) : (s.setExtent e f).errs = s.errs := rfl
@[simp] theorem setExtent_lamp (e : Nat) (f : Extent → Extent) : (s.setExtent e f).lamp = s.lamp := rfl
@[simp] theorem setExtent_mon (e : Nat) (f : Extent → Extent) : (s.setExtent e f).mon = s.mon := rfl
@[simp] theorem setExtent_power (e : Nat) (f : Extent → Extent) : (s.setExtent e f).power = s.power := rfl
@[simp] theorem setPlan_pending (h : Nat) (f : Plan → Plan) : (s.setPlan h f).pending = s.pending := rfl
@[simp] theorem setPlan_out (h : Nat) (f : Plan → Plan) : (s.setPlan h f).out = s.out := rfl
@[simp] theorem setPlan_free (h : Nat) (f : Plan → Plan) : (s.setPlan h f).free = s.free := rfl
@[simp] theorem setPlan_remote (h : Nat) (f : Plan → Plan) : (s.setPlan h f).remote = s.remote := rfl
@[simp] theorem setPlan_remoteStatus (h : Nat) (f : Plan → Plan) : (s.setPlan h f).remoteStatus = s.remoteStatus := rfl
@[simp] theorem setPlan_regs (h : Nat) (f : Plan → Plan) : (s.setPlan h f).regs = s.regs := rfl
@[simp] theorem setPlan_lastCmd (h : Nat) (f : Plan → Plan) : (s.setPlan h f).lastCmd = s.lastCmd := rfl
@[simp] theorem setPlan_xbar (h : Nat) (f : Plan → Plan) : (s.setPlan h f).xbar = s.xbar := rfl
@[simp] theorem setPlan_sync (h : Nat) (f : Plan → Plan) : (s.setPlan h f).sync = s.sync := rfl
@[simp] theorem setPlan_lantern (h : Nat) (f : Plan → Plan) : (s.setPlan h f).lantern = s.lantern := rfl
@[simp] theorem setPlan_store (h : Nat) (f : Plan → Plan) : (s.setPlan h f).store = s.store := rfl
@[simp] theorem setPlan_xlt (h : Nat) (f : Plan → Plan) : (s.setPlan h f).xlt = s.xlt := rfl
@[simp] theorem setPlan_keys (h : Nat) (f : Plan → Plan) : (s.setPlan h f).keys = s.keys := rfl
@[simp] theorem setPlan_scratch (h : Nat) (f : Plan → Plan) : (s.setPlan h f).scratch = s.scratch := rfl
@[simp] theorem setPlan_imem (h : Nat) (f : Plan → Plan) : (s.setPlan h f).imem = s.imem := rfl
@[simp] theorem setPlan_reservoir (h : Nat) (f : Plan → Plan) : (s.setPlan h f).reservoir = s.reservoir := rfl
@[simp] theorem setPlan_badScratch (h : Nat) (f : Plan → Plan) : (s.setPlan h f).badScratch = s.badScratch := rfl
@[simp] theorem setPlan_badImem (h : Nat) (f : Plan → Plan) : (s.setPlan h f).badImem = s.badImem := rfl
@[simp] theorem setPlan_badRsv (h : Nat) (f : Plan → Plan) : (s.setPlan h f).badRsv = s.badRsv := rfl
@[simp] theorem setPlan_wicks (h : Nat) (f : Plan → Plan) : (s.setPlan h f).wicks = s.wicks := rfl
@[simp] theorem setPlan_sconces (h : Nat) (f : Plan → Plan) : (s.setPlan h f).sconces = s.sconces := rfl
@[simp] theorem setPlan_plans (h : Nat) (f : Plan → Plan) : (s.setPlan h f).plans = s.plans.map (fun e => if e.1 = h then (e.1, f e.2) else e) := rfl
@[simp] theorem setPlan_emb (h : Nat) (f : Plan → Plan) : (s.setPlan h f).emb = s.emb := rfl
@[simp] theorem setPlan_host (h : Nat) (f : Plan → Plan) : (s.setPlan h f).host = s.host := rfl
@[simp] theorem setPlan_dir (h : Nat) (f : Plan → Plan) : (s.setPlan h f).dir = s.dir := rfl
@[simp] theorem setPlan_work (h : Nat) (f : Plan → Plan) : (s.setPlan h f).work = s.work := rfl
@[simp] theorem setPlan_errs (h : Nat) (f : Plan → Plan) : (s.setPlan h f).errs = s.errs := rfl
@[simp] theorem setPlan_lamp (h : Nat) (f : Plan → Plan) : (s.setPlan h f).lamp = s.lamp := rfl
@[simp] theorem setPlan_mon (h : Nat) (f : Plan → Plan) : (s.setPlan h f).mon = s.mon := rfl
@[simp] theorem setPlan_power (h : Nat) (f : Plan → Plan) : (s.setPlan h f).power = s.power := rfl
@[simp] theorem setXbar_pending (f : Xbar → Xbar) : (s.setXbar f).pending = s.pending := rfl
@[simp] theorem setXbar_out (f : Xbar → Xbar) : (s.setXbar f).out = s.out := rfl
@[simp] theorem setXbar_free (f : Xbar → Xbar) : (s.setXbar f).free = s.free := rfl
@[simp] theorem setXbar_remote (f : Xbar → Xbar) : (s.setXbar f).remote = s.remote := rfl
@[simp] theorem setXbar_remoteStatus (f : Xbar → Xbar) : (s.setXbar f).remoteStatus = s.remoteStatus := rfl
@[simp] theorem setXbar_regs (f : Xbar → Xbar) : (s.setXbar f).regs = s.regs := rfl
@[simp] theorem setXbar_lastCmd (f : Xbar → Xbar) : (s.setXbar f).lastCmd = s.lastCmd := rfl
@[simp] theorem setXbar_xbar (f : Xbar → Xbar) : (s.setXbar f).xbar = f s.xbar := rfl
@[simp] theorem setXbar_sync (f : Xbar → Xbar) : (s.setXbar f).sync = s.sync := rfl
@[simp] theorem setXbar_lantern (f : Xbar → Xbar) : (s.setXbar f).lantern = s.lantern := rfl
@[simp] theorem setXbar_store (f : Xbar → Xbar) : (s.setXbar f).store = s.store := rfl
@[simp] theorem setXbar_xlt (f : Xbar → Xbar) : (s.setXbar f).xlt = s.xlt := rfl
@[simp] theorem setXbar_keys (f : Xbar → Xbar) : (s.setXbar f).keys = s.keys := rfl
@[simp] theorem setXbar_scratch (f : Xbar → Xbar) : (s.setXbar f).scratch = s.scratch := rfl
@[simp] theorem setXbar_imem (f : Xbar → Xbar) : (s.setXbar f).imem = s.imem := rfl
@[simp] theorem setXbar_reservoir (f : Xbar → Xbar) : (s.setXbar f).reservoir = s.reservoir := rfl
@[simp] theorem setXbar_badScratch (f : Xbar → Xbar) : (s.setXbar f).badScratch = s.badScratch := rfl
@[simp] theorem setXbar_badImem (f : Xbar → Xbar) : (s.setXbar f).badImem = s.badImem := rfl
@[simp] theorem setXbar_badRsv (f : Xbar → Xbar) : (s.setXbar f).badRsv = s.badRsv := rfl
@[simp] theorem setXbar_wicks (f : Xbar → Xbar) : (s.setXbar f).wicks = s.wicks := rfl
@[simp] theorem setXbar_sconces (f : Xbar → Xbar) : (s.setXbar f).sconces = s.sconces := rfl
@[simp] theorem setXbar_plans (f : Xbar → Xbar) : (s.setXbar f).plans = s.plans := rfl
@[simp] theorem setXbar_emb (f : Xbar → Xbar) : (s.setXbar f).emb = s.emb := rfl
@[simp] theorem setXbar_host (f : Xbar → Xbar) : (s.setXbar f).host = s.host := rfl
@[simp] theorem setXbar_dir (f : Xbar → Xbar) : (s.setXbar f).dir = s.dir := rfl
@[simp] theorem setXbar_work (f : Xbar → Xbar) : (s.setXbar f).work = s.work := rfl
@[simp] theorem setXbar_errs (f : Xbar → Xbar) : (s.setXbar f).errs = s.errs := rfl
@[simp] theorem setXbar_lamp (f : Xbar → Xbar) : (s.setXbar f).lamp = s.lamp := rfl
@[simp] theorem setXbar_mon (f : Xbar → Xbar) : (s.setXbar f).mon = s.mon := rfl
@[simp] theorem setXbar_power (f : Xbar → Xbar) : (s.setXbar f).power = s.power := rfl
@[simp] theorem setSync_pending (f : Sync → Sync) : (s.setSync f).pending = s.pending := rfl
@[simp] theorem setSync_out (f : Sync → Sync) : (s.setSync f).out = s.out := rfl
@[simp] theorem setSync_free (f : Sync → Sync) : (s.setSync f).free = s.free := rfl
@[simp] theorem setSync_remote (f : Sync → Sync) : (s.setSync f).remote = s.remote := rfl
@[simp] theorem setSync_remoteStatus (f : Sync → Sync) : (s.setSync f).remoteStatus = s.remoteStatus := rfl
@[simp] theorem setSync_regs (f : Sync → Sync) : (s.setSync f).regs = s.regs := rfl
@[simp] theorem setSync_lastCmd (f : Sync → Sync) : (s.setSync f).lastCmd = s.lastCmd := rfl
@[simp] theorem setSync_xbar (f : Sync → Sync) : (s.setSync f).xbar = s.xbar := rfl
@[simp] theorem setSync_sync (f : Sync → Sync) : (s.setSync f).sync = f s.sync := rfl
@[simp] theorem setSync_lantern (f : Sync → Sync) : (s.setSync f).lantern = s.lantern := rfl
@[simp] theorem setSync_store (f : Sync → Sync) : (s.setSync f).store = s.store := rfl
@[simp] theorem setSync_xlt (f : Sync → Sync) : (s.setSync f).xlt = s.xlt := rfl
@[simp] theorem setSync_keys (f : Sync → Sync) : (s.setSync f).keys = s.keys := rfl
@[simp] theorem setSync_scratch (f : Sync → Sync) : (s.setSync f).scratch = s.scratch := rfl
@[simp] theorem setSync_imem (f : Sync → Sync) : (s.setSync f).imem = s.imem := rfl
@[simp] theorem setSync_reservoir (f : Sync → Sync) : (s.setSync f).reservoir = s.reservoir := rfl
@[simp] theorem setSync_badScratch (f : Sync → Sync) : (s.setSync f).badScratch = s.badScratch := rfl
@[simp] theorem setSync_badImem (f : Sync → Sync) : (s.setSync f).badImem = s.badImem := rfl
@[simp] theorem setSync_badRsv (f : Sync → Sync) : (s.setSync f).badRsv = s.badRsv := rfl
@[simp] theorem setSync_wicks (f : Sync → Sync) : (s.setSync f).wicks = s.wicks := rfl
@[simp] theorem setSync_sconces (f : Sync → Sync) : (s.setSync f).sconces = s.sconces := rfl
@[simp] theorem setSync_plans (f : Sync → Sync) : (s.setSync f).plans = s.plans := rfl
@[simp] theorem setSync_emb (f : Sync → Sync) : (s.setSync f).emb = s.emb := rfl
@[simp] theorem setSync_host (f : Sync → Sync) : (s.setSync f).host = s.host := rfl
@[simp] theorem setSync_dir (f : Sync → Sync) : (s.setSync f).dir = s.dir := rfl
@[simp] theorem setSync_work (f : Sync → Sync) : (s.setSync f).work = s.work := rfl
@[simp] theorem setSync_errs (f : Sync → Sync) : (s.setSync f).errs = s.errs := rfl
@[simp] theorem setSync_lamp (f : Sync → Sync) : (s.setSync f).lamp = s.lamp := rfl
@[simp] theorem setSync_mon (f : Sync → Sync) : (s.setSync f).mon = s.mon := rfl
@[simp] theorem setSync_power (f : Sync → Sync) : (s.setSync f).power = s.power := rfl
@[simp] theorem setStore_pending (f : Store → Store) : (s.setStore f).pending = s.pending := rfl
@[simp] theorem setStore_out (f : Store → Store) : (s.setStore f).out = s.out := rfl
@[simp] theorem setStore_free (f : Store → Store) : (s.setStore f).free = s.free := rfl
@[simp] theorem setStore_remote (f : Store → Store) : (s.setStore f).remote = s.remote := rfl
@[simp] theorem setStore_remoteStatus (f : Store → Store) : (s.setStore f).remoteStatus = s.remoteStatus := rfl
@[simp] theorem setStore_regs (f : Store → Store) : (s.setStore f).regs = s.regs := rfl
@[simp] theorem setStore_lastCmd (f : Store → Store) : (s.setStore f).lastCmd = s.lastCmd := rfl
@[simp] theorem setStore_xbar (f : Store → Store) : (s.setStore f).xbar = s.xbar := rfl
@[simp] theorem setStore_sync (f : Store → Store) : (s.setStore f).sync = s.sync := rfl
@[simp] theorem setStore_lantern (f : Store → Store) : (s.setStore f).lantern = s.lantern := rfl
@[simp] theorem setStore_store (f : Store → Store) : (s.setStore f).store = f s.store := rfl
@[simp] theorem setStore_xlt (f : Store → Store) : (s.setStore f).xlt = s.xlt := rfl
@[simp] theorem setStore_keys (f : Store → Store) : (s.setStore f).keys = s.keys := rfl
@[simp] theorem setStore_scratch (f : Store → Store) : (s.setStore f).scratch = s.scratch := rfl
@[simp] theorem setStore_imem (f : Store → Store) : (s.setStore f).imem = s.imem := rfl
@[simp] theorem setStore_reservoir (f : Store → Store) : (s.setStore f).reservoir = s.reservoir := rfl
@[simp] theorem setStore_badScratch (f : Store → Store) : (s.setStore f).badScratch = s.badScratch := rfl
@[simp] theorem setStore_badImem (f : Store → Store) : (s.setStore f).badImem = s.badImem := rfl
@[simp] theorem setStore_badRsv (f : Store → Store) : (s.setStore f).badRsv = s.badRsv := rfl
@[simp] theorem setStore_wicks (f : Store → Store) : (s.setStore f).wicks = s.wicks := rfl
@[simp] theorem setStore_sconces (f : Store → Store) : (s.setStore f).sconces = s.sconces := rfl
@[simp] theorem setStore_plans (f : Store → Store) : (s.setStore f).plans = s.plans := rfl
@[simp] theorem setStore_emb (f : Store → Store) : (s.setStore f).emb = s.emb := rfl
@[simp] theorem setStore_host (f : Store → Store) : (s.setStore f).host = s.host := rfl
@[simp] theorem setStore_dir (f : Store → Store) : (s.setStore f).dir = s.dir := rfl
@[simp] theorem setStore_work (f : Store → Store) : (s.setStore f).work = s.work := rfl
@[simp] theorem setStore_errs (f : Store → Store) : (s.setStore f).errs = s.errs := rfl
@[simp] theorem setStore_lamp (f : Store → Store) : (s.setStore f).lamp = s.lamp := rfl
@[simp] theorem setStore_mon (f : Store → Store) : (s.setStore f).mon = s.mon := rfl
@[simp] theorem setStore_power (f : Store → Store) : (s.setStore f).power = s.power := rfl
@[simp] theorem setXlt_pending (f : Xlt → Xlt) : (s.setXlt f).pending = s.pending := rfl
@[simp] theorem setXlt_out (f : Xlt → Xlt) : (s.setXlt f).out = s.out := rfl
@[simp] theorem setXlt_free (f : Xlt → Xlt) : (s.setXlt f).free = s.free := rfl
@[simp] theorem setXlt_remote (f : Xlt → Xlt) : (s.setXlt f).remote = s.remote := rfl
@[simp] theorem setXlt_remoteStatus (f : Xlt → Xlt) : (s.setXlt f).remoteStatus = s.remoteStatus := rfl
@[simp] theorem setXlt_regs (f : Xlt → Xlt) : (s.setXlt f).regs = s.regs := rfl
@[simp] theorem setXlt_lastCmd (f : Xlt → Xlt) : (s.setXlt f).lastCmd = s.lastCmd := rfl
@[simp] theorem setXlt_xbar (f : Xlt → Xlt) : (s.setXlt f).xbar = s.xbar := rfl
@[simp] theorem setXlt_sync (f : Xlt → Xlt) : (s.setXlt f).sync = s.sync := rfl
@[simp] theorem setXlt_lantern (f : Xlt → Xlt) : (s.setXlt f).lantern = s.lantern := rfl
@[simp] theorem setXlt_store (f : Xlt → Xlt) : (s.setXlt f).store = s.store := rfl
@[simp] theorem setXlt_xlt (f : Xlt → Xlt) : (s.setXlt f).xlt = f s.xlt := rfl
@[simp] theorem setXlt_keys (f : Xlt → Xlt) : (s.setXlt f).keys = s.keys := rfl
@[simp] theorem setXlt_scratch (f : Xlt → Xlt) : (s.setXlt f).scratch = s.scratch := rfl
@[simp] theorem setXlt_imem (f : Xlt → Xlt) : (s.setXlt f).imem = s.imem := rfl
@[simp] theorem setXlt_reservoir (f : Xlt → Xlt) : (s.setXlt f).reservoir = s.reservoir := rfl
@[simp] theorem setXlt_badScratch (f : Xlt → Xlt) : (s.setXlt f).badScratch = s.badScratch := rfl
@[simp] theorem setXlt_badImem (f : Xlt → Xlt) : (s.setXlt f).badImem = s.badImem := rfl
@[simp] theorem setXlt_badRsv (f : Xlt → Xlt) : (s.setXlt f).badRsv = s.badRsv := rfl
@[simp] theorem setXlt_wicks (f : Xlt → Xlt) : (s.setXlt f).wicks = s.wicks := rfl
@[simp] theorem setXlt_sconces (f : Xlt → Xlt) : (s.setXlt f).sconces = s.sconces := rfl
@[simp] theorem setXlt_plans (f : Xlt → Xlt) : (s.setXlt f).plans = s.plans := rfl
@[simp] theorem setXlt_emb (f : Xlt → Xlt) : (s.setXlt f).emb = s.emb := rfl
@[simp] theorem setXlt_host (f : Xlt → Xlt) : (s.setXlt f).host = s.host := rfl
@[simp] theorem setXlt_dir (f : Xlt → Xlt) : (s.setXlt f).dir = s.dir := rfl
@[simp] theorem setXlt_work (f : Xlt → Xlt) : (s.setXlt f).work = s.work := rfl
@[simp] theorem setXlt_errs (f : Xlt → Xlt) : (s.setXlt f).errs = s.errs := rfl
@[simp] theorem setXlt_lamp (f : Xlt → Xlt) : (s.setXlt f).lamp = s.lamp := rfl
@[simp] theorem setXlt_mon (f : Xlt → Xlt) : (s.setXlt f).mon = s.mon := rfl
@[simp] theorem setXlt_power (f : Xlt → Xlt) : (s.setXlt f).power = s.power := rfl
@[simp] theorem setWork_pending (f : Work → Work) : (s.setWork f).pending = s.pending := rfl
@[simp] theorem setWork_out (f : Work → Work) : (s.setWork f).out = s.out := rfl
@[simp] theorem setWork_free (f : Work → Work) : (s.setWork f).free = s.free := rfl
@[simp] theorem setWork_remote (f : Work → Work) : (s.setWork f).remote = s.remote := rfl
@[simp] theorem setWork_remoteStatus (f : Work → Work) : (s.setWork f).remoteStatus = s.remoteStatus := rfl
@[simp] theorem setWork_regs (f : Work → Work) : (s.setWork f).regs = s.regs := rfl
@[simp] theorem setWork_lastCmd (f : Work → Work) : (s.setWork f).lastCmd = s.lastCmd := rfl
@[simp] theorem setWork_xbar (f : Work → Work) : (s.setWork f).xbar = s.xbar := rfl
@[simp] theorem setWork_sync (f : Work → Work) : (s.setWork f).sync = s.sync := rfl
@[simp] theorem setWork_lantern (f : Work → Work) : (s.setWork f).lantern = s.lantern := rfl
@[simp] theorem setWork_store (f : Work → Work) : (s.setWork f).store = s.store := rfl
@[simp] theorem setWork_xlt (f : Work → Work) : (s.setWork f).xlt = s.xlt := rfl
@[simp] theorem setWork_keys (f : Work → Work) : (s.setWork f).keys = s.keys := rfl
@[simp] theorem setWork_scratch (f : Work → Work) : (s.setWork f).scratch = s.scratch := rfl
@[simp] theorem setWork_imem (f : Work → Work) : (s.setWork f).imem = s.imem := rfl
@[simp] theorem setWork_reservoir (f : Work → Work) : (s.setWork f).reservoir = s.reservoir := rfl
@[simp] theorem setWork_badScratch (f : Work → Work) : (s.setWork f).badScratch = s.badScratch := rfl
@[simp] theorem setWork_badImem (f : Work → Work) : (s.setWork f).badImem = s.badImem := rfl
@[simp] theorem setWork_badRsv (f : Work → Work) : (s.setWork f).badRsv = s.badRsv := rfl
@[simp] theorem setWork_wicks (f : Work → Work) : (s.setWork f).wicks = s.wicks := rfl
@[simp] theorem setWork_sconces (f : Work → Work) : (s.setWork f).sconces = s.sconces := rfl
@[simp] theorem setWork_plans (f : Work → Work) : (s.setWork f).plans = s.plans := rfl
@[simp] theorem setWork_emb (f : Work → Work) : (s.setWork f).emb = s.emb := rfl
@[simp] theorem setWork_host (f : Work → Work) : (s.setWork f).host = s.host := rfl
@[simp] theorem setWork_dir (f : Work → Work) : (s.setWork f).dir = s.dir := rfl
@[simp] theorem setWork_work (f : Work → Work) : (s.setWork f).work = f s.work := rfl
@[simp] theorem setWork_errs (f : Work → Work) : (s.setWork f).errs = s.errs := rfl
@[simp] theorem setWork_lamp (f : Work → Work) : (s.setWork f).lamp = s.lamp := rfl
@[simp] theorem setWork_mon (f : Work → Work) : (s.setWork f).mon = s.mon := rfl
@[simp] theorem setWork_power (f : Work → Work) : (s.setWork f).power = s.power := rfl
@[simp] theorem setDir_pending (f : Directory → Directory) : (s.setDir f).pending = s.pending := rfl
@[simp] theorem setDir_out (f : Directory → Directory) : (s.setDir f).out = s.out := rfl
@[simp] theorem setDir_free (f : Directory → Directory) : (s.setDir f).free = s.free := rfl
@[simp] theorem setDir_remote (f : Directory → Directory) : (s.setDir f).remote = s.remote := rfl
@[simp] theorem setDir_remoteStatus (f : Directory → Directory) : (s.setDir f).remoteStatus = s.remoteStatus := rfl
@[simp] theorem setDir_regs (f : Directory → Directory) : (s.setDir f).regs = s.regs := rfl
@[simp] theorem setDir_lastCmd (f : Directory → Directory) : (s.setDir f).lastCmd = s.lastCmd := rfl
@[simp] theorem setDir_xbar (f : Directory → Directory) : (s.setDir f).xbar = s.xbar := rfl
@[simp] theorem setDir_sync (f : Directory → Directory) : (s.setDir f).sync = s.sync := rfl
@[simp] theorem setDir_lantern (f : Directory → Directory) : (s.setDir f).lantern = s.lantern := rfl
@[simp] theorem setDir_store (f : Directory → Directory) : (s.setDir f).store = s.store := rfl
@[simp] theorem setDir_xlt (f : Directory → Directory) : (s.setDir f).xlt = s.xlt := rfl
@[simp] theorem setDir_keys (f : Directory → Directory) : (s.setDir f).keys = s.keys := rfl
@[simp] theorem setDir_scratch (f : Directory → Directory) : (s.setDir f).scratch = s.scratch := rfl
@[simp] theorem setDir_imem (f : Directory → Directory) : (s.setDir f).imem = s.imem := rfl
@[simp] theorem setDir_reservoir (f : Directory → Directory) : (s.setDir f).reservoir = s.reservoir := rfl
@[simp] theorem setDir_badScratch (f : Directory → Directory) : (s.setDir f).badScratch = s.badScratch := rfl
@[simp] theorem setDir_badImem (f : Directory → Directory) : (s.setDir f).badImem = s.badImem := rfl
@[simp] theorem setDir_badRsv (f : Directory → Directory) : (s.setDir f).badRsv = s.badRsv := rfl
@[simp] theorem setDir_wicks (f : Directory → Directory) : (s.setDir f).wicks = s.wicks := rfl
@[simp] theorem setDir_sconces (f : Directory → Directory) : (s.setDir f).sconces = s.sconces := rfl
@[simp] theorem setDir_plans (f : Directory → Directory) : (s.setDir f).plans = s.plans := rfl
@[simp] theorem setDir_emb (f : Directory → Directory) : (s.setDir f).emb = s.emb := rfl
@[simp] theorem setDir_host (f : Directory → Directory) : (s.setDir f).host = s.host := rfl
@[simp] theorem setDir_dir (f : Directory → Directory) : (s.setDir f).dir = f s.dir := rfl
@[simp] theorem setDir_work (f : Directory → Directory) : (s.setDir f).work = s.work := rfl
@[simp] theorem setDir_errs (f : Directory → Directory) : (s.setDir f).errs = s.errs := rfl
@[simp] theorem setDir_lamp (f : Directory → Directory) : (s.setDir f).lamp = s.lamp := rfl
@[simp] theorem setDir_mon (f : Directory → Directory) : (s.setDir f).mon = s.mon := rfl
@[simp] theorem setDir_power (f : Directory → Directory) : (s.setDir f).power = s.power := rfl
@[simp] theorem setHost_pending (f : HostLink → HostLink) : (s.setHost f).pending = s.pending := rfl
@[simp] theorem setHost_out (f : HostLink → HostLink) : (s.setHost f).out = s.out := rfl
@[simp] theorem setHost_free (f : HostLink → HostLink) : (s.setHost f).free = s.free := rfl
@[simp] theorem setHost_remote (f : HostLink → HostLink) : (s.setHost f).remote = s.remote := rfl
@[simp] theorem setHost_remoteStatus (f : HostLink → HostLink) : (s.setHost f).remoteStatus = s.remoteStatus := rfl
@[simp] theorem setHost_regs (f : HostLink → HostLink) : (s.setHost f).regs = s.regs := rfl
@[simp] theorem setHost_lastCmd (f : HostLink → HostLink) : (s.setHost f).lastCmd = s.lastCmd := rfl
@[simp] theorem setHost_xbar (f : HostLink → HostLink) : (s.setHost f).xbar = s.xbar := rfl
@[simp] theorem setHost_sync (f : HostLink → HostLink) : (s.setHost f).sync = s.sync := rfl
@[simp] theorem setHost_lantern (f : HostLink → HostLink) : (s.setHost f).lantern = s.lantern := rfl
@[simp] theorem setHost_store (f : HostLink → HostLink) : (s.setHost f).store = s.store := rfl
@[simp] theorem setHost_xlt (f : HostLink → HostLink) : (s.setHost f).xlt = s.xlt := rfl
@[simp] theorem setHost_keys (f : HostLink → HostLink) : (s.setHost f).keys = s.keys := rfl
@[simp] theorem setHost_scratch (f : HostLink → HostLink) : (s.setHost f).scratch = s.scratch := rfl
@[simp] theorem setHost_imem (f : HostLink → HostLink) : (s.setHost f).imem = s.imem := rfl
@[simp] theorem setHost_reservoir (f : HostLink → HostLink) : (s.setHost f).reservoir = s.reservoir := rfl
@[simp] theorem setHost_badScratch (f : HostLink → HostLink) : (s.setHost f).badScratch = s.badScratch := rfl
@[simp] theorem setHost_badImem (f : HostLink → HostLink) : (s.setHost f).badImem = s.badImem := rfl
@[simp] theorem setHost_badRsv (f : HostLink → HostLink) : (s.setHost f).badRsv = s.badRsv := rfl
@[simp] theorem setHost_wicks (f : HostLink → HostLink) : (s.setHost f).wicks = s.wicks := rfl
@[simp] theorem setHost_sconces (f : HostLink → HostLink) : (s.setHost f).sconces = s.sconces := rfl
@[simp] theorem setHost_plans (f : HostLink → HostLink) : (s.setHost f).plans = s.plans := rfl
@[simp] theorem setHost_emb (f : HostLink → HostLink) : (s.setHost f).emb = s.emb := rfl
@[simp] theorem setHost_host (f : HostLink → HostLink) : (s.setHost f).host = f s.host := rfl
@[simp] theorem setHost_dir (f : HostLink → HostLink) : (s.setHost f).dir = s.dir := rfl
@[simp] theorem setHost_work (f : HostLink → HostLink) : (s.setHost f).work = s.work := rfl
@[simp] theorem setHost_errs (f : HostLink → HostLink) : (s.setHost f).errs = s.errs := rfl
@[simp] theorem setHost_lamp (f : HostLink → HostLink) : (s.setHost f).lamp = s.lamp := rfl
@[simp] theorem setHost_mon (f : HostLink → HostLink) : (s.setHost f).mon = s.mon := rfl
@[simp] theorem setHost_power (f : HostLink → HostLink) : (s.setHost f).power = s.power := rfl
@[simp] theorem setErrs_pending (f : Errs → Errs) : (s.setErrs f).pending = s.pending := rfl
@[simp] theorem setErrs_out (f : Errs → Errs) : (s.setErrs f).out = s.out := rfl
@[simp] theorem setErrs_free (f : Errs → Errs) : (s.setErrs f).free = s.free := rfl
@[simp] theorem setErrs_remote (f : Errs → Errs) : (s.setErrs f).remote = s.remote := rfl
@[simp] theorem setErrs_remoteStatus (f : Errs → Errs) : (s.setErrs f).remoteStatus = s.remoteStatus := rfl
@[simp] theorem setErrs_regs (f : Errs → Errs) : (s.setErrs f).regs = s.regs := rfl
@[simp] theorem setErrs_lastCmd (f : Errs → Errs) : (s.setErrs f).lastCmd = s.lastCmd := rfl
@[simp] theorem setErrs_xbar (f : Errs → Errs) : (s.setErrs f).xbar = s.xbar := rfl
@[simp] theorem setErrs_sync (f : Errs → Errs) : (s.setErrs f).sync = s.sync := rfl
@[simp] theorem setErrs_lantern (f : Errs → Errs) : (s.setErrs f).lantern = s.lantern := rfl
@[simp] theorem setErrs_store (f : Errs → Errs) : (s.setErrs f).store = s.store := rfl
@[simp] theorem setErrs_xlt (f : Errs → Errs) : (s.setErrs f).xlt = s.xlt := rfl
@[simp] theorem setErrs_keys (f : Errs → Errs) : (s.setErrs f).keys = s.keys := rfl
@[simp] theorem setErrs_scratch (f : Errs → Errs) : (s.setErrs f).scratch = s.scratch := rfl
@[simp] theorem setErrs_imem (f : Errs → Errs) : (s.setErrs f).imem = s.imem := rfl
@[simp] theorem setErrs_reservoir (f : Errs → Errs) : (s.setErrs f).reservoir = s.reservoir := rfl
@[simp] theorem setErrs_badScratch (f : Errs → Errs) : (s.setErrs f).badScratch = s.badScratch := rfl
@[simp] theorem setErrs_badImem (f : Errs → Errs) : (s.setErrs f).badImem = s.badImem := rfl
@[simp] theorem setErrs_badRsv (f : Errs → Errs) : (s.setErrs f).badRsv = s.badRsv := rfl
@[simp] theorem setErrs_wicks (f : Errs → Errs) : (s.setErrs f).wicks = s.wicks := rfl
@[simp] theorem setErrs_sconces (f : Errs → Errs) : (s.setErrs f).sconces = s.sconces := rfl
@[simp] theorem setErrs_plans (f : Errs → Errs) : (s.setErrs f).plans = s.plans := rfl
@[simp] theorem setErrs_emb (f : Errs → Errs) : (s.setErrs f).emb = s.emb := rfl
@[simp] theorem setErrs_host (f : Errs → Errs) : (s.setErrs f).host = s.host := rfl
@[simp] theorem setErrs_dir (f : Errs → Errs) : (s.setErrs f).dir = s.dir := rfl
@[simp] theorem setErrs_work (f : Errs → Errs) : (s.setErrs f).work = s.work := rfl
@[simp] theorem setErrs_errs (f : Errs → Errs) : (s.setErrs f).errs = f s.errs := rfl
@[simp] theorem setErrs_lamp (f : Errs → Errs) : (s.setErrs f).lamp = s.lamp := rfl
@[simp] theorem setErrs_mon (f : Errs → Errs) : (s.setErrs f).mon = s.mon := rfl
@[simp] theorem setErrs_power (f : Errs → Errs) : (s.setErrs f).power = s.power := rfl
@[simp] theorem setLamp_pending (f : Lamp → Lamp) : (s.setLamp f).pending = s.pending := rfl
@[simp] theorem setLamp_out (f : Lamp → Lamp) : (s.setLamp f).out = s.out := rfl
@[simp] theorem setLamp_free (f : Lamp → Lamp) : (s.setLamp f).free = s.free := rfl
@[simp] theorem setLamp_remote (f : Lamp → Lamp) : (s.setLamp f).remote = s.remote := rfl
@[simp] theorem setLamp_remoteStatus (f : Lamp → Lamp) : (s.setLamp f).remoteStatus = s.remoteStatus := rfl
@[simp] theorem setLamp_regs (f : Lamp → Lamp) : (s.setLamp f).regs = s.regs := rfl
@[simp] theorem setLamp_lastCmd (f : Lamp → Lamp) : (s.setLamp f).lastCmd = s.lastCmd := rfl
@[simp] theorem setLamp_xbar (f : Lamp → Lamp) : (s.setLamp f).xbar = s.xbar := rfl
@[simp] theorem setLamp_sync (f : Lamp → Lamp) : (s.setLamp f).sync = s.sync := rfl
@[simp] theorem setLamp_lantern (f : Lamp → Lamp) : (s.setLamp f).lantern = s.lantern := rfl
@[simp] theorem setLamp_store (f : Lamp → Lamp) : (s.setLamp f).store = s.store := rfl
@[simp] theorem setLamp_xlt (f : Lamp → Lamp) : (s.setLamp f).xlt = s.xlt := rfl
@[simp] theorem setLamp_keys (f : Lamp → Lamp) : (s.setLamp f).keys = s.keys := rfl
@[simp] theorem setLamp_scratch (f : Lamp → Lamp) : (s.setLamp f).scratch = s.scratch := rfl
@[simp] theorem setLamp_imem (f : Lamp → Lamp) : (s.setLamp f).imem = s.imem := rfl
@[simp] theorem setLamp_reservoir (f : Lamp → Lamp) : (s.setLamp f).reservoir = s.reservoir := rfl
@[simp] theorem setLamp_badScratch (f : Lamp → Lamp) : (s.setLamp f).badScratch = s.badScratch := rfl
@[simp] theorem setLamp_badImem (f : Lamp → Lamp) : (s.setLamp f).badImem = s.badImem := rfl
@[simp] theorem setLamp_badRsv (f : Lamp → Lamp) : (s.setLamp f).badRsv = s.badRsv := rfl
@[simp] theorem setLamp_wicks (f : Lamp → Lamp) : (s.setLamp f).wicks = s.wicks := rfl
@[simp] theorem setLamp_sconces (f : Lamp → Lamp) : (s.setLamp f).sconces = s.sconces := rfl
@[simp] theorem setLamp_plans (f : Lamp → Lamp) : (s.setLamp f).plans = s.plans := rfl
@[simp] theorem setLamp_emb (f : Lamp → Lamp) : (s.setLamp f).emb = s.emb := rfl
@[simp] theorem setLamp_host (f : Lamp → Lamp) : (s.setLamp f).host = s.host := rfl
@[simp] theorem setLamp_dir (f : Lamp → Lamp) : (s.setLamp f).dir = s.dir := rfl
@[simp] theorem setLamp_work (f : Lamp → Lamp) : (s.setLamp f).work = s.work := rfl
@[simp] theorem setLamp_errs (f : Lamp → Lamp) : (s.setLamp f).errs = s.errs := rfl
@[simp] theorem setLamp_lamp (f : Lamp → Lamp) : (s.setLamp f).lamp = f s.lamp := rfl
@[simp] theorem setLamp_mon (f : Lamp → Lamp) : (s.setLamp f).mon = s.mon := rfl
@[simp] theorem setLamp_power (f : Lamp → Lamp) : (s.setLamp f).power = s.power := rfl
@[simp] theorem setMon_pending (f : Mon → Mon) : (s.setMon f).pending = s.pending := rfl
@[simp] theorem setMon_out (f : Mon → Mon) : (s.setMon f).out = s.out := rfl
@[simp] theorem setMon_free (f : Mon → Mon) : (s.setMon f).free = s.free := rfl
@[simp] theorem setMon_remote (f : Mon → Mon) : (s.setMon f).remote = s.remote := rfl
@[simp] theorem setMon_remoteStatus (f : Mon → Mon) : (s.setMon f).remoteStatus = s.remoteStatus := rfl
@[simp] theorem setMon_regs (f : Mon → Mon) : (s.setMon f).regs = s.regs := rfl
@[simp] theorem setMon_lastCmd (f : Mon → Mon) : (s.setMon f).lastCmd = s.lastCmd := rfl
@[simp] theorem setMon_xbar (f : Mon → Mon) : (s.setMon f).xbar = s.xbar := rfl
@[simp] theorem setMon_sync (f : Mon → Mon) : (s.setMon f).sync = s.sync := rfl
@[simp] theorem setMon_lantern (f : Mon → Mon) : (s.setMon f).lantern = s.lantern := rfl
@[simp] theorem setMon_store (f : Mon → Mon) : (s.setMon f).store = s.store := rfl
@[simp] theorem setMon_xlt (f : Mon → Mon) : (s.setMon f).xlt = s.xlt := rfl
@[simp] theorem setMon_keys (f : Mon → Mon) : (s.setMon f).keys = s.keys := rfl
@[simp] theorem setMon_scratch (f : Mon → Mon) : (s.setMon f).scratch = s.scratch := rfl
@[simp] theorem setMon_imem (f : Mon → Mon) : (s.setMon f).imem = s.imem := rfl
@[simp] theorem setMon_reservoir (f : Mon → Mon) : (s.setMon f).reservoir = s.reservoir := rfl
@[simp] theorem setMon_badScratch (f : Mon → Mon) : (s.setMon f).badScratch = s.badScratch := rfl
@[simp] theorem setMon_badImem (f : Mon → Mon) : (s.setMon f).badImem = s.badImem := rfl
@[simp] theorem setMon_badRsv (f : Mon → Mon) : (s.setMon f).badRsv = s.badRsv := rfl
@[simp] theorem setMon_wicks (f : Mon → Mon) : (s.setMon f).wicks = s.wicks := rfl
@[simp] theorem setMon_sconces (f : Mon → Mon) : (s.setMon f).sconces = s.sconces := rfl
@[simp] theorem setMon_plans (f : Mon → Mon) : (s.setMon f).plans = s.plans := rfl
@[simp] theorem setMon_emb (f : Mon → Mon) : (s.setMon f).emb = s.emb := rfl
@[simp] theorem setMon_host (f : Mon → Mon) : (s.setMon f).host = s.host := rfl
@[simp] theorem setMon_dir (f : Mon → Mon) : (s.setMon f).dir = s.dir := rfl
@[simp] theorem setMon_work (f : Mon → Mon) : (s.setMon f).work = s.work := rfl
@[simp] theorem setMon_errs (f : Mon → Mon) : (s.setMon f).errs = s.errs := rfl
@[simp] theorem setMon_lamp (f : Mon → Mon) : (s.setMon f).lamp = s.lamp := rfl
@[simp] theorem setMon_mon (f : Mon → Mon) : (s.setMon f).mon = f s.mon := rfl
@[simp] theorem setMon_power (f : Mon → Mon) : (s.setMon f).power = s.power := rfl
@[simp] theorem setPower_pending (f : Power → Power) : (s.setPower f).pending = s.pending := rfl
@[simp] theorem setPower_out (f : Power → Power) : (s.setPower f).out = s.out := rfl
@[simp] theorem setPower_free (f : Power → Power) : (s.setPower f).free = s.free := rfl
@[simp] theorem setPower_remote (f : Power → Power) : (s.setPower f).remote = s.remote := rfl
@[simp] theorem setPower_remoteStatus (f : Power → Power) : (s.setPower f).remoteStatus = s.remoteStatus := rfl
@[simp] theorem setPower_regs (f : Power → Power) : (s.setPower f).regs = s.regs := rfl
@[simp] theorem setPower_lastCmd (f : Power → Power) : (s.setPower f).lastCmd = s.lastCmd := rfl
@[simp] theorem setPower_xbar (f : Power → Power) : (s.setPower f).xbar = s.xbar := rfl
@[simp] theorem setPower_sync (f : Power → Power) : (s.setPower f).sync = s.sync := rfl
@[simp] theorem setPower_lantern (f : Power → Power) : (s.setPower f).lantern = s.lantern := rfl
@[simp] theorem setPower_store (f : Power → Power) : (s.setPower f).store = s.store := rfl
@[simp] theorem setPower_xlt (f : Power → Power) : (s.setPower f).xlt = s.xlt := rfl
@[simp] theorem setPower_keys (f : Power → Power) : (s.setPower f).keys = s.keys := rfl
@[simp] theorem setPower_scratch (f : Power → Power) : (s.setPower f).scratch = s.scratch := rfl
@[simp] theorem setPower_imem (f : Power → Power) : (s.setPower f).imem = s.imem := rfl
@[simp] theorem setPower_reservoir (f : Power → Power) : (s.setPower f).reservoir = s.reservoir := rfl
@[simp] theorem setPower_badScratch (f : Power → Power) : (s.setPower f).badScratch = s.badScratch := rfl
@[simp] theorem setPower_badImem (f : Power → Power) : (s.setPower f).badImem = s.badImem := rfl
@[simp] theorem setPower_badRsv (f : Power → Power) : (s.setPower f).badRsv = s.badRsv := rfl
@[simp] theorem setPower_wicks (f : Power → Power) : (s.setPower f).wicks = s.wicks := rfl
@[simp] theorem setPower_sconces (f : Power → Power) : (s.setPower f).sconces = s.sconces := rfl
@[simp] theorem setPower_plans (f : Power → Power) : (s.setPower f).plans = s.plans := rfl
@[simp] theorem setPower_emb (f : Power → Power) : (s.setPower f).emb = s.emb := rfl
@[simp] theorem setPower_host (f : Power → Power) : (s.setPower f).host = s.host := rfl
@[simp] theorem setPower_dir (f : Power → Power) : (s.setPower f).dir = s.dir := rfl
@[simp] theorem setPower_work (f : Power → Power) : (s.setPower f).work = s.work := rfl
@[simp] theorem setPower_errs (f : Power → Power) : (s.setPower f).errs = s.errs := rfl
@[simp] theorem setPower_lamp (f : Power → Power) : (s.setPower f).lamp = s.lamp := rfl
@[simp] theorem setPower_mon (f : Power → Power) : (s.setPower f).mon = s.mon := rfl
@[simp] theorem setPower_power (f : Power → Power) : (s.setPower f).power = f s.power := rfl
@[simp] theorem setEmb_pending (f : Emb → Emb) : (s.setEmb f).pending = s.pending := rfl
@[simp] theorem setEmb_out (f : Emb → Emb) : (s.setEmb f).out = s.out := rfl
@[simp] theorem setEmb_free (f : Emb → Emb) : (s.setEmb f).free = s.free := rfl
@[simp] theorem setEmb_remote (f : Emb → Emb) : (s.setEmb f).remote = s.remote := rfl
@[simp] theorem setEmb_remoteStatus (f : Emb → Emb) : (s.setEmb f).remoteStatus = s.remoteStatus := rfl
@[simp] theorem setEmb_regs (f : Emb → Emb) : (s.setEmb f).regs = s.regs := rfl
@[simp] theorem setEmb_lastCmd (f : Emb → Emb) : (s.setEmb f).lastCmd = s.lastCmd := rfl
@[simp] theorem setEmb_xbar (f : Emb → Emb) : (s.setEmb f).xbar = s.xbar := rfl
@[simp] theorem setEmb_sync (f : Emb → Emb) : (s.setEmb f).sync = s.sync := rfl
@[simp] theorem setEmb_lantern (f : Emb → Emb) : (s.setEmb f).lantern = s.lantern := rfl
@[simp] theorem setEmb_store (f : Emb → Emb) : (s.setEmb f).store = s.store := rfl
@[simp] theorem setEmb_xlt (f : Emb → Emb) : (s.setEmb f).xlt = s.xlt := rfl
@[simp] theorem setEmb_keys (f : Emb → Emb) : (s.setEmb f).keys = s.keys := rfl
@[simp] theorem setEmb_scratch (f : Emb → Emb) : (s.setEmb f).scratch = s.scratch := rfl
@[simp] theorem setEmb_imem (f : Emb → Emb) : (s.setEmb f).imem = s.imem := rfl
@[simp] theorem setEmb_reservoir (f : Emb → Emb) : (s.setEmb f).reservoir = s.reservoir := rfl
@[simp] theorem setEmb_badScratch (f : Emb → Emb) : (s.setEmb f).badScratch = s.badScratch := rfl
@[simp] theorem setEmb_badImem (f : Emb → Emb) : (s.setEmb f).badImem = s.badImem := rfl
@[simp] theorem setEmb_badRsv (f : Emb → Emb) : (s.setEmb f).badRsv = s.badRsv := rfl
@[simp] theorem setEmb_wicks (f : Emb → Emb) : (s.setEmb f).wicks = s.wicks := rfl
@[simp] theorem setEmb_sconces (f : Emb → Emb) : (s.setEmb f).sconces = s.sconces := rfl
@[simp] theorem setEmb_plans (f : Emb → Emb) : (s.setEmb f).plans = s.plans := rfl
@[simp] theorem setEmb_emb (f : Emb → Emb) : (s.setEmb f).emb = f s.emb := rfl
@[simp] theorem setEmb_host (f : Emb → Emb) : (s.setEmb f).host = s.host := rfl
@[simp] theorem setEmb_dir (f : Emb → Emb) : (s.setEmb f).dir = s.dir := rfl
@[simp] theorem setEmb_work (f : Emb → Emb) : (s.setEmb f).work = s.work := rfl
@[simp] theorem setEmb_errs (f : Emb → Emb) : (s.setEmb f).errs = s.errs := rfl
@[simp] theorem setEmb_lamp (f : Emb → Emb) : (s.setEmb f).lamp = s.lamp := rfl
@[simp] theorem setEmb_mon (f : Emb → Emb) : (s.setEmb f).mon = s.mon := rfl
@[simp] theorem setEmb_power (f : Emb → Emb) : (s.setEmb f).power = s.power := rfl
@[simp] theorem emit_pending (o : Out) : (emit s o).pending = s.pending := rfl
@[simp] theorem emit_out (o : Out) : (emit s o).out = s.out ++ [o] := rfl
@[simp] theorem emit_free (o : Out) : (emit s o).free = s.free := rfl
@[simp] theorem emit_remote (o : Out) : (emit s o).remote = s.remote := rfl
@[simp] theorem emit_remoteStatus (o : Out) : (emit s o).remoteStatus = s.remoteStatus := rfl
@[simp] theorem emit_regs (o : Out) : (emit s o).regs = s.regs := rfl
@[simp] theorem emit_lastCmd (o : Out) : (emit s o).lastCmd = s.lastCmd := rfl
@[simp] theorem emit_xbar (o : Out) : (emit s o).xbar = s.xbar := rfl
@[simp] theorem emit_sync (o : Out) : (emit s o).sync = s.sync := rfl
@[simp] theorem emit_lantern (o : Out) : (emit s o).lantern = s.lantern := rfl
@[simp] theorem emit_store (o : Out) : (emit s o).store = s.store := rfl
@[simp] theorem emit_xlt (o : Out) : (emit s o).xlt = s.xlt := rfl
@[simp] theorem emit_keys (o : Out) : (emit s o).keys = s.keys := rfl
@[simp] theorem emit_scratch (o : Out) : (emit s o).scratch = s.scratch := rfl
@[simp] theorem emit_imem (o : Out) : (emit s o).imem = s.imem := rfl
@[simp] theorem emit_reservoir (o : Out) : (emit s o).reservoir = s.reservoir := rfl
@[simp] theorem emit_badScratch (o : Out) : (emit s o).badScratch = s.badScratch := rfl
@[simp] theorem emit_badImem (o : Out) : (emit s o).badImem = s.badImem := rfl
@[simp] theorem emit_badRsv (o : Out) : (emit s o).badRsv = s.badRsv := rfl
@[simp] theorem emit_wicks (o : Out) : (emit s o).wicks = s.wicks := rfl
@[simp] theorem emit_sconces (o : Out) : (emit s o).sconces = s.sconces := rfl
@[simp] theorem emit_plans (o : Out) : (emit s o).plans = s.plans := rfl
@[simp] theorem emit_emb (o : Out) : (emit s o).emb = s.emb := rfl
@[simp] theorem emit_host (o : Out) : (emit s o).host = s.host := rfl
@[simp] theorem emit_dir (o : Out) : (emit s o).dir = s.dir := rfl
@[simp] theorem emit_work (o : Out) : (emit s o).work = s.work := rfl
@[simp] theorem emit_errs (o : Out) : (emit s o).errs = s.errs := rfl
@[simp] theorem emit_lamp (o : Out) : (emit s o).lamp = s.lamp := rfl
@[simp] theorem emit_mon (o : Out) : (emit s o).mon = s.mon := rfl
@[simp] theorem emit_power (o : Out) : (emit s o).power = s.power := rfl

/-! ### Accessors -/

@[simp] theorem regGet_setReg (k j : Nat) (v : W64) : regGet (s.setReg k v) j = if j = k then v else regGet s j := by
  simp only [regGet, setReg_regs, tfind_tput]; split <;> rfl
@[simp] theorem wick_setWick (k j : Nat) (f : Wick → Wick) :
    (s.setWick k f).wick j = if j = k then f (s.wick k) else s.wick j := by simp [State.wick]
@[simp] theorem sconce_setSconce (k j : Nat) (f : Sconce → Sconce) :
    (s.setSconce k f).sconce j = if j = k then f (s.sconce k) else s.sconce j := by simp [State.sconce]
@[simp] theorem port_setPort (k j : Nat) (f : Port → Port) :
    (s.setPort k f).port j = if j = k then f (s.port k) else s.port j := by simp [State.port]
@[simp] theorem queue_setQueue (k j : Nat) (f : Queue → Queue) :
    (s.setQueue k f).queue j = if j = k then f (s.queue k) else s.queue j := by simp [State.queue]
@[simp] theorem comp_setComp (k j : Nat) (f : Comp → Comp) :
    (s.setComp k f).comp j = if j = k then f (s.comp k) else s.comp j := by simp [State.comp]
@[simp] theorem extent_setExtent (k j : Nat) (f : Extent → Extent) :
    (s.setExtent k f).extent j = if j = k then f (s.extent k) else s.extent j := by simp [State.extent]

end

end Sys2Proof.Laws
end

