-- ==== Sys2Proof/Tests/Slice0.lean ====
section
/-! SUPPORT. The model's own tests: ill-formed commands, decoded words, small steps with results worked out by hand from
spec/, and for each statement with hypotheses a state and operands that meet them. -/
namespace Sys2Proof.Tests
open Machine Safety
set_option Elab.async false

/-- What a command answers, or the reset state where it stops. -/
def after (o : Host.Outcome State Fault Refusal) : State := match o with
  | .next t => t
  | _ => State.reset

/-! ### Well-formedness: a term that each check refuses -/

theorem test_wf_wick : (Instr.saluAdd 4096 0).wellFormed = false ∧ (Instr.saluAdd 4095 0).wellFormed = true := by decide +kernel
theorem test_wf_port : (Instr.creditSend 10).wellFormed = false := by decide +kernel
theorem test_wf_lane : (Instr.lossOfSignal 9 5).wellFormed = false := by decide +kernel
theorem test_wf_queue : (Instr.fence 262144 0).wellFormed = false ∧ (Instr.fence 262143 0).wellFormed = true := by decide +kernel
theorem test_wf_sconce : (Instr.spotCompare 64).wellFormed = false := by decide +kernel
theorem test_wf_copy : (Instr.copyEngineHang 32 true none).wellFormed = false := by decide +kernel
theorem test_wf_page : (Instr.errStatClear .pf 154 0).wellFormed = false := by decide +kernel
theorem test_wf_die : (Instr.dieTrainingStart 8).wellFormed = false := by decide +kernel
theorem test_wf_channel : (Instr.channelReady 24 true).wellFormed = false := by decide +kernel
theorem test_wf_flash : (Instr.garbageCollection 32 0 0 0).wellFormed = false := by decide +kernel
theorem test_wf_flash_page : (Instr.flashReadComplete 0 4 0 true true).wellFormed = false := by decide +kernel
theorem test_wf_bar : (Instr.rcRead .pf 0x4000000).wellFormed = false := by decide +kernel
theorem test_wf_counter : (Instr.hubCounterWrite .pf 131072 8 1).wellFormed = false := by decide +kernel
theorem test_wf_local : (Instr.localCounterWrite .pf 63 1024 8 1).wellFormed = false := by decide +kernel
theorem test_wf_semaphore : (Instr.semaphoreRead .pf 32768).wellFormed = false := by decide +kernel
theorem test_wf_handle : (Instr.stepStart 256).wellFormed = false := by decide +kernel
theorem test_wf_sensor : (Instr.sensorFail 66).wellFormed = false := by decide +kernel
theorem test_wf_counts : (Instr.credit 0 (List.replicate 11 0)).wellFormed = false := by decide +kernel
theorem test_wf_source : (Instr.qEnable (.vf 0) 0).wellFormed = false ∧ (Instr.qEnable (.vf 64) 0).wellFormed = false ∧
    (Instr.qEnable (.lmp 10) 0).wellFormed = false ∧ (Instr.qEnable (.vf 63) 0).wellFormed = true := by decide +kernel
theorem test_wf_session : (Instr.stat (.eth 2 0)).wellFormed = false ∧ (Instr.stat (.eth 1 4)).wellFormed = false := by decide +kernel
theorem test_wf_station : (Instr.monReq 2 0 0 .help).wellFormed = false := by decide +kernel
theorem test_wf_target : (Instr.tierApply (.sconce 64)).wellFormed = false ∧ (Instr.tierApply (.cap 6)).wellFormed = false ∧
    (Instr.tierApply (.flash 4)).wellFormed = false := by decide +kernel
theorem test_wf_engine : (Instr.shootdownAck 0 (.mover 0 8)).wellFormed = false ∧
    (Instr.shootdownAck 0 (.sconce 64)).wellFormed = false := by decide +kernel
theorem test_wf_waiter : (Instr.counterTargetReached (.gate 256)).wellFormed = false := by decide +kernel
/-- A READ packet of port 3 whose payload is not LEN times 32 bytes. -/
theorem test_wf_packet (p : Packet) (h : p.payload = []) (l : p.len = 1) : (Instr.read 3 p false).wellFormed = false := by
  simp [Instr.wellFormed, Packet.ok, h, l]
/-- An ill-formed command reaches no hardware. -/
theorem test_ill_formed_stops : exec (.spotCompare 64) State.reset = .fault .noSuchUnit := by rfl

/-! ### Wick words, bit by bit from 08 R224: OP [6:0], D [11:7], A [16:12], B [21:17], PK [24:22], FN [31:25] -/

theorem test_decode_salu : ∀ e ∈ ([(0b0000000_000_00010_00001_00011_0000001, .saluAdd),
    (0b0000001_000_00010_00001_00011_0000001, .saluSub), (0b0000010_000_00010_00001_00011_0000001, .saluAnd),
    (0b0000011_000_00010_00001_00011_0000001, .saluOr), (0b0000100_000_00010_00001_00011_0000001, .saluXor),
    (0b0000101_000_00010_00001_00011_0000001, .andn), (0b0001000_000_00010_00001_00011_0000001, .saluShl),
    (0b0001001_000_00010_00001_00011_0000001, .saluShr), (0b0001010_000_00010_00001_00011_0000001, .saluSar),
    (0b0001011_000_00010_00001_00011_0000001, .ror), (0b0010000_000_00010_00001_00011_0000001, .clt),
    (0b0010001_000_00010_00001_00011_0000001, .cltu)] : List (W32 × Op)), decodeOp e.1 = some e.2 := by decide +kernel
theorem test_decode_salu_more : ∀ e ∈ ([(0b0010010_000_00010_00001_00011_0000001, .ceq),
    (0b0010100_000_00010_00001_00011_0000001, .saluMin), (0b0010101_000_00010_00001_00011_0000001, .saluMax),
    (0b0010110_000_00010_00001_00011_0000001, .minu), (0b0010111_000_00010_00001_00011_0000001, .maxu),
    (0b0011000_000_00010_00001_00011_0000001, .mullo), (0b0011001_000_00010_00001_00011_0000001, .mulhi),
    (0b0011010_000_00010_00001_00011_0000001, .mulhiu), (0b0011100_000_00010_00001_00011_0000001, .quo),
    (0b0011101_000_00010_00001_00011_0000001, .mod), (0b0100000_000_00000_00001_00011_0000001, .popc),
    (0b0100001_000_00000_00001_00011_0000001, .clz)] : List (W32 × Op)), decodeOp e.1 = some e.2 := by decide +kernel
/-- PK of SALU must be 0, B of POPC must be 0, FN 0x06 is reserved. -/
theorem test_decode_salu_reserved : decodeOp 0b0000000_001_00010_00001_00011_0000001 = none ∧
    decodeOp 0b0100000_000_00001_00001_00011_0000001 = none ∧ decodeOp 0b0000110_000_00010_00001_00011_0000001 = none := by
  decide +kernel
/-- SALUI: F3 [19:17], IMM [31:20]; K: IMM16 [31:16], H [15:14], KEEP [13]; branches. -/
theorem test_decode_immediates : ∀ e ∈ ([(0b111111111111_000_00001_00011_0000010, .addi),
    (0b000000000001_001_00001_00011_0000010, .andi), (0b000000000001_010_00001_00011_0000010, .ori),
    (0b000000000001_011_00001_00011_0000010, .xori), (0b000000111111_100_00001_00011_0000010, .shli),
    (0b000000111111_101_00001_00011_0000010, .shri), (0b000000111111_110_00001_00011_0000010, .sari),
    (0b000000000011_111_00001_00011_0000010, .muli), (0b1000000000000001_01_0_0_00011_0000011, .setq),
    (0b1000000000000001_01_1_0_00011_0000011, .putq), (0b000000000100_001_00001_00010_0000100, .br),
    (0b00000000_000000001000_00011_0000101, .call), (0b000000000001_000_00001_00011_0000110, .jind)] :
    List (W32 × Op)), decodeOp e.1 = some e.2 := by decide +kernel
/-- A shift amount beyond 63 is refused. -/
theorem test_decode_shift_reserved : decodeOp 0b000001000000_100_00001_00011_0000010 = none := by decide +kernel
theorem test_decode_system : ∀ e ∈ ([(0b0000000_000_00000_00000_00000_0000111, .nop),
    (0b0000001_000_00000_00000_00000_0000111, .endProgram), (0b0000010_000_00000_01011_00011_0000111, .mfs),
    (0b0000011_000_00001_00101_00000_0000111, .mts)] : List (W32 × Op)), decodeOp e.1 = some e.2 := by decide +kernel
theorem test_decode_memory : ∀ e ∈ ([(0b000000000001_011_00001_00011_0010000, .lds),
    (0b000000000001_011_00001_00011_0010001, .sts), (0b000000000001_000_00001_00011_0010010, .ldv),
    (0b000000000001_001_00001_00011_0010011, .stv), (0b000000000001_110_00001_00011_0010100, .ldm),
    (0b000000000001_011_00001_00011_0010101, .stm), (0b000000000001_000_00001_00011_0010110, .ldmv),
    (0b000000000001_000_00001_00011_0010111, .stmv), (0b000000000000_011_00001_00011_0011000, .lda),
    (0b000000000000_011_00001_00011_0011001, .str), (0b0100100_000_00000_00001_00011_0011010, .stn),
    (0b0000100_000_00010_00001_00011_0011011, .amo), (0b0000000_000_00000_00001_00011_0011100, .vacc),
    (0b0000000_000_00000_00001_00100_0011101, .ldsb), (0b0000001_000_00000_00001_00010_0011110, .stsb)] :
    List (W32 × Op)), decodeOp e.1 = some e.2 := by decide +kernel
theorem test_decode_valu : ∀ e ∈ ([(0b0000000_000_00010_00001_00011_0100000, .fadd),
    (0b0000001_001_00010_00001_00011_0100000, .fsub), (0b0000010_000_00010_00001_00011_0100000, .fmul),
    (0b0000011_000_00010_00001_00011_0100000, .fma), (0b0000100_000_00010_00001_00011_0100000, .fnma),
    (0b0000101_000_00010_00001_00011_0100000, .fmin), (0b0000110_000_00010_00001_00011_0100000, .fmax),
    (0b0000111_000_00000_00001_00011_0100000, .fabs), (0b0001000_000_00000_00001_00011_0100000, .fneg),
    (0b0010000_000_00010_00001_00011_0100000, .iadd), (0b0010001_000_00010_00001_00011_0100000, .isub),
    (0b0010010_000_00010_00001_00011_0100000, .imul), (0b0010011_000_00010_00001_00011_0100000, .valuAnd),
    (0b0010100_000_00010_00001_00011_0100000, .valuOr), (0b0010101_000_00010_00001_00011_0100000, .valuXor),
    (0b0010110_000_00010_00001_00011_0100000, .valuShl), (0b0010111_000_00010_00001_00011_0100000, .valuShr),
    (0b0011000_000_00010_00001_00011_0100000, .valuSar), (0b0011001_000_00010_00001_00011_0100000, .imin),
    (0b0011010_000_00010_00001_00011_0100000, .imax), (0b0100000_000_00000_00001_00011_0100000, .mov),
    (0b0100001_000_00000_00001_00011_0100000, .cvtif), (0b0100010_000_00000_00001_00011_0100000, .cvtfi)] :
    List (W32 × Op)), decodeOp e.1 = some e.2 := by decide +kernel
theorem test_decode_vectors : ∀ e ∈ ([(0b0000000_000_00000_00001_00011_0100010, .exp),
    (0b0000001_000_00000_00001_00011_0100010, .rcp), (0b0000010_000_00000_00001_00011_0100010, .rsq),
    (0b0010100_000_00000_00001_00011_0100011, .vcvtWiden), (0b0100000_011_00000_00001_00011_0100011, .vcvtNarrow),
    (0b0000000_000_00010_00001_00111_0100100, .feq), (0b0000001_000_00010_00001_00111_0100100, .flt),
    (0b0000010_000_00010_00001_00111_0100100, .fle), (0b0000011_000_00010_00001_00111_0100100, .funord),
    (0b0001000_000_00010_00001_00111_0100100, .ieq), (0b0001001_000_00010_00001_00111_0100100, .ilt),
    (0b0001010_000_00010_00001_00111_0100100, .iltu), (0b0010000_000_00010_00001_00111_0100100, .kand),
    (0b0010001_000_00010_00001_00111_0100100, .kor), (0b0010010_000_00010_00001_00111_0100100, .kxor),
    (0b0010011_000_00010_00001_00111_0100100, .kandn), (0b0011000_000_00000_00001_00111_0100100, .kfroms),
    (0b0011001_000_00000_00001_00011_0100100, .ktos), (0b0011010_000_00000_00001_00011_0100100, .kpop),
    (0b0000000_000_00000_00001_00011_0100101, .bcst), (0b0000001_000_01111_00001_00011_0100101, .ext),
    (0b0000010_000_01111_00001_00011_0100101, .ins), (0b0000011_000_00000_00000_00011_0100101, .lane),
    (0b0000100_000_00000_00001_00011_0100101, .redsum), (0b0000101_000_00000_00001_00011_0100101, .redmax),
    (0b0000110_000_00000_00001_00011_0100101, .rediadd), (0b0000000_000_00000_00010_00011_0100110, .vsbToSb),
    (0b1000000_000_00000_00010_00100_0100110, .vsbFromSb), (0b00000_00000_00010_00001_110_11_0110000, .dot),
    (0b00001_00001_00100_01000_000_11_0110001, .dotsb), (0b0000000_000_00000_00000_00011_0110010, .azero),
    (0b0000001_000_00011_00011_00111_0110010, .aread), (0b0000010_000_00011_00001_00011_0110010, .awrite)] :
    List (W32 × Op)), decodeOp e.1 = some e.2 := by decide +kernel
theorem test_decode_sync : ∀ e ∈ ([(0b0000111_000_00000_00001_00000_0111000, .mvt),
    (0b0101000_000_00010_00001_00011_0111000, .mvx), (0b0010000_000_00010_00001_00011_0111001, .cwait),
    (0b0000001_000_00000_00001_00011_0111001, .cread), (0b0010010_000_00010_00001_00000_0111001, .cadd),
    (0b1000011_000_00010_00001_00011_0111001, .semop), (0b0000100_000_00000_00000_00011_0111001, .wickFence),
    (0b0000101_000_00000_00000_00000_0111001, .acquire), (0b0000110_000_00000_00000_00011_0111001, .mwait)] :
    List (W32 × Op)), decodeOp e.1 = some e.2 := by decide +kernel
/-- Opcode 0 is refused. -/
theorem test_decode_zero : decodeOp 0 = none := by decide +kernel

/-! ### Wicks -/

/-- Wick `w` runs with a word at its PC, and with some scalar registers. -/
def runs (w pc : Nat) (word : W32) (sregs : List (Nat × W64)) (s : State) : State :=
  { s.setWick w (fun k => { k with pc := pc, state := .running, sreg := sregs }) with
    imem := cellWrite s.imem (imemAddr w (4 * pc)) (leBytes 4 word.toNat) }

theorem leNat_leBytes (n : Nat) : ∀ v, leNat (leBytes n v) = v % 256 ^ n := by
  induction n with
  | zero => intro v; simp [leBytes, leNat, Nat.mod_one]
  | succ n ih =>
    intro v
    show (BitVec.ofNat 8 v).toNat + 256 * leNat (leBytes n (v / 256)) = _
    have e : 256 ^ (n + 1) = 256 * 256 ^ n := pow_succ' 256 n
    rw [ih, BitVec.toNat_ofNat, e, Nat.mod_mul]

theorem leBytes_length (n : Nat) : ∀ v, (leBytes n v).length = n := by
  induction n with
  | zero => intro v; rfl
  | succ n ih => intro v; simp [leBytes, ih]

/-- A running wick reaches whatever word stands at its PC: so the premise that a wick reaches an instruction is met for
each word decoded above. Here wick 4,095 at index 4,094, the last that has a next one. -/
theorem reaches_of_decode (op : Op) (word : W32) (h : decodeOp word = some op) (r : List (Nat × W64)) :
    Reaches op (runs 4095 4094 word r State.reset) 4095 word ∧ HasNext (runs 4095 4094 word r State.reset) 4095 := by
  refine ⟨⟨by decide +kernel, rfl, rfl, rfl, ?_, h⟩, show 4094 < 4095 by decide +kernel⟩
  have e : imemWord (runs 4095 4094 word r State.reset) 4095 ((runs 4095 4094 word r State.reset).wick 4095).pc =
      BitVec.ofNat 32 (leNat (cellRead (cellWrite [] (imemAddr 4095 (4 * 4094)) (leBytes 4 word.toNat))
        (imemAddr 4095 (4 * 4094)) 4)) := rfl
  have l := Laws.cellRead_cellWrite [] (imemAddr 4095 (4 * 4094)) (leBytes 4 word.toNat)
  rw [leBytes_length] at l
  rw [e, l, leNat_leBytes]
  exact BitVec.eq_of_toNat_eq (by simp [Nat.mod_eq_of_lt word.isLt])

theorem test_add_wraps : rdS ((after (exec (.saluAdd 70 0b0000000_000_00010_00001_00011_0000001)
    (runs 70 9 0b0000000_000_00010_00001_00011_0000001 [(1, 0xFFFFFFFFFFFFFFFE), (2, 5)] State.reset))).wick 70) 3 = 3 := by
  decide +kernel

/-- Each instruction family is reached somewhere (the words are decoded above). -/
theorem witness_ScalarResults : ∃ s, Reaches .quo s 4095 0b0011100_000_00010_00001_00011_0000001 ∧ HasNext s 4095 :=
  ⟨_, reaches_of_decode .quo _ (by decide +kernel) []⟩
theorem witness_ScalarImmediates : ∃ s, Reaches .putq s 4095 0b1000000000000001_01_1_0_00011_0000011 ∧ HasNext s 4095 :=
  ⟨_, reaches_of_decode .putq _ (by decide +kernel) []⟩
theorem witness_BranchesAndJumps : ∃ s, Reaches .jind s 4095 0b000000000001_000_00001_00011_0000110 ∧ HasNext s 4095 :=
  ⟨_, reaches_of_decode .jind _ (by decide +kernel) []⟩
theorem witness_SystemInstructions : ∃ s, Reaches .mts s 4095 0b0000011_000_00001_00101_00000_0000111 ∧ HasNext s 4095 :=
  ⟨_, reaches_of_decode .mts _ (by decide +kernel) []⟩
theorem witness_VectorArithmetic : ∃ s, Reaches .fma s 4095 0b0000011_000_00010_00001_00011_0100000 ∧ HasNext s 4095 :=
  ⟨_, reaches_of_decode .fma _ (by decide +kernel) []⟩
theorem witness_MaskInstructions : ∃ s, Reaches .funord s 4095 0b0000011_000_00010_00001_00111_0100100 ∧ HasNext s 4095 :=
  ⟨_, reaches_of_decode .funord _ (by decide +kernel) []⟩
theorem witness_LaneMovesAndReductions : ∃ s, Reaches .redsum s 4095 0b0000100_000_00000_00001_00011_0100101 ∧ HasNext s 4095 :=
  ⟨_, reaches_of_decode .redsum _ (by decide +kernel) []⟩
theorem witness_ConversionsAndDots : ∃ s, Reaches .dotsb s 4095 0b00001_00001_00100_01000_000_11_0110001 ∧ HasNext s 4095 :=
  ⟨_, reaches_of_decode .dotsb _ (by decide +kernel) []⟩
theorem witness_ScratchLoads : ∃ s, Reaches .ldsb s 4095 0b0000000_000_00000_00001_00100_0011101 ∧ HasNext s 4095 :=
  ⟨_, reaches_of_decode .ldsb _ (by decide +kernel) []⟩
theorem witness_ScratchStores : ∃ s, Reaches .stn s 4095 0b0100100_000_00000_00001_00011_0011010 ∧ HasNext s 4095 :=
  ⟨_, reaches_of_decode .stn _ (by decide +kernel) []⟩
theorem witness_PostedStores : ∃ s, Reaches .stm s 4095 0b000000000001_011_00001_00011_0010101 ∧ HasNext s 4095 :=
  ⟨_, reaches_of_decode .stm _ (by decide +kernel) []⟩


/-! Small steps of wicks, with results from 08 R226 to R252 and 07 R195, and the premises of the statements about them. -/

/-- QUO by 0 gives 0 and sets DZ (08 R226, R254). -/
theorem test_quo_by_zero : let t := after (exec (.quo 70 0b0011100_000_00010_00001_00011_0000001)
      (runs 70 9 0b0011100_000_00010_00001_00011_0000001 [(1, 77)] State.reset))
    rdS (t.wick 70) 3 = 0 ∧ (t.wick 70).flags = flDZ ∧ (t.wick 70).pc = 10 := by decide +kernel
/-- MULHI of −1 and 3 is −1 (08 R226). -/
theorem test_mulhi : rdS ((after (exec (.mulhi 0 0b0011001_000_00010_00001_00001_0000001)
    (runs 0 0 0b0011001_000_00010_00001_00001_0000001 [(1, 0xFFFFFFFFFFFFFFFF), (2, 3)] State.reset))).wick 0) 1 =
      0xFFFFFFFFFFFFFFFF := by decide +kernel
/-- SETQ of 0x8001 into quarter 1: zeros below, ones above (08 R228). -/
theorem test_setq : rdS ((after (exec (.setq 0 0b1000000000000001_01_0_0_00011_0000011)
    (runs 0 0 0b1000000000000001_01_0_0_00011_0000011 [(3, 5)] State.reset))).wick 0) 3 = 0xFFFFFFFF80010000 := by decide +kernel
/-- PUTQ of 0x8001 into quarter 1 keeps the others (08 R228). -/
theorem test_putq : rdS ((after (exec (.putq 0 0b1000000000000001_01_1_0_00011_0000011)
    (runs 0 0 0b1000000000000001_01_1_0_00011_0000011 [(3, 5)] State.reset))).wick 0) 3 = 0x80010005 := by decide +kernel
/-- BR NE by 4 is taken from index 9 to 13 (08 R229). -/
theorem test_branch : ((after (exec (.br 0 0b000000000100_001_00001_00010_0000100)
    (runs 0 9 0b000000000100_001_00001_00010_0000100 [(1, 1)] State.reset))).wick 0).pc = 13 := by decide +kernel
/-- A write of s0 is lost (08 R220). -/
theorem test_s0 : rdS ((after (exec (.addi 0 0b000000000111_000_00000_00000_0000010)
    (runs 0 0 0b000000000111_000_00000_00000_0000010 [] State.reset))).wick 0) 0 = 0 := by decide +kernel
/-- Passing index 4,095 stops the wick with FORMAT_ERROR (08 R229). -/
theorem test_passes_end : let t := after (exec (.addi 0 0b000000000111_000_00000_00001_0000010)
      (runs 0 4095 0b000000000111_000_00000_00001_0000010 [] State.reset))
    (t.wick 0).state = .stopped ∧ (t.wick 0).stop = stFormat := by decide +kernel
/-- FADD of 1 and 2^-24 in lane 0 rounds to 1, to even, and is inexact (07 R195; 08 R239). -/
theorem test_fadd : f32Add 0x3F800000 0x33800000 = (0x3F800000, flNX) := by decide +kernel
/-- 3 × 5 + 1 = 16 (08 R239). -/
theorem test_fma : f32Fma 0x40400000 0x40A00000 0x3F800000 = (0x41800000, 0) := by decide +kernel
/-- 0x402DF854 lies within an allowed distance of e, 0x402DF85C does not (07 R196: the bounds of the special functions). -/
theorem test_exp_bound : expAllowed false (2 ^ 23) (-23) 0x402DF854 = true ∧ expAllowed false (2 ^ 23) (-23) 0x402DF85C = false := by
  decide +kernel
/-- CVTFI of 2^31 saturates and raises NV (08 R239, 07 R535). -/
theorem test_cvtfi : toInt 32 .rne (f32 0x4F000000) = (2147483647, flNV) := by decide +kernel
/-- LDS of the last word of scratch is in range; one byte more is XLATE_FAULT, a misaligned one ALIGN_ERROR (08 R230). -/
theorem test_lds_past_end : let t := after (exec (.lds 0 0b000000000000_011_00001_00011_0010000)
      (runs 0 0 0b000000000000_011_00001_00011_0010000 [(1, 131072)] State.reset))
    (t.wick 0).stop = stXlate := by decide +kernel
theorem test_lds_misaligned : let t := after (exec (.lds 0 0b000000000000_011_00001_00011_0010000)
      (runs 0 0 0b000000000000_011_00001_00011_0010000 [(1, 4)] State.reset))
    (t.wick 0).stop = stAlign := by decide +kernel
/-- STS of two bytes stores them little-endian; the byte after them stays (08 R231). -/
theorem test_sts : let t := after (exec (.sts 1 0b000000000001_001_00001_00011_0010001)
      (runs 1 0 0b000000000001_001_00001_00011_0010001 [(1, 6), (3, 0x1234)] State.reset))
    cellRead t.scratch (0x20000 + 8) 3 = [0x34, 0x12, 0] := by decide +kernel

/-- Premises of PredicatedLanes. -/
theorem witness_PredicatedLanes : (List.replicate 16 ((7, 0) : LaneRes)).length = 16 ∧ 15 < 16 := by decide +kernel
/-- Premises of WickStops' accesses: one that passes 128 KiB by a byte, one misaligned at the last place in range. -/
theorem witness_WickStops : let s := runs 4095 4094 0b000000000000_001_00001_00011_0010000 [(1, 131071)] State.reset
    let t := runs 4095 4094 0b000000000000_001_00001_00011_0010000 [(1, 131069)] State.reset
    131072 < (rdS (s.wick 4095) 1).toNat + 2 ∧ (rdS (t.wick 4095) 1).toNat + 2 ≤ 131072 ∧ (rdS (t.wick 4095) 1).toNat % 2 ≠ 0 ∧
    Reaches .lds s 4095 0b000000000000_001_00001_00011_0010000 := by
  refine ⟨by decide +kernel, by decide +kernel, by decide +kernel, (reaches_of_decode .lds _ (by decide +kernel) _).1⟩
/-- A word that the decoder refuses, at a wick that could issue it. -/
theorem witness_WickStops_refused : let s := runs 4095 4094 0 [] State.reset
    canIssue (s.wick 4095) = true ∧ frozen s = false ∧ imemBad s 4095 (s.wick 4095).pc = false ∧
    imemWord s 4095 (s.wick 4095).pc = 0 ∧ decodeOp 0 = none := by decide +kernel
/-- An uncorrectable word at the PC. -/
theorem witness_WickStops_uncorrectable : let s := { runs 4095 4094 0 [] State.reset with badImem := [imemAddr 4095 (4 * 4094) / 8] }
    canIssue (s.wick 4095) = true ∧ imemBad s 4095 (s.wick 4095).pc = true := by decide +kernel
/-- Premises of ScratchLoads and ScratchStores, at the last place of each access. -/
theorem witness_Scratch : ∀ e ∈ ([(131064, 8, 8), (131008, 64, 64), (130808, 264, 1), (130936, 136, 1), (131040, 32, 32)] :
      List (Nat × Nat × Nat)), let s := runs 4095 4094 0 [(1, BitVec.ofNat 64 e.1)] State.reset
    ScratchOk s 4095 (rdS (s.wick 4095) 1).toNat e.2.1 e.2.2 false ∧
    ScratchOk s 4095 (rdS (s.wick 4095) 1).toNat e.2.1 e.2.2 true := by unfold ScratchOk; decide +kernel

/-! ### A mapped page -/

/-- Key slot 1 loaded; context 5 of partition 0 installed; its page at device virtual address 0 mapped to the home's first
block with every permission, and cached for wick 4,095, for copy engine 0 and for the L2. -/
def mapped : State :=
  let s := State.reset
  let leaf : Leaf := { sa := 0, size := 65536, w := true, x := true, a := true, c := false, j := false, m := false, key := 1 }
  { s with
    keys := [(1, { KeySlot.empty with valid := true })]
    xlt := { s.xlt with
      ctxs := [(5, { type := 1, part := 0, key := 1, ats := false, viewValid := false, memValid := false, root := 0, viewBase := 0,
                     viewLen := 0, memBase := 0, memLen := 0, data := 0, resetting := false })]
      tlb := [⟨.l2, 5, 0, leaf⟩, ⟨.wick 4095, 5, 0, leaf⟩, ⟨.copy 0, 5, 0, leaf⟩] } }

/-- Wick 4,095 runs in context 5. -/
def stored (word : W32) (r : List (Nat × W64)) : State :=
  (runs 4095 4094 word r mapped).setWick 4095 (fun k => { k with ctx := 5 })

/-- Premises of StoreLoads, PostedStores and AtomicsAndReleases: the last aligned place of the page, by each use. -/
theorem witness_Translates : ∀ use ∈ ([(.read, false), (.write, true), (.accum, true)] : List (Use × Bool)),
    let s := stored 0b000000000000_011_00001_00011_0010100 [(1, 65528)]
    ∃ leaf, Translates (issue s 4095) 4095 (rdS (s.wick 4095) 1).toNat 8 use.1 use.2 (issue s 4095) 65528 leaf ∧
      ((issue s 4095).wick 4095).buf.find? (fun e => e.1 = 65528 / 64) = none ∧
      ownSliver (issue s 4095) 4095 (wickPacket (issue s 4095) 4095 0 leaf (65528 / 64 * 64) 64 []) = none := by
  intro use h
  simp only [List.mem_cons, List.mem_nil_iff, or_false] at h
  rcases h with rfl | rfl | rfl <;>
    exact ⟨_, ⟨by decide +kernel, by decide +kernel, by decide +kernel, 0, rfl, rfl⟩, by decide +kernel, by decide +kernel⟩
/-- The load of StoreLoads is reached there. -/
theorem witness_StoreLoads : let s := stored 0b000000000000_011_00001_00011_0010100 [(1, 65528)]
    Reaches .ldm s 4095 0b000000000000_011_00001_00011_0010100 ∧ HasNext s 4095 := by
  refine ⟨⟨by decide +kernel, by decide +kernel, by decide +kernel, by decide +kernel, by decide +kernel, by decide +kernel⟩, by unfold HasNext; decide⟩
/-- The AMO and the STR of AtomicsAndReleases are reached with no packet open. -/
theorem witness_AtomicsAndReleases : let s := stored 0b000000000000_011_00001_00011_0011001 [(1, 65528)]
    Reaches .str s 4095 0b000000000000_011_00001_00011_0011001 ∧ wickOpen (issue s 4095) 4095 = false ∧
      (takeFence (issue s 4095) 4095).1 = 0 ∧ tfind s.xbar.fenceBad 4095 = none := by
  refine ⟨⟨by decide +kernel, by decide +kernel, by decide +kernel, by decide +kernel, by decide +kernel, by decide +kernel⟩, by decide +kernel, by decide +kernel, by decide +kernel⟩

/-! ### Plans and queue entries -/

/-- A plan of partition 0 in context 5 that claims movers 0 and 1 of sconce 63 for all its wicks, with one plain step. -/
def aStep : PStep :=
  { sconceBound := 0, hubBound := 0, gateBound := 0, kind := 0, serviceOp := 0, spot := false, gate := false, post := false,
    launchFirst := 0, launchCount := 1, streamFirst := 0, streamCount := 0, gateCounter := 7, postCounter := 0, gateBase := 3,
    gateStride := 0, postAgent := 0, postInc := 0 }
def aPlan : Plan :=
  { ctx := 5, part := 0, service := false, multi := false, armed := true, tag := 0, partMask := 0, seed := 9,
    claims := [⟨1, 63, 0, 0, BitVec.allOnes 64⟩, ⟨2, 63, 0, 0, BitVec.allOnes 64⟩, ⟨2, 63, 1, 0, BitVec.allOnes 64⟩], steps := [aStep],
    launches := [⟨4095, 2, 0, 64⟩], code := zeros 64, streams := [], tiles := [], routes := [], deadlines := [], spots := [],
    run := .idle, curStep := 0, runIndex := 0, rel := [0, 0, 0, 0], status := 0, misses := 0, lates := 0, runs := 0,
    streamRuns := [], runner := none, comp := 0, retire := none }
def withPlan (p : Plan) (s : State) : State := { s with plans := [(0, p)] }

/-- A 64 B entry with fields (lowest bit, value). -/
def entry (l : List (Nat × Nat)) : W512 := BitVec.ofNat 512 ((l.map (fun x => x.2 * 2 ^ x.1)).sum)
/-- The entry waits on the enabled queue 0, whose context is 5. -/
def queued (e : W512) (s : State) : State :=
  s.setQueue 0 (fun k => { k with cfg := 0x1000000000005, tail := 1, head := 1, fetched := [⟨0, e⟩] })
/-- A queue command's row starts: all that is left to show of a concrete entry is computed. -/
theorem starts_of (s : State) (e : W512) (fields : List (Nat × Nat)) (eng : Engine) (hf : frozen s = false)
    (hc : canStart s 0 e = true) (hq : (s.queue 0).fetched = [⟨0, e⟩])
    (hh : headStatus (startEntry s 0 ⟨0, e⟩ eng).2 (startEntry s 0 ⟨0, e⟩ eng).1 fields = 0) :
    ∃ c u, Starts s 0 e fields eng c u ∧ (c, u) = startEntry s 0 ⟨0, e⟩ eng :=
  ⟨_, _, ⟨by decide +kernel, hf, hc, ⟨_, _, hq, rfl⟩, hh⟩, rfl⟩

/-- MVX of 64 B from scratch 0 of wick 4,095 to its own scratch at 64, on channel 0. -/
theorem witness_MoverIssue : let s := (withPlan aPlan (runs 4095 4094 0b0101000_000_00010_00001_00011_0111000
      [(1, 0), (2, 4095 * 131072 + 131008), (3, 64)] State.reset))
    Reaches .mvx s 4095 0b0101000_000_00010_00001_00011_0111000 ∧ channelGranted (issue s 4095) 4095 0 = true ∧
    ((issue s 4095).wick 4095).track.length < 16 ∧ channelFull (issue s 4095) (.mover 63 0) = false ∧
    (startRaw (issue s 4095) { newXfer (issue s 4095) (.mover 63 0) 0 0 0x28 with raw := true, params := 64 }).isSome = true := by
  refine ⟨⟨by decide +kernel, by decide +kernel, by decide +kernel, by decide +kernel, by decide +kernel, by decide +kernel⟩, by decide +kernel, by decide +kernel, by decide +kernel, by decide +kernel⟩
/-- CWAIT whose counter has exactly its target, and one whose counter is one short of it. -/
theorem witness_CounterWaits : let w : W32 := 0b0000000_000_00010_00001_00011_0111001
    let s := { runs 4095 4094 w [(1, 131071), (2, 5)] State.reset with sync := { Sync.reset with hub := [(131071, 5)] } }
    let t := { s with sync := { Sync.reset with hub := [(131071, 4)] } }
    Reaches .cwait s 4095 w ∧ waitAborted s false 131071 = false ∧ rdS (s.wick 4095) 2 ≤ hubGet s 131071 ∧
    ¬ rdS (t.wick 4095) 2 ≤ hubGet t 131071 := by
  refine ⟨⟨by decide +kernel, by decide +kernel, by decide +kernel, by decide +kernel, by decide +kernel, by decide +kernel⟩, by decide +kernel, by decide +kernel, by decide +kernel⟩
/-- A wick that waits on a counter with a bound. -/
theorem witness_CounterWaits_bound : let s := State.reset.setWick 4095 (fun k =>
      { k with state := .running, wait := .counter true 1023 9 4, sreg := [(4, 100)] })
    (s.wick 4095).wait = .counter true 1023 9 4 ∧ (s.wick 4095).state = .running ∧ rdS (s.wick 4095) 4 ≠ 0 ∧
    ¬ (9 : W64) ≤ localGet s 63 1023 := by decide +kernel
theorem witness_ReleasesFencesAcquires : let w : W32 := 0b0010010_000_00010_00001_00000_0111001
    let s := runs 4095 4094 w [(1, 1023), (2, 7)] State.reset
    Reaches .cadd s 4095 w ∧ wickOpen (issue s 4095) 4095 = false ∧ tfind s.xbar.fenceBad 4095 = none ∧
    bit (wFN w) 4 = true ∧ sconceOwner s 63 = (s.wick 4095).part ∧ (s.wick 4095).track = [] := by
  refine ⟨⟨by decide +kernel, by decide +kernel, by decide +kernel, by decide +kernel, by decide +kernel, by decide +kernel⟩, by decide +kernel, by decide +kernel, by decide +kernel, by decide +kernel,
    by decide +kernel⟩
/-- CADD on the sconce's own counter 1,023 adds 7 (08 R250). -/
theorem test_cadd_local : localGet (after (exec (.cadd 4095 0b0010010_000_00010_00001_00000_0111001)
    (runs 4095 0 0b0010010_000_00010_00001_00000_0111001 [(1, 1023), (2, 7)] State.reset))) 63 1023 = 7 := by decide +kernel

/-! ### Registers and arrays -/

/-- A write of a plain register, THM's MARGIN, and of an unnamed offset. -/
theorem witness_RegisterWrites : (regDesc pTHM 0x118).isSome = true ∧ regDesc pTHM 0xF00 = none ∧
    reaches State.reset .pf = true ∧ writes State.reset .pf pTHM 0x118 = true ∧ inReset State.reset pTHM = false ∧
    isHeld pTHM 0x118 = false := by decide +kernel
/-- A 4 B write of MIG_SHARE writes its half and an 8 B read returns it; a write of THM.TEMP is dropped (17 R471). -/
theorem test_register_write : regGet (after (exec (.registerWrite .pf (rk pPLC 0x110) 4 7) State.reset)) (rk pPLC 0x110) = 7 := by
  decide +kernel
theorem test_register_dropped : regGet (after (exec (.registerWrite .pf 0x3F00 8 7) State.reset)) (rk pTOP 0x138) =
    BitVec.ofNat 64 (1 + 2 ^ 40 * (0x3F00 / 4)) := by decide +kernel
theorem witness_RegisterReads : barOk 0x3FFFFF8 = true ∧ reaches State.reset .pf = true ∧ (0x3FFFFFC % 8 ≠ 0) ∧
    writes State.reset .pf 153 0x20 = true := by decide +kernel
theorem witness_CounterArrays : counterOwner State.reset 131071 = srcPart .pf ∧
    counterOwner State.reset 131071 ≠ srcPart (.vf 63) ∧ sconceOwner State.reset 63 = srcPart .pf ∧
    semOwner State.reset 32767 = srcPart .pf ∧ (∀ h ∈ State.reset.sync.held, h.sem ≠ 32767) := by decide +kernel
/-- The last hub counter of partition 0 grows by 5 and wraps (06 R171). -/
theorem test_hub_counter_wraps : hubGet (after (exec (.hubCounterWrite .pf 131071 8 5)
    { State.reset with sync := { Sync.reset with hub := [(131071, 0xFFFFFFFFFFFFFFFE)] } })) 131071 = 3 := by decide +kernel

/-! ### Queues -/

/-- Doorbells: queue 0 enabled with 64 entries in the host's ring; the tail moves to the ring's length, and one further. -/
def ringed : State := State.reset.setQueue 0 (fun k => { k with cfg := 0x1000000000005 + 6 * 2 ^ 20, ring := 0x8000000000000000 })
theorem witness_Doorbells : qEnabled (ringed.queue 0) = true ∧ reachesQueue ringed .pf 0 = true ∧ ringed.host.notFront = false ∧
    (ringed.queue 0).tailcnt.getLsbD 17 = false ∧ qN (ringed.queue 0) = 6 ∧ (64 - (ringed.queue 0).head : W32).toNat ≤ 2 ^ 6 ∧
    2 ^ 6 < (65 - (ringed.queue 0).head : W32).toNat ∧ ringHost (ringed.queue 0).ring = true := by decide +kernel
/-- A tail one past the ring's length stops the queue with FORMAT_ERROR (14 R395). -/
theorem test_doorbell_far : let t := after (exec (.doorbell .pf 0 8 65 .ok) ringed)
    (t.queue 0).stopped = true ∧ (t.queue 0).stop = stFormat := by decide +kernel
/-- Composition 0 ACTIVE and context 5 installed for partition 0: queue 0 may be enabled with N = 6 and with N = 16. -/
theorem witness_QueueEnabling : let s := mapped.setComp 0 (fun x => { x with state := 1 })
    reachesQueue s .pf 0 = true ∧ qEnabled (s.queue 0) = false ∧ inReset s pWORK = false ∧
    (∃ c, ctxOf s 5 = some c ∧ c.part = queuePart s 0) ∧ (s.comp 0).state = 1 ∧ (s.comp 0).part = queuePart s 0 ∧
    partResetting s 0 = false := by
  refine ⟨by decide +kernel, by decide +kernel, by decide +kernel, ⟨_, rfl, by decide +kernel⟩, by decide +kernel, by decide +kernel, by decide +kernel⟩
/-- FENCE: opcode 3, tag 77, context from the queue. -/
def fenceEntry : W512 := entry [(0, 3), (32, 77), (95, 1)]
theorem witness_QueueCommandsStartAndEnd : let s := queued fenceEntry mapped
    (s.queue 0).fetched = [⟨0, fenceEntry⟩] ∧ canStart s 0 fenceEntry = true ∧ fld fenceEntry 0 1 = 3 ∧ frozen s = false ∧
    headStatus (startEntry s 0 ⟨0, fenceEntry⟩ .work).2 (startEntry s 0 ⟨0, fenceEntry⟩ .work).1
      [(128, 1), (192, 10), (224, 17), (256, 64)] = 0 := by decide +kernel
/-- An entry with reserved bit 10 set. -/
theorem witness_QueueCommandsStartAndEnd_reserved : (entry [(0, 3), (10, 1)]).getLsbD 10 = true ∧ canStart (queued (entry [(0, 3), (10, 1)]) mapped)
    0 (entry [(0, 3), (10, 1)]) = true := by decide +kernel
/-- A FENCE with nothing before it ends at once with OK and its tag (14 R398). -/
theorem test_fence_ends : let t := after (exec (.fence 0 fenceEntry) (queued fenceEntry mapped))
    (t.queue 0).active = [] ∧ (t.queue 0).fetched = [] := by decide +kernel
/-- COUNTER_WAIT for counter 131,071 of partition 0 at 1, and at 0. -/
theorem witness_QueueFencesAndWaits : ∀ v ∈ ([0, 1] : List Nat), let e := entry [(0, 4), (95, 1), (128, 131071), (192, v)]
    let s := queued e mapped
    (∃ c u, Starts s 0 e [(128, 17), (192, 64), (256, 32)] .work c u ∧ (c, u) = startEntry s 0 ⟨0, e⟩ .work) ∧
    fld e 0 1 = 4 ∧ fld e 32 4 ≤ 10 ^ 7 ∧ counterOwner s 131071 = 0 ∧ abortedGroup s 131071 = none := by
  intro v h
  simp only [List.mem_cons, List.mem_nil_iff, or_false] at h
  rcases h with rfl | rfl <;>
    exact ⟨starts_of _ _ _ _ (by decide +kernel) (by decide +kernel) (by decide +kernel) (by decide +kernel), by decide +kernel, by decide +kernel, by decide +kernel, by decide +kernel⟩
/-- A plan's step behind a gate whose counter has its target. -/
theorem witness_Gate : let p := { aPlan with run := .gate, steps := [{ aStep with gate := true }] }
    let s := { withPlan p State.reset with sync := { Sync.reset with hub := [(7, 3)] } }
    s.plan 0 = some p ∧ stepOf p = some { aStep with gate := true } ∧ abortedGroup s 7 = none ∧
    (3 : W64) + p.runIndex * 0 ≤ hubGet s 7 := by decide +kernel

/-- All that `Starts` asks of a concrete entry at queue 0, in one computation. -/
def startable (s : State) (e : W512) (fields : List (Nat × Nat)) (eng : Engine) : Bool :=
  !frozen s && canStart s 0 e && decide ((s.queue 0).fetched = [⟨0, e⟩]) &&
    decide (headStatus (startEntry s 0 ⟨0, e⟩ eng).2 (startEntry s 0 ⟨0, e⟩ eng).1 fields = 0)
theorem starts_here (s : State) (e : W512) (fields : List (Nat × Nat)) (eng : Engine) (h : startable s e fields eng = true) :
    Starts s 0 e fields eng (startEntry s 0 ⟨0, e⟩ eng).1 (startEntry s 0 ⟨0, e⟩ eng).2 := by
  simp only [startable, Bool.and_eq_true, Bool.not_eq_true', decide_eq_true_eq] at h
  exact ⟨by decide +kernel, h.1.1.1, h.1.1.2, ⟨_, _, h.1.2, rfl⟩, h.2⟩
/-- The command that an entry of queue 0 starts, and the state once it has started. -/
def begun (s : State) (e : W512) (eng : Engine) : Cmd × State := startEntry s 0 ⟨0, e⟩ eng

/-! ### Copies, advice, shootdowns, contexts -/

/-- COPY of 16 B at the end of the Reservoir. -/
theorem witness_CopyCommands : let e := entry [(0, 1), (95, 1), (128, 2 ^ 60), (192, 2 ^ 60 + 0x8000000 - 16), (256, 16)]
    let s := queued e mapped
    startable s e [(128, 64), (192, 64), (256, 32), (288, 17), (319, 1)] (.copy 0) = true ∧ copyHeld (begun s e (.copy 0)).2 0 = false ∧
    spaceOk (fld e 24 8) = true ∧ fld e 24 8 % 2 ^ 60 + fld e 32 4 ≤ Config.reservoirBytes ∧
    reservoirOwned (begun s e (.copy 0)).2 0 (0x8000000 - 16) 16 = true ∧
    reservoirBad (begun s e (.copy 0)).2 0 16 = false := by decide +kernel
/-- COPY of the Reservoir's first 16 B to its last (02 R53). -/
theorem test_copy : let e := entry [(0, 1), (95, 1), (128, 2 ^ 60), (192, 2 ^ 60 + 0x8000000 - 16), (256, 16)]
    let t := after (exec (.copy 0 e) (queued e { mapped with reservoir := [(3, 0xAB)] }))
    cellRead t.reservoir (0x8000000 - 16) 5 = [0, 0, 0, 0xAB, 0] := by decide +kernel
/-- A length that is no multiple of 16. -/
theorem witness_CopyCommands_form : let e := entry [(0, 1), (95, 1), (128, 2 ^ 60), (192, 2 ^ 60), (256, 15)]
    startable (queued e mapped) e [(128, 64), (192, 64), (256, 32), (288, 17), (319, 1)] (.copy 0) = true ∧ fld e 32 4 % 16 ≠ 0 := by
  decide +kernel
/-- EVICT_TO_HOST needs an aperture; PREFETCH_FROM_HOST of 63 B has no right length. -/
theorem witness_CopyCommands_host : let e := entry [(0, 9), (95, 1), (256, 63)]
    startable (queued e mapped) e [(128, 64), (192, 64), (256, 32)] (.copy 0) = true ∧ fld e 32 4 % 64 ≠ 0 := by decide +kernel
/-- PIN of one block. -/
theorem witness_AdviceCommands : let e := entry [(0, 8), (95, 1), (128, 2), (160, 1)]
    let s := queued e mapped
    startable s e [(128, 8), (136, 8), (144, 12), (159, 1), (160, 32), (192, 64), (256, 0)] .work = true ∧
    adviceForm 2 (fld e 17 1) (fld e 20 4) false 0 = true ∧
    (runEng (rangeBlocks (begun s e .work).1 .read 0 1) (begun s e .work).2).isSome = true := by decide +kernel
/-- RECLAIM of one line, and of 63 B. -/
theorem witness_AdviceCommands_reclaim : ∀ n ∈ ([63, 64] : List Nat), let e := entry [(0, 12), (95, 1), (192, n)]
    startable (queued e mapped) e [(128, 57), (192, 64), (256, 1)] .work = true := by decide +kernel
theorem witness_AdviceCommands_blocks : (blockGet mapped 0).lost = false ∧ (blockGet mapped 0).forfeit = false ∧
    pendingMove mapped 0 = none ∧ mapped.store.moves.length < 4096 ∧ (blockGet mapped 0).pins = 0 ∧
    tierOf (blockGet mapped 0).loc = 0 := by decide +kernel
/-- PIN of a stacked block 0 owned by composition 0 leaves one pin; a second UNPIN finds none. -/
def ownedBlock : State := (mapped.setExtent 0 (fun x => { x with owned := true })).setComp 0 (fun x => { x with state := 1 })
theorem witness_AdviceCommands_pin : extentStatus ownedBlock 0 65536 0 = 0 ∧ pinQuota ownedBlock (blockPart ownedBlock 0) 0 = 0 := by
  decide +kernel
/-- SHOOTDOWN of everything of context 5. -/
theorem witness_Shootdowns : let e := entry [(0, 11), (95, 1), (128, 5), (159, 1)]
    let u := (begun (queued e mapped) e .work).2
    startable (queued e mapped) e [(128, 20), (159, 1), (192, 57), (256, 32)] .work = true ∧ e.getLsbD 159 = true ∧
    (ctxOf u 5).map (·.part) = some (begun (queued e mapped) e .work).1.part ∧ u.xlt.shoots.length < 16 := by decide +kernel
/-- A shootdown drops the L2's and the wick's entries at once (03 R79). -/
theorem test_shootdown : let e := entry [(0, 11), (95, 1), (128, 5), (159, 1)]
    (after (exec (.shootdown 0 e) (queued e mapped))).xlt.tlb = [] := by decide +kernel
/-- A running shootdown that engine 3 has not acknowledged. -/
def shooting : State := mapped.setXlt (fun x => { x with shoots := [⟨7, 5, true, 0, 0, [.copy 3], [], none, some 0, false, false⟩] })
theorem witness_Shootdowns_ack : (findShoot shooting 7).isSome = true ∧ (Engine.copy 3).ok = true ∧ onEngine shooting (.copy 3) = [] ∧
    (Engine.copy 3) ∈ ((findShoot shooting 7).map (·.engines)).getD [] := by decide +kernel
theorem witness_KeySlots_overrun : (findShoot shooting 7).map (·.engines) = some [.copy 3] := by decide +kernel
/-- CTX_INSTALL of id 6 for partition 0 from a descriptor in the Reservoir; CTX_WITHDRAW of context 5 while a queue names it. -/
theorem witness_Contexts : let e := entry [(0, 0x28), (95, 1), (128, 6), (160, 64)]
    let s := queued e { mapped with reservoir := [(64, 1)] }
    let u := (begun s e .work).2
    startable s e [(128, 20), (160, 27)] .work = true ∧ ctxPart u 6 = 0 ∧ reservoirOwned u 0 64 64 = true ∧
    reservoirBad u 64 64 = false ∧ ctxOf u 6 = none ∧ (ctxFrom (lineOf (cellRead u.reservoir 64 64))).part = 0 ∧
    ctxForm (lineOf (cellRead u.reservoir 64 64)) = true := by decide +kernel
theorem witness_Contexts_withdraw : let e := entry [(0, 0x29), (95, 1), (128, 5)]
    startable (queued e mapped) e [(128, 20)] .work = true ∧ (ctxOf mapped 5).isSome = true ∧
    ctxNamed (begun (queued e mapped) e .work).2 5 = true ∧ ctxNamed mapped 5 = false := by decide +kernel
/-- The descriptor is entered as its 64 B say (03 R68). -/
theorem test_ctx_install : let e := entry [(0, 0x28), (95, 1), (128, 6), (160, 64)]
    let t := after (exec (.ctxInstall 0 e) (queued e { mapped with reservoir := [(64, 1), (66, 9)] }))
    (ctxOf t 6).map (·.key) = some 9 := by decide +kernel

/-! ### Rebuilds, placement, plans -/

/-- RECEIVE of extent 0 of home 1 with counter 7. -/
theorem witness_Rebuilding : let e := entry [(0, 13), (95, 1), (128, 2), (160, 1), (192, 1), (224, 7), (256, 1)]
    startable (queued e mapped) e rebuildFields .work = true ∧ (queued e mapped).store.rebuild = none := by decide +kernel
/-- A SEND that has copied both of no extents' blocks, a RECEIVE whose counter stands still. -/
def rebuilding (send : Bool) : State :=
  let r : Rebuild := ⟨0, send, 0, 0, 1, 0, 0, 1, 7, 10, 16384, 16384, 0, 0, 0⟩
  State.reset.setStore (fun z => { z with rebuild := some r })
theorem witness_Rebuilding_ends : ((rebuilding true).store.rebuild.map (fun x => decide (x.copied = rebuildTotal x ∧ x.done = x.copied))) =
      some true ∧ ((rebuilding false).store.rebuild.map (fun x => decide ((hubGet (rebuilding false) x.counter).toNat ≤ x.done))) =
      some true := by decide +kernel
theorem witness_LostCmd : let v : W64 := BitVec.ofNat 64 (1 + 2 ^ 16 * 8 + 2 ^ 32)
    v.getLsbD 32 = true ∧ (1 + 8) * 2 ^ 30 ≤ State.reset.store.homeLen ∧ mainUp State.reset = true := by decide +kernel
/-- The last capacity block is a candidate once its counter reaches its threshold. -/
def hotBlock : State := State.reset.setStore (fun z => { z with
  blocks := [(3145728, { (blockGet State.reset 3145728) with count := 255 })] })
theorem witness_Placement : migShare hotBlock ≠ 0 ∧ isCandidate hotBlock 3145728 = true ∧ pendingMove hotBlock 3145728 = none ∧
    computeReset hotBlock = none ∧ residencyQuota hotBlock (blockPart hotBlock 3145728) 0 = 0 ∧
    tierOf (blockGet hotBlock 3145728).loc = 1 := by decide +kernel
/-- A pending policy move of that block to a free place. -/
def moving (flipped : Bool) : State := hotBlock.setStore (fun z => { z with
  blocks := [(3145728, { (blockGet State.reset 3145728) with count := 255 })], bootDown := List.range 64
  moves := [⟨3145728, .stacked 0 0, none, 3, .policy, [], flipped, (blockGet State.reset 3145728).loc⟩] })
theorem witness_Placement_flip : (pendingMove (moving false) 3145728).map (·.flipped) = some false ∧
    (pendingMove (moving true) 3145728).map (·.flipped) = some true ∧ blockBad (moving false) 3145728 = none := by decide +kernel
theorem witness_Placement_shadow : let h : Shadow := { srcFmt := 0, sb4 := false, stale := true, key := 1 }
    let s := { hotBlock with keys := mapped.keys, store := { hotBlock.store with
      blocks := [(3145728, { (blockGet State.reset 3145728) with shadow := some h })] } }
    (blockGet s 3145728).shadow = some h ∧ tierOf (blockGet s 3145728).loc ≠ 0 ∧ (keySlot s h.key).valid = true ∧
    inHome s 3145728 = true ∧ blockBad s 3145728 = none := by decide +kernel
/-- PLAN_ARM, PLAN_RUN and PLAN_RETIRE of handle 255, which is free. -/
theorem witness_PlanAdmission_none : ∀ o ∈ ([(0x11, [(128, 8), (192, 64)]), (0x12, [(128, 8), (136, 1), (192, 256)]), (0x13, [(128, 8)])] :
      List (Nat × List (Nat × Nat))), let e := entry [(0, o.1), (95, 1), (128, 255)]
    startable (queued e mapped) e o.2 .work = true ∧ (queued e mapped).plan 255 = none := by decide +kernel
/-- PLAN_ARM of a MULTI plan whose tag is 9, by the right tag and by a wrong one. -/
theorem witness_PlanAdmission_arm : let p := { aPlan with multi := true, tag := 9 }
    ∀ tag ∈ ([8, 9] : List Nat), let e := entry [(0, 0x11), (95, 1), (192, tag)]
    startable (queued e (withPlan p mapped)) e [(128, 8), (192, 64)] .work = true := by decide +kernel
theorem witness_PlanRuns : let e := entry [(0, 0x12), (95, 1), (136, 1), (192, 11)]
    startable (queued e (withPlan aPlan mapped)) e [(128, 8), (136, 1), (192, 256)] .work = true ∧ aPlan.steps.head? = some aStep := by
  decide +kernel
/-- PLAN_RUN of an idle plan makes it ready with its arguments (09 R276). -/
theorem test_plan_run : let e := entry [(0, 0x12), (95, 1), (192, 11)]
    ((after (exec (.planRun 0 e) (queued e (withPlan aPlan mapped)))).plan 0).map (fun p => (p.run, p.rel)) =
      some (.ready, [11, 0, 0, 0]) := by decide +kernel
/-- The plan is ready and its sconces too; it runs and every wick has ended; it waits at its gate. -/
theorem witness_PlanRuns_start : let s := withPlan { aPlan with run := .ready } State.reset
    stepOf { aPlan with run := .ready } = some aStep ∧ (planSconces aPlan).all (sconceReady s) = true ∧ frozen s = false ∧
    gateTarget aPlan aStep ≠ 0 ∧ ¬ gateTarget aPlan aStep ≤ hubGet s 7 := by decide +kernel
theorem witness_PlanRuns_end : let s := (withPlan { aPlan with run := .running } State.reset).setWick 4095 (fun k => { k with state := .ended })
    stepOver s 0 { aPlan with run := .running } = true ∧ aPlan.curStep + 1 = aPlan.steps.length := by decide +kernel
/-- The step launches wick 4,095 at its entry, running (09 R277; 08 R221). -/
theorem test_step_start : let t := after (exec (.stepStart 0) (withPlan { aPlan with run := .ready } State.reset))
    (t.wick 4095).state = .running ∧ (t.wick 4095).pc = 2 ∧ (t.plan 0).map (·.run) = some .running := by decide +kernel
theorem witness_SpotChecks : let sp : Spot := ⟨4095, 64, false, 0, false⟩
    let s := (State.reset.setWick 4095 (fun k => { k with state := .held })).setSconce 63 (fun c => { c with spot := some sp })
    (s.sconce 63).spot = some sp ∧ (s.wick 4095).state = .held ∧ (regGet s (rk (pSCN 63) 0x128)).toNat + 1 < 2 ^ 32 := by
  decide +kernel

/-! ### Functions, groups, compositions, owners -/

/-- Context 5's page at 0x10000 lies in home 1, whose bytes are the environment's. -/
def far (bytes : List Byte) : State :=
  let leaf : Leaf := { sa := BitVec.ofNat 56 (2 ^ 50), size := 65536, w := true, x := true, a := true, c := false, j := false,
                       m := false, key := 1 }
  { mapped with
    remote := cellWrite [] (2 ^ 50) bytes
    xlt := { mapped.xlt with tlb := ⟨.l2, 5, 65536, leaf⟩ :: mapped.xlt.tlb } }
/-- An engine's work of a concrete state ends well. -/
def endsOk {α : Type} (e : Eng α) (s : State) : Bool := match runEng e s with
  | some (.ok _, _) => true
  | _ => false

/-- A service plan for an operation, with all that the functions' plans must claim. -/
def servicePl (op : Byte) : Plan :=
  { aPlan with service := true, steps := [{ aStep with kind := 1, serviceOp := op, launchCount := 0 }],
               claims := [⟨1, 63, 0, 0, 1⟩, ⟨2, 63, 0, 0, 1⟩, ⟨2, 63, 1, 0, 1⟩, ⟨3, 63, 0, 0, 16⟩, ⟨6, 0, 0, 0, 0x800000⟩,
                          ⟨10, 0, 0, 0, 1⟩, ⟨8, 1, 0, 1, 1⟩] }
def serving (op : Byte) (s : State) : State := withPlan (servicePl op) s

/-- APPEND without a plan, of one entry whose session does not exist: the entry fails, the batch is done. -/
theorem witness_FunctionCommands_append : let e := entry [(0, 0x18), (95, 1), (128, 0xFF), (160, 1), (192, 65536)]
    let s := queued e (far [])
    startable s e [(128, 8), (136, 2), (144, 10), (160, 32), (192, 57)] .work = true ∧ fld e 24 8 % 64 = 0 ∧
    (let c := (begun s e .work).1
     endsOk (batchDo c (fld e 24 8) (fld e 20 4) (fun _ => appendEntry c none false false (fld e 18 2))) (begun s e .work).2 = true) := by
  decide +kernel
theorem witness_FunctionCommands_attend : let e := entry [(0, 0x19), (95, 1), (160, 1), (256, 65536), (320, 1)]
    let s := queued e (serving 0x19 (far []))
    let c := (begun s e .work).1
    let u := (begun s e .work).2
    startable s e [(128, 8), (136, 3), (144, 10), (160, 8), (168, 4), (192, 32), (224, 32), (256, 57), (320, 32), (352, 17),
      (383, 1), (384, 57)] .work = true ∧ attendPlan u c.part 0 = some (servicePl 0x19) ∧
    attendForm c (servicePl 0x19) (attendOf c) (batchShape u c (attendOf c).layer (fld e 32 8) (fld e 40 4) 0) = true ∧
    serviceReady u c (servicePl 0x19) = some 0 ∧ endsOk (batchDo c (fld e 32 8) (fld e 40 4) (fun i =>
      attendEntry c (servicePl 0x19) (attendOf c) (0, 0) i)) (serviceStart u 0 (servicePl 0x19)) = true := by decide +kernel
/-- A table of one row in shard 0 of 1 whose directory lies at 0x10000 and which caches nothing. -/
def aTable (sets : Nat) : Table :=
  { part := 0, ctx := 5, dir := 65536, rows := 4, dim := 32, shards := 1, shard := 0, sets := sets, cacheMax := 3, adagrad := false,
    eps := 0, stateDva := 0, base := 0, mult := 1 }
/-- GATHER of one index: the argument block names count 1 and indices at 0x10100. -/
theorem witness_FunctionCommands_embed : let e := entry [(0, 0x1A), (95, 1), (136, 1), (192, 65536)]
    let args := leBytes 128 (1 + 2 ^ 80 * 0xFF + 2 ^ 128 * 0x10100 + 2 ^ 384 * 2 ^ 60)
    let s := queued e (serving 0x1A { far args with emb := { Emb.reset with tables := [(0, aTable 0)] } })
    let c := (begun s e .work).1
    let u := (begun s e .work).2
    startable s e [(128, 16), (144, 12), (192, 57)] .work = true ∧ embedPlan u c.part 0 = some (servicePl 0x1A) ∧
    tfind u.emb.tables 0 = some (aTable 0) ∧ serviceReady u c (servicePl 0x1A) = some 0 ∧
    endsOk (readDva { c.who with eng := .work } .l2 65536 128) (serviceStart u 0 (servicePl 0x1A)) = true ∧
    argsForm 1 (servicePl 0x1A) (aTable 0) (leNat args) = true ∧ argsAlign (embArgs (leNat args)) = true := by decide +kernel
theorem witness_FunctionCommands_open : let d := leBytes 64 (0x12000 + 2 ^ 64 * 4 + 2 ^ 128 * 32 + 2 ^ 144 * 1)
    let e := entry [(0, 0x1A), (95, 1), (136, 5), (192, 65536)]
    let s := queued e (serving 0x1A (far d))
    let u := (begun s e .work).2
    startable s e [(128, 16), (144, 12), (192, 57)] .work = true ∧ tableForm (leNat d) = true ∧ embedPlan u 0 0 = some (servicePl 0x1A) ∧
    endsOk (readDva { (begun s e .work).1.who with eng := .work } .l2 65536 64) (serviceStart u 0 (servicePl 0x1A)) = true := by
  decide +kernel
/-- TABLE_OPEN answers table 0, with the descriptor's rows and dimension (11 R310). -/
theorem test_table_open : let d := leBytes 64 (0x12000 + 2 ^ 64 * 4 + 2 ^ 128 * 32 + 2 ^ 144 * 1)
    let e := entry [(0, 0x1A), (95, 1), (136, 5), (192, 65536)]
    let t := after (exec (.tableOpen 0 e) (queued e (serving 0x1A (far d))))
    (tfind t.emb.tables 0).map (fun x => (x.rows, x.dim, x.shards)) = some (4, 32, 1) := by decide +kernel
theorem witness_EmbeddingRows : let m : RowMove := { table := 0, row := 2, way := 3, victim := none, e0 := 1, data := zeros 32 }
    let s := { far (zeros 16 ++ leBytes 8 1) with emb := { Emb.reset with tables := [(0, { aTable 1 with dir := 65536 })], moves := [m] } }
    s.emb.moves.find? (fun m => m.table = 0 ∧ m.row = 2) = some m ∧ migShare s ≠ 0 ∧
    endsOk (fillWay { eng := .work, part := 0, ctx := 5 } (aTable 1) 0 .ok m) s = true := by decide +kernel
/-- SGD_M of a parameter block that is all zero: FORMAT_ERROR; NORM2 of 32 zero gradients. -/
theorem witness_OptimizerOperators : let v := leBytes 128 (2 ^ 64 * 0x10100 + 2 ^ 128 * 0x10400 + 2 ^ 320 * 32)
    let e := entry [(0, 0x1B), (95, 1), (136, 5), (192, 65536)]
    let s := queued e (serving 0x1B (far v))
    let c := (begun s e .work).1
    let u := (begun s e .work).2
    startable s e [(128, 16), (144, 3), (160, 32), (192, 57)] .work = true ∧ optimPlan u c.part 0 = some (servicePl 0x1B) ∧
    serviceReady u c (servicePl 0x1B) = some 0 ∧ endsOk (optInstance c (servicePl 0x1B) 5) (serviceStart u 0 (servicePl 0x1B)) = true := by
  decide +kernel
/-- A group of this controller and agent 9; its list lies at 0x10040. -/
def aGroup (aborted : Bool) : Group :=
  { part := 0, gid := 3, members := [⟨0, 64, 2⟩, ⟨9, 64, 2⟩], comp := none, aborted := aborted, cause := 0x11, repeats := 0, abortedAt := 0 }
def grouped (aborted : Bool) (s : State) : State := { s with sync := { s.sync with groups := [aGroup aborted] } }
theorem witness_CollectiveGroups_open : let e := entry [(0, 0x20), (95, 1), (128, 65536)]
    let bytes := leBytes 64 (3 + 2 ^ 16 * 2 + 2 ^ 64 * 0x10040) ++ leBytes 8 (2 ^ 10 * 64 + 2 ^ 27 * 2) ++ leBytes 8 (9 + 2 ^ 10 * 64 + 2 ^ 27 * 2)
    let s := queued e (far bytes)
    startable s e [(128, 57)] .work = true ∧ groupForm (lineOf (bytes.take 64)) = true ∧
    membersOf (bytes.drop 64) 2 = some (aGroup false).members ∧ foreignCounter s 0 (aGroup false).members = none ∧
    findGroup s 0 3 = none := by decide +kernel
theorem test_coll_open : let e := entry [(0, 0x20), (95, 1), (128, 65536)]
    let bytes := leBytes 64 (3 + 2 ^ 16 * 2 + 2 ^ 64 * 0x10040) ++ leBytes 8 (2 ^ 10 * 64 + 2 ^ 27 * 2) ++ leBytes 8 (9 + 2 ^ 10 * 64 + 2 ^ 27 * 2)
    ((after (exec (.collOpen 0 e) (queued e (far bytes)))).sync.groups.map (·.members)) = [(aGroup false).members] := by decide +kernel
theorem witness_CollectiveGroups : ∀ o ∈ ([(0x21, [(128, 16), (144, 8)]), (0x22, [(128, 16)]), (0x23, [(128, 16)])] :
      List (Nat × List (Nat × Nat))), let e := entry [(0, o.1), (95, 1), (128, 3)]
    startable (queued e (grouped false mapped)) e o.2 .work = true ∧ findGroup (begun (queued e (grouped false mapped)) e .work).2 0 3 =
      some (aGroup false) := by decide +kernel
/-- COMPOSE: CREATE of the last composition for host 1,023, and its other operations on composition 1. -/
theorem witness_Compositions : ∀ o ∈ ([(1, [(160, 6), (176, 10)]), (2, [(176, 10), (192, 8), (256, 48)]), (3, [(176, 10)]), (4, [])] :
      List (Nat × List (Nat × Nat))), let e := entry [(0, 0x2B), (95, 1), (128, o.1), (144, 4095), (176, if o.1 = 4 then 0 else 1023)]
    let s := queued e (if o.1 = 1 then mapped else mapped.setComp 4095 (fun x => { x with state := 1, host := 5, accels := (if o.1 = 3 then
      [⟨1023, none, 0⟩] else []) }))
    startable s e ([(128, 8), (144, 12)] ++ o.2) .work = true ∧ agentTaken (begun s e .work).2 4095 1023 = false ∧
    compInUse (begun s e .work).2 4095 = false := by decide +kernel
/-- GRANT of the home's last extents to composition 1; REVOKE and HANDOVER of a granted one. -/
theorem witness_Extents : ∀ o ∈ ([1, 2] : List Nat), let e := entry [(0, 0x2A), (95, 1), (128, o), (144, 60580), (160, 1), (176, 1)]
    let s := queued e (mapped.setComp 1 (fun x => { x with state := 1 }))
    startable s e [(128, 8), (144, 16), (160, 16), (176, 12)] .work = true ∧ (60580 + 1) * 2 ^ 30 ≤ s.store.homeLen ∧
    (s.comp 1).state = 1 ∧ (s.extent 60580).owned = false ∧ (s.extent 60580).revoking = false := by decide +kernel
theorem witness_Extents_hand : let e := entry [(0, 0x2A), (95, 1), (128, 3), (144, 60580), (160, 1), (176, 1)]
    startable (queued e mapped) e ([(128, 8), (144, 16), (160, 16), (176, 12)] ++ (List.range 16).map (fun i => (192 + 16 * i, 12)))
      .work = true := by decide +kernel
theorem witness_Extents_drain : let y : ExtentCmd := ⟨0, 0, false, 0, [], [7]⟩
    let s := { State.reset with work := { Work.reset with extCmds := [y] } }
    s.work.extCmds.find? (fun k => k.todo.contains 7) = some y ∧ (s.extent 7).inflight = 0 := by decide +kernel
/-- Extents 60,580 and 60,581: the home ends between them (14 R404). -/
theorem test_grant : let e := entry [(0, 0x2A), (95, 1), (128, 1), (144, 60580), (160, 1), (176, 1)]
    let t := after (exec (.grant 0 e) (queued e (mapped.setComp 1 (fun x => { x with state := 1 }))))
    (t.extent 60580).owned = true ∧ (t.extent 60580).comp = 1 ∧ (t.extent 60579).owned = false := by decide +kernel
theorem witness_Grants : ∀ x ∈ ([(1, 63), (2, 127), (3, 127), (4, 127)] : List (Nat × Nat)),
    State.reset.work.grant = none ∧ grantClaimed State.reset x.1 x.2 = false ∧ grantOwner State.reset x.1 x.2 ≠ 9 ∧
    inReset State.reset pWORK = false ∧ mainUp State.reset = true := by decide +kernel
/-- Granting the last block of hub counters zeroes them (14 R389). -/
theorem test_grant_counters : let t := after (exec (.grantHubCounters .pf 127 9)
      { State.reset with sync := { Sync.reset with hub := [(130047, 4), (131071, 5)] } })
    hubGet t 131071 = 0 ∧ hubGet t 130047 = 4 ∧ counterOwner t 131071 = 9 ∧ counterOwner t 130047 = 0 := by decide +kernel
theorem witness_SnuffsAndSnapshots : let s := State.reset.setComp 4095 (fun x => { x with state := 1 })
    (s.comp 4095).state ≠ 0 ∧ (0x10FFF : W64).getLsbD 16 = true ∧ (0x10FFF : W64).setWidth 12 = (4095 : BitVec 12) := by decide +kernel

/-! ### Packets, messages, epochs -/

/-- Ports 3 and 9 are up; agent 9 may send for partition 0; extent 0 belongs to composition 0. -/
def linked : State :=
  { ownedBlock.setComp 0 (fun x => { x with host := 1000 }) with
    lantern := { Lantern.reset with ports := [(3, { Port.down with state := 3 }), (9, { Port.down with state := 3 })] }
    xbar := { Xbar.reset with rx := [(9, RxWindow.fresh)], routeCur := [(8, 0x1039), (1023, 0x1)], routeOther := [(8, 0x1033)] }
    work := { (ownedBlock.setComp 0 (fun x => { x with host := 1000 })).work with agentPart := [(9, 1)] } }
/-- A request of agent 9 to this controller, in store addresses under key slot 1, to the last line of the first block. -/
def aPacket (opc : BitVec 4) (arg : W32) (payload : List Byte) : Packet :=
  { opc := opc, cls := if opc = 0xB then 3 else 0, dl := false, dst := 0, src := 9, part := 0, epoch := 0,
    len := BitVec.ofNat 8 (payload.length / 32), ekind := 0, eidx := 0, seq := 0, ctx := 5, status := 0, xl := true, nocomb := false,
    jc := false, addr := 65472, coh := false, mir := false, key := 1, cen := false, cunit := false, counter := 0, arg := arg,
    rsvd := false, payload := payload }
/-- A packet of each kind that a home serves is taken in, accepted and ready. -/
theorem witness_RequestsAtTheHome : ∀ p ∈ [aPacket 0 64 [], aPacket 1 0 (zeros 64), aPacket 2 0 (zeros 96), aPacket 3 0 (zeros 64),
      aPacket 4 4 (zeros 32), aPacket 4 5 (zeros 32), aPacket 4 6 (zeros 32), aPacket 4 7 (zeros 32), aPacket 0xB 0 (zeros 64)],
    let w := markSeq (takeIn linked 3 p) p .inProgress
    TakenIn linked 3 p w ∧ isHostAgent linked p.dst = false ∧ HomeReady w p 65472 ∧
      (match admitted w p with | .ok o => decide (o = 65472) | .error _ => false) = true ∧ windowOf w (targetOf 0 (blockGet w 0).loc) = [] ∧
      targetHeld w (targetOf 0 (blockGet w 0).loc) = false ∧ twinOffset w p.addr.toNat = some 65472 ∧ lookupStatus w p 65472 = 0 := by
  intro p h
  simp only [List.mem_cons, List.mem_nil_iff, or_false] at h
  rcases h with rfl | rfl | rfl | rfl | rfl | rfl | rfl | rfl | rfl <;>
    exact ⟨⟨by decide +kernel, by decide +kernel, by decide +kernel, by decide +kernel, by decide +kernel,
      fun _ => by decide +kernel, by decide +kernel, by decide +kernel, rfl⟩, by decide +kernel,
      ⟨by decide +kernel, by decide +kernel, by decide +kernel, by decide +kernel, by decide +kernel, by decide +kernel,
        by decide +kernel, by decide +kernel, by decide +kernel⟩, by decide +kernel, by decide +kernel, by decide +kernel, by decide +kernel,
      by decide +kernel⟩
/-- An old epoch, a packet seen, one half a window old, a wrong class, and an agent that may not send. -/
theorem witness_RequestsAtTheHome_refused : epochIs linked 1 = .unknown ∧
    epochIs { linked with xbar := { linked.xbar with otherState := 2, epochOther := 255 } } 255 = .stale ∧
    judge 32 (some 5000) [(5000, .applied 0 [])] false 5000 = .again 0 [] ∧ judge 32 (some 5000) [] false 904 = .expired ∧
    judge 32 (some 5000) [] false 905 = .perform ∧ firstReadOk { aPacket 0 64 [] with cls := 1 } = false ∧
    agentMay linked 8 0 = false := by decide +kernel
/-- A WRITE_MASKED of one enabled byte: byte 3 of the line becomes 7; ATOMIC ADD of 4 B (05 R129). -/
theorem test_write_masked : newBytes linked (aPacket 2 0 ((zeros 64).set 3 7 ++ (zeros 32).set 0 8)) 65472 (.sconce 0) = (zeros 64).set 3 7 ∧
    newBytes linked (aPacket 4 0 ([255, 0, 0, 1] ++ zeros 28)) 65472 (.sconce 0) = [255, 0, 0, 1] := by decide +kernel
/-- ATOMIC ADD of 4 B wraps; MIN of UINT and of INT (05 R129). -/
theorem test_atomics : atomicNew 0 0xFFFFFFFF 2 0 = 1 ∧ atomicNew 1 0xFFFFFFFF 2 0 = 2 ∧ atomicNew 17 0xFFFFFFFF 2 0 = 0xFFFFFFFF := by decide +kernel
/-- The READ of a line that waits in a window of its target. -/
theorem witness_RequestsAtTheHome_apply : let p := aPacket 0 64 []
    let x := targetOf 0 (blockGet linked 0).loc
    let s := setWindow linked x [[⟨p, .peer p⟩]]
    windowOf s x = [[⟨p, .peer p⟩]] ∧ x.ok = true ∧ targetHeld s x = false ∧ formatOk p = true ∧ offsetOf s p = 65472 ∧
    stageStatus s p 65472 = 0 ∧ flashBlocksOf s p 65472 = [] := by decide +kernel
/-- A virtual request of context 5 goes on under its page; a packet for agent 8 goes on by port 9 and for 1,023 stays. -/
theorem witness_PacketsThatGoOn : let p := { aPacket 0 64 [] with xl := false, key := 0 }
    let w := { markSeq (takeIn linked 3 p) p .inProgress with xlt := { linked.xlt with tlb := linked.xlt.tlb.map (fun e => { e with where_ := .port 3 }) } }
    endsOk (translateAll { eng := .work, part := 0, ctx := 5 } (.port 3) (useOf p) 65472 64) w = true ∧
    piecesOf 65472 64 = [(0, 64)] ∧ firstReadOk p = true ∧ alignOk p = true ∧ partResetting w 0 = false ∧
    isLocal linked 8 = false ∧ routePort linked (routeGet linked.xbar.routeCur 8) = some (9, 0) := by decide +kernel
/-- A wick's load, vector load and AMO wait for an answer. -/
def answering (o : Origin) : State :=
  { (linked.setWick 4095 (fun k => { k with wait := .response })) with
    xbar := { linked.xbar with tx := [(9, { TxStream.fresh with pkts := [⟨{ aPacket 0 64 [] with src := 0, dst := 9 }, o, 0, false, false, false⟩] })] } }
theorem witness_PacketsThatGoOn_answers : ∀ o ∈ [Origin.wickLoad 4095 3 8 56 false false, .wickVLoad 4095 3, .wickAmo 4095 3 8],
    let s := answering o
    (s.wick 4095).wait = .response ∧ (txStream s 9).waiting = [] ∧
    ((txStream s 9).pkts.find? (fun u => u.pkt.seq == 0 && u.pkt.opc.toNat == 0)).isSome = true ∧ jobOf s o = none := by decide +kernel
/-- A READ_RSP of the line fills the load's register: its last 8 bytes, at offset 56 (05 R130). -/
theorem test_read_rsp : rdS ((after (exec (.readRsp 3 { aPacket 5 0 (zeros 56 ++ leBytes 8 0x1122334455667788) with cls := 1 })
    (answering (.wickLoad 4095 3 8 56 false false)))).wick 4095) 3 = 0x1122334455667788 := by decide +kernel
theorem witness_PacketsThatGoOn_snoops : let s := { linked with dir := { linked.dir with lineBuf := [(1023, 7)] } }
    s.dir.lineBuf.find? (fun e => decide (e.1 = 1023)) = some (1023, 7) ∧ s.dir.waiting = [] ∧ s.dir.answers = [] ∧
    isHostAgent (after (exec (.registerWrite .pf (rk pHOST 0x108) 8 0x10000) State.reset)) 0 = true := by decide +kernel

/-- A control message of agent 9. -/
def aMsg (ctype : BitVec 4) (body : BitVec 192) : CtlMsg :=
  { ctype := ctype, tag := 0, dst := 0, src := 9, part := 0, epoch := 0, cseq := 0, rsvd := false, body := body }
/-- CNT_ADD to the last hub counter, and SEM_OPs 0 to 5 on the last semaphore. -/
theorem witness_SyncMessages : ∀ m ∈ [aMsg 4 (131071 + 2 ^ 32), aMsg 5 32767, aMsg 5 (32767 + 2 ^ 32), aMsg 5 (32767 + 2 * 2 ^ 32),
      aMsg 5 (32767 + 3 * 2 ^ 32), aMsg 5 (32767 + 4 * 2 ^ 32), aMsg 5 (32767 + 5 * 2 ^ 32)],
    ∃ w, CtlTaken linked 3 m w ∧ counterOwner w 131071 = m.part ∧ semOwner w 32767 = m.part ∧ w.sync.held = [] := by
  intro m h
  simp only [List.mem_cons, List.mem_nil_iff, or_false] at h
  rcases h with rfl | rfl | rfl | rfl | rfl | rfl | rfl <;>
    exact ⟨_, ⟨by decide +kernel, by decide +kernel, by decide +kernel, by decide +kernel, by decide +kernel, by decide +kernel, rfl⟩,
      by decide +kernel, by decide +kernel, by decide +kernel⟩
theorem test_signal : semGet (after (exec (.signal 3 (aMsg 5 (32767 + 2 ^ 32 + 5 * 2 ^ 64))) linked)) 32767 = 5 := by decide +kernel
theorem test_try_dec : semGet (after (exec (.tryDec 3 (aMsg 5 (32767 + 3 * 2 ^ 32 + 5 * 2 ^ 64)))
    { linked with sync := { Sync.reset with sems := [(32767, 4)] } })) 32767 = 4 := by decide +kernel
/-- A wick's SEMOP waits for its SEM_RSP; its CNT_ADD for its CSACK; a WAIT_DEC waits at the last semaphore. -/
theorem witness_SyncMessages_answers : let s := { (linked.setWick 4095 (fun k => { k with wait := .semaphore 7 })) with
      xbar := { linked.xbar with tx := [(9, { TxStream.fresh with ctls := [⟨{ aMsg 5 7 with src := 0, dst := 9 }, .wickSem 4095 3 2 true, 0, false⟩,
        ⟨{ aMsg 4 7 with src := 0, dst := 9, cseq := 1 }, .wickCadd 4095 0, 0, false⟩] })] }
      sync := { Sync.reset with held := [⟨32767, 9, 0, some (aMsg 5 32767), none⟩] } }
    ((txStream s 9).ctls.find? (fun u => u.msg.cseq == 0 && u.msg.ctype == 5)).map (·.origin) = some (.wickSem 4095 3 2 true) ∧
    ((txStream s 9).ctls.find? (fun u => u.msg.cseq == 1 && u.msg.ctype == 4)).map (·.origin) = some (.wickCadd 4095 0) ∧
    (s.wick 4095).wait = .semaphore 7 ∧ s.sync.held.map (fun h => (h.sem, h.peer.isSome)) = [(32767, true)] := by decide +kernel

/-- A change of routes at each stage. -/
def changing (st : BitVec 2) : State := { State.reset with xbar := { Xbar.reset with
  epochCur := 255, otherState := st, otherFrozen := true, epochOther := (if st = 1 then 0 else 254), prepared := true, drained := true } }
theorem witness_RouteEpochs : let s := changing 1
    State.reset.xbar.otherState = 0 ∧ (1 : Byte) = State.reset.xbar.epochCur + 1 ∧ inReset State.reset pXBAR = false ∧
    s.xbar.otherState = 1 ∧ s.xbar.prepared = true ∧ (0 : Byte) = s.xbar.epochOther ∧ (changing 2).xbar.otherState = 2 ∧
    (changing 2).xbar.drained = true ∧ (254 : Byte) = (changing 2).xbar.epochOther ∧
    (regGet (after (exec (.registerWrite .pf (rk pXBAR 0x120) 8 0x103FF) State.reset)) (rkBank pXBAR 0x120 0)).toNat.testBit 16 = true := by
  decide +kernel
/-- COMMIT of epoch 0 after epoch 255 makes it current (05 R138). -/
theorem test_commit : let t := after (exec (.commit .pf 0 [9]) (changing 1))
    t.xbar.epochCur = 0 ∧ t.xbar.epochOther = 255 ∧ t.xbar.otherState = 2 := by decide +kernel

/-! ### Ports, lanes, keys, transfers -/

/-- Port 9 is enabled, its lanes in one state, its control lane 2 idle. -/
def lanes (st : BitVec 3) : State :=
  let p := { Port.down with state := 3, lanes := List.replicate 5 { Lane.off with state := st, lock := true, signal := true, failed := 2 },
                            ctlLane := 1, rxUse := 15, txUse := 15, rxMap := 15, txMap := 15, creditDue := true, met := true }
  { State.reset with regs := [(rk (pLNT 9) 0x10, 3)], lantern := { Lantern.reset with ports := [(9, p)], litB := 31 } }
theorem witness_CreditsMarksCodewords : let s := lanes 4
    portLive s 9 = true ∧ (s.port 9).creditDue = true ∧ laneUsable s 9 = true ∧ (portLane (s.port 9) 4).state.toNat ∈ [2, 3, 4] ∧
    dataOfLane 4 = some 3 ∧ (s.port 9).rxUse.getLsbD 3 = true ∧ (4 * 4 : BitVec 20).extractLsb' 0 2 = 0 ∧
    ((4 * 4 : BitVec 20).extractLsb' 2 3).toNat = 4 ∧ (4 * 4 : BitVec 20).getLsbD 11 = false := by decide +kernel
theorem test_codeword_counts : ((after (exec (.codewordReceive 9 4 (.good (16 + 2 ^ 12 * 77) 15 (List.replicate 12 3))) (lanes 4))).port 9).cwSeqRx = 77 := by
  decide +kernel
/-- With 16 corrected symbols the codeword is discarded: 04 R99 corrects at most 15. -/
theorem test_codeword_bad : ((after (exec (.codewordReceive 9 4 (.good (16 + 2 ^ 12 * 77) 16 (List.replicate 12 3))) (lanes 4))).port 9).framingLost = true := by
  decide +kernel
/-- Lanes that train, that are ACTIVE, DISABLED and FAILED; light lost with the other input lit, and dark. -/
theorem witness_PortsLanesLight : attempting (lanes lnTune) 9 4 = true ∧ ((lanes lnTune).port 9).met = true ∧ 2 ≤ (portLane ((lanes lnTune).port 9) 4).failed ∧
    (portLane ((lanes lnActive).port 9) 4).state = lnActive ∧ (portLane ((lanes lnFailed).port 9) 4).state = lnFailed ∧
    (portLane ((lanes lnDisabled).port 9) 4).state = lnDisabled ∧ ((lanes lnActive).port 9).lanes.length = 5 ∧ portOn (lanes lnActive) 9 = true ∧
    portOn State.reset 9 = false ∧ State.reset.lantern.dark = false ∧ otherLit (lanes lnActive) = true ∧ otherLit State.reset = false ∧
    laneActive ((lanes lnActive).port 9) 2 = true ∧ (failoverLane ((lanes lnActive).port 9)).isSome = true := by decide +kernel
/-- A wrapped pair waits in the staging registers; slot 4,095 is VALID, and then BUSY. -/
theorem witness_KeySlots : let s := { State.reset with regs := [(rkBank pKEY 0x100 0, 4095)], keys := [(4095, { KeySlot.empty with valid := true })] }
    let t := { s with keys := [(4095, { KeySlot.empty with valid := true, busy := true, clearing := true })] }
    (regGet s (rkBank pKEY 0x100 (srcBank .pf))).setWidth 12 = (4095 : BitVec 12) ∧ (keySlot s 4095).valid = true ∧
    (keySlot s 4095).busy = false ∧ (keySlot t 4095).busy = true ∧ (keySlot s 4094).valid = false ∧ inReset s pKEY = false := by decide +kernel
/-- A tile transfer and an MVX transfer of mover 0 of sconce 63. -/
def aXfer (raw : Bool) : Xfer :=
  { id := 7, eng := .mover 63 0, wick := some 4095, handle := none, stream := none, queue := none, desc := if raw then 8 else 0,
    raw := raw, ctx := 5, part := 0, srcPages := [], dstPages := [], late := false, shadow := false, lateBlocks := [], params := 64,
    srcScratch := 0, dstAddr := BitVec.ofNat 64 (4095 * 131072 + 131008), open_ := 0, bad := 0, moved := false }
theorem witness_TransfersAndRetraining : ∀ raw ∈ [false, true], let s := State.reset.setWork (fun k => { k with xfers := [aXfer raw] })
    findXfer s 7 = some (aXfer raw) ∧ frozen s = false ∧ isTurn s (aXfer raw) = true ∧ (s.sconce 63).resetting = false ∧
    scratchBad s 4095 0 64 = false := by decide +kernel
theorem witness_Retraining : let u := { Training.ready with state := 2, fails := 2 }
    let s := State.reset.setPower (fun p => { p with stack := [(7, { u with state := 1 }), (6, u)], cap := [(23, u)] })
    (stackTraining State.reset 7).state = 0 ∧ (stackTraining s 7).state = 1 ∧ dieIdle s 7 = true ∧ (stackTraining s 6).state = 2 ∧
    (capTraining s 23).state = 2 ∧ 2 ≤ (capTraining s 23).fails ∧ computeReset s ≠ some true ∧ (capTraining State.reset 20).state = 0 ∧
    (∀ i < 4, (capTraining s (4 * (23 / 4) + i)).state = 2 ↔ i = 3) := by decide +kernel

/-! ### The host, errors, the Lamplighter -/

/-- The link is up in CXL.mem; decoder 0 maps 1 GiB at 4 GiB to context 5's view. -/
def hosted : State :=
  let h := { HostLink.reset with linkStat := 0x1400, vfEnable := true, deadTimer := true, bisnp := [(5, true, aPacket 8 0 [])],
                                 windows := [(0, ⟨5, false, true, 4 * 2 ^ 30, 2 ^ 30, 0⟩)] }
  { linked with host := h, work := { linked.work with agentPart := [(0, 1)] } }
theorem witness_HostLink : cxlOn hosted = true ∧ decoderOf hosted (5 * 2 ^ 30) = none ∧
    (decoderOf hosted (5 * 2 ^ 30 - 64)).map (·.ctx) = some 5 ∧ (ctxOf hosted 5).isSome = true ∧
    agentMay hosted (hostAgent hosted) 0 = true ∧ partResetting hosted 0 = false ∧
    endsOk (translate { eng := .work, part := 0, ctx := 5 } .l2 .write 65472) hosted = true ∧
    ((hosted.host.bisnp.take 1024).find? (fun b => decide (b.1 = 5))).isSome = true ∧ hosted.host.dead = false ∧
    hosted.dir.entries = [] ∧ hosted.dir.waiting = [] ∧ hosted.dir.answers = [] ∧ hosted.dir.sweep = none ∧ hosted.dir.txns = [] ∧
    functionOn hosted 63 = true ∧ hosted.host.stopped = false ∧ hosted.host.notFront = false ∧ hosted.power.perstN = true ∧
    (tget Window.off hosted.host.windows 15).committed = false := by decide +kernel
theorem witness_HostLink_more : let s := { hosted with
      lamp := { Lamp.reset with booting := false }
      host := { hosted.host with cfgSpace := [(cfgKey 63 0x10, 7)], ide := [(8, 1)] } }
    dlActive s = true ∧ s.lamp.booting = false ∧ (tfind s.host.cfgSpace (cfgKey 63 0x10)) = some 7 ∧ (tfind s.host.ide 8).isSome = true ∧
    (slotFor ((hosted.setComp 1 (fun x => { x with state := 1, accels := [⟨9, some 63, 0⟩] }))) .pf 63).isSome = true ∧
    reservoirBad s (0x8000000 - 8) 8 = false := by decide +kernel
/-- A poisoned MemWr stores nothing and is answered (13 R363). -/
theorem test_memwr_poison : let t := after (exec (.memwr (4 * 2 ^ 30) 0 (BitVec.allOnes 64) (ones 64) true) hosted)
    Out.memCmp (4 * 2 ^ 30) ∈ t.out ∧ t.store = hosted.store := by decide +kernel

/-- A record waits in an island; partition 63's export is on, with the ring's last SEQ before it wraps to come. -/
def erring : State :=
  let r : Record := { (recordOf State.reset pXBAR 0 { status := stPerm, part := some 63 }) with seq := 0xFFFFFFFF }
  { State.reset with
    errs := { Errs.reset with queues := [(3, [(r, some pXBAR)])], ring := [(262143, r)], seq := 0,
                              exports := [(63, { Export.off with ring := 0x10000, cfg := 0x80000000000000, next := 0xFFFFFFFF })] }
    lamp := { Lamp.reset with bootStep := 10, booting := false } }
theorem witness_ErrorsAndResets : (tget [] erring.errs.queues 3).length = 1 ∧ lampServes erring = true ∧ (exportOf erring 63).enabled = true ∧
    frozen erring = false ∧ (erring.errs.seq - (exportOf erring 63).next).toNat ≤ 262144 ∧ (nextRecord erring 63).isSome = true ∧
    (exportOf erring 63).ring.getLsbD 63 = false ∧ erring.lamp.gaveUp = false ∧ mayReset erring (.vf 63) 3 63 = true ∧
    mayReset erring (.vf 63) 3 62 = false ∧ mayReset erring (.vf 63) 2 0 = false ∧ mayReset erring .pf 4 0 = true ∧ erring.lamp.dump = none := by
  decide +kernel
theorem witness_ErrorsAndResets_restart : let s := { erring with lamp := { erring.lamp with hangs := 2 } }
    let r : Running := ⟨2, 95, false, false, false⟩
    let t := { erring with lamp := { erring.lamp with restarting := true, running := [r] } }
    3 ≤ s.lamp.hangs + 1 ∧ t.lamp.restarting = true ∧ t.lamp.heldWrites = [] ∧ scopeHolds t r 2 95 = true ∧ scopeHolds t r 2 94 = false ∧
    t.lamp.running.find? (fun y => y.level == r.level && y.target == r.target && !y.taken) = some r := by decide +kernel
/-- A record that leaves its island is the next of the ring; the third hang gives up (15 R413, R418). -/
theorem test_record_written : (tfind (after (exec (.errorRecordWrite 3) erring)).errs.ring 0).map (·.seq) = some 0 ∧
    (after (exec (.errorRecordWrite 3) erring)).errs.seq = 1 := by decide +kernel
theorem test_watchdog : (after (exec (.watchdogHang true) { erring with lamp := { erring.lamp with hangs := 2 } })).lamp.gaveUp = true ∧
    (after (exec (.watchdogHang false) { erring with lamp := { erring.lamp with hangs := 2 } })).lamp.restarting = true := by decide +kernel

/-- What the cold boot finds when all is well. -/
def goodScan : BootScan :=
  { slotAOk := true, slotBOk := false, blobOk := true, capOk := true, flashBad := 0, badDies := 0, screenFail := [], flashFree := 0,
    flashWear := 0, durationMs := 0 }
/-- A user-calibration copy of no entries, with its CRC (16 R459). -/
def aCopy : List Byte :=
  let h := leBytes 4 0x4C414355 ++ leBytes 2 1 ++ zeros 10
  h ++ leBytes 4 (crc32c (h ++ zeros 48)) ++ zeros 44
theorem witness_BootCalibrationEmber : bootDue State.reset = true ∧ State.reset.lamp.minVer ≤ State.reset.lamp.slotAVer ∧ goodScan.slotAOk = true ∧
    mainUp erring = true ∧ inReset erring pLMP = false ∧ (erring.lamp.gaveUp || erring.lamp.restarting) = false ∧
    (0x100000000 : W64).getLsbD 32 = true ∧
    (match readCopy { erring with reservoir := cellWrite [] 0 aCopy } 0 with | .ok es => decide (es = []) | .error _ => false) = true ∧
    (match readCopy erring 0 with | .ok _ => false | .error st => decide (st = stFormat)) = true ∧ (96 + 256 * 32 : W64).toNat % 256 ≤ 96 := by
  decide +kernel
theorem witness_BootCalibrationEmber_ready : let s := { State.reset with lamp := { Lamp.reset with bootStep := 9 } }
    mainUp s = true ∧ s.lamp.booting = true ∧ s.lamp.halted = false ∧ s.lamp.bootStep = 9 := by decide +kernel
/-- EMBER_READ of the newest slot's last 4 KiB to host memory. -/
theorem witness_BootCalibrationEmber_read : let e := entry [(0, 14), (95, 1), (192, 3 * 2 ^ 60), (256, 2 ^ 20 - 1), (288, 1)]
    let s0 := { mapped with lamp := { mapped.lamp with emberA := { Ember.empty with valid := true } } }
    let s := queued e s0
    let c := (begun s e .work).1
    startable s e [(128, 8), (192, 64), (256, 32), (288, 32)] .work = true ∧ (emberSlot s false).valid = true ∧
    fld e 32 4 + fld e 36 4 = 2 ^ 20 ∧ c.ctx = 5 ∧ bits (fld e 24 8) 60 4 = 3 := by decide +kernel
/-- A cold boot with no firmware image stops (16 R444). -/
theorem test_boot_halts : (after (exec (.coldBoot { goodScan with slotAOk := false }) State.reset)).lamp.halted = true := by decide +kernel

/-! ### The monitor, power, the whole machine -/

/-- The monitor serves; the serial session is at level 1, with a challenge that was answered wrongly once. -/
def monitored : State :=
  { erring with
    mon := { Mon.reset with
      sessions := [(0, { Session.closed with level := 1, nonce := some 7, want := 1, parts := (List.range 7).map (fun i => (i, 0)), fails := 1 }),
                   (8, { Session.closed with open_ := true, mac := 9, lastSeq := some 5 })],
      newKey := some (zeros 512) } }
theorem witness_Monitor : monServes monitored = true ∧ MonSess.ok (.eth 1 3) = true ∧ sessionKey (.eth 1 3) = 8 ∧
    (session monitored 8).open_ = true ∧ levelOf (.wr 0x2000 1) ≤ (session monitored 0).level.toNat ∧
    (session monitored 8).level.toNat < levelOf (.wr 0x2000 1) ∧ findSlot monitored 1 (fun z => z.open_ && z.mac == 9) = some 3 ∧
    (session monitored 8).lastSeq = some 5 ∧ (session monitored 0).nonce = some 7 ∧ (session monitored 0).fails < 2 ∧
    monitored.mon.newKey = some (zeros 512) ∧ monitored.mon.breakHeld = false ∧ inReset monitored pMON = false ∧
    (∀ i < 7, ∃ e ∈ (session monitored 0).parts, e.1 = i) ∧ emberReading monitored false = false ∧ monitored.lamp.halted = false := by
  decide +kernel
theorem witness_Monitor_full : let s := { monitored with mon := { monitored.mon with
      sessions := (List.range 4).map (fun i => (5 + i, { Session.closed with open_ := true })) } }
    findSlot s 1 (fun z => z.open_ && z.mac == 9) = none ∧ findSlot s 1 (fun z => !z.open_) = none := by decide +kernel
/-- A WR of a level-0 session is refused with PERM_FAULT (18 R507). -/
theorem test_monitor_level : (after (exec (.wr (.eth 1 3) 0x2000 1) monitored)).out.getLast? = some (.frame 4 1 (some 9) 5 [.num stPerm.toNat]) := by
  decide +kernel
/-- LOCK lowers the level of its session (18 R507). -/
theorem test_lock : (session (after (exec (.lock .serial) monitored)) 0).level = 0 := by decide +kernel
/-- A held reset, a trip, a waiting power-up. -/
theorem witness_PowerAndPins : let p := State.reset.power
    let due := { State.reset with power := { p with mainOn := false, powerDue := true } }
    let held := { State.reset with power := { p with sysResetN := false, perstN := false, pwrEn := false, alert := 0x8000 } }
    p.feed = true ∧ p.mainOn = true ∧ p.cycling = false ∧ p.tripped = false ∧ p.sysResetN = true ∧ State.reset.lamp.dump = none ∧
    due.power.offWait = false ∧ due.power.pwrEn = true ∧ held.power.sysResetN = false ∧ held.power.heldNow.getLsbD 1 = false ∧
    held.power.alert.getLsbD 15 = true ∧ (∀ c < 15, held.power.alert.getLsbD c = false) ∧ coolantOn State.reset = true ∧
    inReset State.reset pPWR = false := by decide +kernel
theorem witness_PowerAndPins_sensor : let z := { Sensor.fresh with overCount := 2 }
    let s := State.reset.setPower (fun p => { p with sensors := [(65, z)] })
    tget Sensor.fresh s.power.sensors 65 = z ∧ stopLimitOf s 65 < (801 : Int) ∧ ((801 : W16).toInt + (tget 0 s.power.tempOffset 65).toInt) = 801 ∧
    (800 : Int) ≤ stopLimitOf s 65 := by decide +kernel
/-- The third sample above the hub's limit of 105.0 stops the module (17 R490). -/
theorem test_fatal_sample : let s := State.reset.setPower (fun p => { p with sensors := [(64, { Sensor.fresh with overCount := 2 })] })
    (after (exec (.sensorSample 64 1681) s)).lamp.fatal = true ∧ (after (exec (.sensorSample 64 1680) s)).lamp.fatal = false := by decide +kernel
theorem witness_CommandsComplete : (Instr.fence 262143 0).wellFormed = true ∧ (Instr.fence 262144 0).wellFormed = false := by decide +kernel
theorem witness_StepKeeps : Canonical State.reset ∧ Runs (step State.reset) :=
  ⟨by unfold Canonical; decide +kernel, ⟨_, rfl⟩⟩
/-- A command at the front of the queue leaves it; an empty queue lets a tick pass (log entry 3). -/
theorem test_step : (after (step { State.reset with pending := [.beacon, .alertRepeat] })).pending.length = 1 ∧
    (after (step State.reset)).pending = [] := by decide +kernel

end Sys2Proof.Tests
end

section
/-! SUPPORT. Registers: where a page's registers lie, what they hold right after reset, and who reaches them (17 R470 to
R475). -/
namespace Sys2Proof.Proofs
open Sys2Proof Machine Safety Laws

/-- The 4 KiB frame of BAR0 in which a page lies (17 R470). -/
theorem rk_div {p rel : Nat} (hr : rel < 4096) : rk p rel / 0x1000 =
    if p < 26 then p else if p < 34 then p + 6 else if p < 58 then p + 14 else if p < 90 then p + 22 else p + 38 := by
  simp only [rk, pageBase]; split_ifs <;> omega

theorem pageOf_rk {p rel : Nat} (hp : p < 154) (hr : rel < 4096) : pageOf (rk p rel) = some p := by
  have hn := rk_div (p := p) hr
  simp only [pageOf]
  generalize rk p rel / 0x1000 = n at hn
  split_ifs at hn
  · rcases Nat.lt_or_ge n 16 with h | h
    · rw [if_pos h, hn]
    · rw [if_neg (by omega), if_pos (by omega)]; exact congrArg some (by omega)
  · rw [if_neg (by omega), if_neg (by omega), if_pos (by omega)]; exact congrArg some (by omega)
  · rw [if_neg (by omega), if_neg (by omega), if_neg (by omega), if_pos (by omega)]; exact congrArg some (by omega)
  · rw [if_neg (by omega), if_neg (by omega), if_neg (by omega), if_neg (by omega), if_pos (by omega)]
    exact congrArg some (by omega)
  · rw [if_neg (by omega), if_neg (by omega), if_neg (by omega), if_neg (by omega), if_neg (by omega), if_pos (by omega)]
    exact congrArg some (by omega)

theorem rk_sub_pageBase (p rel : Nat) : rk p rel - pageBase p = rel := Nat.add_sub_cancel_left ..

theorem rk_lt {p rel : Nat} (hp : p < 154) (hr : rel < 4096) : rk p rel < 2 ^ 26 := by
  unfold rk pageBase; split_ifs <;> omega

theorem regReset_rk {p rel : Nat} {d : RegDesc} (hp : p < 154) (hr : rel < 4096) (hd : regDesc p rel = some d) :
    regReset (rk p rel) = BitVec.ofNat 64 d.reset := by
  simp only [regReset, Nat.mod_eq_of_lt (rk_lt hp hr), pageOf_rk hp hr, rk_sub_pageBase, hd]

/-- A counter leaves every other register as it was. -/
theorem regGet_bump {s : State} {k j : Nat} (width n : Nat) (h : j ≠ k) : regGet (bump s k width n) j = regGet s j := by
  simp only [bump, draw]
  split
  · exact (regGet_setReg ..).trans (if_neg h)
  · exact (regGet_setReg ..).trans (if_neg h)

/-- The physical function's write of a page's register takes effect. -/
theorem pfOnly_byPf {s : State} {src : RegSrc} {page rel : Nat} (f : State → State) (hp : page < 154) (hr : rel < 4096)
    (h : ByPf s src page) : pfOnly s src (rk page rel) f = f s := by
  obtain ⟨-, hsrc, hup, hreset⟩ := h
  cases src with
  | vf v => exact absurd rfl (hsrc v)
  | pf => simp [pfOnly, hup, pageOf_rk hp hr, hreset]
  | lmp b => simp [pfOnly, hup, pageOf_rk hp hr, hreset]

end Sys2Proof.Proofs
end

section
/-! PROOFS. The state right after reset (02 R66; 17 R475, R477). -/
namespace Sys2Proof.Proofs
open Sys2Proof Machine Safety Laws

/-- Every byte memory is empty right after reset. -/
theorem memories_reset : ∀ m ∈ memories State.reset, m = [] := by decide

theorem qEnabled_off : qEnabled Queue.off = false := by decide

/-- Settles O60: a register that was never written reads its reset value, and every memory is empty. -/
theorem resetState : Obligations.ResetState := by
  unfold Obligations.ResetState
  exact ⟨fun m hm => by rw [memories_reset m hm]; exact wf_nil, fun m hm a => by rw [memories_reset m hm]; rfl, rfl,
    fun p rel d hd hp hr => regReset_rk hp hr hd, by decide, fun w => ⟨rfl, rfl⟩, fun h => rfl,
    fun q => qEnabled_off, rfl⟩

end Sys2Proof.Proofs
end

section
/-! SUPPORT. What recording a failure or an event leaves unchanged (15 R409 to R413; 17 R477, R478). -/
namespace Sys2Proof.Proofs
open Sys2Proof Machine Safety Laws

/-! ### What recording a failure or an event may change -/

/-- Nothing but the registers, the error queues, the output and the count of free values has changed. -/
def LogsOnly (s t : State) : Prop := t = { s with regs := t.regs, errs := t.errs, out := t.out, free := t.free }

namespace LogsOnly
variable {s t u : State}

theorem refl (s : State) : LogsOnly s s := rfl

theorem trans (h : LogsOnly s t) (h' : LogsOnly t u) : LogsOnly s u := by
  unfold LogsOnly at *; rw [h', h]

theorem store (h : LogsOnly s t) : t.store = s.store := by rw [h]
theorem power (h : LogsOnly s t) : t.power = s.power := by rw [h]
theorem lamp (h : LogsOnly s t) : t.lamp = s.lamp := by rw [h]
theorem work (h : LogsOnly s t) : t.work = s.work := by rw [h]
theorem scratch (h : LogsOnly s t) : t.scratch = s.scratch := by rw [h]
theorem wicks (h : LogsOnly s t) : t.wicks = s.wicks := by rw [h]

theorem wick (h : LogsOnly s t) (w : Nat) : t.wick w = s.wick w := by
  simp only [State.wick, h.wicks]

theorem blockGet (h : LogsOnly s t) (b : Nat) : blockGet t b = blockGet s b := by
  simp only [Machine.blockGet, h.store]

theorem stackTraining (h : LogsOnly s t) (d : Nat) : stackTraining t d = stackTraining s d := by
  simp only [Machine.stackTraining, h.power]

theorem capTraining (h : LogsOnly s t) (c : Nat) : capTraining t c = capTraining s c := by
  simp only [Machine.capTraining, h.power]

theorem computeReset (h : LogsOnly s t) : computeReset t = computeReset s := by
  simp only [Machine.computeReset, h.lamp]

end LogsOnly

theorem setReg_logsOnly (s : State) (k : Nat) (v : W64) : LogsOnly s (s.setReg k v) := rfl

theorem bumpSat_logsOnly (s : State) (k width n : Nat) : LogsOnly s (bumpSat s k width n) := rfl

theorem bump_logsOnly (s : State) (k width n : Nat) : LogsOnly s (bump s k width n) := by
  simp only [bump, draw]; split <;> rfl

theorem withVectors_logsOnly (p : Nat) (f : State → State) (s : State) (h : LogsOnly s (f s)) :
    LogsOnly s (withVectors p f s) := by
  refine h.trans ?_
  simp only [withVectors]
  split <;> split <;> rfl

theorem logEvt_logsOnly (s : State) (p b : Nat) : LogsOnly s (logEvt s p b) := withVectors_logsOnly p _ s rfl

theorem pushRecord_logsOnly (s : State) (r : Record) (c : Option Nat) : LogsOnly s (pushRecord s r c).2 := by
  simp only [pushRecord, apply_ite Prod.snd]
  split
  · rfl
  · exact LogsOnly.trans (t := s.setErrs _) rfl (bump_logsOnly ..)

theorem logRecord_logsOnly (s : State) (p : Nat) (f : Fail) : LogsOnly s (logRecord s p f) :=
  LogsOnly.trans (t := { s with free := s.free + 1 }) rfl (pushRecord_logsOnly ..)

theorem logErr_logsOnly (s : State) (p b : Nat) (f : Fail) : LogsOnly s (logErr s p b f) := by
  simp only [logErr]
  refine LogsOnly.trans (t := { s with free := s.free + 1 }) rfl ((pushRecord_logsOnly _ _ _).trans
    (withVectors_logsOnly p _ _ ?_))
  have hbits := fun (u : State) (v : W64) => (setReg_logsOnly u (rk p 0x20) v).trans (bumpSat_logsOnly _ (rk p 0x40) 32 1)
  split
  · exact (hbits _ _).trans ((setReg_logsOnly _ _ _).trans (setReg_logsOnly _ _ _))
  · exact hbits _ _

end Sys2Proof.Proofs
end

section
/-! SUPPORT. The block map, requests for moves and shadows: one rule per operation of the placement engine (02 R39 to
R57). -/
namespace Sys2Proof.Proofs
open Sys2Proof Machine Safety Laws

/-! ### The block map -/

theorem tierOf_le_two (l : Loc) : tierOf l ≤ 2 := by cases l <;> simp [tierOf]

@[simp] theorem blockGet_blockSet (s : State) (b x : Nat) (f : Block → Block) :
    blockGet (blockSet s b f) x = if x = b then f (blockGet s b) else blockGet s x := by
  simp only [blockGet, blockSet, setStore_store, tfind_tput]
  split <;> rfl

@[simp] theorem blockGet_placeSet (s : State) (l : Loc) (v : Option Nat) (b : Nat) :
    blockGet (placeSet s l v) b = blockGet s b := by cases l <;> rfl

@[simp] theorem placeSet_cells (s : State) (l : Loc) (v : Option Nat) : (placeSet s l v).store.cells = s.store.cells := by
  cases l <;> rfl

/-- A stacked place that a move has left holds no block. -/
theorem occupant_placeSet_stacked (s : State) (w i : Nat) :
    occupant (placeSet s (.stacked w i) none) (.stacked w i) = none := by
  simp [occupant, stackedAt, placeSet, tfind_tput]

/-! ### Requests for moves -/

/-- Without a residency quota a partition never stands at one. -/
theorem atQuota_of_no_quota {s : State} {p : BitVec 6} {tier : Nat} (h : residencyQuota s p tier = 0) :
    atQuota s p tier = false := by simp [atQuota, h]

section
variable {s : State} {b tier rank : Nat} {wick : Option Nat} {why : MoveWhy}

theorem startMove_flash (hm : s.store.moves.length < 4096) :
    startMove s b 2 wick rank why = (none, addMove s (newMove s b (.flash none) wick rank why)) := by
  have ht : ¬ 2 < tierOf (blockGet s b).loc := Nat.not_lt.mpr (tierOf_le_two _)
  simp [startMove, Nat.not_le.mpr hm, ht]

/-- A move starts toward the place that its tier offers, when no quota keeps it from there. -/
theorem startMove_of_room {l : Loc} (hm : s.store.moves.length < 4096) (ht : tier ≠ 2)
    (hq : residencyQuota s (blockPart s b) tier = 0)
    (hl : (if tier = 0 then roomInStacked s b (counterOf s b) rank why wick false
      else roomInCapacity s b (counterOf s b) rank why false) = (some l, s)) :
    startMove s b tier wick rank why = (none, addMove s (newMove s b l wick rank why)) := by
  simp only [startMove, if_neg (Nat.not_le.mpr hm), atQuota_of_no_quota hq, Bool.and_false, Bool.false_and,
    Bool.false_eq_true, if_false, if_neg ht, hl]
  rfl

/-- A block that is already where it is wanted needs no move. -/
theorem requestMove_there (hlost : (blockGet s b).lost = false) (hforf : (blockGet s b).forfeit = false)
    (hp : pendingMove s b = none) (ht : isThere (blockGet s b).loc tier wick = true) :
    requestMove s b tier wick rank why = (some stOK, s) := by
  simp [requestMove, hlost, hforf, hp, ht]

/-- An unpinned block with no move pending starts the one that is asked for. -/
theorem requestMove_starts (hlost : (blockGet s b).lost = false) (hforf : (blockGet s b).forfeit = false)
    (hpin : (blockGet s b).pins = 0) (hp : pendingMove s b = none)
    (ht : isThere (blockGet s b).loc tier wick = false) :
    requestMove s b tier wick rank why = startMove s b tier wick rank why := by
  simp [requestMove, hlost, hforf, hpin, hp, ht]

end

/-! ### Telling who asked for a move -/

/-- A move that failed changes what its advice commands know, and nothing else. -/
theorem tellAdvice_failed (s : State) (rank b q : Nat) (tag : W32) {st : Status} (h : st ≠ 0) :
    ∃ l, tellAdvice s rank b st q tag = s.setStore (fun z => { z with advice := l }) :=
  ⟨_, by rw [tellAdvice, if_neg (fun e => h e.1)]; rfl⟩

theorem tellMove_failed (s : State) (m : Move) {st : Status} (h : st ≠ 0) :
    ∃ l, tellMove s m st = s.setStore (fun z => { z with advice := l }) := by
  have fold : ∀ (js : List (Nat × W32)) (u : State), (∃ a, u = s.setStore (fun z => { z with advice := a })) →
      ∃ l, js.foldl (fun s e => tellAdvice s m.rank m.block st e.1 e.2) u =
        s.setStore (fun z => { z with advice := l }) := by
    intro js
    induction js with
    | nil => exact fun u hu => hu
    | cons e r ih =>
      rintro u ⟨a, rfl⟩
      obtain ⟨l, hl⟩ := tellAdvice_failed (s.setStore (fun z => { z with advice := a })) m.rank m.block e.1 e.2 h
      rw [List.foldl_cons, hl]
      exact ih _ ⟨l, rfl⟩
  cases hw : m.why with
  | advice q tag =>
    simp only [tellMove, hw]
    exact fold m.joined _ (tellAdvice_failed s m.rank m.block q tag h)
  | policy =>
    simp only [tellMove, hw]
    exact fold m.joined s ⟨s.store.advice, rfl⟩
  | demand =>
    simp only [tellMove, hw]
    exact fold m.joined s ⟨s.store.advice, rfl⟩

/-! ### Shadows -/

theorem blockGet_writeShadow (s : State) (b : Nat) : blockGet (writeShadow s b) b =
    { blockGet s b with shadow := (blockGet s b).shadow.map (fun h => { h with stale := false }) } := by
  simp only [writeShadow]
  split
  · next h => simp only [h, Option.map_none]; exact (congrArg (fun o => { blockGet s b with shadow := o }) h :)
  · next h => rw [blockGet_blockSet, if_pos rfl, h]; rfl

theorem writeShadow_cells (s : State) (b : Nat) : (writeShadow s b).store.cells = s.store.cells := by
  simp only [writeShadow]; split <;> rfl

theorem blockGet_staleShadow (s : State) (b : Nat) : blockGet (staleShadow s b) b =
    { blockGet s b with shadow := (blockGet s b).shadow.map (fun h => { h with stale := true }) } := by
  simp only [staleShadow]
  split
  · next h => simp only [h, Option.map_none]; exact (congrArg (fun o => { blockGet s b with shadow := o }) h :)
  · next h => rw [blockGet_blockSet, if_pos rfl, h]; rfl

theorem staleShadow_cells (s : State) (b : Nat) : (staleShadow s b).store.cells = s.store.cells := by
  simp only [staleShadow]; split <;> rfl

/-! ### Free flash -/

theorem setFlashFree_store (s : State) (n : Nat) :
    ∃ w, (setFlashFree s n).store = { s.store with flashFree := n, flashWait := w } := by
  simp only [setFlashFree]
  split
  · exact ⟨_, (logEvt_logsOnly ..).store⟩
  · split
    · exact ⟨_, rfl⟩
    · exact ⟨_, rfl⟩

theorem blockGet_setFlashFree (s : State) (n b : Nat) : blockGet (setFlashFree s n) b = blockGet s b := by
  obtain ⟨w, hw⟩ := setFlashFree_store s n
  simp only [blockGet, hw]; rfl

end Sys2Proof.Proofs
end

section
/-! PROOFS. The placement engine and the flash manager (02 R39 to R49, R55 to R58). -/
namespace Sys2Proof.Proofs
open Sys2Proof Machine Safety Laws

/-! ### The engine's events -/

theorem pendingMove_block {s : State} {b : Nat} {m : Move} (h : pendingMove s b = some m) : m.block = b := by
  simpa using List.find?_some h

/-- The counter policy's candidate, as its move is requested: it lies below the stacked tier, and nothing about it keeps
the move from starting. -/
theorem isCandidate_block {s : State} {b : Nat} (h : isCandidate s b = true) :
    (blockGet s b).lost = false ∧ (blockGet s b).forfeit = false ∧ (blockGet s b).pins = 0 ∧
      tierOf (blockGet s b).loc ≠ 0 := by
  simp only [isCandidate, Bool.and_eq_true, Bool.not_eq_true', beq_iff_eq, bne_iff_ne] at h
  tauto

theorem isThere_pred {l : Loc} (h : tierOf l ≠ 0) (wick : Option Nat) : isThere l (tierOf l - 1) wick = false := by
  have : tierOf l ≠ tierOf l - 1 := by omega
  simp [isThere, this]

theorem execPolicyMove_next {s : State} {b : Nat} {l : Loc} (hshare : migShare s ≠ 0) (hc : isCandidate s b = true)
    (hp : pendingMove s b = none) (hr : computeReset s = none) (hm : s.store.moves.length < 4096)
    (hq : residencyQuota s (blockPart s b) (tierOf (blockGet s b).loc - 1) = 0)
    (hstk : tierOf (blockGet s b).loc = 1 → freeStacked s b = some l)
    (hcap : tierOf (blockGet s b).loc ≠ 1 → freeCapacity s = some l) :
    execPolicyMove b s = .next (addMove s ⟨b, l, none, 3, .policy, [], false, (blockGet s b).loc⟩) := by
  obtain ⟨hlost, hforf, hpin, ht⟩ := isCandidate_block hc
  have hle := tierOf_le_two (blockGet s b).loc
  have hroom : (if tierOf (blockGet s b).loc - 1 = 0 then roomInStacked s b (counterOf s b) 3 .policy none false
      else roomInCapacity s b (counterOf s b) 3 .policy false) = (some l, s) := by
    by_cases h1 : tierOf (blockGet s b).loc = 1
    · simp [h1, roomInStacked, hstk h1]
    · rw [if_neg (by omega)]; simp [roomInCapacity, hcap h1]
  rw [execPolicyMove, if_neg (by simp [hshare, hc, hp, hr]), requestMove_starts hlost hforf hpin hp (isThere_pred ht none),
    startMove_of_room hm (by omega) hq hroom]
  rfl

/-- The page of the flash log that a move to flash takes. -/
theorem takeFlashPage_keeps (s : State) (n b : Nat) :
    let t := setFlashFree (s.setStore (fun z => { z with flashLog := z.flashLog + 4 })) n
    blockGet t b = blockGet s b ∧ t.store.cells = s.store.cells := by
  obtain ⟨w, hw⟩ := setFlashFree_store (s.setStore (fun z => { z with flashLog := z.flashLog + 4 })) n
  exact ⟨blockGet_setFlashFree .., by rw [hw]; rfl⟩

/-- A flipped block is in its destination, in a new page of the flash log if that is flash; its pins and every byte of
the home are as before. -/
theorem flipMove_block (s : State) (m : Move) :
    (blockGet (flipMove s m) m.block).loc = (if tierOf m.dst = 2 then .flash (some s.store.flashLog) else m.dst) ∧
    (blockGet (flipMove s m) m.block).pins = (blockGet s m.block).pins ∧
    (flipMove s m).store.cells = s.store.cells := by
  simp only [flipMove]
  generalize (if tierOf m.dst = 2 then Loc.flash (some s.store.flashLog) else m.dst) = dst
  generalize hu : (if tierOf m.dst = 2 then _ else s) = u
  have hkeep : blockGet u m.block = blockGet s m.block ∧ u.store.cells = s.store.cells := by
    rw [← hu]; split
    · exact takeFlashPage_keeps s _ _
    · exact ⟨rfl, rfl⟩
  generalize hv : State.setStore _ _ = v
  have hmap : blockGet v m.block = { blockGet s m.block with loc := dst } := by
    rw [← hkeep.1, ← hv]
    exact (blockGet_placeSet ..).trans ((blockGet_blockSet ..).trans (if_pos rfl))
  have hcells : v.store.cells = s.store.cells := by
    rw [← hkeep.2, ← hv]; exact (placeSet_cells ..).trans rfl
  split
  · rw [blockGet_writeShadow, writeShadow_cells, hmap]; exact ⟨rfl, rfl, hcells⟩
  · split
    · rw [blockGet_staleShadow, staleShadow_cells, hmap]; exact ⟨rfl, rfl, hcells⟩
    · rw [hmap]; exact ⟨rfl, rfl, hcells⟩

/-- A move that meets data it cannot correct leaves its block where it was, and the counter policy leaves it alone. -/
theorem stopMove_block (s : State) (m : Move) (line : Nat) :
    blockGet (stopMove s m line) m.block = { blockGet s m.block with noPolicy := true } := by
  simp only [stopMove]
  generalize hu : logErr s _ _ _ = u
  have hkeep : blockGet u m.block = blockGet s m.block := by rw [← hu]; exact (logErr_logsOnly ..).blockGet _
  obtain ⟨l, hl⟩ := tellMove_failed (dropMove (blockSet u m.block (fun e => { e with noPolicy := true })) m.block) m
    (st := stUncorr) (by decide)
  have hset := blockGet_blockSet u m.block m.block (fun e => { e with noPolicy := true })
  rw [if_pos rfl] at hset
  rw [hl, ← hkeep]
  exact hset

section
variable {s : State} {b : Nat} {m : Move} (hp : pendingMove s b = some m) (hf : m.flipped = false)
  (hd : dstFree s m.dst = true) (hh : moveHeld s m = false) (hr : computeReset s = none)
  (hshare : m.why = .policy → migShare s ≠ 0)
include hp hf hd hh hr hshare

/-- A move that nothing holds flips when its data is good. -/
theorem execMoveFlip_flips (hbad : blockBad s b = none) :
    execMoveFlip b s = .next (settle (retryDeferred (flipMove s m))) := by
  simp only [execMoveFlip, hp, hf, hd, hh, hr, hbad]
  rw [if_neg (by simpa using hshare)]

/-- One of the policy or of an advice command stops instead at data that it cannot correct. -/
theorem execMoveFlip_stops {l : Nat} (hbad : blockBad s b = some l) (hwhy : m.why ≠ .demand) :
    execMoveFlip b s = .next (settle (retryDeferred (rehome (stopMove s m l) m))) := by
  simp only [execMoveFlip, hp, hf, hd, hh, hr, hbad]
  rw [if_neg (by simpa using hshare), if_neg (fun h => hwhy h.1)]

end

theorem execShadowRewrite_next {s : State} {b : Nat} {h : Shadow} (hs : (blockGet s b).shadow = some h)
    (hstale : h.stale = true) (ht : tierOf (blockGet s b).loc ≠ 0) (hshare : migShare s ≠ 0) (hbad : blockBad s b = none)
    (hr : computeReset s = none) (hin : inHome s b = true) (hk : (keySlot s h.key).valid = true) :
    execShadowRewrite b s = .next (writeShadow s b) := by
  simp [execShadowRewrite, hs, hstale, ht, hshare, hbad, hr, hin, hk]

/-! ### The flash manager -/

theorem mem_setInsert (l : List Nat) (n x : Nat) : x ∈ setInsert l n ↔ x = n ∨ x ∈ l := by
  induction l with
  | nil => simp [setInsert]
  | cons a r ih =>
    rw [setInsert]
    split_ifs with h1 h2
    · simp
    · subst h2; simp
    · simp only [List.mem_cons, ih]; tauto

theorem mem_foldl_setInsert (ns l : List Nat) (x : Nat) : x ∈ ns.foldl setInsert l ↔ x ∈ l ∨ x ∈ ns := by
  induction ns generalizing l with
  | nil => simp
  | cons n r ih => simp only [List.foldl_cons, ih, mem_setInsert, List.mem_cons]; tauto

theorem execGarbageCollection_next (s : State) {channel : Nat} (pages freed retired : Nat) (h : channel < 32) :
    ∃ u, LogsOnly s u ∧ execGarbageCollection channel pages freed retired s =
      .next (settle (setFlashFree u (min (s.store.flashFree + freed) flashBlocks))) := by
  have hok : flashOk channel = true := by simpa [flashOk] using h
  have hb : LogsOnly s (bump s (rk (pFLC channel) 0x120) 48 pages) := bump_logsOnly ..
  by_cases hz : retired = 0
  · exact ⟨_, hb, by simp only [execGarbageCollection, onOk, hok, if_true, if_pos hz, hb.store]⟩
  · have hu := hb.trans ((bump_logsOnly _ (rk (pFLC channel) 0x128) 32 retired).trans
      ((bumpSat_logsOnly _ (rk (pFLC channel) 0x100) 16 retired).trans (logEvt_logsOnly _ (pFLC channel) 0)))
    exact ⟨_, hu, by simp only [execGarbageCollection, onOk, hok, if_true, if_neg hz, hu.store]⟩

theorem execFlashReadComplete_next {s : State} {b page pos : Nat} (corrected : Nat) (c r : Bool) (hp : page < 4)
    (hl : (blockGet s b).loc = .flash (some pos)) (hin : inHome s b = true) :
    execFlashReadComplete b page corrected c r s = .next (flashPageRead s b page corrected c r pos) := by
  simp [execFlashReadComplete, onOk, hp, hl, hin]

/-- A page that its code or its stripe corrects leaves the store as it was. -/
theorem flashPageRead_corrected (s : State) (b page corrected : Nat) {c r : Bool} (pos : Nat) (h : c = true ∨ r = true) :
    LogsOnly s (flashPageRead s b page corrected c r pos) := by
  simp only [flashPageRead]
  split
  · exact bump_logsOnly ..
  · next hc =>
    rw [if_pos (h.resolve_left hc)]
    exact (bump_logsOnly ..).trans ((bump_logsOnly ..).trans (bump_logsOnly ..))

/-- A page that neither corrects is lost to every later read: its 256 lines fail, and no other line does. -/
theorem flashPageRead_lost (s : State) (b page corrected pos l : Nat) :
    l ∈ (flashPageRead s b page corrected false false pos).store.badLines ↔
      l ∈ s.store.badLines ∨ 1024 * b + 256 * page ≤ l ∧ l < 1024 * b + 256 * page + 256 := by
  simp only [flashPageRead, Bool.false_eq_true, if_false, (logErr_logsOnly ..).store, setStore_store,
    (bump_logsOnly ..).store, mem_foldl_setInsert, List.mem_map, List.mem_range]
  refine or_congr_right ⟨?_, fun ⟨h1, h2⟩ => ⟨l - (1024 * b + 256 * page), by omega, by omega⟩⟩
  rintro ⟨i, hi, rfl⟩
  omega

/-- Settles O33: each event of the placement engine and of the flash manager by its own lemma above. -/
theorem placement : Obligations.Placement := by
  unfold Obligations.Placement
  intro s b
  refine ⟨?policy, ?flip, ?complete, occupant_placeSet_stacked s, ?shadow, ?collect, ?read⟩
  case policy =>
    intro hshare hc hp hr hm hq l hstk hcap
    exact execPolicyMove_next hshare hc hp hr hm hq hstk hcap
  case flip =>
    intro m hp hf hd hh hr hshare
    have hb := pendingMove_block hp
    constructor
    · intro hbad
      obtain ⟨hloc, hpins, hcells⟩ := flipMove_block s m
      rw [hb] at hloc hpins
      refine ⟨flipMove s m, execMoveFlip_flips hp hf hd hh hr hshare hbad, ?_, fun h2 => by rw [hloc, if_neg h2], hpins, hcells⟩
      rw [hloc]; split
      · next h2 => exact h2.symm
      · rfl
    · intro l hbad hwhy
      have hblock := stopMove_block s m l
      rw [hb] at hblock
      exact ⟨execMoveFlip_stops hp hf hd hh hr hshare hbad hwhy, by rw [hblock], by rw [hblock]⟩
  case complete =>
    intro m hp hf
    simp only [exec_moveComplete, execMoveComplete, hp, hf, if_true]
  case shadow =>
    intro h hs hstale ht hshare hbad hr hin hk
    exact ⟨_, execShadowRewrite_next hs hstale ht hshare hbad hr hin hk, by rw [blockGet_writeShadow, hs]; rfl,
      writeShadow_cells s b⟩
  case collect =>
    intro channel pages freed retired h
    obtain ⟨u, hu, hexec⟩ := execGarbageCollection_next s pages freed retired h
    obtain ⟨w, hw⟩ := setFlashFree_store u (min (s.store.flashFree + freed) flashBlocks)
    exact ⟨_, hexec, by rw [hw], by rw [hw, hu.store]⟩
  case read =>
    intro page corrected pos hp hl hin
    have hexec := fun c r => execFlashReadComplete_next corrected c r hp hl hin
    exact ⟨fun r => ⟨_, hexec true r, (flashPageRead_corrected s b page corrected pos (.inl rfl)).store⟩,
      ⟨_, hexec false true, (flashPageRead_corrected s b page corrected pos (.inr rfl)).store⟩,
      ⟨_, hexec false false, flashPageRead_lost s b page corrected pos⟩⟩

end Sys2Proof.Proofs
end

section
/-! SUPPORT. Queue commands: the row of a command that starts, its fields, and the work of an engine, piece by piece
(14 R395 to R398). -/
namespace Sys2Proof.Proofs
open Sys2Proof Machine Safety Laws

/-! ### A command that starts -/

section
variable {s u t : State} {q : Nat} {e : W512} {fields : List (Nat × Nat)} {eng : Engine} {c : Cmd}

/-- The command that starts is the entry's, on its queue and on the engine that carries it. -/
theorem Starts_cmd (h : Starts s q e fields eng c u) : c.q = q ∧ c.raw = e ∧ c.eng = eng := by
  obtain ⟨-, -, -, ⟨i, r, -, hs⟩, -⟩ := h
  obtain ⟨rfl, -⟩ := Prod.mk.inj hs
  exact ⟨rfl, rfl, rfl⟩

/-- A command that starts does its body's work, and what follows by itself. -/
theorem cmdRow_of_starts {isRow : Bool} {body : Cmd → State → Option State} (h : Starts s q e fields eng c u)
    (hrow : isRow = true) (hb : body c u = some t) : cmdRow q e isRow fields eng body s = .next (settle t) := by
  obtain ⟨hq, hfrozen, hstart, ⟨i, r, hf, hs⟩, hhead⟩ := h
  have hok : queueOk q = true := by simpa [queueOk] using hq
  simp [cmdRow, onOk, hok, hf, hrow, hstart, hfrozen, hs, hhead, hb]

/-- The same for a command that a copy engine carries, unless the engine is in reset. -/
theorem copyRow_of_starts {isRow : Bool} {body : Cmd → State → Option State}
    (h : Starts s q e fields (.copy (copyOf q)) c u) (hheld : copyHeld u q = false)
    (hrow : isRow = true) (hb : body c u = some t) : copyRow q e isRow fields body s = .next (settle t) :=
  cmdRow_of_starts h hrow (by simp [hheld, hb])

end

/-! ### Fields -/

/-- A bit of a field is a bit of the entry. -/
theorem bit_fld (d : W512) {i n k : Nat} (h : k < 8 * n) : bit (fld d i n) k = d.getLsbD (8 * i + k) := by
  simp [bit, fld, bits, Nat.testBit_mod_two_pow, Nat.testBit_div_two_pow, BitVec.getLsbD, h, Nat.add_comm]

theorem bits_zero (v n : Nat) : bits v 0 n = v % 2 ^ n := by simp [bits]

/-! ### The end of a command's work -/

theorem engCmd_ok {c : Cmd} {m : Eng W64} {r : W64} {s t : State} (h : runEng m s = some (.ok r, t)) :
    engCmd c m s = some (endCmd t c 0 r) := by simp [engCmd, h]

theorem engCmd_error {c : Cmd} {m : Eng W64} {st : Status} {s t : State} (h : runEng m s = some (.error st, t)) :
    engCmd c m s = some (endCmd t c st 0) := by simp [engCmd, h]

theorem engCmd_status {c : Cmd} {m : Eng W64} {st : Status} {s t : State}
    (h : runEng m s = some (if st = 0 then .ok 0 else .error st, t)) : engCmd c m s = some (endCmd t c st 0) := by
  by_cases hst : st = 0
  · subst hst; exact engCmd_ok h
  · exact engCmd_error (by rw [h, if_neg hst])

/-! ### Pieces of an engine's work -/

theorem runEng_ite_bind {α β : Type} {p : Prop} [Decidable p] (m n : Eng α) (f : α → Eng β) (s : State) :
    runEng (if p then m >>= f else n >>= f) s = runEng ((if p then m else n) >>= f) s := by split <;> rfl

theorem runEng_bind_ok {α β : Type} {m : Eng α} {f : α → Eng β} {a : α} {s t : State} (h : runEng m s = some (.ok a, t)) :
    runEng (m >>= f) s = runEng (f a) t := by rw [runEng_bind, h]

theorem runEng_bind_pure_result {α β : Type} {m : Eng α} {x r : β} {s t : State}
    (h : runEng (m >>= fun _ => pure x) s = some (.ok r, t)) : r = x := by
  rw [runEng_bind] at h
  split at h
  · rw [runEng_pure] at h
    exact (Except.ok.inj (congrArg Prod.fst (Option.some.inj h))).symm
  · simp at h
  · simp at h

/-- A piece of work that succeeds leaves all that it did. -/
theorem runEng_allOrNone_ok {α : Type} {m : Eng α} {a : α} {s t : State} (h : runEng m s = some (.ok a, t)) :
    runEng (allOrNone m) s = some (.ok a, t) := by
  have hm : m s = (.ok a, t) := by
    simp only [runEng] at h
    split at h <;> simp_all
  have hrun : ∀ f, (tryCatch m f : Eng α) s = (.ok a, t) := by
    intro f
    show ExceptT.tryCatch m f s = _
    simp only [ExceptT.tryCatch, ExceptT.mk, bind, StateT.bind, hm]
    rfl
  rw [allOrNone, runEng_bind_ok (runEng_get s)]
  simp only [runEng, hrun]

end Sys2Proof.Proofs
end

section
/-! PROOFS. Advice commands and RECLAIM (02 R50 to R55; 13 R383; 15 R432). -/
namespace Sys2Proof.Proofs
open Sys2Proof Machine Safety Laws

/-! ### The command -/

/-- An advice command whose form is wrong fails; one whose form is right, once its whole range is translated, asks for
each block. -/
theorem adviseRow_of_starts {s u t : State} {q k : Nat} {e : W512} {c : Cmd} {bs : List (Nat × BitVec 12)}
    (hs : Starts s q e
      [(128, 8), (136, 8), (144, 12), (159, 1), (160, 32), (192, 64), (256, if k = 5 then 3 else 0)] .work c u)
    (hcode : fld e 0 1 = 8) (hop : fld e 16 1 = k) :
    let w := fld e 18 2
    let n := fld e 20 4
    let form := adviceForm k (fld e 17 1) n (w.testBit 15) (fld e 32 1 % 8)
    (form = false → adviseRow q e k s = .next (settle (failCmd u c stFormat))) ∧
    (form = true → fld e 24 8 % 65536 = 0 → runEng (rangeBlocks c .read (fld e 24 8) n) u = some (.ok bs, t) →
      adviseRow q e k s = .next (settle (startAdvice t c k (fld e 17 1)
        (if w.testBit 15 then some (w % 4096) else none) (fld e 32 1 % 8) bs))) := by
  have hrow : (opcodeOf e == 8 && fld e 16 1 == k) = true := by simp [opcodeOf, hcode, hop]
  obtain ⟨-, hraw, -⟩ := Starts_cmd hs
  refine ⟨fun hform => cmdRow_of_starts hs hrow ?_, fun hform halign hrun => cmdRow_of_starts hs hrow ?_⟩
  · simp only [Cmd.f, hraw, bit, hform]; rfl
  · simp only [Cmd.f, hraw, bit, hform, halign, hrun, bits_zero]; rfl

/-! ### One block -/

section
variable {t : State} {c : Cmd} {b : Nat} {key : BitVec 12}

/-! The home's checks find nothing against a block that is not LOST and whose extent is the command's: its operation
follows. -/

section
variable (hlost : (blockGet t b).lost = false) (hx : extentStatus t (65536 * b) 65536 c.part = 0)
include hlost hx

theorem adviseBlock_prefetch (tier : Nat) (wick : Option Nat) (fmt : Nat) : adviseBlock t c 1 tier wick fmt (b, key) =
    adviseMove t c b (if tier = 0 then 0 else tier - 1) wick 2 := by
  unfold adviseBlock
  simp [hlost, hx]

theorem adviseBlock_pin (tier : Nat) (wick : Option Nat) (fmt : Nat) : adviseBlock t c 2 tier wick fmt (b, key) =
    if (blockGet t b).pins = 255 then blockDone t c b stQuota
    else adviseMove t c b (if tier = 0 then 0 else tier - 1) wick 1 := by
  unfold adviseBlock
  simp [hlost, hx]

theorem adviseBlock_unpin (tier : Nat) (wick : Option Nat) (fmt : Nat) :
    adviseBlock t c 3 tier wick fmt (b, key) = unpinBlock t c b := by
  unfold adviseBlock
  simp [hlost, hx]

theorem adviseBlock_cold (tier : Nat) (wick : Option Nat) (fmt : Nat) : adviseBlock t c 4 tier wick fmt (b, key) =
    if (blockGet t b).pins ≠ 0 then blockDone (bumpBusy t) c b stBusy
    else adviseMove t c b (if tier = 0 then 2 else tier - 1) none 2 := by
  unfold adviseBlock
  simp [hlost, hx]

theorem adviseBlock_mark (tier : Nat) (wick : Option Nat) (fmt : Nat) : adviseBlock t c 5 tier wick fmt (b, key) =
    markBlock t c b key (BitVec.ofNat 2 fmt) (bit fmt 2) := by
  unfold adviseBlock
  simp [hlost, hx]

theorem adviseBlock_unmark (tier : Nat) (wick : Option Nat) (fmt : Nat) :
    adviseBlock t c 6 tier wick fmt (b, key) = unmarkBlock t c b := by
  unfold adviseBlock
  simp [hlost, hx]

end

/-- A block that is where an advice command wants it is done at once; a PIN counts its pin first. -/
theorem adviseMove_there {tier : Nat} {wick : Option Nat} (rank : Nat) (hlost : (blockGet t b).lost = false)
    (hforf : (blockGet t b).forfeit = false) (hp : pendingMove t b = none)
    (ht : isThere (blockGet t b).loc tier wick = true) :
    adviseMove t c b tier wick rank = tellAdvice t rank b stOK c.q c.idx := by
  simp only [adviseMove, requestMove_there hlost hforf hp ht]

/-- A block that is elsewhere waits for the move that starts. -/
theorem adviseMove_starts {tier : Nat} {wick : Option Nat} {rank : Nat} {s : State} (hlost : (blockGet t b).lost = false)
    (hforf : (blockGet t b).forfeit = false) (hpin : (blockGet t b).pins = 0) (hp : pendingMove t b = none)
    (ht : isThere (blockGet t b).loc tier wick = false)
    (hm : startMove t b tier wick rank (.advice c.q c.idx) = (none, s)) :
    adviseMove t c b tier wick rank = s := by
  simp only [adviseMove, requestMove_starts hlost hforf hpin hp ht, hm]

/-- A block of a tier without a pin quota takes one pin more. -/
theorem pinBlock_adds (hpins : (blockGet t b).pins ≠ 255)
    (hq : pinQuota t (blockPart t b) (tierOf (blockGet t b).loc) = 0) :
    pinBlock t b = (0, blockSet t b (fun k => { k with pins := k.pins + 1 })) := by
  simp only [pinBlock, if_neg hpins, hq, ne_eq, not_true_eq_false, false_and, and_false, if_false]

theorem isThere_tier {l : Loc} {tier : Nat} (h : tierOf l = tier) : isThere l tier none = true := by
  cases l <;> simp [isThere, h]

theorem not_isThere_tier {l : Loc} {tier : Nat} (h : tierOf l ≠ tier) (wick : Option Nat) :
    isThere l tier wick = false := by simp [isThere, h]

end

/-! ### RECLAIM -/

/-- A RECLAIM whose length is wrong fails; one of whole lines reclaims each of its blocks in turn. -/
theorem execReclaim_of_starts {s u t : State} {q : Nat} {e : W512} {c : Cmd} {bs : List (Nat × BitVec 12)}
    (hs : Starts s q e [(128, 57), (192, 64), (256, 1)] .work c u) (hcode : fld e 0 1 = 0x0C) :
    let dva := fld e 16 8
    let n := fld e 24 8
    let zero := e.getLsbD 256
    (n = 0 ∨ n % 64 ≠ 0 ∨ 2 ^ 30 < n → execReclaim q e s = .next (settle (failCmd u c stFormat))) ∧
    (n ≠ 0 → n % 64 = 0 → n ≤ 2 ^ 30 → dva % 64 = 0 → runEng (reclaimBlocks c dva n zero) u = some (.ok bs, t) →
      let r := reclaimAll t c dva n zero bs
      execReclaim q e s = .next (settle (endCmd r.2.2 c 0 (BitVec.ofNat 64 (r.1 % 2 ^ 32 + 2 ^ 32 * sat16 r.2.1))))) := by
  have hrow : (opcodeOf e == 0x0C) = true := by simp [opcodeOf, hcode]
  obtain ⟨-, hraw, -⟩ := Starts_cmd hs
  refine ⟨fun hform => cmdRow_of_starts hs hrow ?_, fun h0 h64 hlen halign hrun => cmdRow_of_starts hs hrow ?_⟩
  · simp only [Cmd.f, hraw, if_pos hform]
  · have hform : ¬ (fld e 24 8 = 0 ∨ fld e 24 8 % 64 ≠ 0 ∨ 2 ^ 30 < fld e 24 8) := by omega
    have hz : bit (fld e 32 1) 0 = e.getLsbD 256 := bit_fld e (by decide)
    simp only [Cmd.f, hraw, if_neg hform, halign, ne_eq, not_true_eq_false, if_false, hz, hrun]

section
variable {t : State} {b lo hi : Nat} (c : Cmd) (m left : Nat) (key : BitVec 12) (z : Bool)

/-- A marked block that the range does not cover whole is left. -/
theorem reclaimBlock_part (hmark : (blockGet t b).lost = true ∨ (blockGet t b).forfeit = true)
    (hwhole : ¬ (lo = 0 ∧ hi = 1024)) : reclaimBlock c z lo hi (m, left, t) (b, key) = (m, left + 1, t) := by
  have hw : (lo == 0 && hi == 1024) = false := by simpa using hwhole
  by_cases hlost : (blockGet t b).lost = true
  · simp [reclaimBlock, hlost, hw]
  · simp [reclaimBlock, hlost, hmark.resolve_left hlost, hw]

/-- A LOST block is left without ZERO. -/
theorem reclaimBlock_keepsLost (hlost : (blockGet t b).lost = true) :
    reclaimBlock c false lo hi (m, left, t) (b, key) = (m, left + 1, t) := by
  simp [reclaimBlock, hlost]

/-- A LOST block that the range covers whole is reclaimed with ZERO: its marks clear. -/
theorem reclaimBlock_lost (hlost : (blockGet t b).lost = true) (hlo : lo = 0) (hhi : hi = 1024) : ∃ v,
    reclaimBlock c true lo hi (m, left, t) (b, key) =
      (m + 1024, left, blockSet v b (fun k => { k with lost := false, forfeit := false })) := by
  simp only [reclaimBlock, hlost, hlo, hhi]
  exact ⟨_, rfl⟩

/-- A forfeit block that the range covers whole is reclaimed: its mark clears. -/
theorem reclaimBlock_forfeit (hlost : (blockGet t b).lost = false) (hforf : (blockGet t b).forfeit = true) (hlo : lo = 0)
    (hhi : hi = 1024) : ∃ v, reclaimBlock c z lo hi (m, left, t) (b, key) =
      (m + 1024, left, blockSet v b (fun k => { k with forfeit := false })) := by
  simp only [reclaimBlock, hlost, hforf, hlo, hhi]
  exact ⟨_, rfl⟩

/-- A block without a mark is never left. -/
theorem reclaimBlock_unmarked (hmark : ¬ ((blockGet t b).lost = true ∨ (blockGet t b).forfeit = true)) :
    (reclaimBlock c z lo hi (m, left, t) (b, key)).2.1 = left := by
  obtain ⟨hlost, hforf⟩ := not_or.mp hmark
  simp only [reclaimBlock, if_neg hlost, if_neg hforf]

end

/-- Settles O29: the command by its row, then each block by the operation that its checks let through. -/
theorem adviceCommands : Obligations.AdviceCommands := by
  unfold Obligations.AdviceCommands
  intro s u t q e c bs
  refine ⟨adviseRow_of_starts, adviseRow_of_starts, adviseRow_of_starts, adviseRow_of_starts, adviseRow_of_starts,
    adviseRow_of_starts, ?block, execReclaim_of_starts, ?reclaim⟩
  case block =>
    intro b key hlost hforf hx hp hm
    refine ⟨?_, ?_, ?_, ?_, ?_, ?_, ?_, ?_, ?_, ?_⟩
    · intro d hpin ht hq l hl
      rw [adviseBlock_prefetch hlost hx]
      refine adviseMove_starts hlost hforf hpin hp (by simpa using ht) ?_
      exact startMove_of_room hm (by decide) hq (by simp [roomInStacked, hl])
    · intro ht
      rw [adviseBlock_prefetch hlost hx]
      exact adviseMove_there 2 hlost hforf hp (isThere_tier ht)
    · intro ht hpins hq
      rw [adviseBlock_pin hlost hx, if_neg hpins]
      refine (adviseMove_there 1 hlost hforf hp (isThere_tier ht)).trans ?_
      simp only [tellAdvice, pinBlock_adds hpins (ht.symm ▸ hq), and_self, if_true]
    · intro hpins
      rw [adviseBlock_pin hlost hx, if_pos hpins]
      rfl
    · intro hpins
      rw [adviseBlock_unpin hlost hx, unpinBlock, if_pos hpins]
      rfl
    · intro hpins
      rw [adviseBlock_unpin hlost hx, unpinBlock, if_neg hpins]
      rfl
    · intro hpins
      rw [adviseBlock_cold hlost hx, if_pos hpins]
      rfl
    · intro hpins ht
      rw [adviseBlock_cold hlost hx, if_neg (by simp [hpins])]
      exact adviseMove_starts hlost hforf hpins hp (not_isThere_tier ht none) (startMove_flash hm)
    · intro f
      rw [adviseBlock_mark hlost hx]
      rfl
    · rw [adviseBlock_unmark hlost hx]
      rfl
  case reclaim =>
    intro m left lo hi b key z
    refine ⟨fun hmark hwhole => reclaimBlock_part c m left key z hmark hwhole, ?_, ?_, ?_,
      fun hmark => reclaimBlock_unmarked c m left key z hmark⟩
    · rintro hlost rfl
      exact reclaimBlock_keepsLost c m left key hlost
    · rintro hlost ⟨hlo, hhi⟩ rfl
      obtain ⟨v, hv⟩ := reclaimBlock_lost c m left key hlost hlo hhi
      simp [hv]
    · rintro hlost hforf ⟨hlo, hhi⟩
      obtain ⟨v, hv⟩ := reclaimBlock_forfeit c m left key z hlost hforf hlo hhi
      simp [hv]

end Sys2Proof.Proofs
end

section
/-! PROOFS. The commands that copy (02 R53; 12 R335; 14 R398). -/
namespace Sys2Proof.Proofs
open Sys2Proof Machine Safety Laws

/-! ### Host memory -/

/-- Translations of host addresses are cached; nothing else changes. -/
theorem atcFill_xlt (s : State) (c : BitVec 20) (a n : Nat) : ∃ x, atcFill s c a n = { s with xlt := x } := by
  have fold : ∀ (l : List Nat) (u : State), (∃ x, u = { s with xlt := x }) → ∃ x,
      l.foldl (fun s i =>
        let pg := BitVec.ofNat 64 ((a / 4096 + i) * 4096)
        if s.xlt.atc.any (·.1 = pg) then s
        else s.setXlt (fun z => { z with atc := (z.atc ++ [(pg, pg)]).drop (z.atc.length + 1 - 4096) })) u =
        { s with xlt := x } := by
    intro l
    induction l with
    | nil => exact fun u hu => hu
    | cons i r ih =>
      rintro u ⟨x, rfl⟩
      refine ih _ ?_
      dsimp only
      split
      · exact ⟨x, rfl⟩
      · exact ⟨_, rfl⟩
  unfold atcFill
  split
  · split
    · exact ⟨s.xlt, rfl⟩
    · exact fold _ s ⟨s.xlt, rfl⟩
  · exact ⟨s.xlt, rfl⟩

theorem runEng_hostAnswer_ok (w : Who) (a : Nat) (s : State) : runEng (hostAnswer w .ok a) s = some (.ok (), s) := rfl

theorem runEng_readHost (w : Who) (a n : Nat) (s : State) (h : inAperture s w.ctx a n = true) :
    runEng (readHost w .ok a n) s = some (.ok (cellRead s.host.mem a n), atcFill s w.ctx a n) := by
  obtain ⟨x, hx⟩ := atcFill_xlt s w.ctx a n
  rw [readHost, runEng_bind_ok (runEng_hostCheck w a n s h), runEng_bind_ok (runEng_hostAnswer_ok w a s),
    runEng_bind_ok (runEng_modify _ s), runEng_bind_ok (runEng_get _), runEng_pure, hx]

theorem runEng_writeHost (w : Who) (a : Nat) (d : List Byte) (s : State) (h : inAperture s w.ctx a d.length = true) :
    ∃ x, runEng (writeHost w .ok a d) s = some (.ok (), emit { s with
      xlt := x, host := { s.host with mem := cellWrite s.host.mem a d } } (.hostWrite a d)) := by
  obtain ⟨x, hx⟩ := atcFill_xlt s w.ctx a d.length
  refine ⟨x, ?_⟩
  rw [writeHost, runEng_bind_ok (runEng_hostCheck w a d.length s h), runEng_bind_ok (runEng_hostAnswer_ok w a s),
    runEng_modify, hx]

/-! ### COPY within the Reservoir -/

theorem runEng_readRsv {w : Who} {a n : Nat} {s : State} (hn : n ≠ 0) (hlen : a + n ≤ Config.reservoirBytes)
    (hown : reservoirOwned s w.part a n = true) (hbad : reservoirBad s a n = false) :
    runEng (readRsv w a n) s = some (.ok (reservoirRead s a n), s) := by
  have hin : ¬ (Config.reservoirBytes < a + n ∨ ¬ reservoirOwned s w.part a n = true) := by
    simp [Nat.not_lt.mpr hlen, hown]
  rw [readRsv, runEng_bind_ok (runEng_get s)]
  simp only [if_neg hn, if_neg hin, hbad]
  rfl

/-- A tile's counter in the Reservoir's space is a hub counter of its partition. -/
theorem runEng_tileCounterOk {w : Who} {t : Tile} {s : State} (hs : t.space = 1)
    (hc : t.cen = true → counterOwner s t.cid = w.part) : runEng (tileCounterOk w t) s = some (.ok (), s) := by
  rw [tileCounterOk, runEng_bind_ok (runEng_get s)]
  cases h : t.cen
  · simp [runEng_pure]
  · simp [hs, hc h, runEng_pure]

theorem runEng_putTile {w : Who} {tl : Tlb} {dst cid : Nat} {d : List Byte} {cen : Bool} {s : State}
    (hspace : bits dst 60 4 = 1) (halign : bits dst 0 60 % 16 = 0)
    (hlen : bits dst 0 60 + d.length ≤ Config.reservoirBytes)
    (hown : reservoirOwned s w.part (bits dst 0 60) d.length = true)
    (hc : cen = true → counterOwner s cid = w.part) :
    runEng (putTile w tl dst d cid cen) s = some (.ok (),
      if cen then hubAdd (reservoirWrite s (bits dst 0 60) d) cid (BitVec.ofNat 64 d.length)
      else reservoirWrite s (bits dst 0 60) d) := by
  rw [putTile, putRows]
  simp only [hspace]
  rw [runEng_bind_ok (runEng_tileCounterOk rfl hc)]
  simp [halign, Nat.not_lt.mpr hlen, hown, runEng_bind, runEng_get, runEng_modify]

/-- A COPY that ends well has no result. -/
theorem copyTiles_result {c : Cmd} {a b n k : Nat} {cen : Bool} {u t : State} {r : W64}
    (h : runEng (copyTiles c a b n k cen) u = some (.ok r, t)) : r = 0 := by
  rw [copyTiles] at h
  exact runEng_bind_pure_result h

/-- A COPY of one tile within the partition's Reservoir delivers the source bytes and counts them. -/
theorem runEng_copyTiles_reservoir {c : Cmd} {a b n k : Nat} {cen : Bool} {u : State} (ha : a / 2 ^ 60 = 1)
    (hb : b / 2 ^ 60 = 1) (hn : n ≠ 0) (hmax : n ≤ 65536) (halign : b % 16 = 0)
    (hlenA : a % 2 ^ 60 + n ≤ Config.reservoirBytes) (hlenB : b % 2 ^ 60 + n ≤ Config.reservoirBytes)
    (hownA : reservoirOwned u c.part (a % 2 ^ 60) n = true) (hownB : reservoirOwned u c.part (b % 2 ^ 60) n = true)
    (hbad : reservoirBad u (a % 2 ^ 60) n = false) (hc : cen = true → counterOwner u k = c.part) :
    runEng (copyTiles c a b n k cen) u = some (.ok 0,
      let w := reservoirWrite u (b % 2 ^ 60) (cellRead u.reservoir (a % 2 ^ 60) n)
      if cen then hubAdd w k (BitVec.ofNat 64 n) else w) := by
  have hone : (n + 65535) / 65536 = 1 := by omega
  have hsrc : inReservoir a = true := by rw [inReservoir, bits, ha]; rfl
  have hlen : (reservoirRead u (a % 2 ^ 60) n).length = n := cellRead_length ..
  have hput : runEng (putTile c.who (tlbOf c.eng) b (reservoirRead u (a % 2 ^ 60) n) k cen) u = _ :=
    runEng_putTile (by rw [bits, hb]; rfl) (by rw [bits_zero]; omega) (by rw [bits_zero, hlen]; exact hlenB)
      (by rw [bits_zero, hlen]; exact hownB) hc
  have htile : runEng (rsvTile c (a % 2 ^ 60) b n k cen) u = _ :=
    (runEng_bind_ok (runEng_readRsv hn hlenA hownA hbad)).trans hput
  rw [bits_zero, hlen] at htile
  rw [copyTiles, hone]
  simp only [List.range_one, List.forM_eq_forM, List.forM_cons, List.forM_nil, hsrc, if_true, Nat.mul_zero, Nat.add_zero, Nat.sub_zero,
    Nat.min_eq_right hmax, spaceAddr, bits_zero, runEng_bind, runEng_pure, runEng_allOrNone_ok htile]
  rfl

/-! ### The commands -/

section
variable {s u t : State} {q : Nat} {e : W512} {c : Cmd} (hheld : copyHeld u q = false)
include hheld

theorem execCopy_of_starts (hs : Starts s q e [(128, 64), (192, 64), (256, 32), (288, 17), (319, 1)] (.copy (copyOf q)) c u)
    (hcode : fld e 0 1 = 1) :
    let a := fld e 16 8
    let b := fld e 24 8
    let n := fld e 32 4
    let work := copyTiles c a b n (fld e 36 4 % 2 ^ 17) (e.getLsbD 319)
    (spaceOk a = false ∨ spaceOk b = false ∨ n = 0 ∨ n % 16 ≠ 0 →
      execCopy q e s = .next (settle (failCmd u c stFormat))) ∧
    (spaceOk a = true → spaceOk b = true → n ≠ 0 → n % 16 = 0 →
      (∀ r, runEng work u = some (.ok r, t) → execCopy q e s = .next (settle (endCmd t c 0 0))) ∧
      (∀ st, runEng work u = some (.error st, t) → execCopy q e s = .next (settle (endCmd t c st 0)))) := by
  have hrow : (opcodeOf e == 1) = true := by simp [opcodeOf, hcode]
  obtain ⟨-, hraw, -⟩ := Starts_cmd hs
  have hcen : bit (fld e 36 4) 31 = e.getLsbD 319 := bit_fld e (by decide)
  refine ⟨fun hform => copyRow_of_starts hs hheld hrow ?_, fun ha hb hn h16 =>
    ⟨fun r hrun => copyRow_of_starts hs hheld hrow ?_, fun st hrun => copyRow_of_starts hs hheld hrow ?_⟩⟩
  · simp only [Cmd.f, hraw]
    rw [if_pos (by simpa [or_assoc] using hform)]
  · simp only [Cmd.f, hraw, ha, hb, hcen, bits_zero]
    rw [if_neg (by simp [hn, h16]), engCmd_ok hrun, copyTiles_result hrun]
  · simp only [Cmd.f, hraw, ha, hb, hcen, bits_zero]
    rw [if_neg (by simp [hn, h16]), engCmd_error hrun]

theorem execTileStream_of_starts (hs : Starts s q e [(128, 57), (192, 32), (224, 8)] (.copy (copyOf q)) c u)
    (hcode : fld e 0 1 = 2) :
    let a := fld e 16 8
    let m := fld e 24 4
    (m = 0 ∨ 65536 < m ∨ 8 < fld e 28 1 → execTileStream q e s = .next (settle (failCmd u c stFormat))) ∧
    (1 ≤ m → m ≤ 65536 → fld e 28 1 ≤ 8 → a % 64 = 0 →
      execTileStream q e s = .next (settle (endTstreams (refillQueue 9
        (u.setWork (fun k => { k with tstreams := k.tstreams ++ [⟨q, c.idx, a, m, 0, 0, 0, 0, 0⟩] })) q c.idx c.part
        c.ctx)))) := by
  have hrow : (opcodeOf e == 2) = true := by simp [opcodeOf, hcode]
  obtain ⟨-, hraw, -⟩ := Starts_cmd hs
  refine ⟨fun hform => copyRow_of_starts hs hheld hrow ?_,
    fun h1 hmax hdead halign => copyRow_of_starts hs hheld hrow ?_⟩
  · simp only [Cmd.f, hraw, if_pos hform]
  · have hform : ¬ (fld e 24 4 = 0 ∨ 65536 < fld e 24 4 ∨ 8 < fld e 28 1) := by omega
    simp only [Cmd.f, hraw, if_neg hform, halign, ne_eq, not_true_eq_false, if_false]

theorem execAccumStream_of_starts {sp dp : List (Nat × Leaf)} {st : Status} {t1 t2 : State}
    (hs : Starts s q e
      [(128, 64), (192, 57), (256, 32), (288, 8), (296, 8), (304, 1), (320, 17), (350, 2), (352, 32)] (.copy (copyOf q)) c u)
    (hcode : fld e 0 1 = 0x1C) :
    let tl := tlbOf (.copy (copyOf q))
    let a := fld e 16 8
    let b := fld e 24 8
    let n := fld e 32 4
    let sf := fld e 36 1
    let df := fld e 37 1
    let scale := fld e 44 4
    spaceOk a = true → n ≠ 0 → n % 32 = 0 → accumPair sf df scale = true → a % 2 ^ 60 % accSize sf = 0 → b % 32 = 0 →
    runEng (if inReservoir a then pure [] else translateAll c.who tl .read (a % 2 ^ 60) (n / accSize df * accSize sf)) u =
      some (.ok sp, t1) →
    runEng (translateAll c.who tl .accum b n) t1 = some (.ok dp, t2) →
    runEng (accumPackets c a b n sf df scale (e.getLsbD 304) (fld e 40 4) sp dp) t2 = some (.ok st, t) →
    execAccumStream q e s = .next (settle (endCmd t c st 0)) := by
  have hrow : (opcodeOf e == 0x1C) = true := by simp [opcodeOf, hcode]
  obtain ⟨-, hraw, heng⟩ := Starts_cmd hs
  have hstoch : bit (fld e 38 1) 0 = e.getLsbD 304 := bit_fld e (by decide)
  intro tl a b n sf df scale ha hn h32 hpair hsrc hdst hread haccum hsend
  have hform : ¬ (!spaceOk a || n == 0 || n % 32 != 0 || !accumPair sf df scale) = true := by simp [ha, hn, h32, hpair]
  have halign : ¬ (a % 2 ^ 60 % accSize sf ≠ 0 ∨ b % 32 ≠ 0) := fun h => h.elim (· hsrc) (· hdst)
  refine copyRow_of_starts hs hheld hrow ?_
  simp only [Cmd.f, hraw, heng, hstoch, spaceAddr, bits_zero]
  rw [if_neg hform, if_neg halign]
  refine engCmd_status ?_
  rw [runEng_ite_bind, runEng_bind_ok hread, runEng_bind_ok haccum, runEng_bind_ok hsend]
  by_cases hst : st = 0
  · simp only [hst, ne_eq, not_true_eq_false, if_true, if_false, runEng_pure]
  · simp only [hst, ne_eq, not_false_eq_true, if_true, if_false, runEng_bind, runEng_failNow]

theorem execPrefetchFromHost_of_starts {hc : HostCpl}
    (hs : Starts s q e [(128, 64), (192, 64), (256, 32)] (.copy (copyOf q)) c u) (hcode : fld e 0 1 = 9) :
    let tl := tlbOf (.copy (copyOf q))
    let a := fld e 16 8
    let b := fld e 24 8
    let n := fld e 32 4
    let hostLen : Prop := 0 < n ∧ n % 64 = 0 ∧ n ≤ 2 ^ 30
    (¬ hostLen → execPrefetchFromHost q e hc s = .next (settle (failCmd u c stFormat))) ∧
    (hostLen → inAperture u c.ctx a n = true → ∀ ps t1, runEng (translateAll c.who tl .write b n) u = some (.ok ps, t1) →
      inAperture t1 c.ctx a n = true →
      runEng (writePages c.who ps b (cellRead t1.host.mem a n)) (atcFill t1 c.ctx a n) = some (.ok (), t) →
      execPrefetchFromHost q e .ok s = .next (settle (endCmd t c 0 0))) := by
  have hrow : (opcodeOf e == 9) = true := by simp [opcodeOf, hcode]
  obtain ⟨-, hraw, heng⟩ := Starts_cmd hs
  refine ⟨fun hlen => copyRow_of_starts hs hheld hrow ?_, fun hlen hap ps t1 htr hap1 hwrite =>
    copyRow_of_starts hs hheld hrow ?_⟩
  · simp only [Cmd.f, hraw, hostLenOk, decide_eq_false hlen]
    rfl
  · have hok : hostLenOk (fld e 32 4) = true := decide_eq_true hlen
    simp only [Cmd.f, hraw, heng, hok]
    refine engCmd_ok ?_
    rw [runEng_bind_ok (runEng_hostCheck c.who _ _ u hap), runEng_bind_ok htr,
      runEng_bind_ok (runEng_readHost c.who _ _ t1 hap1)]
    exact runEng_bind_ok hwrite

theorem execEvictToHost_of_starts {hc : HostCpl}
    (hs : Starts s q e [(128, 64), (192, 64), (256, 32), (288, 1)] (.copy (copyOf q)) c u) (hcode : fld e 0 1 = 0x0A) :
    let tl := tlbOf (.copy (copyOf q))
    let a := fld e 16 8
    let b := fld e 24 8
    let n := fld e 32 4
    let hostLen : Prop := 0 < n ∧ n % 64 = 0 ∧ n ≤ 2 ^ 30
    (¬ hostLen → execEvictToHost q e hc s = .next (settle (failCmd u c stFormat))) ∧
    (hostLen → inAperture u c.ctx a n = true → ∀ d, runEng (readDva c.who tl b n) u = some (.ok d, t) → d.length = n →
      inAperture t c.ctx a n = true → e.getLsbD 288 = false → ∃ x,
      let v := emit { t with xlt := x, host := { t.host with mem := cellWrite t.host.mem a d } } (.hostWrite a d)
      execEvictToHost q e .ok s = .next (settle (endCmd v c 0 0))) := by
  have hrow : (opcodeOf e == 0x0A) = true := by simp [opcodeOf, hcode]
  obtain ⟨-, hraw, heng⟩ := Starts_cmd hs
  have hcold : bit (fld e 36 1) 0 = e.getLsbD 288 := bit_fld e (by decide)
  refine ⟨fun hlen => copyRow_of_starts hs hheld hrow ?_, fun hlen hap d hread hd hap1 hz => ?_⟩
  · simp only [Cmd.f, hraw, hostLenOk, decide_eq_false hlen]
    rfl
  · have hok : hostLenOk (fld e 32 4) = true := decide_eq_true hlen
    obtain ⟨x, hx⟩ := runEng_writeHost c.who (fld e 16 8) d t (hd ▸ hap1)
    refine ⟨x, copyRow_of_starts hs hheld hrow ?_⟩
    simp only [Cmd.f, hraw, heng, hok, hcold, hz]
    rw [runEng_bind_ok (runEng_hostCheck c.who _ _ u hap), runEng_bind_ok hread, runEng_bind_ok hx]
    rfl

end

/-- Settles O28: each command by its row; the COPY of one Reservoir tile by running its read and its delivery. -/
theorem copyCommands : Obligations.CopyCommands := by
  unfold Obligations.CopyCommands
  intro s u t t1 t2 t3 q e c hc eng tl a b n hostLen hheld
  refine ⟨?copy, fun hs hcode => execTileStream_of_starts hheld hs hcode, ?accum, ?prefetch, ?evict⟩
  case copy =>
    intro hs hcode k cen
    refine ⟨(execCopy_of_starts hheld hs hcode (t := t)).1, fun ha hb hn h16 => ?_⟩
    have hends := fun t => (execCopy_of_starts hheld hs hcode (t := t)).2 ha hb hn h16
    refine ⟨(hends t).1, (hends t).2, fun ha1 hb1 hmax halign hlenA hlenB hownA hownB hbad hcnt => ?_⟩
    exact (hends _).1 0 (runEng_copyTiles_reservoir ha1 hb1 hn hmax halign hlenA hlenB hownA hownB hbad hcnt)
  case accum =>
    intro hs hcode sf df scale k ha hn h32 hpair hsrc hdst sp dp st
    exact execAccumStream_of_starts hheld hs hcode ha hn h32 hpair hsrc hdst
  case prefetch =>
    intro hs hcode
    obtain ⟨hfail, hdone⟩ := execPrefetchFromHost_of_starts hheld hs hcode (hc := hc) (t := t2)
    exact ⟨hfail, fun hlen hap ps => hdone hlen hap ps t1⟩
  case evict =>
    intro hs hcode
    obtain ⟨hfail, hdone⟩ := execEvictToHost_of_starts hheld hs hcode (hc := hc) (t := t1)
    refine ⟨hfail, fun hlen hap d hread hd hap1 hz => ?_⟩
    obtain ⟨x, hx⟩ := hdone hlen hap d hread hd hap1 hz
    exact ⟨_, hx, hd ▸ cellRead_cellWrite t1.host.mem a d, rfl, rfl⟩

end Sys2Proof.Proofs
end

section
/-! SUPPORT. The retraining of dies and channels (16 R454 to R456). -/
namespace Sys2Proof.Proofs
open Sys2Proof Machine Safety Laws

@[simp] theorem stackTraining_setStack (s : State) (d x : Nat) (f : Training → Training) :
    stackTraining (setStack s d f) x = if x = d then f (stackTraining s d) else stackTraining s x := by
  simp [setStack, stackTraining]

@[simp] theorem capTraining_setCap (s : State) (c x : Nat) (f : Training → Training) :
    capTraining (setCap s c f) x = if x = c then f (capTraining s c) else capTraining s x := by
  simp [setCap, capTraining]

theorem sval_toNat (v : W16) : sval 16 v.toNat = v.toInt := by
  have := v.isLt
  simp only [sval, BitVec.toInt, Nat.mod_eq_of_lt this]
  split_ifs <;> omega

theorem triggers_temperature {s : State} {pg : Nat} {u : Training} {now : W16}
    (hlim : (regGet s (rk pg 0x108)).toNat % 256 ≠ 0)
    (hhot : 16 * ((regGet s (rk pg 0x108)).toNat % 256) < (now.toInt - u.temp.toInt).natAbs) :
    triggers s pg u (.temperature now) = true := by
  simp only [triggers, bits_zero, sval_toNat]
  simpa using ⟨hlim, hhot⟩

theorem triggers_corrections {s : State} {pg n : Nat} {u : Training}
    (hlim : (regGet s (rk pg 0x108)).toNat / 65536 % 65536 ≠ 0)
    (hworn : (regGet s (rk pg 0x108)).toNat / 65536 % 65536 < n) :
    triggers (countSymbols s pg (.corrections n)) pg u (.corrections n) = true := by
  simp only [triggers, countSymbols, regGet_bump 48 n (show rk pg 0x108 ≠ rk pg 0x118 by simp [rk]), bits]
  simpa using ⟨hlim, hworn⟩

theorem countSymbols_logsOnly (s : State) (pg : Nat) (why : RetrainWhy) : LogsOnly s (countSymbols s pg why) := by
  cases why with
  | temperature now => exact LogsOnly.refl s
  | corrections n => exact bump_logsOnly ..

/-- Three failed attempts become a compute reset, unless one on the retraining path already runs. -/
theorem trainFail_resets {s : State} (pg n : Nat) (set : State → (Training → Training) → State)
    (hr : computeReset s ≠ some true) : trainFail s pg n set =
      autoReset (set (logErr s pg 0 { status := stUncorr }) (fun u => { u with fails := 0 })) 4 0 true := by
  rw [trainFail, (logErr_logsOnly ..).computeReset, if_neg hr]

theorem dueDie_state {s : State} {d : Nat} (h : (stackTraining s d).state = 0) : (stackTraining (dueDie s d) d).state = 1 := by
  rw [dueDie, if_pos h, stackTraining_setStack, if_pos rfl]

section
variable {s : State} {d : Nat} (hd : d < 8)
include hd

theorem execDieRetrainDue_next {why : RetrainWhy} (h : (stackTraining s d).state = 0)
    (ht : triggers (countSymbols s (pSTK d) why) (pSTK d) (stackTraining s d) why = true) :
    ∃ u, execDieRetrainDue d why s = .next u ∧ (stackTraining u d).state = 1 := by
  have hkeep := (countSymbols_logsOnly s (pSTK d) why).stackTraining d
  refine ⟨dueDie (countSymbols s (pSTK d) why) d, ?_, dueDie_state (by rw [hkeep, h])⟩
  simp only [execDieRetrainDue, onOk, dieOk, hd, decide_true, if_true, hkeep, ht]

theorem execRetrainCmd_die {src : RegSrc} {v : W64} (hpf : ByPf s src (pSTK d)) (hv : v.getLsbD 0 = true) :
    execRetrainCmd src (pSTK d) v s = .next (dueDie s d) := by
  have hok := hpf.1
  have hp : pSTK d < 154 := by simp only [pSTK]; omega
  have hpage : 26 ≤ pSTK d ∧ pSTK d < 34 := by simp only [pSTK]; omega
  have hbit : bit v.toNat 0 = true := hv
  have hsub : pSTK d - 26 = d := by simp only [pSTK]; omega
  simp only [execRetrainCmd, onOk, hok, pageOk, hp, retrainWrite, pfOnly_byPf _ hp (by decide : (0x110 : Nat) < 4096) hpf,
    hbit, if_pos hpage, hsub]
  rw [if_pos (by decide), if_pos (by omega)]
  rfl

theorem execDieReady_ready (now : W16) (h : (stackTraining s d).state = 2) : execDieReady d true now s =
    .next (settle (logEvt (setStack s d (fun u => trained u now)) (pSTK d) 0)) := by
  simp [execDieReady, onOk, dieOk, hd, h]

theorem execDieReady_failure (now : W16) (h : (stackTraining s d).state = 2) (hf : (stackTraining s d).fails < 2) :
    execDieReady d false now s = .next (setStack s d (fun u => { u with fails := u.fails + 1 })) := by
  simp [execDieReady, onOk, dieOk, hd, h, hf]

theorem execDieReady_thirdFailure (now : W16) (h : (stackTraining s d).state = 2) (hf : 2 ≤ (stackTraining s d).fails)
    (hr : computeReset s ≠ some true) : execDieReady d false now s = .next (autoReset
      (setStack (logErr s (pSTK d) 0 { status := stUncorr }) d (fun u => { u with fails := 0 })) 4 0 true) := by
  simp [execDieReady, onOk, dieOk, hd, h, Nat.not_lt.mpr hf, trainFail_resets _ _ _ hr]

end

/-- A channel that is due trains at once unless another of its group does. -/
theorem dueChannel_state {s : State} {c : Nat} {busy : Prop} [Decidable busy] (h : (capTraining s c).state = 0)
    (hbusy : busy ↔ ∃ i < 4, (capTraining s (4 * (c / 4) + i)).state = 2) :
    (capTraining (dueChannel s c) c).state = if busy then 1 else 2 := by
  have hany : (List.range 4).any (fun i => (capTraining s (4 * (c / 4) + i)).state == 2) = decide busy := by
    rw [Bool.eq_iff_iff]; simp [hbusy]
  rw [dueChannel, if_neg (by simp [h]), hany, capTraining_setCap, if_pos rfl]
  simp

section
variable {s : State} {c : Nat} (hc : c < 24)
include hc

theorem execChannelRetrainDue_next {why : RetrainWhy} {busy : Prop} [Decidable busy] (h : (capTraining s c).state = 0)
    (hbusy : busy ↔ ∃ i < 4, (capTraining s (4 * (c / 4) + i)).state = 2)
    (ht : triggers (countSymbols s (pCAP c) why) (pCAP c) (capTraining s c) why = true) :
    ∃ u, execChannelRetrainDue c why s = .next u ∧ (capTraining u c).state = if busy then 1 else 2 := by
  have hkeep := (countSymbols_logsOnly s (pCAP c) why).capTraining
  refine ⟨dueChannel (countSymbols s (pCAP c) why) c, ?_, dueChannel_state (by rw [hkeep, h]) (by simpa [hkeep] using hbusy)⟩
  simp only [execChannelRetrainDue, onOk, channelOk, hc, decide_true, if_true, hkeep, ht]

theorem execRetrainCmd_channel {src : RegSrc} {v : W64} (hpf : ByPf s src (pCAP c)) (hv : v.getLsbD 0 = true) :
    execRetrainCmd src (pCAP c) v s = .next (dueChannel s c) := by
  have hok := hpf.1
  have hp : pCAP c < 154 := by simp only [pCAP]; omega
  have hdie : ¬ (26 ≤ pCAP c ∧ pCAP c < 34) := by simp only [pCAP]; omega
  have hpage : 34 ≤ pCAP c ∧ pCAP c < 58 := by simp only [pCAP]; omega
  have hbit : bit v.toNat 0 = true := hv
  have hsub : pCAP c - 34 = c := by simp only [pCAP]; omega
  simp only [execRetrainCmd, onOk, hok, pageOk, hp, retrainWrite, pfOnly_byPf _ hp (by decide : (0x110 : Nat) < 4096) hpf,
    hbit, if_neg hdie, if_pos hpage, hsub]
  rw [if_pos (by decide), if_pos (by omega)]
  rfl

theorem execChannelReady_ready (h : (capTraining s c).state = 2) : execChannelReady c true s =
    .next (settle (nextChannel (logEvt (setCap s c (fun u => trained u (sensorReading s 64))) (pCAP c) 0) (c / 4))) := by
  simp [execChannelReady, onOk, channelOk, hc, h]

theorem execChannelReady_failure (h : (capTraining s c).state = 2) (hf : (capTraining s c).fails < 2) :
    execChannelReady c false s = .next (setCap s c (fun u => { u with fails := u.fails + 1 })) := by
  simp [execChannelReady, onOk, channelOk, hc, h, hf]

theorem execChannelReady_thirdFailure (h : (capTraining s c).state = 2) (hf : 2 ≤ (capTraining s c).fails)
    (hr : computeReset s ≠ some true) : execChannelReady c false s = .next (nextChannel (autoReset
      (setCap (logErr s (pCAP c) 0 { status := stUncorr }) c (fun u => { u with fails := 0 })) 4 0 true) (c / 4)) := by
  simp [execChannelReady, onOk, channelOk, hc, h, Nat.not_lt.mpr hf, trainFail_resets _ _ _ hr]

end

end Sys2Proof.Proofs
end

section
/-! PROOFS. Transfers, tiles and their deadlines; with the retraining of dies and channels (02 R49, R64, R65; 08 R248,
R249; 16 R454 to R456). -/
namespace Sys2Proof.Proofs
open Sys2Proof Machine Safety Laws

/-! ### What the end of a transfer leaves unchanged -/

/-- Nothing but the queues, the commands that have ended and the streams of tiles has changed. -/
def QueuesOnly (s t : State) : Prop :=
  t = { s with work := { s.work with queues := t.work.queues, ended := t.work.ended, tstreams := t.work.tstreams } }

namespace QueuesOnly
variable {s t u : State}

theorem trans (h : QueuesOnly s t) (h' : QueuesOnly t u) : QueuesOnly s u := by
  unfold QueuesOnly at *; rw [h', h]

theorem xfers (h : QueuesOnly s t) : t.work.xfers = s.work.xfers := by rw [h]
theorem scratch (h : QueuesOnly s t) : t.scratch = s.scratch := by rw [h]
theorem wicks (h : QueuesOnly s t) : t.wicks = s.wicks := by rw [h]

end QueuesOnly

theorem endCommand_queuesOnly (s : State) (q : Nat) (idx : W32) (st : Status) (r : W64) :
    QueuesOnly s (endCommand s q idx st r) := by
  unfold endCommand
  split <;> rfl

theorem endTstreams_queuesOnly (s : State) : QueuesOnly s (endTstreams s) := by
  have fold : ∀ (l : List TStream) (u : State), QueuesOnly s u → QueuesOnly s (l.foldl (fun s t =>
      endCommand s t.q t.tag t.bad (BitVec.ofNat 64 (2 ^ 16 * sat16 t.misses + 2 ^ 32 * sat16 t.lates))) u) := by
    intro l
    induction l with
    | nil => exact fun u hu => hu
    | cons t r ih => exact fun u hu => ih _ (hu.trans (endCommand_queuesOnly ..))
  exact fold _ _ rfl

/-- A wick that goes on keeps its transfers, and scratch is as before. -/
theorem goTo_keeps (s : State) (w : Nat) (target : Int) : (goTo s w target).work = s.work ∧
    (goTo s w target).scratch = s.scratch ∧ ((goTo s w target).wick w).track = (s.wick w).track := by
  unfold goTo
  split
  · exact ⟨rfl, rfl, by rw [wick_setWick, if_pos rfl]⟩
  · have h : LogsOnly s (logRecord s (pSCN (w / 64)) (wickFail s w stFormat 4 (s.wick w).pc)) := logRecord_logsOnly ..
    refine ⟨h.work, h.scratch, ?_⟩
    simp only [stopAtPc, stopWick, haltWick, wick_setWick, if_true, h.wick]

theorem wrS_track (k : Wick) (n : Nat) (v : W64) : (wrS k n v).track = k.track := by
  unfold wrS; split <;> rfl

theorem mwaitDone_keeps (s : State) (w d : Nat) : (mwaitDone s w d).work = s.work ∧
    (mwaitDone s w d).scratch = s.scratch ∧ ((mwaitDone s w d).wick w).track = (s.wick w).track := by
  simp only [mwaitDone, wickDo, advance]
  obtain ⟨hwork, hscratch, htrack⟩ := goTo_keeps (s.setWick w (fun k =>
    wrS { k with wait := .none } d (BitVec.ofNat 64 (k.mstat.toNat % 256)))) w
    (((s.setWick w (fun k => wrS { k with wait := .none } d (BitVec.ofNat 64 (k.mstat.toNat % 256)))).wick w).pc + 1)
  exact ⟨hwork, hscratch, by rw [htrack, wick_setWick, if_pos rfl, wrS_track]⟩

/-! ### The end of a raw copy to scratch -/

theorem findXfer_of_xfers {s t : State} (h : t.work.xfers = s.work.xfers) (id : Nat) : findXfer t id = findXfer s id := by
  simp only [findXfer, h]

theorem findXfer_dropXfer (s : State) (id : Nat) : findXfer (dropXfer s id) id = none := by
  simp [findXfer, dropXfer, List.find?_eq_none]

/-- A raw copy to scratch that counts nothing writes its bytes and ends. -/
theorem mvxScratch_copies {s : State} {x : Xfer} {w : Nat} (hcount : x.params.getLsbD 34 = false)
    (hres : (s.sconce (w / 64)).resetting = false)
    (hbad : scratchBad s w x.srcScratch (x.params.toNat % 2 ^ 17) = false) :
    mvxScratch s x w (w / 64) = finishXfer (scratchWrite s (bits x.dstAddr.toNat 17 12) (bits x.dstAddr.toNat 0 17)
      (scratchRead s w x.srcScratch (x.params.toNat % 2 ^ 17))) x.id 0 := by
  have hbit : bit x.params.toNat 34 = false := hcount
  simp only [mvxScratch, bits_zero x.params.toNat, hbit, hres, hbad, Bool.false_eq_true, false_and, if_false]

section
variable {s : State} {x : Xfer} {w : Nat} (hw : x.wick = some w) (hh : x.handle = none) (hq : x.queue = none)
include hw hh hq

/-- A transfer of a wick that ends well is gone, and the wick's tracker no longer names it. -/
theorem finishXfer_ok {id : Nat} (hx : findXfer s id = some x) : findXfer (finishXfer s id 0) id = none ∧
    (finishXfer s id 0).scratch = s.scratch ∧ ∀ e ∈ ((finishXfer s id 0).wick w).track, e.id ≠ id := by
  simp only [finishXfer, hx, hw, hh, hq, if_true]
  generalize hv : (dropXfer s id).setWick w _ = v
  have hgone : findXfer v id = none := by rw [← hv]; exact findXfer_dropXfer s id
  have hscratch : v.scratch = s.scratch := by rw [← hv]; rfl
  have htrack : ∀ e ∈ (v.wick w).track, e.id ≠ id := by
    rw [← hv, wick_setWick, if_pos rfl]
    intro e he
    simpa using (List.mem_filter.mp he).2
  split
  · next d _ =>
    obtain ⟨hwork, hs, ht⟩ := mwaitDone_keeps v w d
    split
    · exact ⟨(findXfer_of_xfers (by rw [hwork]) id).trans hgone, hs.trans hscratch, by rwa [ht]⟩
    · exact ⟨hgone, hscratch, htrack⟩
  · exact ⟨hgone, hscratch, htrack⟩

/-- A raw copy to scratch, performed: the transfer is gone, its bytes are there, and the tracker no longer names it. -/
theorem performXfer_toScratch (hx : findXfer s x.id = some x) (hraw : x.raw = true) (hmoved : x.moved = false)
    (hturn : isTurn s x = true) (hto : x.desc.getLsbD 3 = true) (hcount : x.params.getLsbD 34 = false)
    (hres : (s.sconce (w / 64)).resetting = false)
    (hbad : scratchBad s w x.srcScratch (x.params.toNat % 2 ^ 17) = false) :
    let u := performXfer s x
    findXfer u x.id = none ∧
    scratchRead u (bits x.dstAddr.toNat 17 12) (bits x.dstAddr.toNat 0 17) (x.params.toNat % 2 ^ 17) =
      scratchRead s w x.srcScratch (x.params.toNat % 2 ^ 17) ∧
    ∀ e ∈ (u.wick w).track, e.id ≠ x.id := by
  have hbit : bit x.desc.toNat 3 = true := hto
  have hlen : (scratchRead s w x.srcScratch (x.params.toNat % 2 ^ 17)).length = x.params.toNat % 2 ^ 17 := cellRead_length ..
  generalize hd : scratchRead s w x.srcScratch (x.params.toNat % 2 ^ 17) = d at hlen
  obtain ⟨hgone, hscratch, htrack⟩ := finishXfer_ok hw hh hq (id := x.id)
    (s := scratchWrite s (bits x.dstAddr.toNat 17 12) (bits x.dstAddr.toNat 0 17) d) hx
  have hperform : performRaw s x = finishXfer (scratchWrite s (bits x.dstAddr.toNat 17 12) (bits x.dstAddr.toNat 0 17) d)
      x.id 0 := by
    simp only [performRaw, hw, hmoved, hbit, mvxScratch_copies hcount hres hbad, hd, Bool.false_eq_true, if_false,
      if_true, hgone]
  have hqueues := endTstreams_queuesOnly (performRaw s x)
  have hu : performXfer s x = endTstreams (performRaw s x) := by
    simp [performXfer, hturn, hraw, refillAfter, hh, hq]
  rw [hperform] at hqueues hu
  simp only [hu]
  refine ⟨(findXfer_of_xfers hqueues.xfers _).trans hgone, ?_, ?_⟩
  · rw [scratchRead, hqueues.scratch, hscratch, ← hlen]
    exact cellRead_cellWrite ..
  · simpa only [State.wick, hqueues.wicks] using htrack

end

/-! ### Tiles -/

section
variable {s t : State} {x : Xfer} (hturn : isTurn s x = true) (hraw : x.raw = false)
include hturn hraw

theorem performXfer_tile_fails {st : Status} (hm : runEng (allOrNone (moveTile (whoOf s x) (tileOf x.desc) x.srcPages
      x.dstPages x.lateBlocks (engGenOf s x.eng))) s = some (.error st, t)) :
    performXfer s x = endTstreams (refillAfter (finishXfer t x.id st) x) := by
  simp [performXfer, hturn, hraw, performTile, hm]

theorem performXfer_tile_delivers {g : W32} (hstoch : (tileOf x.desc).stoch = false) (hshadow : x.shadow = false)
    (hm : runEng (allOrNone (moveTile (whoOf s x) (tileOf x.desc) x.srcPages x.dstPages x.lateBlocks
      (engGenOf s x.eng))) s = some (.ok g, t)) :
    performXfer s x = endTstreams (refillAfter (finishXfer t x.id 0) x) := by
  simp [performXfer, hturn, hraw, performTile, hm, hstoch, hshadow]

end

/-! ### Deadlines -/

section
variable {s : State} {x : Xfer} {late : List Nat}

/-- The budget of a tile that is not late yet ends with blocks of its source unread. -/
theorem execDeadlineExpiry_next {id : Nat} (hx : findXfer s id = some x) (hraw : x.raw = false) (hlate : x.late = false)
    (hb : (tileOf x.desc).budget ≠ 0) (hne : late ≠ []) (hmine : ∀ b ∈ late, b ∈ tileBlocks s x) :
    execDeadlineExpiry id late s = .next (deadline s x late) := by
  have hall : late.all (tileBlocks s x).contains = true := by simpa [List.all_eq_true] using hmine
  simp [execDeadlineExpiry, hx, hraw, hlate, hb, hne, hall]

theorem deadline_waits (h : (tileOf x.desc).fall = 0) :
    deadline s x late = setXfer (bump s (rk pPLC 0x148) 32 1) x.id (fun y => { y with late := true }) := by
  simp only [deadline, h, if_true]

theorem deadline_reads_shadows (h : (tileOf x.desc).fall = 1)
    (hfresh : ∀ b ∈ late, freshShadow (bump s (rk pPLC 0x148) 32 1) b (tileOf x.desc).sf = true) :
    deadline s x late = setXfer (bump s (rk pPLC 0x148) 32 1) x.id
      (fun y => { y with late := true, shadow := true, lateBlocks := late }) := by
  simp only [deadline, h]
  rw [if_neg (by decide), if_pos ⟨trivial, List.all_eq_true.mpr hfresh⟩]

theorem deadline_fails (h0 : (tileOf x.desc).fall ≠ 0) (h : (tileOf x.desc).fall ≠ 1 ∨
      ∃ b ∈ late, freshShadow (bump s (rk pPLC 0x148) 32 1) b (tileOf x.desc).sf = false) :
    let u := bump s (rk pPLC 0x148) 32 1
    deadline s x late = endTstreams (refillAfter (finishXfer (logRecord u pXBAR ((whoOf u x).site
      ((whoOf u x).fail stDeadline 1 (tileOf x.desc).src))) x.id stDeadline) x) := by
  have hnot : ¬ ((tileOf x.desc).fall = 1 ∧
      late.all (fun b => freshShadow (bump s (rk pPLC 0x148) 32 1) b (tileOf x.desc).sf) = true) := by
    rintro ⟨h1, hall⟩
    obtain ⟨b, hb, hstale⟩ := h.resolve_left (absurd h1)
    simp [List.all_eq_true.mp hall b hb] at hstale
  simp only [deadline, if_neg h0, if_neg hnot]

end

/-- Settles O52: transfers and deadlines, then dies and channels, each by the lemmas of its event. -/
theorem transfersAndRetraining : Obligations.TransfersAndRetraining := by
  unfold Obligations.TransfersAndRetraining
  intro s t id w d c x late now n src v
  refine ⟨?tile, ?raw, ?late, ?die, ?channel⟩
  case tile =>
    intro hx hraw hfrozen hturn
    have hexec : execTileComplete id s = .next (performXfer s x) := by simp [execTileComplete, hx, hraw, hfrozen]
    refine ⟨fun st hm => ?_, fun r hstoch hshadow hm => ?_⟩
    · rw [exec_tileComplete, hexec, performXfer_tile_fails hturn hraw hm]
    · rw [exec_tileComplete, hexec, performXfer_tile_delivers hturn hraw hstoch hshadow hm]
  case raw =>
    rintro hx rfl hraw hmoved hwick hw hfrozen hturn hto hcount hres k hbad hhandle hqueue
    refine ⟨performXfer s x, ?_, performXfer_toScratch hwick hhandle hqueue hx hraw hmoved hturn hto hcount hres hbad⟩
    simp [execMoverTransferDone, onOk, wickOk, hw, hx, hwick, hfrozen]
  case late =>
    intro hx hraw hlate hb hne hmine u
    have hexec := execDeadlineExpiry_next hx hraw hlate hb hne hmine
    refine ⟨fun h => ?_, fun h hfresh => ?_, fun h0 h => ?_⟩
    · rw [exec_deadlineExpiry, hexec, deadline_waits h]
    · rw [exec_deadlineExpiry, hexec, deadline_reads_shadows h hfresh]
    · rw [exec_deadlineExpiry, hexec, deadline_fails h0 h]
  case die =>
    intro hd
    refine ⟨fun h => ⟨fun hhot => ?_, fun hworn => ?_, fun hpf hv => ?_⟩, fun h hidle => ?_, fun h => ⟨?_, fun hf => ?_,
      fun hf hr => ?_⟩⟩
    · exact execDieRetrainDue_next hd h (triggers_temperature hhot.1 hhot.2)
    · exact execDieRetrainDue_next hd h (triggers_corrections hworn.1 hworn.2)
    · exact ⟨_, execRetrainCmd_die hd hpf hv, dueDie_state h⟩
    · refine ⟨setStack s d (fun u => { u with state := 2 }), ?_, ?_, ?_⟩
      · simp [execDieTrainingStart, onOk, dieOk, hd, h, hidle]
      · simp
      · simp [targetHeld]
    · exact execDieReady_ready hd now h
    · exact execDieReady_failure hd now h hf
    · exact execDieReady_thirdFailure hd now h hf hr
  case channel =>
    intro hc
    refine ⟨fun h => ⟨fun hhot => ?_, fun hworn => ?_, fun hpf hv => ?_⟩, fun h => ⟨?_, fun hf => ?_, fun hf hr => ?_⟩⟩
    · exact execChannelRetrainDue_next hc h Iff.rfl (triggers_temperature hhot.1 hhot.2)
    · exact execChannelRetrainDue_next hc h Iff.rfl (triggers_corrections hworn.1 hworn.2)
    · exact ⟨_, execRetrainCmd_channel hc hpf hv, dueChannel_state h Iff.rfl⟩
    · exact execChannelReady_ready hc h
    · exact execChannelReady_failure hc h hf
    · exact execChannelReady_thirdFailure hc h hf hr

end Sys2Proof.Proofs
end

section
/-! SUPPORT. The context table and what starts a shootdown: one rule per operation of the translation unit (03 R68, R78,
R79). -/
namespace Sys2Proof.Proofs
open Sys2Proof Machine Safety Laws

/-! ### Operands -/

/-- The context id of a command's bytes 16 to 19. -/
theorem ofNat_fld_ctx (e : W512) : BitVec.ofNat 20 (fld e 16 4) = e.extractLsb' 128 20 := by
  apply BitVec.eq_of_toNat_eq
  rw [BitVec.extractLsb'_toNat, Nat.shiftRight_eq_div_pow, BitVec.toNat_ofNat, fld, bits]
  exact Nat.mod_mod_of_dvd _ (by decide)

theorem ofNat_bits_low (v n : Nat) : BitVec.ofNat n (bits v 0 n) = BitVec.ofNat n v := by
  exact BitVec.eq_of_toNat_eq (by simp [bits_zero])

/-! ### The context table -/

theorem tfind_tdel {α : Type} (m : NatMap α) (k n : Nat) : tfind (tdel m k) n = if n = k then none else tfind m n := by
  induction m with
  | nil => simp [tdel, tfind]
  | cons e r ih =>
    obtain ⟨j, u⟩ := e
    simp only [tdel, List.filter_cons] at ih ⊢
    by_cases hj : j = k
    · subst hj
      simp only [ne_eq, not_true_eq_false, decide_false, Bool.false_eq_true, if_false, ih, tfind]
      by_cases hn : n = j <;> simp [hn, eq_comm]
    · simp only [ne_eq, hj, not_false_eq_true, decide_true, if_true, tfind, ih]
      by_cases hn : j = n
      · subst hn; simp [hj]
      · simp [hn]

theorem ctxOf_dropCtx (s : State) (c j : BitVec 20) : ctxOf (dropCtx s c) j = if j = c then none else ctxOf s j := by
  simp only [ctxOf, dropCtx, setXlt_xlt, tfind_tdel, BitVec.toNat_inj]
  by_cases h : j = c <;> simp [h]

/-- An installed descriptor of a type that exists is the context's entry; the other entries stay. -/
theorem ctxOf_install {s : State} {c : BitVec 20} {x : Ctx} (hx : x.type ≠ 0) (j : BitVec 20) :
    ctxOf (s.setXlt (fun z => { z with ctxs := tput z.ctxs c.toNat x })) j = if j = c then some x else ctxOf s j := by
  simp only [ctxOf, setXlt_xlt, tfind_tput, BitVec.toNat_inj]
  by_cases h : j = c
  · rw [if_pos h, if_pos h]
    exact if_neg hx
  · simp [h]

/-- A descriptor of the right form has a type. -/
theorem ctxFrom_type_ne_zero {d : W512} (h : ctxForm d = true) : (ctxFrom d).type ≠ 0 := by
  simp only [ctxForm, Bool.and_eq_true, decide_eq_true_eq] at h
  obtain ⟨⟨⟨⟨htype, -⟩, -⟩, -⟩, -⟩ := h
  simp only [ctxFrom]
  rcases htype with h | h <;> simp only [h] <;> decide

/-! ### A shootdown starts -/

theorem covered_iff {ctx : BitVec 20} {all : Bool} {base blocks : Nat} {x : TlbEntry} :
    covered ctx all base blocks x = true ↔
      x.ctx = ctx ∧ (all = true ∨ x.base < base + 65536 * blocks ∧ base < x.base + x.leaf.size) := by
  simp only [covered, Bool.and_eq_true, Bool.or_eq_true, beq_iff_eq, decide_eq_true_eq]

section
variable (s : State) (ctx : BitVec 20) (all : Bool) (base blocks : Nat) (queue : Option (Nat × W32)) (bank : Option Nat)
  (withdraw : Bool)

/-- Exactly the cached translations of the context and range are dropped. -/
theorem mem_tlb_startShoot (x : TlbEntry) : x ∈ (startShoot s ctx all base blocks queue bank withdraw).xlt.tlb ↔
    x ∈ s.xlt.tlb ∧ ¬ (x.ctx = ctx ∧ (all = true ∨ x.base < base + 65536 * blocks ∧ base < x.base + x.leaf.size)) := by
  simp only [startShoot, setXlt_xlt, List.mem_filter, ← covered_iff, Bool.not_eq_true', Bool.not_eq_true]

theorem startShoot_shoots : (startShoot s ctx all base blocks queue bank withdraw).xlt.shoots =
    s.xlt.shoots ++ [⟨s.xlt.nextShoot, ctx, all, base, blocks, shootEngines s ctx, oldAccesses s ctx, queue, bank, false,
      withdraw⟩] := rfl

theorem ctxOf_startShoot (j : BitVec 20) :
    ctxOf (startShoot s ctx all base blocks queue bank withdraw) j = ctxOf s j := rfl

end

/-! ### A command that a check refuses -/

/-- A refusal inside a command's work is the command's own failure: the work engine issues both records. -/
theorem engCmd_failCmdE_bind {α : Type} (c : Cmd) (st : Status) (f : α → Eng W64) (s : State) :
    engCmd c (failCmdE c st >>= f) s = some (failCmd s c st) := rfl

theorem engCmd_bind_ok {α : Type} (c : Cmd) {m : Eng α} {f : α → Eng W64} {a : α} {s t : State}
    (h : runEng m s = some (.ok a, t)) : engCmd c (m >>= f) s = engCmd c (f a) t := by
  simp only [engCmd, runEng_bind_ok h]

end Sys2Proof.Proofs
end

section
/-! PROOFS. CTX_INSTALL and CTX_WITHDRAW (03 R68; 14 R392, R393). -/
namespace Sys2Proof.Proofs
open Sys2Proof Machine Safety Laws

section
variable {s u : State} {q : Nat} {e : W512} {c : Cmd}

/-- CTX_INSTALL makes its checks in order, and enters the descriptor that passes them all. -/
theorem execCtxInstall_of_starts (hs : Starts s q e [(128, 20), (160, 27)] .work c u) (hcode : fld e 0 1 = 0x28)
    (halign : fld e 20 4 % 64 = 0) :
    let id : BitVec 20 := e.extractLsb' 128 20
    let a := fld e 20 4
    let d := lineOf (cellRead u.reservoir a 64)
    let fails (st : Status) : Prop := execCtxInstall q e s = .next (settle (failCmd u c st))
    (ctxPart u id ≠ c.part → fails stPerm) ∧
    (ctxPart u id = c.part → a + 64 ≤ Config.reservoirBytes → reservoirOwned u c.part a 64 = true →
      reservoirBad u a 64 = false →
      ((ctxFrom d).part ≠ c.part → fails stPerm) ∧
      ((ctxFrom d).part = c.part → (∃ x, ctxOf u id = some x) → fails stBusy) ∧
      ((ctxFrom d).part = c.part → ctxOf u id = none → ctxForm d = false → fails stFormat) ∧
      ((ctxFrom d).part = c.part → ctxOf u id = none → ctxForm d = true → execCtxInstall q e s =
        .next (settle (endCmd (u.setXlt (fun x => { x with ctxs := tput x.ctxs id.toNat (ctxFrom d) })) c 0 0)))) := by
  have hrow : (opcodeOf e == 0x28) = true := by simp [opcodeOf, hcode]
  obtain ⟨-, hraw, -⟩ := Starts_cmd hs
  refine ⟨fun hid => cmdRow_of_starts hs hrow ?_, fun hid hlen hown hbad => ?_⟩
  · simp only [Cmd.f, hraw, ofNat_fld_ctx, halign, ne_eq, not_true_eq_false, if_false, if_pos hid]
  have hread : runEng (readRsv c.who (fld e 20 4) 64) u = some (.ok (cellRead u.reservoir (fld e 20 4) 64), u) :=
    runEng_readRsv (by decide) hlen hown hbad
  refine ⟨fun hpart => cmdRow_of_starts hs hrow ?_, fun hpart hbusy => cmdRow_of_starts hs hrow ?_,
    fun hpart hfree hform => cmdRow_of_starts hs hrow ?_, fun hpart hfree hform => cmdRow_of_starts hs hrow ?_⟩
  all_goals
    simp only [Cmd.f, hraw, ofNat_fld_ctx, halign, ne_eq, not_true_eq_false, if_false, hid]
    rw [engCmd_bind_ok c hread]
  · rw [if_pos hpart, engCmd_failCmdE_bind]
  · rw [if_neg (not_not.mpr hpart), engCmd_bind_ok c (runEng_get u), if_pos (Option.isSome_iff_exists.mpr hbusy),
      engCmd_failCmdE_bind]
  · rw [if_neg (not_not.mpr hpart), engCmd_bind_ok c (runEng_get u), hfree, if_neg (by decide), hform,
      if_pos (by decide), engCmd_failCmdE_bind]
  · rw [if_neg (not_not.mpr hpart), engCmd_bind_ok c (runEng_get u), hfree, if_neg (by decide), hform,
      if_neg (by decide), engCmd_bind_ok c (runEng_modify _ u), engCmd_ok (runEng_pure 0 _)]

/-- CTX_WITHDRAW of a context of its partition: an invalid one is done at once, a named one is busy, and any other is
dropped and shot down. -/
theorem execCtxWithdraw_of_starts (hs : Starts s q e [(128, 20)] .work c u) (hcode : fld e 0 1 = 0x29)
    (hid : ctxPart u (e.extractLsb' 128 20) = c.part) :
    let id : BitVec 20 := e.extractLsb' 128 20
    (ctxOf u id = none → execCtxWithdraw q e s = .next (settle (endCmd u c 0 0))) ∧
    ((∃ x, ctxOf u id = some x) → ctxNamed u id = true →
      execCtxWithdraw q e s = .next (settle (failCmd u c stBusy))) ∧
    ((∃ x, ctxOf u id = some x) → ctxNamed u id = false → u.xlt.shoots.length < 16 → execCtxWithdraw q e s =
      .next (settle (startShoot (dropCtx u id) id true 0 0 (some (q, c.idx)) none true))) := by
  have hrow : (opcodeOf e == 0x29) = true := by simp [opcodeOf, hcode]
  obtain ⟨-, hraw, -⟩ := Starts_cmd hs
  refine ⟨fun hnone => cmdRow_of_starts hs hrow ?_, fun ⟨x, hx⟩ hnamed => cmdRow_of_starts hs hrow ?_,
    fun ⟨x, hx⟩ hnamed hroom => cmdRow_of_starts hs hrow ?_⟩
  all_goals simp only [Cmd.f, hraw, ofNat_fld_ctx, hid, ne_eq, not_true_eq_false, if_false]
  · rw [hnone, if_pos (by decide)]
  · rw [hx, if_neg (by simp), if_pos hnamed]
  · rw [hx, if_neg (by simp), hnamed, if_neg (by decide), if_neg (Nat.not_le.mpr hroom)]

end

/-- Settles O31: each command by its row; then what the table and the caches hold after it. -/
theorem contexts : Obligations.Contexts := by
  unfold Obligations.Contexts
  intro s u q e c id
  refine ⟨?install, ?withdraw⟩
  case install =>
    intro hs hcode a d halign
    obtain ⟨hother, hmine⟩ := execCtxInstall_of_starts hs hcode halign
    refine ⟨hother, fun hid hlen hown hbad => ?_⟩
    obtain ⟨hpart, hbusy, hform, hok⟩ := hmine hid hlen hown hbad
    refine ⟨hpart, hbusy, hform, fun hp hfree hf => ⟨_, hok hp hfree hf, ?_, fun j hj => ?_, rfl⟩⟩
    · rw [ctxOf_install (ctxFrom_type_ne_zero hf), if_pos rfl]
    · rw [ctxOf_install (ctxFrom_type_ne_zero hf), if_neg hj]
  case withdraw =>
    intro hs hcode hid
    obtain ⟨hinvalid, hnamed, hdrops⟩ := execCtxWithdraw_of_starts hs hcode hid
    refine ⟨hinvalid, hnamed, fun hx hfree hroom => ⟨_, hdrops hx hfree hroom, ?_, fun j hj => ?_, fun x hx => ?_, _,
      startShoot_shoots .., rfl, rfl⟩⟩
    · rw [ctxOf_startShoot, ctxOf_dropCtx, if_pos rfl]
    · rw [ctxOf_startShoot, ctxOf_dropCtx, if_neg hj]
    · exact fun he => ((mem_tlb_startShoot ..).mp hx).2 ⟨he, .inl rfl⟩

end Sys2Proof.Proofs
end

section
/-! PROOFS. Shootdowns and walks (03 R76, R78, R79). -/
namespace Sys2Proof.Proofs
open Sys2Proof Machine Safety Laws

/-! ### What starts a shootdown -/

/-- SHOOTDOWN of another partition's context is refused; any other starts while fewer than 16 run. -/
theorem execShootdown_of_starts {s u : State} {q : Nat} {e : W512} {c : Cmd}
    (hs : Starts s q e [(128, 20), (159, 1), (192, 57), (256, 32)] .work c u) (hcode : fld e 0 1 = 0x0B) :
    let id : BitVec 20 := e.extractLsb' 128 20
    let all := e.getLsbD 159
    let base := fld e 24 8
    ((∃ x, ctxOf u id = some x ∧ x.part ≠ c.part) → execShootdown q e s = .next (settle (failCmd u c stPerm))) ∧
    ((∀ x, ctxOf u id = some x → x.part = c.part) → (all = true ∨ base % 65536 = 0) → u.xlt.shoots.length < 16 →
      execShootdown q e s =
        .next (settle (startShoot u id all base (fld e 32 4) (some (q, c.idx)) none false))) := by
  have hrow : (opcodeOf e == 0x0B) = true := by simp [opcodeOf, hcode]
  obtain ⟨-, hraw, -⟩ := Starts_cmd hs
  have hall : bit (fld e 16 4) 31 = e.getLsbD 159 := bit_fld e (by decide)
  refine ⟨fun ⟨x, hx, hpart⟩ => cmdRow_of_starts hs hrow ?_, fun hpart halign hroom => cmdRow_of_starts hs hrow ?_⟩
  all_goals simp only [Cmd.f, hraw, hall, ofNat_bits_low, ofNat_fld_ctx]
  · rw [hx, if_pos (by simpa using hpart)]
  · have hmine : ((ctxOf u (e.extractLsb' 128 20)).map (fun x => x.part != c.part)).getD false = false := by
      cases hx : ctxOf u (e.extractLsb' 128 20) with
      | none => rfl
      | some x => simpa using hpart x hx
    have hok : ¬ ((!e.getLsbD 159) = true ∧ fld e 24 8 % 65536 ≠ 0) := by
      rcases halign with h | h <;> simp [h]
    rw [hmine, if_neg (by decide), if_neg hok, if_neg (Nat.not_le.mpr hroom)]

/-- GO of SHOOT_CMD starts a shootdown from the registers that the source has staged. -/
theorem execShootCmdGo_next {s : State} {src : RegSrc} {v : W64} (hpf : ByPf s src pXLT) (hgo : v.getLsbD 0 = true)
    (hroom : s.xlt.shoots.length < 16) :
    let g (rel : Nat) : W64 := regGet s (rkBank pXLT rel (srcBank src))
    execShootCmdGo src v s = .next (startShoot (setLastCmd s lcShoot (srcBank src) 0) ((g 0x100).setWidth 20)
      ((g 0x100).getLsbD 32) (bits (g 0x108).toNat 16 41 * 65536) (bits (g 0x110).toNat 16 41) none
      (some (srcBank src)) false) := by
  have hbit : bit v.toNat 0 = true := hgo
  have hgo' : ¬ ((!bit v.toNat 0) = true ∨ 16 ≤ s.xlt.shoots.length) := by simp [hbit, hroom]
  have hwrite := fun f => pfOnly_byPf f (by decide : pXLT < 154) (by decide : 0x118 < 4096) hpf
  simp only [execShootCmdGo, onOk, hpf.1, if_true, shootCmd, hwrite, if_neg hgo', ofNat_bits_low]
  rfl

/-! ### Acknowledgements and the end -/

theorem findShoot_id {s : State} {id : Nat} {sh : Shootdown} (h : findShoot s id = some sh) : sh.id = id := by
  simpa using List.find?_some h

/-- A change of one shootdown that keeps its id. -/
theorem find?_map_shoot {l : List Shootdown} {id : Nat} {sh : Shootdown} {f : Shootdown → Shootdown}
    (hf : ∀ y, (f y).id = y.id) (h : l.find? (fun x => x.id = id) = some sh) :
    (l.map f).find? (fun x => x.id = id) = some (f sh) := by
  rw [List.find?_map]
  simp only [Function.comp_def, hf, h, Option.map_some]

/-- An engine acknowledges: it is no longer waited for. -/
def acknowledged (id : Nat) (eng : Engine) (y : Shootdown) : Shootdown :=
  if y.id = id then { y with engines := y.engines.filter (fun g => g ≠ eng) } else y

theorem acknowledged_id (id : Nat) (eng : Engine) (y : Shootdown) : (acknowledged id eng y).id = y.id := by
  simp only [acknowledged]; split <;> rfl

theorem mem_acknowledged_engines {eng g : Engine} (y : Shootdown) :
    g ∈ (acknowledged y.id eng y).engines ↔ g ∈ y.engines ∧ g ≠ eng := by
  simp [acknowledged]

theorem execShootdownAck_next {s : State} {id : Nat} {eng : Engine} {sh : Shootdown} (hok : eng.ok = true)
    (hfind : findShoot s id = some sh) (hmem : eng ∈ sh.engines) (hidle : ∀ x ∈ onEngine s eng, x.ctx ≠ sh.ctx) :
    execShootdownAck id eng s = .next (s.setXlt (fun x => { x with shoots := x.shoots.map (acknowledged id eng) })) := by
  have hall : (onEngine s eng).all (fun x => x.ctx != sh.ctx) = true := by simpa [List.all_eq_true] using hidle
  simp only [execShootdownAck, onOk, hok, hfind, List.contains_iff_mem.mpr hmem, hall, Bool.and_self, if_true]
  rfl

theorem execShootdownComplete_next {s : State} {id : Nat} {sh : Shootdown} (hfind : findShoot s id = some sh)
    (hengines : sh.engines = []) (hold : oldLeft s sh = false) (hwait : waitingAccess s sh.ctx = false) :
    execShootdownComplete id s = .next (settle (endShoot s sh (if sh.failed then stReset else 0))) := by
  simp [execShootdownComplete, hfind, hengines, hold, hwait]

theorem endCommand_xlt (s : State) (q : Nat) (idx : W32) (st : Status) (r : W64) :
    (endCommand s q idx st r).xlt = s.xlt := by rw [endCommand_queuesOnly s q idx st r]

/-- A shootdown that has completed runs no more. -/
theorem endShoot_shoots (s : State) (sh : Shootdown) (st : Status) :
    (endShoot s sh st).xlt.shoots = s.xlt.shoots.filter (fun y => y.id ≠ sh.id) := by
  obtain ⟨id, ctx, all, base, blocks, engines, old, queue, bank, failed, withdraw⟩ := sh
  cases queue <;> cases bank <;> simp only [endShoot, lastDone, setLastCmd, endCommand_xlt, setXlt_xlt]

/-! ### Walks -/

theorem execWalk_next {s t : State} {ctx : BitVec 20} {dva : W64} {cx : Ctx} {r : Except Status (Nat × Leaf)}
    (hctx : ctxOf s ctx = some cx) (hreset : cx.resetting = false) (hdva : dva.toNat < 2 ^ 57)
    (hmiss : tlbFind s .l2 ctx dva.toNat = none)
    (hrun : runEng (walkNow { eng := .work, part := cx.part, ctx := ctx } cx dva.toNat) s = some (r, t)) :
    execWalk ctx dva s = .next t := by
  have hwalks : ¬ (cx.resetting = true ∨ 2 ^ 57 ≤ dva.toNat ∨ (tlbFind s .l2 ctx dva.toNat).isSome = true) := by
    simp [hreset, hmiss]; omega
  simp only [execWalk, hctx, if_neg hwalks, hrun]

/-- Settles O30: a start by what it drops and enters, an acknowledgement and the end by what they leave running. -/
theorem shootdowns : Obligations.Shootdowns := by
  unfold Obligations.Shootdowns
  intro s u q e c dropped
  refine ⟨?command, ?register, ?ack, ?complete, fun ctx dva cx r t => execWalk_next⟩
  case command =>
    intro hs hcode all id base
    obtain ⟨hperm, hstart⟩ := execShootdown_of_starts hs hcode
    exact ⟨hperm, fun hpart halign hroom =>
      ⟨_, hstart hpart halign hroom, fun x => mem_tlb_startShoot .., startShoot_shoots ..⟩⟩
  case register =>
    intro src v hok hsrc hup hreset hgo hroom g
    exact ⟨_, execShootCmdGo_next ⟨hok, hsrc, hup, hreset⟩ hgo hroom, fun x => mem_tlb_startShoot .., _,
      startShoot_shoots .., rfl, rfl, rfl⟩
  case ack =>
    intro id eng sh hok hfind hmem hidle
    refine ⟨_, execShootdownAck_next hok hfind hmem hidle, rfl, acknowledged id eng sh,
      find?_map_shoot (acknowledged_id id eng) hfind, ?_, fun g hg => ?_⟩
    · rw [← findShoot_id hfind, mem_acknowledged_engines]
      exact fun h => h.2 rfl
    · rw [← findShoot_id hfind, mem_acknowledged_engines]
      exact and_iff_left hg
  case complete =>
    intro id sh hfind hengines hold hwait
    refine ⟨_, execShootdownComplete_next hfind hengines hold hwait, fun x hx => ?_, rfl⟩
    rw [endShoot_shoots, findShoot_id hfind] at hx
    simpa using (List.mem_filter.mp hx).2

end Sys2Proof.Proofs
end

section
/-! SUPPORT. Key slots: what a slot command leaves, and the registers in which a wrapped pair is staged (03 R84, R85; 17
R474). -/
namespace Sys2Proof.Proofs
open Sys2Proof Machine Safety Laws

/-! ### Banked registers -/

theorem rkBank_ge (p rel b : Nat) : 2 ^ 26 ≤ rkBank p rel b := by unfold rkBank; omega

theorem rkBank_inj {p i j b : Nat} : rkBank p i b = rkBank p j b ↔ i = j := by unfold rkBank rk; omega

theorem regGet_withVectors (p : Nat) (f : State → State) (s : State) (k : Nat) :
    regGet (withVectors p f s) k = regGet (f s) k := by
  simp only [withVectors]
  split <;> split <;> rfl

theorem regGet_pushRecord {s : State} {k : Nat} (r : Record) (c : Option Nat) (hk : k ≠ rk pLMP 0x120) :
    regGet (pushRecord s r c).2 k = regGet s k := by
  simp only [pushRecord]
  split
  · rfl
  · exact regGet_bump 32 1 hk

/-- A recorded error leaves the banked registers as they were. -/
theorem regGet_logErr {s : State} {p rel b : Nat} {f : Fail} (hp : p < 154) (page bank : Nat) :
    regGet (logErr s p b f) (rkBank page rel bank) = regGet s (rkBank page rel bank) := by
  have hne : ∀ {q r : Nat}, q < 154 → r < 4096 → rkBank page rel bank ≠ rk q r := fun hq hr h =>
    absurd (rk_lt hq hr) (Nat.not_lt.mpr (h ▸ rkBank_ge page rel bank))
  simp only [logErr, regGet_withVectors]
  have hpush := fun r c => regGet_pushRecord (s := { s with free := s.free + 1 }) r c
    (hne (by decide : pLMP < 154) (by decide : 0x120 < 4096))
  split <;> simp only [bumpSat, regGet_setReg, hne hp (by decide : 0x20 < 4096), hne hp (by decide : 0x30 < 4096),
    hne hp (by decide : 0x38 < 4096), hne hp (by decide : 0x40 < 4096), if_false] <;> exact hpush _ _

/-! ### The staged pair -/

theorem packN_digits (n v : Nat) : ∀ m,
    packN n ((List.range m).map (fun i => v >>> (n * i) % 2 ^ n)) = v % 2 ^ (n * m) := by
  intro m
  induction m generalizing v with
  | zero => simp [packN, Nat.mod_one]
  | succ m ih =>
    have hrest : ∀ i, v >>> (n * (i + 1)) = v >>> n >>> (n * i) := fun i => by
      rw [← Nat.shiftRight_add, Nat.mul_succ, Nat.add_comm]
    rw [List.range_succ_eq_map, List.map_cons, List.map_map, packN]
    simp only [Function.comp_def, Nat.succ_eq_add_one, hrest, ih, Nat.mul_zero, Nat.shiftRight_zero, Nat.mod_mod]
    rw [Nat.mul_succ, Nat.add_comm (n * m) n, pow_add, Nat.mod_mul, Nat.shiftRight_eq_div_pow]

/-- A source stages a wrapped pair: the nine words of WRAP_BUF. -/
def stageWrap (s : State) (b : Nat) (v : BitVec 576) : State :=
  (List.range 9).foldl (fun s i => s.setReg (rkBank pKEY (0x200 + 8 * i) b) (v.extractLsb' (64 * i) 64)) s

/-- Clearing WRAP_BUF stages zero. -/
theorem clearWrap_eq (s : State) (b : Nat) : clearWrap s b = stageWrap s b 0 := by
  have hword : ∀ i, (0 : BitVec 576).extractLsb' (64 * i) 64 = 0 := fun i => BitVec.eq_of_toNat_eq (by simp)
  simp only [clearWrap, stageWrap, hword]

theorem regGet_stageWrap (s : State) (b : Nat) (v : BitVec 576) {i : Nat} (hi : i < 9) :
    regGet (stageWrap s b v) (rkBank pKEY (0x200 + 8 * i) b) = v.extractLsb' (64 * i) 64 := by
  have words : ∀ n, i < n → regGet ((List.range n).foldl (fun s j =>
      s.setReg (rkBank pKEY (0x200 + 8 * j) b) (v.extractLsb' (64 * j) 64)) s) (rkBank pKEY (0x200 + 8 * i) b) =
      v.extractLsb' (64 * i) 64 := by
    intro n
    induction n with
    | zero => exact fun h => absurd h (Nat.not_lt_zero i)
    | succ n ih =>
      intro h
      rw [List.range_succ, List.foldl_concat, regGet_setReg]
      split
      · next heq =>
        obtain rfl : i = n := by have := rkBank_inj.mp heq; omega
        rfl
      · next hne => exact ih (by have : i ≠ n := fun e => hne (e ▸ rfl); omega)
  exact words 9 hi

/-- The words of WRAP_BUF decide the pair that is staged. -/
theorem wrapBuf_of_words {s : State} {b : Nat} {v : BitVec 576}
    (h : ∀ i < 9, regGet s (rkBank pKEY (0x200 + 8 * i) b) = v.extractLsb' (64 * i) 64) : wrapBuf s b = v := by
  have hwords : (List.range 9).map (fun i => (regGet s (rkBank pKEY (0x200 + 8 * i) b)).toNat) =
      (List.range 9).map (fun i => v.toNat >>> (64 * i) % 2 ^ 64) :=
    List.map_congr_left fun i hi => by rw [h i (List.mem_range.mp hi), BitVec.extractLsb'_toNat]
  rw [wrapBuf, hwords, packN_digits, Nat.mod_eq_of_lt v.isLt, BitVec.ofNat_toNat, BitVec.setWidth_eq]

theorem wrapBuf_clearWrap (s : State) (b : Nat) : wrapBuf (clearWrap s b) b = 0 := by
  rw [clearWrap_eq]
  exact wrapBuf_of_words fun i hi => regGet_stageWrap s b 0 hi

theorem wrapBuf_refuse (s : State) (p f rel b : Nat) (hp : p < 154) : wrapBuf (refuse s p f rel) b = wrapBuf s b := by
  simp only [wrapBuf, refuse, regGet_logErr hp]

theorem stageWrap_eq (s : State) (b : Nat) (v : BitVec 576) :
    stageWrap s b v = { s with regs := (stageWrap s b v).regs } := by
  have fold : ∀ (l : List Nat) (u : State), u = { s with regs := u.regs } → ∀ t, t = l.foldl (fun s i =>
      s.setReg (rkBank pKEY (0x200 + 8 * i) b) (v.extractLsb' (64 * i) 64)) u → t = { s with regs := t.regs } := by
    intro l
    induction l with
    | nil => rintro u hu t rfl; exact hu
    | cons i r ih => exact fun u hu => ih _ (by rw [hu]; rfl)
  exact fold _ s rfl _ rfl

theorem clearWrap_keys (s : State) (b : Nat) : (clearWrap s b).keys = s.keys := by
  rw [clearWrap_eq, stageWrap_eq]

/-! ### Slots -/

@[simp] theorem keySlot_setKeySlot (s : State) (k j : BitVec 12) (f : KeySlot → KeySlot) :
    keySlot (setKeySlot s k f) j = if j = k then f (keySlot s k) else keySlot s j := by
  simp only [keySlot, setKeySlot, tget_tmod, BitVec.toNat_inj]

theorem keySlot_of_keys {s t : State} (h : t.keys = s.keys) (j : BitVec 12) : keySlot t j = keySlot s j := by
  simp only [keySlot, h]

theorem lastCmd_lastDone (s : State) (kind b : Nat) (st : Status) :
    lastCmd (lastDone s kind b st) kind b = 0x100 + BitVec.ofNat 16 st.toNat := by
  rw [lastCmd, lastDone, setLastCmd, tget_tput, if_pos rfl, BitVec.ofNat_add]
  rfl

theorem wrapBuf_lastDone (s : State) (kind bank : Nat) (st : Status) (b : Nat) :
    wrapBuf (lastDone s kind bank st) b = wrapBuf s b := rfl

theorem wrapBuf_setKeySlot (s : State) (k : BitVec 12) (f : KeySlot → KeySlot) (b : Nat) :
    wrapBuf (setKeySlot s k f) b = wrapBuf s b := rfl

/-- A slot command of a bank has ended with a status: its slot is `y`, and every other one is as before. -/
def SlotEnds (s t : State) (b : Nat) (k : BitVec 12) (st : W16) (y : KeySlot) : Prop :=
  lastCmd t lcSlot b = 0x100 + st ∧ (∀ j, j ≠ k → keySlot t j = keySlot s j) ∧ keySlot t k = y

/-- A slot command that is refused leaves every slot as it was. -/
theorem slotEnds_refused {s u : State} (h : u.keys = s.keys) (b : Nat) (k : BitVec 12) (st : Status) :
    SlotEnds s (lastDone u lcSlot b st) b k (BitVec.ofNat 16 st.toNat) (keySlot s k) :=
  ⟨lastCmd_lastDone .., fun j _ => keySlot_of_keys h j, keySlot_of_keys h k⟩

/-- A slot command that succeeds changes its slot only. -/
theorem slotEnds_done {s u : State} (h : u.keys = s.keys) (b : Nat) (k : BitVec 12) (f : KeySlot → KeySlot) :
    SlotEnds s (lastDone (setKeySlot u k f) lcSlot b 0) b k 0 (f (keySlot s k)) := by
  refine ⟨lastCmd_lastDone .., fun j hj => ?_, ?_⟩
  · exact (keySlot_setKeySlot u k j f).trans ((if_neg hj).trans (keySlot_of_keys h j))
  · exact (keySlot_setKeySlot u k k f).trans ((if_pos rfl).trans (congrArg f (keySlot_of_keys h k)))

/-! ### Slot commands -/

/-- The slot that a source has selected. -/
def slotSel (s : State) (src : RegSrc) : BitVec 12 := (regGet s (rkBank pKEY 0x100 (srcBank src))).setWidth 12

theorem ofNat_slotSel (s : State) (src : RegSrc) :
    BitVec.ofNat 12 (bits (regGet s (rkBank pKEY 0x100 (srcBank src))).toNat 0 12) = slotSel s src := ofNat_bits_low ..

section
variable {s : State} {src : RegSrc} (hpf : ByPf s src pKEY)
include hpf

theorem slotCmd_slotZero (op : Nat) (owner : BitVec 6) (hk : slotSel s src = 0) :
    slotCmd s src op owner = lastDone s lcSlot (srcBank src) stFormat := by
  rw [slotCmd, pfOnly_byPf _ (by decide) (by decide) hpf]
  simp only [ofNat_slotSel, hk, true_or, if_true]

section
variable (hk : slotSel s src ≠ 0)
include hk

/-- A command on a busy slot is refused; LOAD has cleared its staging registers all the same. -/
theorem slotCmd_busy {op : Nat} (owner : BitVec 6) (hop : op ≠ 0) (hbusy : (keySlot s (slotSel s src)).busy = true) :
    slotCmd s src op owner =
      lastDone (if op = 1 then clearWrap s (srcBank src) else s) lcSlot (srcBank src) stBusy := by
  rw [slotCmd, pfOnly_byPf _ (by decide) (by decide) hpf]
  simp only [ofNat_slotSel, hk, hop, or_self, if_false, hbusy, if_true]

variable (hfree : (keySlot s (slotSel s src)).busy = false)
include hfree

theorem slotCmd_load_valid (owner : BitVec 6) (hv : (keySlot s (slotSel s src)).valid = true) :
    slotCmd s src 1 owner = lastDone (clearWrap s (srcBank src)) lcSlot (srcBank src) stBusy := by
  rw [slotCmd, pfOnly_byPf _ (by decide) (by decide) hpf]
  simp only [ofNat_slotSel, hk, hfree, hv, one_ne_zero, or_self, Bool.false_eq_true, if_true, if_false]

/-- LOAD of a free slot unwraps what its staging registers hold once they are cleared: zero. -/
theorem slotCmd_load (owner : BitVec 6) (hv : (keySlot s (slotSel s src)).valid = false) :
    (Config.unwrapKey 0 = none → slotCmd s src 1 owner =
      lastDone (refuse (clearWrap s (srcBank src)) pKEY 0 0x108) lcSlot (srcBank src) stFormat) ∧
    (∀ p, Config.unwrapKey 0 = some p → slotCmd s src 1 owner = lastDone (setKeySlot (clearWrap s (srcBank src))
      (slotSel s src) (fun x => { x with pair := p, valid := true, owner := owner })) lcSlot (srcBank src) 0) := by
  rw [slotCmd, pfOnly_byPf _ (by decide) (by decide) hpf]
  simp only [ofNat_slotSel, hk, hfree, hv, one_ne_zero, or_self, Bool.false_eq_true, if_true, if_false,
    wrapBuf_clearWrap]
  exact ⟨fun h => by rw [h], fun p h => by rw [h]⟩

theorem slotCmd_clear (owner : BitVec 6) : slotCmd s src 2 owner = lastDone (setKeySlot s (slotSel s src)
    (fun x => { x with valid := false, busy := true, clearing := true })) lcSlot (srcBank src) 0 := by
  rw [slotCmd, pfOnly_byPf _ (by decide) (by decide) hpf]
  simp only [ofNat_slotSel, hk, hfree, OfNat.ofNat_ne_zero, or_self, Bool.false_eq_true, if_false, OfNat.ofNat_ne_one]

theorem slotCmd_setOwner_invalid (owner : BitVec 6) (hv : (keySlot s (slotSel s src)).valid = false) :
    slotCmd s src 3 owner = lastDone s lcSlot (srcBank src) stKey := by
  rw [slotCmd, pfOnly_byPf _ (by decide) (by decide) hpf]
  simp only [ofNat_slotSel, hk, hfree, hv, OfNat.ofNat_ne_zero, OfNat.ofNat_ne_one, or_self, Bool.false_eq_true,
    if_true, if_false, Bool.not_false]

theorem slotCmd_setOwner (owner : BitVec 6) (hv : (keySlot s (slotSel s src)).valid = true) :
    slotCmd s src 3 owner = lastDone (setKeySlot s (slotSel s src) (fun x => { x with owner := owner, busy := true }))
      lcSlot (srcBank src) 0 := by
  rw [slotCmd, pfOnly_byPf _ (by decide) (by decide) hpf]
  simp only [ofNat_slotSel, hk, hfree, hv, OfNat.ofNat_ne_zero, OfNat.ofNat_ne_one, or_self, Bool.false_eq_true,
    if_false, Bool.not_true]

end

end

/-! ### Drains -/

theorem execKeyDrainDone_next {s : State} {slot : BitVec 12} (h : (keySlot s slot).busy = true) :
    execKeyDrainDone slot s = .next (setKeySlot s slot (fun x =>
      { x with busy := false, clearing := false, pair := if x.clearing then 0 else x.pair })) := by
  simp only [execKeyDrainDone, h, if_true]

/-! ### A shootdown's bound is missed -/

/-- An engine that did not acknowledge in time: the shootdown fails, and waits for it no longer. -/
def overrun (id : Nat) (eng : Engine) (y : Shootdown) : Shootdown :=
  if y.id = id then { y with failed := true, engines := y.engines.filter (fun g => g ≠ eng) } else y

theorem execShootdownOverrun_next {s : State} {id n : Nat} {eng : Engine} {sh : Shootdown} (hok : eng.ok = true)
    (hfind : findShoot s id = some sh) (hmem : eng ∈ sh.engines) (ht : engineTarget eng = some n) :
    execShootdownOverrun id eng s = .next (autoReset ((logErr s pXLT 1 { status := stReset, ctx := some sh.ctx }).setXlt
      (fun x => { x with shoots := x.shoots.map (overrun id eng) })) 2 n false) := by
  simp only [execShootdownOverrun, onOk, hok, hfind, List.contains_iff_mem.mpr hmem, ht, Bool.not_true,
    Bool.false_eq_true, if_true, if_false]
  rfl

end Sys2Proof.Proofs
end

section
/-! PROOFS. How far the key slot commands are settled (03 R79, R84 to R86; 17 R474). -/
namespace Sys2Proof.Proofs
open Sys2Proof Machine Safety Laws

/-- Every slot command is one of three operations. -/
theorem exec_slotCommand {s : State} {src : RegSrc} {owner : BitVec 6} (hok : src.ok = true) :
    ∀ i, i ∈ [(.load src owner : Instr), .clear src, .setOwner src owner] →
      ∃ op, op ≠ 0 ∧ ∃ o, exec i s = .next (slotCmd s src op o) := by
  simp only [List.forall_mem_cons, List.not_mem_nil, false_imp_iff, implies_true, and_true]
  exact ⟨⟨1, by decide, owner, if_pos hok⟩, ⟨2, by decide, 0, if_pos hok⟩, ⟨3, by decide, owner, if_pos hok⟩⟩

/-- A state whose physical function has staged a wrapped pair and selected slot 1, which is free. -/
def stagedState (v : BitVec 576) : State := (stageWrap State.reset 0 v).setReg (rkBank pKEY 0x100 0) 1

theorem stagedState_eq (v : BitVec 576) : stagedState v = { State.reset with regs := (stagedState v).regs } := by
  rw [stagedState, stageWrap_eq]
  rfl

theorem wrapBuf_stagedState (v : BitVec 576) : wrapBuf (stagedState v) 0 = v :=
  wrapBuf_of_words fun i hi => by
    rw [stagedState, regGet_setReg, if_neg (by rw [rkBank_inj]; omega), regGet_stageWrap _ _ _ hi]

theorem slotSel_stagedState (v : BitVec 576) : slotSel (stagedState v) .pf = 1 := by
  simp only [slotSel, srcBank, stagedState, regGet_setReg, if_true]
  rfl

theorem byPf_stagedState (v : BitVec 576) : ByPf (stagedState v) .pf pKEY := by
  rw [stagedState_eq]
  exact ⟨rfl, fun v h => RegSrc.noConfusion h, rfl, rfl⟩

theorem keySlot_stagedState (v : BitVec 576) : keySlot (stagedState v) 1 = KeySlot.empty := by
  rw [stagedState_eq]
  rfl

/-- How LOAD of a free slot ends depends on what unwrapping answers for zero. -/
theorem execLoad_free {s : State} {src : RegSrc} (owner : BitVec 6) (hpf : ByPf s src pKEY) (hk : slotSel s src ≠ 0)
    (hfree : (keySlot s (slotSel s src)).busy = false) (hv : (keySlot s (slotSel s src)).valid = false) :
    ∃ t, exec (.load src owner) s = .next t ∧ wrapBuf t (srcBank src) = 0 ∧
      (Config.unwrapKey 0 = none →
        SlotEnds s t (srcBank src) (slotSel s src) 0x11 (keySlot s (slotSel s src))) ∧
      (∀ p, Config.unwrapKey 0 = some p → SlotEnds s t (srcBank src) (slotSel s src) 0
        { keySlot s (slotSel s src) with pair := p, valid := true, owner := owner }) := by
  have hclear := clearWrap_keys s (srcBank src)
  have hrefuse : (refuse (clearWrap s (srcBank src)) pKEY 0 0x108).keys = s.keys := by
    rw [refuse, logErr_logsOnly (clearWrap s (srcBank src)) pKEY 0 _]
    exact hclear
  obtain ⟨hfails, hloads⟩ := slotCmd_load hpf hk hfree owner hv
  refine ⟨slotCmd s src 1 owner, if_pos hpf.1, ?_, fun h => ?_, fun p h => ?_⟩
  · cases h : Config.unwrapKey 0 with
    | none =>
      rw [hfails h, wrapBuf_lastDone, wrapBuf_refuse _ _ _ _ _ (by decide), wrapBuf_clearWrap]
    | some p =>
      rw [hloads p h, wrapBuf_lastDone, wrapBuf_setKeySlot, wrapBuf_clearWrap]
  · rw [hfails h]
    exact slotEnds_refused hrefuse ..
  · rw [hloads p h]
    exact slotEnds_done hclear ..

/-- What the statement says of LOAD needs unwrapping to answer the same for every wrapped pair. -/
theorem unwrapKey_constant_of_keySlots (h : Obligations.KeySlots) (v : BitVec 576) :
    Config.unwrapKey v = Config.unwrapKey 0 := by
  unfold Obligations.KeySlots at h
  have hsel := slotSel_stagedState v
  have hslot := keySlot_stagedState v
  have hpf := byPf_stagedState v
  have hk : slotSel (stagedState v) .pf ≠ 0 := by rw [hsel]; decide
  have hfree : (keySlot (stagedState v) (slotSel (stagedState v) .pf)).busy = false := by rw [hsel, hslot]; rfl
  have hv : (keySlot (stagedState v) (slotSel (stagedState v) .pf)).valid = false := by rw [hsel, hslot]; rfl
  have hwrap : Config.unwrapKey (wrapBuf (stagedState v) (srcBank .pf)) = Config.unwrapKey v :=
    congrArg _ (wrapBuf_stagedState v)
  obtain ⟨hslots, -⟩ := h (stagedState v) .pf 0 0
  obtain ⟨-, hload, hloads, -⟩ := (hslots hpf).2 hk hfree
  obtain ⟨t, hexec, -, hzero, hzeros⟩ := execLoad_free 0 hpf hk hfree hv
  have hstatus : (0x100 : W16) + 0x11 ≠ 0x100 + 0 := by decide
  cases hu : Config.unwrapKey v with
  | none =>
    obtain ⟨t', hexec', hcmd, -⟩ := hload hv (hwrap.trans hu)
    obtain rfl : t = t' := Host.Outcome.next.inj (hexec.symm.trans hexec')
    cases hu0 : Config.unwrapKey 0 with
    | none => rfl
    | some p => exact absurd (hcmd.symm.trans (hzeros p hu0).1) hstatus
  | some p =>
    obtain ⟨t', hexec', hcmd, -, hpair, -⟩ := hloads hv p (hwrap.trans hu)
    obtain rfl : t = t' := Host.Outcome.next.inj (hexec.symm.trans hexec')
    cases hu0 : Config.unwrapKey 0 with
    | none => exact absurd ((hzero hu0).1.symm.trans hcmd) hstatus
    | some p' =>
      obtain ⟨-, -, hpair'⟩ := hzeros p' hu0
      exact congrArg (fun y => some y.pair) (hpair.symm.trans hpair')

/-- The clauses of LOAD into a free slot hold if unwrapping answers the same for every wrapped pair; all the others hold
as they stand. -/
theorem keySlots_of_unwrapKey_constant (hconst : ∀ v, Config.unwrapKey v = Config.unwrapKey 0) :
    Obligations.KeySlots := by
  unfold Obligations.KeySlots
  refine fun s src owner slot => ⟨fun hpf => ⟨fun i hi => ?refused, fun hk hfree => ?free⟩, fun hbusy => ?drain,
    ?overrun⟩
  case refused =>
    obtain ⟨op, hop, o, hexec⟩ := exec_slotCommand hpf.1 i hi
    refine ⟨fun hk => ⟨_, hexec, ?_⟩, fun hk hbusy => ⟨_, hexec, ?_⟩⟩
    · rw [slotCmd_slotZero hpf op o hk]
      exact slotEnds_refused rfl ..
    · rw [slotCmd_busy hpf hk o hop hbusy]
      exact slotEnds_refused (by split; exacts [clearWrap_keys .., rfl]) ..
  case free =>
    have hok := hpf.1
    have hends : ∀ {t st y}, SlotEnds s t (srcBank src) (slotSel s src) st y → wrapBuf t (srcBank src) = 0 →
        lastCmd t lcSlot (srcBank src) = 0x100 + st ∧ (∀ j, j ≠ slotSel s src → keySlot t j = keySlot s j) ∧
          keySlot t (slotSel s src) = y ∧ wrapBuf t (srcBank src) = 0 :=
      fun ⟨hcmd, hothers, hslot⟩ hwrap => ⟨hcmd, hothers, hslot, hwrap⟩
    refine ⟨fun hv => ⟨_, if_pos hok, ?_⟩, fun hv hnone => ?_, fun hv p hp => ?_, ⟨_, if_pos hok, ?_⟩,
      fun hv => ⟨_, if_pos hok, ?_⟩, fun hv => ⟨_, if_pos hok, ?_⟩⟩
    · rw [slotCmd_load_valid hpf hk hfree owner hv]
      exact hends (slotEnds_refused (clearWrap_keys ..) ..) ((wrapBuf_lastDone ..).trans (wrapBuf_clearWrap ..))
    · obtain ⟨t, hexec, hwrap, hfails, -⟩ := execLoad_free owner hpf hk hfree hv
      exact ⟨t, hexec, hends (hfails ((hconst _).symm.trans hnone)) hwrap⟩
    · obtain ⟨t, hexec, hwrap, -, hloads⟩ := execLoad_free owner hpf hk hfree hv
      exact ⟨t, hexec, hends (hloads p ((hconst _).symm.trans hp)) hwrap⟩
    · rw [slotCmd_clear hpf hk hfree]
      exact slotEnds_done rfl ..
    · rw [slotCmd_setOwner_invalid hpf hk hfree owner hv]
      exact slotEnds_refused rfl ..
    · rw [slotCmd_setOwner hpf hk hfree owner hv]
      exact slotEnds_done rfl ..
  case drain =>
    exact ⟨_, execKeyDrainDone_next hbusy, rfl, (keySlot_setKeySlot ..).trans (if_pos rfl),
      fun j hj => (keySlot_setKeySlot ..).trans (if_neg hj)⟩
  case overrun =>
    intro id eng sh hok hfind hmem
    refine ⟨fun sc h => ?_, fun n h => ?_⟩
    · obtain ⟨ch, rfl⟩ := h
      exact execShootdownOverrun_next hok hfind hmem rfl
    · subst h
      exact execShootdownOverrun_next hok hfind hmem rfl

/-- O51 rests on an open value. LOAD clears its staging registers before it unwraps them (`slotCmd`), so it always
unwraps zero, where the statement asks for what was staged. The two agree exactly if unwrapping answers the same for every
wrapped pair; `Config.unwrapKey` has no body, so neither that nor its opposite can be proved. -/
theorem keySlots_iff_unwrapKey_constant : Obligations.KeySlots ↔ ∀ v, Config.unwrapKey v = Config.unwrapKey 0 :=
  ⟨unwrapKey_constant_of_keySlots, keySlots_of_unwrapKey_constant⟩

end Sys2Proof.Proofs
end

section
/-! SUPPORT. Lanes, ports and the light supply: what each operation of the optical layer leaves of a lane, of its port and
of the supply (04 R101 to R116). -/
namespace Sys2Proof.Proofs
open Sys2Proof Machine Safety Laws

/-! ### Logs -/

namespace LogsOnly
variable {s t u : State}

theorem ite {c : Prop} [Decidable c] (ht : LogsOnly s t) (hu : LogsOnly s u) : LogsOnly s (if c then t else u) := by
  split
  · exact ht
  · exact hu

theorem lantern (h : LogsOnly s t) : t.lantern = s.lantern := by rw [h]

theorem port (h : LogsOnly s t) (n : Nat) : t.port n = s.port n := by
  simp only [State.port, h.lantern]

end LogsOnly

/-- Registers of any pages at different offsets have different keys. -/
theorem rk_ne {p q i j : Nat} (hi : i < 4096) (hj : j < 4096) (h : i ≠ j) : rk p i ≠ rk q j := by
  have aligned : ∀ r, pageBase r % 4096 = 0 := fun r => by unfold pageBase; split_ifs <;> omega
  have hp := aligned p
  have hq := aligned q
  unfold rk
  omega

theorem regGet_logEvt_of_ne {s : State} {p b page rel : Nat} (hr : rel < 4096) (h : rel ≠ 0x48) :
    regGet (logEvt s p b) (rk page rel) = regGet s (rk page rel) := by
  rw [logEvt, regGet_withVectors, regGet_setReg, if_neg (rk_ne hr (by decide) h)]

/-- A recorded error changes no register but those of errors in the common header, and ERING_DROP. -/
theorem regGet_logErr_of_ne {s : State} {p b page rel : Nat} {f : Fail} (hr : rel < 4096)
    (h : rel ∉ [0x20, 0x30, 0x38, 0x40, 0x120]) : regGet (logErr s p b f) (rk page rel) = regGet s (rk page rel) := by
  have hsmall : ∀ j ∈ [0x20, 0x30, 0x38, 0x40, 0x120], j < 4096 := by decide
  have hne : ∀ {q j : Nat}, j ∈ [0x20, 0x30, 0x38, 0x40, 0x120] → rk page rel ≠ rk q j := fun hj =>
    rk_ne hr (hsmall _ hj) (fun e => h (e ▸ hj))
  have hpush := fun r c => regGet_pushRecord (s := { s with free := s.free + 1 }) (k := rk page rel) r c
    (hne (by decide : 0x120 ∈ _))
  simp only [logErr, regGet_withVectors]
  split <;> simp only [bumpSat, regGet_setReg, hne (by decide : 0x20 ∈ _), hne (by decide : 0x30 ∈ _),
    hne (by decide : 0x38 ∈ _), hne (by decide : 0x40 ∈ _), if_false] <;> exact hpush _ _

/-! ### The supply, and CTRL and PORT_CFG of the ports -/

/-- Whether there is light, the input in use, and the enabling and configuration of every port are as before. -/
structure SameSupply (s t : State) : Prop where
  dark    : t.lantern.dark = s.lantern.dark
  activeB : t.lantern.activeB = s.lantern.activeB
  on      : ∀ n, portOn t n = portOn s n
  cfg     : ∀ n, portCfg t n = portCfg s n

namespace SameSupply
variable {s t u : State}

theorem refl (s : State) : SameSupply s s := ⟨rfl, rfl, fun _ => rfl, fun _ => rfl⟩

theorem trans (h : SameSupply s t) (h' : SameSupply t u) : SameSupply s u :=
  ⟨h'.dark.trans h.dark, h'.activeB.trans h.activeB, fun n => (h'.on n).trans (h.on n),
    fun n => (h'.cfg n).trans (h.cfg n)⟩

theorem setPort (h : SameSupply s t) (n : Nat) (f : Port → Port) : SameSupply s (t.setPort n f) :=
  ⟨h.dark, h.activeB, h.on, h.cfg⟩

theorem emit (h : SameSupply s t) (o : Out) : SameSupply s (Machine.emit t o) :=
  ⟨h.dark, h.activeB, h.on, h.cfg⟩

theorem logErr (h : SameSupply s t) (p b : Nat) (f : Fail) : SameSupply s (Machine.logErr t p b f) := by
  have hlantern := (logErr_logsOnly t p b f).lantern
  refine h.trans ⟨by rw [hlantern], by rw [hlantern], fun n => ?_, fun n => ?_⟩
  · rw [portOn, regGet_logErr_of_ne (by decide) (by decide)]; rfl
  · rw [portCfg, regGet_logErr_of_ne (by decide) (by decide)]; rfl

theorem logEvt (h : SameSupply s t) (p b : Nat) : SameSupply s (Machine.logEvt t p b) := by
  have hlantern := (logEvt_logsOnly t p b).lantern
  refine h.trans ⟨by rw [hlantern], by rw [hlantern], fun n => ?_, fun n => ?_⟩
  · rw [portOn, regGet_logEvt_of_ne (by decide) (by decide)]; rfl
  · rw [portCfg, regGet_logEvt_of_ne (by decide) (by decide)]; rfl

theorem foldl {α : Type} {f : State → α → State} (hf : ∀ t a, SameSupply t (f t a)) (l : List α) :
    ∀ s, SameSupply s (l.foldl f s) := by
  induction l with
  | nil => exact refl
  | cons a l ih => exact fun s => (hf s a).trans (ih _)

theorem laneUsable (h : SameSupply s t) (n : Nat) : laneUsable t n = laneUsable s n := by
  simp only [Machine.laneUsable, h.on, h.dark]

theorem refreshPort (h : SameSupply s t) (n : Nat) : SameSupply s (Machine.refreshPort t n) := by
  simp only [Machine.refreshPort, portFail]
  split
  · exact ((h.setPort n _).setPort n _).emit _
  · split
    · split
      · exact ((h.setPort n _).setPort n _).logErr ..
      · exact (h.setPort n _).setPort n _
    · exact h.setPort n _

theorem lanesChanged (h : SameSupply s t) (n : Nat) : SameSupply s (Machine.lanesChanged t n) :=
  (h.setPort n _).refreshPort n

theorem tuneLane (h : SameSupply s t) (n k : Nat) : SameSupply s (Machine.tuneLane t n k) := by
  simp only [Machine.tuneLane, setLane]
  split
  · exact (h.setPort n _).logErr ..
  · exact h.setPort n _

theorem tunePort (h : SameSupply s t) (n : Nat) : SameSupply s (Machine.tunePort t n) := by
  refine ((h.setPort n _).trans (foldl (fun u k => ?_) _ _)).lanesChanged n
  split
  · exact refl u
  · exact (refl u).tuneLane n k

end SameSupply

/-! ### One lane -/

theorem portLane_setLane (s : State) (n k j : Nat) (f : Lane → Lane) : portLane ((setLane s n k f).port n) j =
    if k = j ∧ j < (s.port n).lanes.length then f (portLane (s.port n) j) else portLane (s.port n) j := by
  simp only [setLane, port_setPort, if_true, portLane, listSet, List.getD_eq_getElem?_getD, List.getElem?_modify]
  by_cases hj : j < (s.port n).lanes.length
  · by_cases hk : k = j <;> simp [hj, hk]
  · simp [hj]

theorem portLane_setLane_self {s : State} {n k : Nat} (f : Lane → Lane) (hk : k < (s.port n).lanes.length) :
    portLane ((setLane s n k f).port n) k = f (portLane (s.port n) k) := by
  rw [portLane_setLane, if_pos ⟨rfl, hk⟩]

@[simp] theorem lanes_length_setLane (s : State) (n k : Nat) (f : Lane → Lane) :
    ((setLane s n k f).port n).lanes.length = (s.port n).lanes.length := by
  simp [setLane, listSet]

/-- A lane that is not OFF is one of the port's. -/
theorem lt_lanes_length {p : Port} {k : Nat} (h : (portLane p k).state ≠ lnOff) : k < p.lanes.length := by
  by_contra hk
  exact h (by simp [portLane, hk, Lane.off])

/-! ### What follows a lane's change -/

/-- Two ports have the same lanes, the same data lanes in use and the same lane for control traffic, and both or neither
have met their peer. -/
structure SameLanes (p q : Port) : Prop where
  lanes   : q.lanes = p.lanes
  met     : q.met = p.met
  txUse   : q.txUse = p.txUse
  rxUse   : q.rxUse = p.rxUse
  ctlLane : q.ctlLane = p.ctlLane

theorem SameLanes.portLane {p q : Port} (h : SameLanes p q) (k : Nat) : portLane q k = portLane p k := by
  simp only [Machine.portLane, h.lanes]

/-- A port whose lanes changed takes the state that they give it (R113). -/
theorem refreshPort_port (s : State) (n : Nat) :
    SameLanes (s.port n) ((refreshPort s n).port n) ∧ ((refreshPort s n).port n).state = portStateOf s n := by
  have hemit : ∀ u o, (emit u o).port n = u.port n := fun _ _ => rfl
  simp only [refreshPort]
  split
  · simp only [hemit, port_setPort, if_true]
    exact ⟨⟨rfl, rfl, rfl, rfl, rfl⟩, trivial⟩
  · split
    · simp only [portFail, (LogsOnly.ite (logErr_logsOnly ..) (.refl _)).port, port_setPort, if_true]
      exact ⟨⟨rfl, rfl, rfl, rfl, rfl⟩, trivial⟩
    · simp only [port_setPort, if_true]
      exact ⟨⟨rfl, rfl, rfl, rfl, rfl⟩, trivial⟩

theorem lanesChanged_port (s : State) (n : Nat) : SameLanes (s.port n) ((lanesChanged s n).port n) := by
  obtain ⟨⟨hl, hm, ht, hr, hc⟩, -⟩ := refreshPort_port (s.setPort n (fun p => { p with txMap := offered p })) n
  simp only [port_setPort, if_true] at hl hm ht hr hc
  exact ⟨hl, hm, ht, hr, hc⟩

theorem portLane_lanesChanged (s : State) (n k : Nat) :
    portLane ((lanesChanged s n).port n) k = portLane (s.port n) k := (lanesChanged_port s n).portLane k

/-- The lane whose turn comes loses WAIT alone (R111). -/
theorem nextWaiting_port (s : State) (n : Nat) : ((nextWaiting s n).port n).met = (s.port n).met ∧
    ∀ k, ∃ w, portLane ((nextWaiting s n).port n) k = { portLane (s.port n) k with wait := w } := by
  simp only [nextWaiting]
  split
  · exact ⟨rfl, fun k => ⟨_, rfl⟩⟩
  · split
    · next j hj =>
      refine ⟨by simp [setLane], fun k => ?_⟩
      rw [portLane_setLane]
      split
      · exact ⟨false, rfl⟩
      · exact ⟨_, rfl⟩
    · exact ⟨rfl, fun k => ⟨_, rfl⟩⟩

/-- The end of a lane's change: the waiting lane takes its turn, the offered map and the port follow. -/
theorem lanesChanged_nextWaiting_port (s : State) (n : Nat) :
    ((lanesChanged (nextWaiting s n) n).port n).met = (s.port n).met ∧
    ∀ k, ∃ w, portLane ((lanesChanged (nextWaiting s n) n).port n) k = { portLane (s.port n) k with wait := w } := by
  obtain ⟨hmet, hlane⟩ := nextWaiting_port s n
  refine ⟨(lanesChanged_port ..).met.trans hmet, fun k => ?_⟩
  rw [portLane_lanesChanged]
  exact hlane k

theorem state_lanesChanged_nextWaiting (s : State) (n k : Nat) :
    (portLane ((lanesChanged (nextWaiting s n) n).port n) k).state = (portLane (s.port n) k).state := by
  obtain ⟨w, hw⟩ := (lanesChanged_nextWaiting_port s n).2 k
  rw [hw]

/-! ### Failing and retraining -/

theorem failLane_state {s : State} {n k : Nat} (hk : k < (s.port n).lanes.length) :
    (portLane ((failLane s n k).port n) k).state = lnFailed := by
  rw [failLane, state_lanesChanged_nextWaiting, portFail, (logErr_logsOnly ..).port, portLane_setLane_self _ hk]

/-- A lane without AUTO_RETRAIN fails unless a command retrains it (R110). -/
theorem startRetrain_state {s : State} {n k : Nat} (command mine : Bool) (hk : k < (s.port n).lanes.length) :
    (portLane ((startRetrain s n k command mine).port n) k).state =
      if !command && !bit (portCfg s n) 0 then lnFailed else lnRetrain := by
  rw [startRetrain]
  split
  · exact failLane_state hk
  · have hreq : ∀ (c : Prop) [Decidable c] (u : State),
        portLane ((if c then u.setPort n (fun p => { p with failReq := true }) else u).port n) k = portLane (u.port n) k :=
      fun c _ u => by
        split
        · simp [portLane]
        · rfl
    simp only [portLane_lanesChanged, hreq, (LogsOnly.ite (logEvt_logsOnly ..) (.refl _)).port, portLane_setLane_self _ hk]

/-- A condition of R110 on an ACTIVE lane. -/
theorem retrainIf_state {s : State} {n k : Nat} (huse : laneUsable s n = true)
    (hact : (portLane (s.port n) k).state = lnActive) :
    (portLane ((retrainIf s n k true).port n) k).state = if (portCfg s n).testBit 0 then lnRetrain else lnFailed := by
  have hk : k < (s.port n).lanes.length := lt_lanes_length (by rw [hact]; decide)
  rw [retrainIf, if_pos (by simp [huse, laneActive, hact]), startRetrain_state false true hk, bit]
  cases (portCfg s n).testBit 0 <;> rfl

/-! ### Tuning -/

theorem tuneLane_port (s : State) (n k : Nat) : ((tuneLane s n k).port n).lanes.length = (s.port n).lanes.length ∧
    ∀ j, (portLane ((tuneLane s n k).port n) j).state =
      if k = j ∧ j < (s.port n).lanes.length then lnTune else (portLane (s.port n) j).state := by
  simp only [tuneLane, (LogsOnly.ite (logErr_logsOnly ..) (.refl _)).port, lanes_length_setLane, portLane_setLane, true_and]
  intro j
  split <;> rfl

/-- Lanes of an enabled port tune one after the other; DISABLED ones stay as they are. -/
theorem tuneLanes_state (s : State) (n : Nat) : ∀ m, let t := (List.range m).foldl (fun s k =>
      if (portLane (s.port n) k).state = lnDisabled then s else tuneLane s n k) s
    (t.port n).lanes.length = (s.port n).lanes.length ∧ ∀ j, (portLane (t.port n) j).state =
      if j < m ∧ j < (s.port n).lanes.length ∧ (portLane (s.port n) j).state ≠ lnDisabled then lnTune
      else (portLane (s.port n) j).state := by
  intro m
  induction m with
  | zero => simp
  | succ m ih =>
    obtain ⟨hlen, hstate⟩ := ih
    simp only [List.range_succ, List.foldl_concat]
    generalize (List.range m).foldl _ s = t at hlen hstate
    have hm := hstate m
    rw [if_neg (by omega)] at hm
    split
    · next hdis =>
      refine ⟨hlen, fun j => (hstate j).trans ?_⟩
      rw [hm] at hdis
      by_cases hj : j = m
      · subst hj; simp [hdis]
      · simp only [show j < m + 1 ↔ j < m by omega]
    · next hdis =>
      obtain ⟨hlen', hstate'⟩ := tuneLane_port t n m
      refine ⟨hlen'.trans hlen, fun j => (hstate' j).trans ?_⟩
      rw [hm] at hdis
      rw [hlen]
      by_cases hj : m = j
      · subst hj
        simp only [hm, hdis, true_and, lt_add_one, ne_eq, not_false_eq_true, and_true]
      · rw [if_neg (fun h => hj h.1), hstate]
        simp only [show j < m + 1 ↔ j < m by omega]

/-- A port trains as from OFF: every lane that is not DISABLED tunes (R109). -/
theorem tunePort_state {s : State} {n j : Nat} (hlen : (s.port n).lanes.length = 5) (hj : j < 5)
    (hdis : (portLane (s.port n) j).state ≠ lnDisabled) : (portLane ((tunePort s n).port n) j).state = lnTune := by
  rw [tunePort, portLane_lanesChanged, (tuneLanes_state _ n 5).2 j, if_pos]
  rw [port_setPort, if_pos rfl]
  exact ⟨hj, hlen ▸ hj, hdis⟩

/-! ### Control traffic -/

theorem moveControl_ctlLane (s : State) (n k : Nat) : ((moveControl s n k).port n).ctlLane = BitVec.ofNat 3 k := by
  rw [moveControl, (refreshPort_port ..).1.ctlLane, (logEvt_logsOnly ..).port, (logEvt_logsOnly ..).port, port_setPort,
    if_pos rfl]

/-! ### Light -/

/-- The selector moves to the other input; nothing is lit or dark by that. -/
theorem switchInput_supply (s : State) : (switchInput s).lantern.activeB = (!s.lantern.activeB) ∧
    (switchInput s).lantern.dark = s.lantern.dark := by
  have hboost : ∀ u, (applyBoosters u).lantern.activeB = u.lantern.activeB ∧
      (applyBoosters u).lantern.dark = u.lantern.dark := fun u => by
    simp only [applyBoosters]
    split
    · simp only [(logErr_logsOnly ..).lantern, and_self]
    · exact ⟨rfl, rfl⟩
  simp only [switchInput, hboost, (logEvt_logsOnly ..).lantern]
  split <;> exact ⟨rfl, rfl⟩

theorem autoSwitchover_supply (s : State) (w : Bool) : (autoSwitchover s w).lantern.activeB = (!s.lantern.activeB) ∧
    (autoSwitchover s w).lantern.dark = s.lantern.dark := by
  simp only [autoSwitchover]
  generalize (if w then s.lantern.recent + 1 else 1) = n
  have hswitch := switchInput_supply { s with lantern := { s.lantern with recent := n } }
  split
  · simp only [(logErr_logsOnly ..).lantern]
    exact hswitch
  · exact hswitch

theorem loseLight_dark (s : State) : (loseLight s).lantern.dark = true := by
  rw [loseLight]
  split
  · next h => exact h
  · refine (SameSupply.foldl (fun t n => ?_) _ _).dark.trans ?_
    · split
      · exact ((SameSupply.refl t).setPort n _).lanesChanged n
      · exact .refl t
    · rw [(logErr_logsOnly ..).lantern]

theorem regainLight_supply (s : State) : (regainLight s).lantern.dark = false ∧
    (regainLight s).lantern.activeB = s.lantern.activeB := by
  rw [regainLight]
  split
  · next h => exact ⟨by simpa using h, rfl⟩
  · have hports := SameSupply.foldl (f := fun s n => if portOn s n then tunePort s n else s) (fun t n => by
      split
      · exact (SameSupply.refl t).tunePort n
      · exact .refl t) (List.range 10) { s with lantern := { s.lantern with dark := false } }
    exact ⟨hports.dark, hports.activeB⟩

end Sys2Proof.Proofs
end

section
/-! PROOFS. Ports, lanes and the light supply (04 R101 to R106, R108 to R113, R115, R116). -/
namespace Sys2Proof.Proofs
open Sys2Proof Machine Safety Laws

/-! ### Enabling a port (R109, R113) -/

/-- CTRL.ENABLE of a port takes a new value: every lane is OFF and no map is offered or in use. -/
def switchPort (s : State) (n : Nat) (on : Bool) : State :=
  (s.setReg (rk (pLNT n) 0x10) (BitVec.ofNat 64 (b2n on))).setPort n (fun p => { p with
    lanes := p.lanes.map (fun l => { Lane.off with retrains := l.retrains, tx := l.tx, rx := l.rx })
    met := false, noPeerSeen := false, cwSeqTx := 0, txUse := 0, rxUse := 0, txMap := 0, rxMap := 0 })

theorem portOn_switchPort (s : State) (n : Nat) (on : Bool) : portOn (switchPort s n on) n = on := by
  have hreg : regGet (switchPort s n on) (rk (pLNT n) 0x10) = BitVec.ofNat 64 (b2n on) :=
    (regGet_setReg ..).trans (if_pos rfl)
  rw [portOn, hreg]
  cases on <;> rfl

theorem lanes_length_switchPort (s : State) (n : Nat) (on : Bool) :
    ((switchPort s n on).port n).lanes.length = (s.port n).lanes.length := by
  simp only [switchPort, port_setPort, if_true, List.length_map]
  rfl

theorem portLane_switchPort (s : State) (n j : Nat) (on : Bool) :
    (portLane ((switchPort s n on).port n) j).state = lnOff := by
  simp only [switchPort, port_setPort, if_true, portLane, List.getD_eq_getElem?_getD, List.getElem?_map]
  cases (((s.setReg _ _).port n).lanes[j]?) <;> rfl

theorem lanesChanged_state_of_off {s : State} {n : Nat} (h : portOn s n = false) :
    ((lanesChanged s n).port n).state = 0 := by
  rw [lanesChanged, (refreshPort_port ..).2, portStateOf]
  exact if_pos (congrArg not h)

section
variable {s : State} {src : RegSrc} {n : Nat} (hn : n < Config.ports) (hpf : ByPf s src (pLNT n))
include hn hpf

theorem pfOnly_port {rel : Nat} (f : State → State) (hr : rel < 4096) : pfOnly s src (rk (pLNT n) rel) f = f s :=
  pfOnly_byPf f (by simp only [Config.ports, pLNT] at *; omega) hr hpf

theorem portWrite_changes {on : Bool} (h : portOn s n ≠ on) : portWrite s src n on =
    if on ∧ ¬ s.lantern.dark then tunePort (switchPort s n on) n else lanesChanged (switchPort s n on) n := by
  rw [portWrite, pfOnly_port hn hpf _ (by decide), if_neg (Ne.symm h)]
  rfl

theorem execPortEnable_next (hlen : (s.port n).lanes.length = 5) (hoff : portOn s n = false)
    (hlit : s.lantern.dark = false) : ∃ t, execPortEnable src n s = .next t ∧ portOn t n = true ∧
      ∀ j < 5, (portLane (t.port n) j).state = lnTune := by
  refine ⟨_, if_pos (by simp [hpf.1, portOk, hn]), ?_⟩
  rw [portWrite_changes hn hpf (by simp [hoff]), if_pos (by simp [hlit])]
  refine ⟨((SameSupply.refl _).tunePort n).on n |>.trans (portOn_switchPort ..), fun j hj => ?_⟩
  exact tunePort_state ((lanes_length_switchPort ..).trans hlen) hj (by rw [portLane_switchPort]; decide)

theorem execPortDisable_next (hon : portOn s n = true) : ∃ t, execPortDisable src n s = .next t ∧ portOn t n = false ∧
    (t.port n).state = 0 ∧ ∀ j < 5, (portLane (t.port n) j).state = lnOff := by
  have hoff := portOn_switchPort s n false
  refine ⟨_, if_pos (by simp [hpf.1, portOk, hn]), ?_⟩
  rw [portWrite_changes hn hpf (by simp [hon]), if_neg (by simp)]
  refine ⟨((SameSupply.refl _).lanesChanged n).on n |>.trans hoff, lanesChanged_state_of_off hoff, fun j _ => ?_⟩
  rw [portLane_lanesChanged, portLane_switchPort]

/-! ### LANE_CMD (R116) -/

section
variable {k : Nat} (hk : k < (s.port n).lanes.length) (hk5 : k < 5)
include hk hk5

theorem execLaneDisable_next (hon : portOn s n = true) : ∃ t, execLaneDisable src n (BitVec.ofNat 3 k) s = .next t ∧
    (portLane (t.port n) k).state = lnDisabled := by
  refine ⟨_, if_pos (by simp [hpf.1, portOk, hn]), ?_⟩
  rw [laneCommand, pfOnly_port hn hpf _ (by decide), BitVec.toNat_ofNat, Nat.mod_eq_of_lt (by omega),
    if_neg (by simp [hon]; omega)]
  simp only [state_lanesChanged_nextWaiting, portLane_setLane_self _ hk]

theorem execLaneRetrain_next (huse : laneUsable s n = true)
    (h : (portLane (s.port n) k).state = lnActive ∨ (portLane (s.port n) k).state = lnFailed) :
    ∃ t, execLaneRetrain src n (BitVec.ofNat 3 k) s = .next t ∧ (portLane (t.port n) k).state = lnRetrain := by
  have hon : portOn s n = true := (Bool.and_eq_true_iff.mp huse).1
  refine ⟨_, if_pos (by simp [hpf.1, portOk, hn]), ?_⟩
  rw [laneCommand, pfOnly_port hn hpf _ (by decide), BitVec.toNat_ofNat, Nat.mod_eq_of_lt (by omega),
    if_neg (by simp [hon]; omega)]
  simp only [huse, Bool.true_and, Bool.or_eq_true, beq_iff_eq, h, if_true, startRetrain_state true true hk]
  rfl

theorem execLaneEnable_next (huse : laneUsable s n = true)
    (h : (portLane (s.port n) k).state = lnDisabled ∨ (portLane (s.port n) k).state = lnFailed) :
    ∃ t, execLaneEnable src n (BitVec.ofNat 3 k) s = .next t ∧ (portLane (t.port n) k).state = lnTune := by
  have hon : portOn s n = true := (Bool.and_eq_true_iff.mp huse).1
  refine ⟨_, if_pos (by simp [hpf.1, portOk, hn]), ?_⟩
  rw [laneCommand, pfOnly_port hn hpf _ (by decide), BitVec.toNat_ofNat, Nat.mod_eq_of_lt (by omega),
    if_neg (by simp [hon]; omega)]
  simp only [huse, Bool.true_and, Bool.or_eq_true, beq_iff_eq, h, if_true, portLane_lanesChanged]
  rw [(tuneLane_port s n k).2 k, if_pos ⟨rfl, hk⟩]

end

end

/-! ### Training and retraining (R109, R110) -/

theorem portOk_and_laneOk {n k : Nat} (hn : n < Config.ports) (hk : k < 5) : (portOk n && laneOk k) = true := by
  simp [portOk, laneOk, hn, hk]

theorem state_ne_off_of_attempting {s : State} {n k : Nat} (h : attempting s n k = true) :
    (portLane (s.port n) k).state ≠ lnOff := by
  intro hoff
  simp [attempting, hoff] at h

section
variable {s : State} {n k : Nat} (hn : n < Config.ports) (hk : k < 5)
include hn hk

theorem execTrainingAttempt_next {a b : BitVec 12} (hatt : attempting s n k = true) (ha : a ≠ 0) (ha' : a ≠ 0xFFF)
    (hb : b ≠ 0) (hb' : b ≠ 0xFFF) : ∃ t, execTrainingAttempt n k a b s = .next t ∧
      (portLane (t.port n) k).state = lnActive ∧ (portLane (t.port n) k).tx = a ∧ (portLane (t.port n) k).rx = b ∧
      (t.port n).met = true := by
  refine ⟨_, if_pos (portOk_and_laneOk hn hk), ?_⟩
  have hafter : ∀ u, let t := lanesChanged (nextWaiting (logEvt u (pLNT n) 1) n) n
      (portLane (t.port n) k).state = (portLane (u.port n) k).state ∧
      (portLane (t.port n) k).tx = (portLane (u.port n) k).tx ∧ (portLane (t.port n) k).rx = (portLane (u.port n) k).rx ∧
      (t.port n).met = (u.port n).met := fun u => by
    obtain ⟨hmet, hlanes⟩ := lanesChanged_nextWaiting_port (logEvt u (pLNT n) 1) n
    obtain ⟨w, hw⟩ := hlanes k
    simp only [hw, hmet, (logEvt_logsOnly ..).port, and_self]
  have hlane := fun f => portLane_setLane_self (s := s) f (lt_lanes_length (state_ne_off_of_attempting hatt))
  simp only [hatt, beq_eq_false_iff_ne.mpr ha, beq_eq_false_iff_ne.mpr ha', beq_eq_false_iff_ne.mpr hb,
    beq_eq_false_iff_ne.mpr hb', Bool.not_true, Bool.or_self, Bool.false_eq_true, if_false, hafter]
  simp only [port_setPort, if_true, portLane] at hlane ⊢
  simp only [hlane, and_self]

theorem execTrainingBoundMiss_next (hatt : attempting s n k = true) (hmet : (s.port n).met = true) :
    ∃ t, execTrainingBoundMiss n k s = .next t ∧
      (2 ≤ (portLane (s.port n) k).failed → (portLane (t.port n) k).state = lnFailed) ∧
      ((portLane (s.port n) k).failed < 2 → (portLane (t.port n) k).state = (portLane (s.port n) k).state ∧
        (portLane (t.port n) k).failed = (portLane (s.port n) k).failed + 1) := by
  have hlen := lt_lanes_length (state_ne_off_of_attempting hatt)
  refine ⟨_, if_pos (portOk_and_laneOk hn hk), ?_⟩
  simp only [hatt, hmet, Bool.not_true, Bool.false_eq_true, if_false]
  split
  · exact ⟨fun _ => failLane_state hlen, fun h => by omega⟩
  · exact ⟨fun h => by omega, fun _ => by rw [portLane_setLane_self _ hlen]; exact ⟨rfl, rfl⟩⟩

section
variable (huse : laneUsable s n = true) (hact : (portLane (s.port n) k).state = lnActive)
include huse hact

theorem retrains_of_condition {c : Bool} (hc : c = true) : ∃ t,
    onOk (portOk n && laneOk k) (retrainIf s n k c) = .next t ∧
      (portLane (t.port n) k).state = if (portCfg s n).testBit 0 then lnRetrain else lnFailed := by
  subst hc
  exact ⟨_, if_pos (portOk_and_laneOk hn hk), retrainIf_state huse hact⟩

theorem execRingLockLoss_next (rx top : Bool) (hlock : (portLane (s.port n) k).lock = true) : ∃ t,
    execRingLockLoss n k rx top s = .next t ∧
      (portLane (t.port n) k).state = if (portCfg s n).testBit 0 then lnRetrain else lnFailed := by
  have hon : portOn s n = true := (Bool.and_eq_true_iff.mp huse).1
  refine ⟨_, if_pos (portOk_and_laneOk hn hk), ?_⟩
  rw [if_neg (by simp [hlock, hon])]
  dsimp only
  generalize hu : portFail _ n 2 k = u
  have hsupply : SameSupply s u := by
    rw [← hu]
    exact ((SameSupply.refl s).setPort n _).logErr ..
  have hstate : (portLane (u.port n) k).state = lnActive := by
    rw [← hu, portFail, (logErr_logsOnly ..).port, portLane_setLane_self _ (lt_lanes_length (by rw [hact]; decide))]
    exact hact
  rw [retrainIf_state ((hsupply.laneUsable n).trans huse) hstate, hsupply.cfg]

end

end

/-! ### Maps and control traffic (R112, R113, R115) -/

section
variable {s : State} {n : Nat} (hn : n < Config.ports) (huse : laneUsable s n = true)
include hn huse

theorem execActiveMapChange_next (tx : Bool) {map : BitVec 4} (hmap : map = (s.port n).txMap &&& (s.port n).rxMap) : ∃ t,
    execActiveMapChange n tx map s = .next t ∧
      (t.port n).txUse = (if tx then withoutCtl (s.port n) map else (s.port n).txUse) ∧
      (t.port n).rxUse = (if tx then (s.port n).rxUse else withoutCtl (s.port n) map) := by
  refine ⟨_, if_pos (by simp [portOk, hn]), ?_⟩
  rw [if_neg (by simp [huse, ← hmap])]
  simp only [(refreshPort_port ..).1.txUse, (refreshPort_port ..).1.rxUse,
    (LogsOnly.ite (.refl _) (logEvt_logsOnly ..)).port, port_setPort, if_true]
  cases tx <;> exact ⟨rfl, rfl⟩

theorem execControlFailover_next {j : Nat} (hcfg : (portCfg s n).testBit 1 = true)
    (hlost : laneActive (s.port n) (s.port n).ctlLane.toNat = false ∨ (s.port n).failReq = true)
    (hj : failoverLane (s.port n) = some j) : ∃ t, execControlFailover n s = .next t ∧
      (t.port n).ctlLane = BitVec.ofNat 3 j := by
  have hgo : (laneActive (s.port n) (s.port n).ctlLane.toNat && !(s.port n).failReq) = false := by
    rcases hlost with h | h <;> simp [h]
  refine ⟨moveControl s n j, ?_, moveControl_ctlLane s n j⟩
  simp [execControlFailover, onOk, portOk, hn, huse, bit, hcfg, hgo, hj]

theorem execControlReturn_next (hact : laneActive (s.port n) 2 = true) (hctl : (s.port n).ctlLane ≠ 2) : ∃ t,
    execControlReturn n s = .next t ∧ (t.port n).ctlLane = 2 := by
  refine ⟨moveControl s n 2, ?_, moveControl_ctlLane s n 2⟩
  simp only [execControlReturn, onOk, portOk, hn, huse, hact, bne_iff_ne.mpr hctl, decide_true, Bool.and_self, if_true]

end

/-- Settles O50: registers and events of a port by what they leave of its lanes, then the supply by whether it is dark and
which input it takes. -/
theorem portsLanesLight : Obligations.PortsLanesLight := by
  unfold Obligations.PortsLanesLight
  intro s src n k a b map litA litB p l lane ok cfg reg lit on other
  refine ⟨fun hn hpf hlen => ?port, fun hok hatt => ?attempt, fun hn huse hmet hseen => ?noPeer,
    fun hok huse hact i c x y r top hi hc => ?retrain, fun hok => ?signal, fun hn huse => ?control,
    fun hlit hon => ?lost, fun hdark hon => ?restored, fun v hpf hv => ?command⟩
  case port =>
    refine ⟨execPortEnable_next hn hpf hlen, execPortDisable_next hn hpf, fun hk => ?_, fun hk => ?_, fun hk => ?_⟩
    · exact execLaneDisable_next hn hpf (hlen ▸ hk) hk
    · exact execLaneRetrain_next hn hpf (hlen ▸ hk) hk
    · exact execLaneEnable_next hn hpf (hlen ▸ hk) hk
  case attempt =>
    exact ⟨execTrainingAttempt_next hok.1 hok.2 hatt, execTrainingBoundMiss_next hok.1 hok.2 hatt⟩
  case noPeer =>
    rw [exec_noPeerTimeout, execNoPeerTimeout]
    simp only [onOk, portOk, hn, decide_true, if_true]
    rw [if_neg (by simp [huse, show (s.port n).met = false from hmet, show (s.port n).noPeerSeen = false from hseen])]
    rfl
  case retrain =>
    obtain ⟨hn, hk⟩ := hok
    simp only [List.mem_cons, Prod.mk.injEq, List.not_mem_nil, or_false] at hi
    rcases hi with ⟨rfl, rfl⟩ | ⟨rfl, rfl⟩ | ⟨rfl, rfl⟩ | ⟨rfl, rfl⟩
    · exact retrains_of_condition hn hk huse hact (decide_eq_true (by rwa [bits_zero]))
    · exact retrains_of_condition hn hk huse hact (decide_eq_true hc)
    · exact retrains_of_condition hn hk huse hact (by rw [show (portLane (s.port n) k).signal = false from hc]; rfl)
    · exact execRingLockLoss_next hn hk huse hact r top hc
  case signal =>
    have hunits := portOk_and_laneOk hok.1 hok.2
    refine ⟨if_pos hunits, fun huse hact => (if_pos hunits).trans (congrArg _ (if_pos ?_))⟩
    rw [huse, laneActive, show (portLane (s.port n) k).state = lnActive from hact]
    rfl
  case control =>
    refine ⟨fun hmap => ⟨?_, ?_⟩, fun hcfg hlost j hj => execControlFailover_next hn huse hcfg hlost hj,
      execControlReturn_next hn huse⟩
    · exact execActiveMapChange_next hn huse true hmap
    · obtain ⟨t, hexec, htx, hrx⟩ := execActiveMapChange_next hn huse false hmap
      exact ⟨t, hexec, hrx, htx⟩
  case lost =>
    have hdark : (setLit s litA litB).lantern.dark = false := hlit
    have hactive : activeLit (setLit s litA litB) = false := hon
    refine ⟨fun w hother hauto => ?_, fun h => ?_⟩
    · have hswitch := autoSwitchover_supply (setLit s litA litB) w
      refine ⟨_, congrArg Host.Outcome.next ((if_neg ?_).trans (if_pos ⟨hother, hauto⟩)), hswitch.1,
        hswitch.2.trans hlit⟩
      simp [hactive, hdark]
    · have hno : ¬ (otherLit (setLit s litA litB) = true ∧ autoSwitch (setLit s litA litB) = true) := fun ⟨ho, ha⟩ =>
        h.elim (fun h => Bool.false_ne_true (h.symm.trans ho)) (fun h => Bool.false_ne_true (h.symm.trans ha))
      refine ⟨fun w => ⟨_, congrArg Host.Outcome.next ((if_neg ?_).trans (if_neg hno)), loseLight_dark _⟩,
        ⟨_, congrArg Host.Outcome.next (if_neg ?_), loseLight_dark _⟩⟩
      · simp [hactive, hdark]
      · simpa [hactive] using hno
  case restored =>
    refine ⟨_, congrArg Host.Outcome.next ((if_neg ?_).trans (if_pos hon)), regainLight_supply (setLit s litA litB)⟩
    simp [setLit, hdark]
  case command =>
    have hwrite : exec (.switch src v) s = .next (if !otherLit s then refuse s (pLNT 0) 8 0x210
        else regainLight (switchInput s)) := by
      rw [exec_switch, execSwitch, onOk, if_pos hpf.1, laserWrite, pfOnly_port (by decide) hpf _ (by decide), hv]
      rfl
    refine ⟨fun h => hwrite.trans (by rw [h]; rfl), fun h => ⟨_, hwrite, ?_⟩⟩
    rw [h]
    obtain ⟨hdark, hactive⟩ := regainLight_supply (switchInput s)
    exact ⟨hactive.trans (switchInput_supply s).1, hdark⟩

end Sys2Proof.Proofs
end

section
/-! SUPPORT. What sending a message leaves unchanged, and the streams that a change of routes starts again (05 R136 to
R139, R155). -/
namespace Sys2Proof.Proofs
open Sys2Proof Machine Safety Laws

/-! ### Sending -/

namespace LogsOnly

theorem xbar {s t : State} (h : LogsOnly s t) : t.xbar = s.xbar := by rw [h]

end LogsOnly

/-- Nothing but the ports, the streams, logs and the output has changed, and no stream's numbering. -/
def SentOnly (s t : State) : Prop :=
  t = { s with regs := t.regs, errs := t.errs, out := t.out, free := t.free, lantern := t.lantern,
               xbar := { s.xbar with tx := t.xbar.tx } } ∧
  ∀ a, (txStream t a).nextSeq = (txStream s a).nextSeq ∧ (txStream t a).nextCseq = (txStream s a).nextCseq

namespace SentOnly
variable {s t u : State}

theorem refl (s : State) : SentOnly s s := ⟨rfl, fun _ => ⟨rfl, rfl⟩⟩

theorem trans (h : SentOnly s t) (h' : SentOnly t u) : SentOnly s u := by
  refine ⟨?_, fun a => ⟨(h'.2 a).1.trans (h.2 a).1, (h'.2 a).2.trans (h.2 a).2⟩⟩
  rw [h'.1, h.1]

theorem of_logsOnly (h : LogsOnly s t) : SentOnly s t := by
  refine ⟨?_, fun a => by simp only [txStream, h.xbar, and_self]⟩
  rw [h]

theorem xbar (h : SentOnly s t) : t.xbar = { s.xbar with tx := t.xbar.tx } := by rw [h.1]
theorem work (h : SentOnly s t) : t.work = s.work := by rw [h.1]

theorem rxWindow (h : SentOnly s t) (a : BitVec 10) : rxWindow t a = rxWindow s a := by
  unfold Machine.rxWindow
  rw [h.xbar]

theorem foldl {α : Type} {f : State → α → State} (hf : ∀ t a, SentOnly t (f t a)) (l : List α) (s : State) :
    SentOnly s (l.foldl f s) := by
  induction l generalizing s with
  | nil => exact refl s
  | cons a r ih => exact (hf s a).trans (ih _)

end SentOnly

/-- A change of a table's entries that keeps what `g` reads of each keeps what `g` reads at every key. -/
theorem proj_tget_map {α β : Type} (g : α → β) {φ : Nat × α → Nat × α} (hkey : ∀ e, (φ e).1 = e.1)
    (hval : ∀ e, g (φ e).2 = g e.2) (d : α) (m : NatMap α) (k : Nat) : g (tget d (m.map φ) k) = g (tget d m k) := by
  induction m with
  | nil => rfl
  | cons e r ih =>
    rw [List.map_cons, tget, tget, hkey]
    split
    · exact hval e
    · exact ih

/-- Changed entries of the streams, none in its numbering. -/
theorem setTxs_sentOnly (s : State) {φ : Nat × TxStream → Nat × TxStream} (hkey : ∀ e, (φ e).1 = e.1)
    (hseq : ∀ e, (φ e).2.nextSeq = e.2.nextSeq) (hcseq : ∀ e, (φ e).2.nextCseq = e.2.nextCseq) :
    SentOnly s (s.setXbar (fun x => { x with tx := x.tx.map φ })) :=
  ⟨rfl, fun _ => ⟨proj_tget_map TxStream.nextSeq hkey hseq .., proj_tget_map TxStream.nextCseq hkey hcseq ..⟩⟩

theorem raiseNoRoute_sentOnly (s : State) (a : BitVec 10) : SentOnly s (raiseNoRoute s a) := by
  unfold raiseNoRoute
  refine SentOnly.trans (setTxs_sentOnly s ?_ ?_ ?_) (.of_logsOnly (logEvt_logsOnly _ pXBAR 2))
  all_goals
    intro e
    split <;> rfl

theorem emit_sentOnly (s : State) (o : Out) : SentOnly s (emit s o) := ⟨rfl, fun _ => ⟨rfl, rfl⟩⟩

theorem setPort_sentOnly (s : State) (n : Nat) (f : Port → Port) : SentOnly s (s.setPort n f) :=
  ⟨rfl, fun _ => ⟨rfl, rfl⟩⟩

theorem portSendCtl_sentOnly (s : State) (n : Nat) (m : CtlMsg) : SentOnly s (portSendCtl s n m) := by
  unfold portSendCtl
  split
  · exact emit_sentOnly ..
  · dsimp only
    split
    · exact (setPort_sentOnly ..).trans (emit_sentOnly ..)
    · exact setPort_sentOnly ..

theorem sendCtl_of_route {s : State} {m : CtlMsg} {n act : Nat}
    (h : routePort s (routeGet s.xbar.routeCur m.dst) = some (n, act)) : sendCtl s m = portSendCtl s n m := by
  simp only [sendCtl, sendCtlBy, h, if_true]

theorem sendCtl_of_no_route {s : State} {m : CtlMsg} (h : routePort s (routeGet s.xbar.routeCur m.dst) = none) :
    sendCtl s m = raiseNoRoute s m.dst := by
  simp only [sendCtl, sendCtlBy, h, Bool.false_eq_true, if_false]

theorem sendCtl_sentOnly (s : State) (m : CtlMsg) : SentOnly s (sendCtl s m) := by
  cases h : routePort s (routeGet s.xbar.routeCur m.dst) with
  | none =>
    rw [sendCtl_of_no_route h]
    exact raiseNoRoute_sentOnly ..
  | some r =>
    rw [sendCtl_of_route h]
    exact portSendCtl_sentOnly ..

/-- A field of a control message, as a number. -/
theorem cfld_eq (m : CtlMsg) (i n : Nat) : cfld m i n = (m.body.extractLsb' (8 * (i - 8)) (8 * n)).toNat := by
  rw [cfld, bits, BitVec.extractLsb'_toNat, Nat.shiftRight_eq_div_pow]

/-! ### Steps of a change of routes -/

theorem passEpoch_sentOnly (s : State) (step : Nat) (e : Byte) : SentOnly s (passEpoch s step e) :=
  SentOnly.foldl (fun t _ => sendCtl_sentOnly t _) _ _

theorem attached_congr {s t : State} (hwork : t.work = s.work) (hcur : t.xbar.routeCur = s.xbar.routeCur) :
    attached t = attached s := by simp only [attached, hwork, hcur]

/-- While a frozen bank waits for its commit, it is prepared once every attached accelerator has answered. -/
theorem notePrepared_xbar {s : State} (hstate : s.xbar.otherState = 1) (hfrozen : s.xbar.otherFrozen = true) :
    (notePrepared s).xbar = { s.xbar with
      prepared := s.xbar.prepared || (attached s).all (fun a => s.xbar.preparedBy.contains a) } := by
  unfold notePrepared
  split
  · next h =>
    obtain ⟨-, -, -, hall⟩ := h
    rw [(logEvt_logsOnly ..).xbar, hall, Bool.or_true]
    rfl
  · next h =>
    have hkeep : (s.xbar.prepared || (attached s).all (fun a => s.xbar.preparedBy.contains a)) = s.xbar.prepared := by
      simp only [hstate, hfrozen, true_and, not_and, Bool.not_eq_true] at h
      cases hp : s.xbar.prepared
      · exact h (by simp [hp])
      · rfl
    rw [hkeep]

theorem noteDrained_xbar (s : State) : ∃ d, (noteDrained s).xbar = { s.xbar with drained := d } := by
  unfold noteDrained
  split
  · exact ⟨true, (logEvt_logsOnly ..).xbar⟩
  · exact ⟨_, rfl⟩

/-- The banks swap, and the old bank's requests drain. -/
theorem commitEpoch_xbar (s : State) : ∃ tx, (commitEpoch s).xbar = { s.xbar with
    routeCur := s.xbar.routeOther, routeOther := s.xbar.routeCur, epochCur := s.xbar.epochOther,
    epochOther := s.xbar.epochCur, otherState := 2, otherFrozen := true, prepared := false, drained := false,
    preparedBy := [], tx := tx } := by
  simp only [commitEpoch]
  split
  · exact ⟨_, by rw [setXbar_xbar, (logEvt_logsOnly ..).xbar]⟩
  · exact ⟨_, rfl⟩

/-- The streams to and from an agent start at SEQ 0 and CSEQ 0 (05 R139). -/
def StreamsFresh (s : State) (a : BitVec 10) : Prop :=
  (txStream s a).nextSeq = 0 ∧ (txStream s a).nextCseq = 0 ∧ rxWindow s a = RxWindow.fresh

theorem restartStreams_cons (s : State) (b : BitVec 10) (l : List (BitVec 10)) :
    restartStreams s (b :: l) = restartStreams (restartStreams s [b]) l := rfl

theorem streamsFresh_restartStreams_self (s : State) (a : BitVec 10) : StreamsFresh (restartStreams s [a]) a := by
  simp [StreamsFresh, restartStreams, setRx, setTx, txStream, rxWindow]

theorem StreamsFresh.restartStreams {s : State} {a : BitVec 10} (h : StreamsFresh s a) (l : List (BitVec 10)) :
    StreamsFresh (restartStreams s l) a := by
  induction l generalizing s with
  | nil => exact h
  | cons b l ih =>
    rw [restartStreams_cons]
    refine ih ?_
    by_cases hab : a.toNat = b.toNat
    · rw [BitVec.eq_of_toNat_eq hab]
      exact streamsFresh_restartStreams_self s b
    · simpa [StreamsFresh, Machine.restartStreams, setRx, setTx, txStream, rxWindow, hab] using h

theorem streamsFresh_restartStreams (s : State) {a : BitVec 10} {l : List (BitVec 10)} (h : a ∈ l) :
    StreamsFresh (restartStreams s l) a := by
  induction l generalizing s with
  | nil => exact absurd h (List.not_mem_nil)
  | cons b l ih =>
    rw [restartStreams_cons]
    rcases List.mem_cons.mp h with rfl | h
    · exact (streamsFresh_restartStreams_self s a).restartStreams l
    · exact ih _ h

theorem restartStreams_xbar (s : State) (l : List (BitVec 10)) : ∃ tx rx,
    (restartStreams s l).xbar = { s.xbar with tx := tx, rx := rx } := by
  induction l generalizing s with
  | nil => exact ⟨_, _, rfl⟩
  | cons b l ih =>
    obtain ⟨tx, rx, h⟩ := ih (restartStreams s [b])
    exact ⟨tx, rx, by rw [restartStreams_cons, h]; rfl⟩

end Sys2Proof.Proofs
end

section
/-! PROOFS. Changes of routes (05 R136 to R139). -/
namespace Sys2Proof.Proofs
open Sys2Proof Machine Safety Laws

section
variable {s : State} {src : RegSrc} (hpf : ByPf s src pXBAR)
include hpf

/-- Such a write of a register of the XBAR page takes effect. -/
theorem onOk_pfOnly_xbar {rel : Nat} (f : State → State) (hrel : rel < 4096) :
    onOk src.ok (pfOnly s src (rk pXBAR rel) f) = .next (f s) := by
  rw [onOk, if_pos hpf.1, pfOnly_byPf f (by decide) hrel hpf]

theorem execRouteData_next (v : W64) : execRouteData src v s =
    .next (let sel := (regGet s (rkBank pXBAR 0x120 (srcBank src))).toNat
      if !bit sel 16 || s.xbar.otherFrozen then refuse s pXBAR 0 0x128
      else s.setXbar (fun x => { x with
        routeOther := tput x.routeOther (bits sel 0 10) (BitVec.ofNat 32 (bits v.toNat 0 13)) })) :=
  onOk_pfOnly_xbar hpf _ (by decide)

theorem execPrepare_refused {ep : Byte} (h : s.xbar.otherState ≠ 0 ∨ ep ≠ s.xbar.epochCur + 1) :
    execPrepare src ep s = .next (refuse s pXBAR 3 0x118) :=
  (onOk_pfOnly_xbar hpf _ (by decide)).trans (congrArg _ (if_pos h))

/-- PREPARE freezes the other bank for the next epoch; with no accelerator attached it is prepared at once. -/
theorem execPrepare_next {ep : Byte} (hstate : s.xbar.otherState = 0) (hep : ep = s.xbar.epochCur + 1) : ∃ t,
    execPrepare src ep s = .next t ∧ ∃ tx, t.xbar = { s.xbar with
      epochOther := ep, otherState := 1, otherFrozen := true, preparedBy := [],
      prepared := (attached s).all (fun _ => false), tx := tx } := by
  refine ⟨_, (onOk_pfOnly_xbar hpf _ (by decide)).trans (congrArg _ (if_neg (by simp [hstate, hep]))), ?_⟩
  generalize hu : s.setXbar _ = u
  have hpass := passEpoch_sentOnly u 1 ep
  have hxbar := hpass.xbar
  have hnow := attached_congr (s := s) (t := passEpoch u 1 ep) (by rw [hpass.work, ← hu]; rfl) (by rw [hxbar, ← hu]; rfl)
  refine ⟨(passEpoch u 1 ep).xbar.tx, (notePrepared_xbar ?_ ?_).trans ?_⟩
  · rw [hxbar, ← hu]; rfl
  · rw [hxbar, ← hu]; rfl
  · rw [hnow, hxbar, ← hu]; rfl

theorem execCommit_refused {ep : Byte} (added : List (BitVec 10))
    (h : s.xbar.otherState ≠ 1 ∨ s.xbar.prepared = false ∨ ep ≠ s.xbar.epochOther) :
    execCommit src ep added s = .next (refuse s pXBAR 3 0x118) :=
  (onOk_pfOnly_xbar hpf _ (by decide)).trans (congrArg _ (if_pos (by simpa using h)))

/-- COMMIT makes the frozen bank current, and the streams of added agents start again. -/
theorem execCommit_next {ep : Byte} (added : List (BitVec 10)) (hstate : s.xbar.otherState = 1)
    (hprepared : s.xbar.prepared = true) (hep : ep = s.xbar.epochOther) : ∃ t, execCommit src ep added s = .next t ∧
    (∃ d tx rx, t.xbar = { s.xbar with
      routeCur := s.xbar.routeOther, routeOther := s.xbar.routeCur, epochCur := ep, epochOther := s.xbar.epochCur,
      otherState := 2, otherFrozen := true, prepared := false, drained := d, preparedBy := [], tx := tx, rx := rx }) ∧
    ∀ a ∈ added, StreamsFresh t a := by
  refine ⟨_, (onOk_pfOnly_xbar hpf _ (by decide)).trans (congrArg _ (if_neg (by simp [hstate, hprepared, hep]))), ?_⟩
  obtain ⟨tx, hcommit⟩ := commitEpoch_xbar s
  obtain ⟨tx', rx, hrestart⟩ := restartStreams_xbar (commitEpoch s) added
  have hpass := passEpoch_sentOnly (restartStreams (commitEpoch s) added) 3 ep
  obtain ⟨d, hdrained⟩ := noteDrained_xbar (passEpoch (restartStreams (commitEpoch s) added) 3 ep)
  refine ⟨⟨d, _, rx, by rw [hdrained, hpass.xbar, hrestart, hcommit, hep]⟩, fun a ha => ?_⟩
  obtain ⟨hseq, hcseq, hrx⟩ := streamsFresh_restartStreams (commitEpoch s) ha
  have htx : txStream (noteDrained (passEpoch (restartStreams (commitEpoch s) added) 3 ep)) a =
      txStream (passEpoch (restartStreams (commitEpoch s) added) 3 ep) a := by simp only [txStream, hdrained]
  refine ⟨?_, ?_, ?_⟩
  · rw [htx, (hpass.2 a).1, hseq]
  · rw [htx, (hpass.2 a).2, hcseq]
  · rw [← hrx, ← hpass.rxWindow]; simp only [rxWindow, hdrained]

theorem execRetire_refused {ep : Byte} (h : s.xbar.otherState ≠ 2 ∨ s.xbar.drained = false ∨ ep ≠ s.xbar.epochOther) :
    execRetire src ep s = .next (refuse s pXBAR 3 0x118) :=
  (onOk_pfOnly_xbar hpf _ (by decide)).trans (congrArg _ (if_pos (by simpa using h)))

/-- RETIRE frees the drained bank. -/
theorem execRetire_next {ep : Byte} (hstate : s.xbar.otherState = 2) (hdrained : s.xbar.drained = true)
    (hep : ep = s.xbar.epochOther) : ∃ t, execRetire src ep s = .next t ∧ ∃ tx, t.xbar = { s.xbar with
      routeOther := [], otherState := 0, otherFrozen := false, drained := false, tx := tx } := by
  refine ⟨_, (onOk_pfOnly_xbar hpf _ (by decide)).trans (congrArg _ (if_neg (by simp [hstate, hdrained, hep]))),
    (passEpoch s 5 ep).xbar.tx, ?_⟩
  rw [setXbar_xbar, (passEpoch_sentOnly s 5 ep).xbar]

end

/-- PREPARED of the epoch that is being prepared: its sender is noted. -/
theorem execPrepared_next {s : State} {n : Nat} {m : CtlMsg} (hn : n < Config.ports) (hlive : portLive s n = true)
    (htype : m.ctype = 8) (hstep : m.body.extractLsb' 0 8 = 2#8) (hdst : m.dst = s.xbar.agentId)
    (hstate : s.xbar.otherState = 1) (hfrozen : s.xbar.otherFrozen = true)
    (hep : m.body.extractLsb' 8 8 = s.xbar.epochOther) : ∃ t, execPrepared n m s = .next t ∧ t.xbar = { s.xbar with
      preparedBy := s.xbar.preparedBy ++ [m.src],
      prepared := s.xbar.prepared || (attached s).all (fun a => (s.xbar.preparedBy ++ [m.src]).contains a) } := by
  have hcode : cfld m 8 1 = 2 := (cfld_eq ..).trans (congrArg BitVec.toNat hstep)
  have hepoch : cfld m 9 1 = s.xbar.epochOther.toNat := (cfld_eq ..).trans (congrArg BitVec.toNat hep)
  refine ⟨_, (if_pos (by simp [portOk, hn])).trans (congrArg _ ((if_pos ?_).trans (if_pos ⟨hstate, hepoch⟩))), ?_⟩
  · simp [hlive, htype, hcode, hdst]
  · exact notePrepared_xbar hstate hfrozen

/-- Settles O48: each command of a change of routes by its own lemma above. -/
theorem routeEpochs : Obligations.RouteEpochs := by
  unfold Obligations.RouteEpochs
  intro s src ep added v
  refine ⟨fun hpf => ⟨fun h => ?routeRefused, fun hwrite hfree => ?route, execPrepare_refused hpf, fun hstate hep => ?prepare,
    execCommit_refused hpf added, fun hstate hprepared hep => ?commit, execRetire_refused hpf,
    fun hstate hdrained hep => ?retire⟩, fun n m hn hlive htype hstep hdst hstate hfrozen hep => ?prepared⟩
  case routeRefused =>
    exact (execRouteData_next hpf v).trans (congrArg _ (if_pos (by simpa [bit] using h)))
  case route =>
    refine ⟨_, (execRouteData_next hpf v).trans (congrArg _ (if_neg (by simp [bit, hwrite, hfree]))), rfl, fun a => ?_⟩
    have hv : BitVec.ofNat 32 (bits v.toNat 0 13) = (v.setWidth 13).setWidth 32 :=
      BitVec.eq_of_toNat_eq (by simp [bits])
    rw [routeGet, setXbar_xbar, tget_tput, hv, bits_zero]
    rfl
  case prepare =>
    obtain ⟨t, hexec, tx, hx⟩ := execPrepare_next hpf hstate hep
    refine ⟨t, hexec, by rw [hx], by rw [hx], by rw [hx], by rw [hx], by rw [hx], by rw [hx], by rw [hx], ?_⟩
    rw [hx]
    simp [List.eq_nil_iff_forall_not_mem]
  case commit =>
    obtain ⟨t, hexec, ⟨d, tx, rx, hx⟩, hfresh⟩ := execCommit_next hpf added hstate hprepared hep
    exact ⟨t, hexec, by rw [hx], by rw [hx], by rw [hx], by rw [hx], by rw [hx], hfresh⟩
  case retire =>
    obtain ⟨t, hexec, tx, hx⟩ := execRetire_next hpf hstate hdrained hep
    exact ⟨t, hexec, by rw [hx], by rw [hx], by rw [hx], by rw [hx], by rw [hx]⟩
  case prepared =>
    obtain ⟨t, hexec, hx⟩ := execPrepared_next hn hlive htype hstep hdst hstate hfrozen hep
    refine ⟨t, hexec, by rw [hx], ?_⟩
    rw [hx]
    simp

end Sys2Proof.Proofs
end

section
/-! SUPPORT. What a packet or message that arrives changes before its effect, and one rule per operation of a semaphore
(05 R132, R137, R142, R145, R155; 06 R173 to R175). -/
namespace Sys2Proof.Proofs
open Sys2Proof Machine Safety Laws

/-! ### Taking in -/

/-- Nothing but the ports, the streams and the duplicate windows has changed. -/
def ArrivalOnly (s t : State) : Prop :=
  t = { s with lantern := t.lantern, xbar := { s.xbar with tx := t.xbar.tx, rx := t.xbar.rx } }

namespace ArrivalOnly
variable {s t u : State}

theorem trans (h : ArrivalOnly s t) (h' : ArrivalOnly t u) : ArrivalOnly s u := by
  unfold ArrivalOnly at *; rw [h', h]

theorem work (h : ArrivalOnly s t) : t.work = s.work := by rw [h]
theorem sync (h : ArrivalOnly s t) : t.sync = s.sync := by rw [h]
theorem wicks (h : ArrivalOnly s t) : t.wicks = s.wicks := by rw [h]

theorem agentMay (h : ArrivalOnly s t) (a : BitVec 10) (p : BitVec 6) : agentMay t a p = agentMay s a p := by
  simp only [Machine.agentMay, agentPartOf, h.work]

theorem counterOwner (h : ArrivalOnly s t) (k : Nat) : counterOwner t k = counterOwner s k := by
  simp only [Machine.counterOwner, h.work]

theorem semOwner (h : ArrivalOnly s t) (k : Nat) : semOwner t k = semOwner s k := by
  simp only [Machine.semOwner, h.work]

end ArrivalOnly

theorem freeCells_arrivalOnly (s : State) (n i k : Nat) : ArrivalOnly s (freeCells s n i k) := rfl

theorem heardFrom_arrivalOnly (s : State) (a : BitVec 10) : ArrivalOnly s (heardFrom s a) := by
  unfold heardFrom; split <;> rfl

theorem takeIn_arrivalOnly (s : State) (n : Nat) (p : Packet) : ArrivalOnly s (takeIn s n p) :=
  (freeCells_arrivalOnly ..).trans (heardFrom_arrivalOnly ..)

theorem takeCtl_arrivalOnly (s : State) (n : Nat) (m : CtlMsg) : ArrivalOnly s (takeCtl s n m) := by
  unfold takeCtl
  split
  · exact (freeCells_arrivalOnly ..).trans (heardFrom_arrivalOnly ..)
  · rfl

theorem markCseq_arrivalOnly (s : State) (m : CtlMsg) (v : SeqState) : ArrivalOnly s (markCseq s m v) := rfl

theorem CtlTaken_arrivalOnly {s w : State} {n : Nat} {m : CtlMsg} (h : CtlTaken s n m w) : ArrivalOnly s w := by
  obtain ⟨-, -, -, -, -, -, rfl⟩ := h
  exact (takeCtl_arrivalOnly ..).trans (markCseq_arrivalOnly ..)

/-! ### Control requests -/

section
variable {s w : State} {n : Nat} {m : CtlMsg} (h : CtlTaken s n m w) {owner : BitVec 6} (id : Nat)
  (act : State → State)
include h

/-- A counter or semaphore of another partition (06 R173). -/
theorem arriveCtl_ownerFault (formBad : Option Nat) (howner : owner ≠ m.part) : arriveCtl s n m owner id formBad act =
    finishCtl (ownerFault w m.part (some m.src) id) m stPerm := by
  have hmay := (CtlTaken_arrivalOnly h).agentMay m.src m.part
  obtain ⟨-, hlive, hloc, hep, hjudge, hagent, rfl⟩ := h
  simp only [arriveCtl, hlive, hloc, hep, hjudge, hmay, hagent, howner, Bool.not_true, Bool.or_self, Bool.false_eq_true,
    if_false, ne_eq, not_false_eq_true, if_true]

/-- A malformed message of the right partition. -/
theorem arriveCtl_malformed (b : Nat) (hb : b ≠ 0x3F) (howner : owner = m.part) :
    arriveCtl s n m owner id (some b) act = finishCtl (logErr w pSYNC b
      { status := stFormat, part := some m.part, agent := some m.src, info := id }) m stFormat := by
  have hmay := (CtlTaken_arrivalOnly h).agentMay m.src m.part
  obtain ⟨-, hlive, hloc, hep, hjudge, hagent, rfl⟩ := h
  simp only [arriveCtl, hlive, hloc, hep, hjudge, hmay, hagent, howner, hb, Bool.not_true, Bool.or_self,
    Bool.false_eq_true, if_false, ne_eq, not_true_eq_false]

/-- A message that meets no objection has its effect. -/
theorem arriveCtl_acts (howner : owner = m.part) : arriveCtl s n m owner id none act = act w := by
  have hmay := (CtlTaken_arrivalOnly h).agentMay m.src m.part
  obtain ⟨-, hlive, hloc, hep, hjudge, hagent, rfl⟩ := h
  simp only [arriveCtl, hlive, hloc, hep, hjudge, hmay, hagent, howner, Bool.not_true, Bool.or_self, Bool.false_eq_true,
    if_false, ne_eq, not_true_eq_false]

end

/-! ### Operations of a semaphore -/

/-- With no WAIT_DEC held at a semaphore nobody is served. -/
theorem serve_of_none_held {s : State} {k : Nat} (h : ∀ e ∈ s.sync.held, e.sem ≠ k) : serve s k = s := by
  have hnone : s.sync.held.find? (fun e => e.sem = k) = none := by simpa [List.find?_eq_none] using h
  unfold serve
  cases s.sync.held.length with
  | zero => rfl
  | succ n => rw [serveSem, hnone]

section
variable {s : State} {k : Nat} {x : W64} {e : HeldWait}

theorem semOp_signal (h : ∀ e ∈ s.sync.held, e.sem ≠ k) :
    semOp s k 1 x e = (some (semGet s k, false), semSet s k (semGet s k + x)) :=
  congrArg (Prod.mk _) (serve_of_none_held (s := semSet s k (semGet s k + x)) h)

theorem semOp_set (h : ∀ e ∈ s.sync.held, e.sem ≠ k) : semOp s k 4 x e = (some (semGet s k, false), semSet s k x) :=
  congrArg (Prod.mk _) (serve_of_none_held (s := semSet s k x) h)

theorem semOp_wait_takes (hx : x ≤ semGet s k) (h : ∀ e ∈ s.sync.held, e.sem ≠ k) :
    semOp s k 2 x e = (some (semGet s k, true), semSet s k (semGet s k - x)) :=
  if_pos ⟨hx, by simpa using h⟩

theorem semOp_wait_full (hx : ¬ x ≤ semGet s k) (h : 4096 ≤ s.sync.held.length) :
    semOp s k 2 x e = (some (semGet s k, false), bump s (rk pSYNC 0x110) 32 1) :=
  (if_neg fun hc => hx hc.1).trans (if_pos h)

theorem semOp_wait_holds (hx : ¬ x ≤ semGet s k ∨ ∃ e ∈ s.sync.held, e.sem = k) (h : s.sync.held.length < 4096) :
    semOp s k 2 x e = (none, s.setSync (fun y => { y with held := y.held ++ [e] })) := by
  refine (if_neg fun hc => ?_).trans (if_neg (Nat.not_le.mpr h))
  obtain ⟨hle, hnone⟩ := hc
  rcases hx with hx | ⟨e', he', hk⟩
  · exact hx hle
  · exact (by simpa using hnone : ∀ e ∈ s.sync.held, e.sem ≠ k) e' he' hk

end

/-! ### A wick's semaphore operation is answered -/

theorem wrS_wait (k : Wick) (n : Nat) (v : W64) : (wrS k n v).wait = k.wait := by unfold wrS; split <;> rfl
theorem wrS_buf (k : Wick) (n : Nat) (v : W64) : (wrS k n v).buf = k.buf := by unfold wrS; split <;> rfl

theorem rdS_wrS_self (k : Wick) (n : Nat) (v : W64) : rdS (wrS k n v) n = if n = 0 then 0 else v := by
  unfold rdS wrS
  split
  · rfl
  · rw [tget_tput, if_pos rfl]

/-- A wick that continues, or stops at the end of instruction memory, keeps its registers and waits for nothing new. -/
theorem goTo_registers (s : State) (w : Nat) (target : Int) : ((goTo s w target).wick w).sreg = (s.wick w).sreg ∧
    ((goTo s w target).wick w).vreg = (s.wick w).vreg ∧ ((goTo s w target).wick w).buf = (s.wick w).buf ∧
    ((s.wick w).wait = .none → ((goTo s w target).wick w).wait = .none) := by
  unfold goTo
  split
  · simp
  · have h := (logRecord_logsOnly s (pSCN (w / 64)) (wickFail s w stFormat 4 (s.wick w).pc)).wick w
    simp only [stopAtPc, stopWick, haltWick, wick_setWick, if_true, h, implies_true, and_self]

theorem semDone_answered {s : State} {w : Nat} (d : Nat) (v : W64) (taken : Bool)
    (h : ∃ j, (s.wick w).wait = .semaphore j) : let z := semDone s w d 0 v taken
    (z.wick w).wait = .none ∧ (rdS (z.wick w) d = if d = 0 then 0 else v) ∧ (taken = true → (z.wick w).buf = []) := by
  obtain ⟨j, hj⟩ := h
  simp only [semDone, hj, ne_eq, not_true_eq_false, if_false, advance]
  generalize hu : s.setWick w _ = u
  have hwick : u.wick w = (let k := wrS { s.wick w with wait := .none } d v
      if taken then { k with buf := [] } else k) := by rw [← hu, wick_setWick, if_pos rfl]
  obtain ⟨hsreg, -, hbuf, hwait⟩ := goTo_registers u w ((u.wick w).pc + 1)
  refine ⟨hwait ?_, ?_, fun ht => ?_⟩
  · rw [hwick]; dsimp only; split <;> exact wrS_wait ..
  · have hregs : rdS ((goTo u w ((u.wick w).pc + 1)).wick w) d = rdS (u.wick w) d := by simp only [rdS, hsreg]
    rw [hregs, hwick, ← rdS_wrS_self { s.wick w with wait := .none } d v]
    cases taken <;> rfl
  · rw [hbuf, hwick, ht]; rfl

end Sys2Proof.Proofs
end
section
/-! PROOFS. Sync messages (05 R132, R155; 06 R171, R173 to R175). -/
namespace Sys2Proof.Proofs
open Sys2Proof Machine Safety Laws

/-! ### Fields of a message -/

/-- The counter or semaphore that a CNT_ADD or SEM_OP names, and a SEM_OP's operand. -/
def syncId (m : CtlMsg) : Nat := (m.body.extractLsb' 0 32).toNat
def semOperand (m : CtlMsg) : W64 := m.body.extractLsb' 64 64

theorem cfld_syncId (m : CtlMsg) : cfld m 8 4 = syncId m := cfld_eq ..
theorem cfld_semCode (m : CtlMsg) : cfld m 12 1 = (m.body.extractLsb' 32 8).toNat := cfld_eq ..

theorem ofNat_cfld (m : CtlMsg) (i n : Nat) : BitVec.ofNat (8 * n) (cfld m i n) = m.body.extractLsb' (8 * (i - 8)) (8 * n) := by
  rw [cfld_eq, BitVec.ofNat_toNat, BitVec.setWidth_eq]

/-- What the sync block holds of a peer's WAIT_DEC. -/
def peerWait (m : CtlMsg) : HeldWait := ⟨syncId m, semOperand m, m.part, some m, none⟩

/-! ### CNT_ADD -/

section
variable {s w : State} {n : Nat} {m : CtlMsg} (h : CtlTaken s n m w)
include h

theorem portOk_of_ctlTaken : portOk n = true := decide_eq_true h.1

theorem execCntAdd_taken (htype : m.ctype = 4) : exec (.cntAdd n m) s = .next (arriveCtl s n m
    (counterOwner w (syncId m % 2 ^ 17)) (syncId m % 2 ^ 17) (if m.rsvd ∨ 2 ^ 17 ≤ syncId m then some 0x3F else none)
    (fun s => finishCtl (hubAdd s (syncId m % 2 ^ 17) (m.body.extractLsb' 32 64)) m 0)) := by
  have hv : BitVec.ofNat 64 (cfld m 12 8) = m.body.extractLsb' 32 64 := ofNat_cfld m 12 8
  simp only [exec_cntAdd, execCntAdd, onOk, portOk_of_ctlTaken h, if_true, htype, BEq.rfl, cfld_syncId, hv,
    (CtlTaken_arrivalOnly h).counterOwner]

theorem execCntAdd_ownerFault (htype : m.ctype = 4) (howner : counterOwner w (syncId m % 2 ^ 17) ≠ m.part) :
    exec (.cntAdd n m) s = .next (finishCtl (ownerFault w m.part (some m.src) (syncId m % 2 ^ 17)) m stPerm) :=
  (execCntAdd_taken h htype).trans (congrArg _ (arriveCtl_ownerFault h _ _ _ howner))

theorem execCntAdd_adds (htype : m.ctype = 4) (hrsvd : m.rsvd = false) (hk : syncId m < 2 ^ 17)
    (howner : counterOwner w (syncId m) = m.part) : exec (.cntAdd n m) s =
      .next (finishCtl (hubAdd w (syncId m) (m.body.extractLsb' 32 64)) m 0) := by
  rw [execCntAdd_taken h htype, Nat.mod_eq_of_lt hk, if_neg (by simpa [hrsvd] using hk), arriveCtl_acts h _ _ howner]

/-! ### SEM_OP -/

/-- The effect of an operation of a semaphore that meets no objection: its answer, or the wait. -/
def semAct (m : CtlMsg) (op : Nat) (s : State) : State :=
  match semOp s (syncId m % 2 ^ 15) op (semOperand m) { peerWait m with sem := syncId m % 2 ^ 15 } with
  | (some (v, t), s) => answerSem s m 0 v t
  | (none, s) => s

theorem semRow_taken {op : Nat} (htype : m.ctype = 5) (hop : (m.body.extractLsb' 32 8).toNat = op) : semRow n m op s =
    .next (arriveCtl s n m (semOwner w (syncId m % 2 ^ 15)) (syncId m % 2 ^ 15)
      (if m.rsvd ∨ 2 ^ 15 ≤ syncId m then some 0x3F else none) (semAct m op)) := by
  have hx : BitVec.ofNat 64 (cfld m 16 8) = semOperand m := ofNat_cfld m 16 8
  simp only [semRow, onOk, portOk_of_ctlTaken h, if_true, htype, BEq.rfl, cfld_semCode, hop, decide_true, Bool.and_self,
    cfld_syncId, hx, (CtlTaken_arrivalOnly h).semOwner]
  rfl

theorem semRow_ownerFault {op : Nat} (htype : m.ctype = 5) (hop : (m.body.extractLsb' 32 8).toNat = op)
    (howner : semOwner w (syncId m % 2 ^ 15) ≠ m.part) : semRow n m op s =
      .next (finishCtl (ownerFault w m.part (some m.src) (syncId m % 2 ^ 15)) m stPerm) :=
  (semRow_taken h htype hop).trans (congrArg _ (arriveCtl_ownerFault h _ _ _ howner))

section
variable {op : Nat} (htype : m.ctype = 5) (hrsvd : m.rsvd = false) (hk : syncId m < 2 ^ 15)
  (howner : semOwner w (syncId m) = m.part) (hop : (m.body.extractLsb' 32 8).toNat = op)
include htype hrsvd hk howner hop

theorem semRow_acts : semRow n m op s = .next (semAct m op w) := by
  rw [semRow_taken h htype hop, Nat.mod_eq_of_lt hk, if_neg (by simpa [hrsvd] using hk),
    arriveCtl_acts h _ _ howner]

/-- An operation that answers at once. -/
theorem semRow_answers {v : W64} {taken : Bool} {y : State}
    (hy : semOp w (syncId m) op (semOperand m) (peerWait m) = (some (v, taken), y)) :
    semRow n m op s = .next (answerSem y m 0 v taken) := by
  rw [semRow_acts h htype hrsvd hk howner hop, semAct, Nat.mod_eq_of_lt hk, show { peerWait m with sem := syncId m } =
    peerWait m from rfl, hy]

/-- A WAIT_DEC that must wait. -/
theorem semRow_holds {y : State} (hy : semOp w (syncId m) op (semOperand m) (peerWait m) = (none, y)) :
    semRow n m op s = .next y := by
  rw [semRow_acts h htype hrsvd hk howner hop, semAct, Nat.mod_eq_of_lt hk, show { peerWait m with sem := syncId m } =
    peerWait m from rfl, hy]

end

/-- A reserved operation (06 R174). -/
theorem execSet_reserved (htype : m.ctype = 5) (hop : 4 < (m.body.extractLsb' 32 8).toNat)
    (howner : semOwner w (syncId m % 2 ^ 15) = m.part) : execSet n m s = .next (finishCtl (logErr w pSYNC 2
      { status := stFormat, part := some m.part, agent := some m.src, info := syncId m % 2 ^ 15 }) m stFormat) := by
  rw [← cfld_semCode] at hop
  rw [execSet, if_pos hop, onOk, if_pos (portOk_of_ctlTaken h), if_pos (by rw [htype]; rfl), cfld_syncId,
    ← (CtlTaken_arrivalOnly h).semOwner, arriveCtl_malformed h _ _ 2 (by decide) howner]

end

/-- SET itself is no reserved operation. -/
theorem execSet_eq {s : State} {n : Nat} {m : CtlMsg} (hop : (m.body.extractLsb' 32 8).toNat = 4) :
    execSet n m s = semRow n m 4 s :=
  if_neg (by rw [cfld_semCode, hop]; decide)

/-- The longest a semaphore's only WAIT_DEC is held: it is answered untaken (06 R175). -/
theorem execWaitDecTimeout_answers {s : State} {j : Nat} {h : HeldWait} {q : CtlMsg} (hj : j < Config.semaphores)
    (hheld : s.sync.held = [h]) (hsem : h.sem = j) (hpeer : h.peer = some q) : execWaitDecTimeout j s =
      .next (answerSem (bump (s.setSync (fun y => { y with held := [] })) (rk pSYNC 0x110) 32 1) q 0 (semGet s j) false) := by
  have hfind : s.sync.held.find? (fun h => h.sem = j) = some h := by simp [hheld, hsem]
  have hdrop : s.setSync (fun y => { y with held := dropFirst (fun h => h.sem = j) y.held }) =
      s.setSync (fun y => { y with held := [] }) := by
    simp [State.setSync, hheld, dropFirst, hsem]
  have hsync : (bump (s.setSync (fun y => { y with held := [] })) (rk pSYNC 0x110) 32 1).sync = { s.sync with held := [] } := by
    rw [bump_logsOnly _ (rk pSYNC 0x110) 32 1]; rfl
  have hserve : serve (bump (s.setSync (fun y => { y with held := [] })) (rk pSYNC 0x110) 32 1) j =
      bump (s.setSync (fun y => { y with held := [] })) (rk pSYNC 0x110) 32 1 :=
    serve_of_none_held (by rw [hsync]; simp)
  have hval : semGet (bump (s.setSync (fun y => { y with held := [] })) (rk pSYNC 0x110) 32 1) j = semGet s j := by
    simp only [semGet, hsync]
  simp only [execWaitDecTimeout, onOk, show semaphoreOk j = true from decide_eq_true hj, if_true, hfind, hdrop, hserve, hpeer,
    hval]

/-! ### Answers -/

/-- An acknowledgement whose bitmap holds bit 0 alone names one SEQ. -/
theorem ackSeqs_one (base w : Nat) : ackSeqs base 1 w = [base % 2 ^ w] := by
  have h : (List.range 64).filter (fun i => bit 1 i) = [0] := by decide
  rw [ackSeqs, h]
  rfl

theorem toNat_beq_toNat {n : Nat} (a b : BitVec n) : (a.toNat == b.toNat) = (a == b) := by
  rw [Bool.eq_iff_iff, beq_iff_eq, beq_iff_eq, BitVec.toNat_inj]

section
variable {s : State} {n : Nat} {m : CtlMsg} (hn : n < Config.ports) (hlive : portLive s n = true)
  (hdst : m.dst = s.xbar.agentId)
include hn hlive hdst

/-- A SEM_RSP completes the SEM_OP that it names; a WAIT_DEC that took nothing is sent again (06 R175). -/
theorem execSemRsp_ok {u : UnfinishedCtl} {wk d : Nat} {op : Byte} {isWait : Bool} (htype : m.ctype = 6)
    (hu : (txStream (takeCtl s n m) m.src).ctls.find? (fun u => u.msg.cseq == m.cseq && u.msg.ctype == 5) = some u)
    (horigin : u.origin = .wickSem wk d op isWait) (hst : m.body.extractLsb' 32 8 = 0#8) : execSemRsp n m s =
    .next (let y := (takeUnfinishedCtl (takeCtl s n m) m.src m.cseq).2
      if (isWait && !m.body.getLsbD 40) = true then
        launchCtl y { u.msg with epoch := y.xbar.epochCur } (.wickSem wk d op isWait)
      else semDone y wk d 0 (m.body.extractLsb' 64 64) (m.body.getLsbD 40)) := by
  have hport : (portLive s n && m.ctype == 6 && m.dst == s.xbar.agentId) = true := by simp [hlive, htype, hdst]
  have hstatus : BitVec.ofNat 8 (cfld m 12 1) = 0#8 := (ofNat_cfld m 12 1).trans hst
  have hval : BitVec.ofNat 64 (cfld m 16 8) = m.body.extractLsb' 64 64 := ofNat_cfld m 16 8
  have htaken : bit (cfld m 13 1) 0 = m.body.getLsbD 40 := by
    rw [cfld_eq, bit, BitVec.testBit_toNat]
    simp
  have hagain : ((0#8 : Status) = 0 ∧ isWait = true ∧ ¬ m.body.getLsbD 40 = true) ↔
      (isWait && !m.body.getLsbD 40) = true := by simp
  have hstale : ¬ (0#8 : Status) = stStaleEpoch := by decide
  have hexpired : ¬ (0#8 : Status) = stReplayExpired := by decide
  rw [execSemRsp, onOk, show portOk n = true from decide_eq_true hn, if_pos rfl, if_pos hport]
  simp only [hu, hstatus, hval, htaken, horigin, if_neg hstale, if_neg hexpired, hagain]
  rfl

/-- A CSACK of one CNT_ADD without a failure (05 R132). -/
theorem execCsack_one (htype : m.ctype = 0xB) (hmap : m.body.extractLsb' 16 64 = 1#64) : execCsack n m s =
    .next (csackOne (takeCtl s n m) m.src (m.body.extractLsb' 80 8) (m.body.extractLsb' 0 16).toNat) := by
  have hport : (portLive s n && m.ctype == 0xB && m.dst == s.xbar.agentId) = true := by simp [hlive, htype, hdst]
  have hbits : cfld m 10 8 = 1 := (cfld_eq ..).trans (congrArg BitVec.toNat hmap)
  have hbase : cfld m 8 2 = (m.body.extractLsb' 0 16).toNat := cfld_eq ..
  have hst : BitVec.ofNat 8 (cfld m 18 1) = m.body.extractLsb' 80 8 := ofNat_cfld m 18 1
  rw [execCsack, onOk, show portOk n = true from decide_eq_true hn, if_pos rfl, if_pos hport, hbits, hbase, ackSeqs_one,
    Nat.mod_eq_of_lt (BitVec.isLt _), hst]
  rfl

/-- A NO_ROUTE marks every packet that its destination still owes an answer (05 R155). -/
theorem execNoRoute_marks (htype : m.ctype = 9) : ∃ z, execNoRoute n m s = .next z ∧
    ∀ u ∈ (txStream z (m.body.extractLsb' 0 10)).pkts, u.noRoute = true := by
  have hport : (portLive s n && m.ctype == 9 && m.dst == s.xbar.agentId) = true := by simp [hlive, htype, hdst]
  have hagent : BitVec.ofNat 10 (cfld m 8 2) = m.body.extractLsb' 0 10 := by
    rw [cfld_eq]
    apply BitVec.eq_of_toNat_eq
    simp only [BitVec.toNat_ofNat, BitVec.extractLsb'_toNat]
    exact Nat.mod_mod_of_dvd _ (by decide)
  refine ⟨_, (if_pos (decide_eq_true hn)).trans (congrArg _ (if_pos hport)), fun u hu => ?_⟩
  dsimp only at hu
  rw [hagent, txStream, setTx, setXbar_xbar, tget_tmod, if_pos rfl] at hu
  obtain ⟨v, -, rfl⟩ := List.mem_map.mp hu
  rfl

end

theorem csackOne_orphan {s : State} {a : BitVec 10} {seq : W16} (st : Status)
    (h : (txStream s a).ctls.find? (fun u => u.msg.cseq == seq && u.msg.ctype == 4) = none) :
    csackOne s a st seq.toNat = bump s (rk pXBAR 0x160) 32 1 := by
  simp only [csackOne, toNat_beq_toNat, h, orphan]

/-- A wick's CNT_ADD has been added: nothing waits for it any more. -/
theorem csackOne_added {s : State} {a : BitVec 10} {seq : W16} {u : UnfinishedCtl} {wk o : Nat}
    (h : (txStream s a).ctls.find? (fun u => u.msg.cseq == seq && u.msg.ctype == 4) = some u)
    (horigin : u.origin = .wickCadd wk o) : csackOne s a 0 seq.toNat = (takeUnfinishedCtl s a u.msg.cseq).2 := by
  simp only [csackOne, toNat_beq_toNat, h, horigin, complete, noteFault, if_true]
  rfl

theorem takeUnfinishedCtl_wicks (s : State) (a : BitVec 10) (cseq : W16) :
    (takeUnfinishedCtl s a cseq).2.wicks = s.wicks := by
  simp only [takeUnfinishedCtl]
  split <;> rfl

/-- Settles O47: each message by its own lemma above. -/
theorem syncMessages : Obligations.SyncMessages := by
  unfold Obligations.SyncMessages
  intro s w n m
  refine ⟨fun h htype => ⟨execCntAdd_ownerFault h htype, fun hrsvd hk howner => ?cntAdd⟩, fun i op hi h htype hop howner => ?semOwner,
    fun ⟨h, htype, hrsvd, hk, howner, hop⟩ => ?read, fun ⟨h, htype, hrsvd, hk, howner, hop⟩ hheld => ?signal,
    fun ⟨h, htype, hrsvd, hk, howner, hop⟩ => ?wait, fun ⟨h, htype, hrsvd, hk, howner, hop⟩ => ?tryDec,
    fun ⟨h, htype, hrsvd, hk, howner, hop⟩ hheld => ?set, fun h htype hop howner => execSet_reserved h htype hop howner,
    fun j h q hj hheld hsem hpeer => execWaitDecTimeout_answers hj hheld hsem hpeer,
    fun ⟨hn, hlive, hdst⟩ htype u wk d op isWait hu horigin hst => ?semRsp, fun ⟨hn, hlive, hdst⟩ htype hmap hst => ?csack,
    fun ⟨hn, hlive, hdst⟩ htype => execNoRoute_marks hn hlive hdst htype⟩
  case cntAdd =>
    have hsync : (hubAdd w (syncId m) (m.body.extractLsb' 32 64)).sync =
        { w.sync with hub := tput w.sync.hub (syncId m) (hubGet w (syncId m) + m.body.extractLsb' 32 64) } := by
      rw [hubAdd, bump_logsOnly _ (rk pSYNC 0x118) 48 1]; rfl
    refine ⟨_, execCntAdd_adds h htype hrsvd hk howner, by rw [hsync], by rw [hsync], fun j => ?_⟩
    rw [hubGet, hsync, tget_tput]
    rfl
  case semOwner =>
    simp only [List.mem_cons, Prod.mk.injEq, List.not_mem_nil, or_false] at hi
    rcases hi with ⟨rfl, rfl⟩ | ⟨rfl, rfl⟩ | ⟨rfl, rfl⟩ | ⟨rfl, rfl⟩ | ⟨rfl, rfl⟩
    case inr.inr.inr.inr => exact (execSet_eq hop).trans (semRow_ownerFault h htype hop howner)
    all_goals exact semRow_ownerFault h htype hop howner
  case read => exact semRow_answers h htype hrsvd hk howner hop rfl
  case signal => exact semRow_answers h htype hrsvd hk howner hop (semOp_signal hheld)
  case wait =>
    refine ⟨fun hx hheld => ?_, fun hx hfull => ?_, fun hx hroom => ?_⟩
    · exact semRow_answers h htype hrsvd hk howner hop (semOp_wait_takes hx hheld)
    · exact semRow_answers h htype hrsvd hk howner hop (semOp_wait_full hx hfull)
    · exact semRow_holds h htype hrsvd hk howner hop (semOp_wait_holds hx hroom)
  case tryDec =>
    split
    · next hx => exact semRow_answers h htype hrsvd hk howner hop (if_pos hx)
    · next hx => exact semRow_answers h htype hrsvd hk howner hop (if_neg hx)
  case set => exact (execSet_eq hop).trans (semRow_answers h htype hrsvd hk howner hop (semOp_set hheld))
  case semRsp =>
    have hexec := execSemRsp_ok hn hlive hdst htype hu horigin hst
    refine ⟨fun hagain => hexec.trans (congrArg _ (if_pos hagain)), fun hdone hwait =>
      ⟨_, hexec.trans (congrArg _ (if_neg (by rw [hdone]; decide))), semDone_answered d _ _ ?_⟩⟩
    simpa only [State.wick, takeUnfinishedCtl_wicks, (takeCtl_arrivalOnly s n m).wicks] using hwait
  case csack =>
    have hexec := execCsack_one hn hlive hdst htype hmap
    rw [hst] at hexec
    exact ⟨fun hnone => hexec.trans (congrArg _ (csackOne_orphan 0 hnone)),
      fun u wk o hu horigin => hexec.trans (congrArg _ (csackOne_added hu horigin))⟩

end Sys2Proof.Proofs
end

section
/-! SUPPORT. Bytes and lines of the home: what a read returns after a write under the same key slot (02 R36; 03 R83; 05
R129). -/
namespace Sys2Proof.Proofs
open Sys2Proof Machine Safety Laws

/-! ### Little-endian bytes -/

theorem length_leBytes (n v : Nat) : (leBytes n v).length = n := by
  induction n generalizing v with
  | zero => rfl
  | succ n ih => rw [leBytes, List.length_cons, ih]

theorem leNat_leBytes (n v : Nat) : leNat (leBytes n v) = v % 256 ^ n := by
  induction n generalizing v with
  | zero => rw [pow_zero, Nat.mod_one]; rfl
  | succ n ih => rw [leBytes, leNat, ih, pow_succ', Nat.mod_mul, BitVec.toNat_ofNat]

theorem leNat_lt (b : List Byte) : leNat b < 256 ^ b.length := by
  induction b with
  | nil => exact Nat.one_pos
  | cons x r ih =>
    have hx := x.isLt
    rw [leNat, List.length_cons, pow_succ']
    omega

theorem leBytes_leNat (b : List Byte) : leBytes b.length (leNat b) = b := by
  induction b with
  | nil => rfl
  | cons x r ih =>
    have hx := x.isLt
    have hlow : BitVec.ofNat 8 (x.toNat + 256 * leNat r) = x := BitVec.eq_of_toNat_eq (by rw [BitVec.toNat_ofNat]; omega)
    have hhigh : (x.toNat + 256 * leNat r) / 256 = leNat r := by omega
    rw [List.length_cons, leNat, leBytes, hlow, hhigh, ih]

/-! ### One line -/

theorem length_bytesOf (v : W512) : (bytesOf v).length = 64 := length_leBytes ..

theorem pow_256_64 : 256 ^ 64 = 2 ^ 512 := by rw [show 256 = 2 ^ 8 from rfl, ← pow_mul]

theorem lineOf_bytesOf (v : W512) : lineOf (bytesOf v) = v := by
  rw [lineOf, bytesOf, leNat_leBytes, pow_256_64, Nat.mod_eq_of_lt v.isLt, BitVec.ofNat_toNat, BitVec.setWidth_eq]

theorem bytesOf_lineOf {b : List Byte} (h : b.length = 64) : bytesOf (lineOf b) = b := by
  have hlt : leNat b < 256 ^ 64 := h ▸ leNat_lt b
  rw [lineOf, bytesOf, BitVec.toNat_ofNat, ← pow_256_64, Nat.mod_eq_of_lt hlt, ← h, leBytes_leNat]

theorem lineStored_lineStore (s : State) (l x : Nat) (v : W512) :
    lineStored (lineStore s l v) x = if x = l then v else lineStored s x := by
  split
  · next h =>
    have hread := cellRead_cellWrite s.store.cells (64 * l) (bytesOf v)
    rw [length_bytesOf] at hread
    rw [h, lineStored, lineStore, setStore_store, hread, lineOf_bytesOf]
  · next h =>
    refine congrArg lineOf (List.map_congr_left fun i hi => ?_)
    have hlt := List.mem_range.mp hi
    rw [lineStore, setStore_store, cellGet_cellWrite, length_bytesOf, if_neg (by omega)]

/-- What decides the bytes of the home under every key slot is as before. -/
def SameData (s t : State) : Prop :=
  t.store.cells = s.store.cells ∧ t.store.written = s.store.written ∧ t.store.guest = s.store.guest ∧
    t.store.homeId = s.store.homeId ∧ t.keys = s.keys

namespace SameData
variable {s t u : State}

theorem trans (h : SameData s t) (h' : SameData t u) : SameData s u := by
  obtain ⟨h1, h2, h3, h4, h5⟩ := h
  obtain ⟨g1, g2, g3, g4, g5⟩ := h'
  exact ⟨g1.trans h1, g2.trans h2, g3.trans h3, g4.trans h4, g5.trans h5⟩

theorem lineStored (h : SameData s t) (l : Nat) : lineStored t l = lineStored s l := by
  simp only [Machine.lineStored, h.1]

theorem lineRead (h : SameData s t) (k : BitVec 12) (l : Nat) : lineRead t k l = lineRead s k l := by
  have hstored := h.lineStored l
  obtain ⟨-, hwritten, hguest, hhome, hkeys⟩ := h
  simp only [Machine.lineRead, hstored, hwritten, keySlot, hkeys, tweakOf, guestOf, hguest, hhome]

theorem homeBytes (h : SameData s t) (k : BitVec 12) (off n : Nat) : homeBytes t k off n = homeBytes s k off n := by
  simp only [Machine.homeBytes, h.lineRead]

end SameData

theorem clearBad_sameData (s : State) (l : Nat) : SameData s (clearBad s l) := by
  unfold clearBad
  split
  · dsimp only
    split <;> exact ⟨rfl, rfl, rfl, rfl, rfl⟩
  · exact ⟨rfl, rfl, rfl, rfl, rfl⟩

theorem lineStored_lineWrite (s : State) (k : BitVec 12) {l x : Nat} (v : W512) (h : x ≠ l) :
    lineStored (lineWrite s k l v) x = lineStored s x := by
  rw [lineWrite, (clearBad_sameData ..).lineStored, lineStored_lineStore, if_neg h]

/-- A line written whole reads as what was written, and every other line as before. -/
theorem lineRead_lineWrite (s : State) (k : BitVec 12) (l x : Nat) (v : W512) :
    lineRead (lineWrite s k l v) k x = if x = l then v else lineRead s k x := by
  rw [lineWrite, (clearBad_sameData ..).lineRead]
  have hwritten : ∀ c, (lineStore s l c).store.written.contains x = (decide (x = l) || s.store.written.contains x) := by
    intro c
    rw [Bool.eq_iff_iff, Bool.or_eq_true, decide_eq_true_iff, List.contains_iff_mem, List.contains_iff_mem, lineStore,
      setStore_store, mem_setInsert]
  rw [lineRead, hwritten, lineStored_lineStore]
  by_cases h : x = l
  · simp only [h, decide_true, Bool.true_or, if_true]
    exact Equiv.symm_apply_apply ..
  · simp only [h, decide_false, Bool.false_or, if_false]
    rfl

theorem length_mergeBytes (old d : List Byte) (m : List Bool) :
    ((List.range 64).map (fun i => if m.getD i false then d.getD i 0 else old.getD i 0)).length = 64 := by simp

/-! ### Bytes by their offset -/

/-- The byte of the home at an offset as it reads under a key slot. -/
def homeByte (s : State) (k : BitVec 12) (a : Nat) : Byte := (bytesOf (lineRead s k (a / 64))).getD (a % 64) 0

/-- Lines that `[off, off + n)` touches, as a count. -/
def lineCount (off n : Nat) : Nat := if n = 0 then 0 else (off + n - 1) / 64 - off / 64 + 1

theorem linesOf_eq (off n : Nat) : linesOf off n = (List.range (lineCount off n)).map (· + off / 64) := by
  unfold linesOf lineCount
  split <;> rfl

theorem mem_linesOf {off n l : Nat} : l ∈ linesOf off n ↔ n ≠ 0 ∧ off / 64 ≤ l ∧ l ≤ (off + n - 1) / 64 := by
  unfold linesOf
  split
  · next h => simp [h]
  · next h =>
    simp only [List.mem_map, List.mem_range]
    refine ⟨?_, fun ⟨_, h1, h2⟩ => ⟨l - off / 64, by omega, by omega⟩⟩
    rintro ⟨i, hi, rfl⟩
    have : off / 64 ≤ (off + n - 1) / 64 := Nat.div_le_div_right (by omega)
    exact ⟨h, by omega, by omega⟩

/-- Whole lines as their bytes, one after another. -/
theorem flatten_lines (s : State) (k : BitVec 12) (q m : Nat) :
    ((List.range m).map (fun i => bytesOf (lineRead s k (i + q)))).flatten =
      (List.range (64 * m)).map (fun j => homeByte s k (64 * q + j)) := by
  induction m with
  | zero => rfl
  | succ m ih =>
    have hline : bytesOf (lineRead s k (m + q)) = (List.range 64).map (fun j => homeByte s k (64 * q + (64 * m + j))) := by
      refine List.ext_getElem (by simp [length_bytesOf]) fun j hj _ => ?_
      rw [length_bytesOf] at hj
      have hdiv : (64 * q + (64 * m + j)) / 64 = m + q := by omega
      have hmod : (64 * q + (64 * m + j)) % 64 = j := by omega
      simp only [List.getElem_map, List.getElem_range, homeByte, hdiv, hmod]
      rw [List.getD_eq_getElem _ _ (by rw [length_bytesOf]; exact hj)]
    rw [List.range_succ, List.map_append, List.flatten_append, ih, Nat.mul_succ, List.range_add, List.map_append,
      List.map_map, List.map_singleton, List.flatten_singleton, hline]
    rfl

/-- A read returns the byte of every offset of its range. -/
theorem homeBytes_eq (s : State) (k : BitVec 12) (off n : Nat) :
    homeBytes s k off n = (List.range n).map (fun i => homeByte s k (off + i)) := by
  rcases Nat.eq_zero_or_pos n with rfl | hn
  · rfl
  have hlen : off % 64 + n ≤ 64 * lineCount off n := by rw [lineCount, if_neg (by omega)]; omega
  rw [homeBytes, linesOf_eq, List.map_map]
  simp only [Function.comp_def, flatten_lines]
  refine List.ext_getElem (by simp; omega) fun i _ _ => ?_
  have hoff : 64 * (off / 64) + (off % 64 + i) = off + i := by omega
  simp [hoff]

theorem length_homeBytes (s : State) (k : BitVec 12) (off n : Nat) : (homeBytes s k off n).length = n := by
  simp [homeBytes_eq]

theorem getD_homeBytes (s : State) (k : BitVec 12) (off : Nat) {n i : Nat} (h : i < n) :
    (homeBytes s k off n).getD i 0 = homeByte s k (off + i) := by
  simp [homeBytes_eq, h]

/-! ### Writes -/

theorem homeByte_lineMerge (s : State) (k : BitVec 12) (l a : Nat) (d : List Byte) (m : List Bool) :
    homeByte (lineMerge s k l d m) k a =
      if a / 64 = l ∧ m.getD (a % 64) false = true then d.getD (a % 64) 0 else homeByte s k a := by
  have hmod : a % 64 < 64 := Nat.mod_lt _ (by decide)
  unfold homeByte lineMerge
  rw [lineRead_lineWrite]
  by_cases hl : a / 64 = l
  · rw [if_pos hl, bytesOf_lineOf (length_mergeBytes ..)]
    simp [hl, hmod]
  · simp [hl]

theorem lineStored_lineMerge (s : State) (k : BitVec 12) {l x : Nat} (d : List Byte) (m : List Bool) (h : x ≠ l) :
    lineStored (lineMerge s k l d m) x = lineStored s x := lineStored_lineWrite s k _ h

/-- The part of a write that falls into one line. -/
def writeLine (k : BitVec 12) (off : Nat) (d : List Byte) (s : State) (l : Nat) : State :=
  lineMerge s k l ((List.range 64).map (fun i => if off ≤ 64 * l + i then d.getD (64 * l + i - off) 0 else 0))
    ((List.range 64).map (fun i => decide (off ≤ 64 * l + i ∧ 64 * l + i < off + d.length)))

theorem homeWrite_eq (s : State) (k : BitVec 12) (off : Nat) (d : List Byte) :
    homeWrite s k off d = (linesOf off d.length).foldl (writeLine k off d) s := rfl

theorem homeByte_writeLine (k : BitVec 12) (off : Nat) (d : List Byte) (s : State) (l a : Nat) :
    homeByte (writeLine k off d s l) k a =
      if a / 64 = l ∧ off ≤ a ∧ a < off + d.length then d.getD (a - off) 0 else homeByte s k a := by
  rw [writeLine, homeByte_lineMerge]
  by_cases hl : a / 64 = l
  · have hmod : a % 64 < 64 := Nat.mod_lt _ (by decide)
    have ha : 64 * l + a % 64 = a := by omega
    by_cases hin : off ≤ a ∧ a < off + d.length
    · simp [hl, hmod, ha, hin]
    · simp [hl, hmod, ha, hin]
  · simp [hl]

theorem homeByte_writeLines (k : BitVec 12) (off : Nat) (d : List Byte) (ls : List Nat) (s : State) (a : Nat) :
    homeByte (ls.foldl (writeLine k off d) s) k a =
      if a / 64 ∈ ls ∧ off ≤ a ∧ a < off + d.length then d.getD (a - off) 0 else homeByte s k a := by
  induction ls generalizing s with
  | nil => simp
  | cons l r ih =>
    rw [List.foldl_cons, ih, homeByte_writeLine]
    by_cases hr : a / 64 ∈ r ∧ off ≤ a ∧ a < off + d.length
    · rw [if_pos hr, if_pos ⟨List.mem_cons_of_mem _ hr.1, hr.2⟩]
    · simp only [if_neg hr, List.mem_cons, or_and_right, or_iff_left hr]

/-- Bytes written into the home are there, and every other byte reads as before. -/
theorem homeByte_homeWrite (s : State) (k : BitVec 12) (off a : Nat) (d : List Byte) :
    homeByte (homeWrite s k off d) k a =
      if off ≤ a ∧ a < off + d.length then d.getD (a - off) 0 else homeByte s k a := by
  have hmem : (a / 64 ∈ linesOf off d.length ∧ off ≤ a ∧ a < off + d.length) ↔ (off ≤ a ∧ a < off + d.length) := by
    rw [mem_linesOf]; omega
  rw [homeWrite_eq, homeByte_writeLines]
  simp only [hmem]

theorem homeBytes_homeWrite (s : State) (k : BitVec 12) (off : Nat) (d : List Byte) :
    homeBytes (homeWrite s k off d) k off d.length = d := by
  rw [homeBytes_eq]
  refine List.ext_getElem (by simp) fun i _ hi => ?_
  rw [List.getElem_map, List.getElem_range, homeByte_homeWrite, if_pos (by omega), Nat.add_sub_cancel_left,
    List.getD_eq_getElem _ _ hi]

theorem lineStored_homeWrite (s : State) (k : BitVec 12) (off : Nat) (d : List Byte) {l : Nat}
    (h : l ∉ linesOf off d.length) : lineStored (homeWrite s k off d) l = lineStored s l := by
  rw [homeWrite_eq]
  generalize linesOf off d.length = ls at h
  induction ls generalizing s with
  | nil => rfl
  | cons x r ih =>
    rw [List.foldl_cons, ih _ (fun hr => h (List.mem_cons_of_mem _ hr)),
      writeLine, lineStored_lineMerge _ _ _ _ (fun hx => h (List.mem_cons.mpr (.inl hx)))]

end Sys2Proof.Proofs
end

section
/-! SUPPORT. A request at its home: what the tier applies, what it leaves unchanged, and the completion (02 R42, R48; 05
R129, R149 to R151; 12 R333, R336, R353). -/
namespace Sys2Proof.Proofs
open Sys2Proof Machine Safety Laws

/-! ### What serving a request changes -/

/-- Nothing but lines of the home, marks and counts of its blocks, forfeits and generators has changed. -/
def ServiceOnly (s t : State) : Prop :=
  t = { s with
    store := { s.store with cells := t.store.cells, written := t.store.written, badLines := t.store.badLines,
                            blocks := t.store.blocks, decay := t.store.decay, halvings := t.store.halvings }
    work := { s.work with engGen := t.work.engGen }
    dir := { s.dir with forfeits := t.dir.forfeits } }

namespace ServiceOnly
variable {s t u : State}

theorem refl (s : State) : ServiceOnly s s := rfl

theorem trans (h : ServiceOnly s t) (h' : ServiceOnly t u) : ServiceOnly s u := by
  unfold ServiceOnly at *; rw [h', h]

theorem foldl {α : Type} {f : State → α → State} (hf : ∀ t a, ServiceOnly t (f t a)) (l : List α) (s : State) :
    ServiceOnly s (l.foldl f s) := by
  induction l generalizing s with
  | nil => exact refl s
  | cons a r ih => exact (hf s a).trans (ih _)

theorem mirrorOf (h : ServiceOnly s t) (ext : Nat) : mirrorOf t ext = mirrorOf s ext := by rw [h]; rfl

theorem twinPeers (h : ServiceOnly s t) (off : Nat) : twinPeers t off = twinPeers s off := by rw [h]; rfl

end ServiceOnly

theorem blockSet_serviceOnly (s : State) (b : Nat) (f : Block → Block) : ServiceOnly s (blockSet s b f) := rfl

theorem lineStore_serviceOnly (s : State) (l : Nat) (v : W512) : ServiceOnly s (lineStore s l v) := rfl

theorem clearBad_serviceOnly (s : State) (l : Nat) : ServiceOnly s (clearBad s l) := by
  unfold clearBad
  split
  · dsimp only
    split <;> rfl
  · rfl

theorem lineMerge_serviceOnly (s : State) (k : BitVec 12) (l : Nat) (d : List Byte) (m : List Bool) :
    ServiceOnly s (lineMerge s k l d m) := (lineStore_serviceOnly ..).trans (clearBad_serviceOnly ..)

theorem homeWrite_serviceOnly (s : State) (k : BitVec 12) (off : Nat) (d : List Byte) :
    ServiceOnly s (homeWrite s k off d) := ServiceOnly.foldl (fun _ _ => lineMerge_serviceOnly ..) _ _

theorem genSet_serviceOnly (s : State) (k : Nat) (g : W32) : ServiceOnly s (genSet s k g) := rfl

theorem clearForfeits_serviceOnly (s : State) (ls : List Nat) : ServiceOnly s (clearForfeits s ls) := by
  unfold clearForfeits; split <;> rfl

theorem staleShadow_serviceOnly (s : State) (b : Nat) : ServiceOnly s (staleShadow s b) := by
  simp only [staleShadow]; split <;> rfl

/-! ### Counts and shadows -/

theorem staleShadow_sameData (s : State) (b : Nat) : SameData s (staleShadow s b) := by
  simp only [staleShadow]; split <;> exact ⟨rfl, rfl, rfl, rfl, rfl⟩

theorem staleShadows_sameData (bs : List Nat) (s : State) : SameData s (bs.foldl staleShadow s) := by
  induction bs generalizing s with
  | nil => exact ⟨rfl, rfl, rfl, rfl, rfl⟩
  | cons b r ih => exact (staleShadow_sameData s b).trans (ih _)

/-- What accesses are counted for is as before: data, failing lines, generators, and where blocks lie. -/
structure CountsOnly (s t : State) : Prop where
  service : ServiceOnly s t
  data : SameData s t
  bad : t.store.badLines = s.store.badLines
  gen : t.work.engGen = s.work.engGen
  loc : ∀ b, (blockGet t b).loc = (blockGet s b).loc

namespace CountsOnly
variable {s t u : State}

theorem refl (s : State) : CountsOnly s s := ⟨rfl, ⟨rfl, rfl, rfl, rfl, rfl⟩, rfl, rfl, fun _ => rfl⟩

theorem trans (h : CountsOnly s t) (h' : CountsOnly t u) : CountsOnly s u :=
  ⟨h.service.trans h'.service, h.data.trans h'.data, h'.bad.trans h.bad, h'.gen.trans h.gen,
    fun b => (h'.loc b).trans (h.loc b)⟩

theorem deferred (h : CountsOnly s t) : t.store.deferred = s.store.deferred := by rw [h.service]

theorem flashBlocksOf (h : CountsOnly s t) (p : Packet) (off : Nat) : flashBlocksOf t p off = flashBlocksOf s p off := by
  simp only [Machine.flashBlocksOf, h.loc]

theorem targetLost (h : CountsOnly s t) : targetLost t = targetLost s := by
  have hpower : t.power = s.power := by rw [h.service]
  funext x
  cases x <;> simp only [Machine.targetLost, Machine.stackTraining, Machine.capTraining, hpower]

theorem tierStatus (h : CountsOnly s t) (p : Packet) (off : Nat) (ls : List Nat) :
    tierStatus t p off ls = tierStatus s p off ls := by
  obtain ⟨-, -, -, -, hkeys⟩ := h.data
  have hkey : keyOk t p.key p.part = keyOk s p.key p.part := by simp only [keyOk, keySlot, hkeys]
  have htargets : targetsOf t off (packetBytes p) = targetsOf s off (packetBytes p) := by
    unfold targetsOf
    simp only [h.loc]
  have hbad : lineBad t = lineBad s := funext fun l => congrArg (·.contains l) h.bad
  simp only [Machine.tierStatus, hkey, htargets, h.targetLost, hbad]

theorem newBytes (h : CountsOnly s t) (p : Packet) (off : Nat) (x : Target) : newBytes t p off x = newBytes s p off x := by
  simp only [Safety.newBytes, h.data.homeBytes, genGet, h.gen]

theorem answerBytes (h : CountsOnly s t) (p : Packet) (off : Nat) : answerBytes t p off = answerBytes s p off := by
  simp only [Safety.answerBytes, h.data.homeBytes]

end CountsOnly

/-- A block's count as it is after one more access. -/
def counted (s : State) (b : Nat) (e : Block) : Block :=
  { e with count := BitVec.ofNat 16 (min (counterOf s b + 1) 0xFFFF), epoch := s.store.halvings.toNat }

theorem countAccess_eq (s : State) (b : Nat) : ∃ d h, countAccess s b =
    (blockSet s b (counted s b)).setStore (fun z => { z with decay := d, halvings := h }) := by
  simp only [countAccess]
  split <;> exact ⟨_, _, rfl⟩

theorem countAccess_countsOnly (s : State) (b : Nat) : CountsOnly s (countAccess s b) := by
  obtain ⟨d, h, heq⟩ := countAccess_eq s b
  rw [heq]
  refine ⟨rfl, ⟨rfl, rfl, rfl, rfl, rfl⟩, rfl, rfl, fun x => ?_⟩
  refine (congrArg Block.loc (blockGet_blockSet s b x (counted s b))).trans ?_
  split
  · next hx => rw [hx]; rfl
  · rfl

theorem countAccesses_countsOnly (bs : List Nat) (s : State) : CountsOnly s (bs.foldl countAccess s) := by
  induction bs generalizing s with
  | nil => exact .refl s
  | cons b r ih => exact (countAccess_countsOnly s b).trans (ih _)

/-! ### The tier's operation -/

theorem packetOpc_cases {p : Packet} (h : p.opc.toNat ≤ 4) :
    p.opc = 0 ∨ p.opc = 1 ∨ p.opc = 2 ∨ p.opc = 3 ∨ p.opc = 4 := by
  bv_omega

theorem accSize_dvd (f k : Nat) : accSize f ∣ 32 * k := by
  refine Dvd.dvd.mul_right ?_ k
  unfold accSize
  split_ifs <;> decide

/-- An accumulate leaves as many whole elements as there were. -/
theorem length_accApply (arg : Nat) (g : W32) (mem : List Byte) (ops : List (List Byte)) :
    (accApply arg g mem ops).1.length = accSize (arg % 16) * (mem.length / accSize (arg % 16)) := by
  unfold accApply
  dsimp only
  induction mem.length / accSize (arg % 16) with
  | zero => rfl
  | succ m ih => rw [List.range_succ, List.foldl_append, List.foldl_cons, List.foldl_nil, List.length_append, ih,
      length_leBytes, Nat.mul_succ]

/-- The home's offset of a request keeps the alignment of its address to a line. -/
theorem offsetOf_mod_line {s : State} {p : Packet} (h : p.addr.toNat % 64 = 0) : offsetOf s p % 64 = 0 := by
  unfold offsetOf homeOffset
  dsimp only
  split_ifs
  · rfl
  · dsimp only; omega
  · split
    · next h =>
      split at h
      · injection h; omega
      · exact absurd h (by simp)
    · rfl

/-- The tier has applied a request at a home offset: its bytes, and every other line as stored before. -/
def Applied (s z : State) (p : Packet) (off : Nat) (x : Target) : Prop :=
  ServiceOnly s z ∧ homeBytes z p.key off (packetBytes p) = newBytes s p off x ∧
    ∀ l, l ∉ linesOf off (packetBytes p) ∨ p.opc = 0 → lineStored z l = lineStored s l

section
variable (s : State) (x : Target) {p : Packet} (off : Nat)

theorem applied_homeWrite (d : List Byte) (hlen : d.length = packetBytes p) (hnew : newBytes s p off x = d)
    (hopc : p.opc ≠ 0) : Applied s (homeWrite s p.key off d) p off x := by
  refine ⟨homeWrite_serviceOnly .., ?_, fun l hl => lineStored_homeWrite s _ _ _ ?_⟩
  · rw [hnew, ← hlen, homeBytes_homeWrite]
  · rw [hlen]; exact hl.resolve_right hopc

theorem Applied.sameData {s z y : State} (h : Applied s z p off x) (hd : SameData z y) (hs : ServiceOnly z y) :
    Applied s y p off x := by
  obtain ⟨hservice, hbytes, hlines⟩ := h
  exact ⟨hservice.trans hs, (hd.homeBytes ..).trans hbytes, fun l hl => (hd.lineStored l).trans (hlines l hl)⟩

theorem applyData_read (hopc : p.opc = 0) :
    applyData s x [p] off = ([answerBytes s p off], s) ∧ Applied s s p off x := by
  refine ⟨?_, rfl, ?_, fun _ _ => rfl⟩
  · simp [applyData, hopc, answerBytes]
  · simp [newBytes, hopc]

theorem applyData_write (hok : p.ok = true) (hopc : p.opc = 1) :
    ∃ z, applyData s x [p] off = ([answerBytes s p off], z) ∧ Applied s z p off x := by
  have hlen : p.payload.length = packetBytes p := by simpa [packetBytes, hopc, Packet.ok] using hok
  refine ⟨clearForfeits (homeWrite s p.key off p.payload) (linesOf off (packetBytes p)), ?_, ?_⟩
  · simp [applyData, hopc, answerBytes]
  · refine (applied_homeWrite s x off p.payload hlen ?_ ?_).sameData x off ?_ (clearForfeits_serviceOnly ..)
    · simp [newBytes, hopc]
    · simp [hopc]
    · unfold clearForfeits
      split <;> exact ⟨rfl, rfl, rfl, rfl, rfl⟩

theorem applyData_writeMasked (hopc : p.opc = 2) (halign : off % 64 = 0) :
    ∃ z, applyData s x [p] off = ([answerBytes s p off], z) ∧ Applied s z p off x := by
  have hbytes : packetBytes p = 64 := by simp [packetBytes, hopc]
  refine ⟨lineMerge s p.key (off / 64) p.payload (maskOf p), ?_, lineMerge_serviceOnly .., ?_, fun l hl => ?_⟩
  · simp [applyData, hopc, answerBytes]
  · rw [hbytes, homeBytes_eq, newBytes, hopc, hbytes]
    refine List.map_congr_left fun i hi => ?_
    have hi64 := List.mem_range.mp hi
    have hdiv : (off + i) / 64 = off / 64 := by omega
    have hmod : (off + i) % 64 = i := by omega
    rw [homeByte_lineMerge, hdiv, hmod, getD_homeBytes _ _ _ hi64]
    simp only [true_and]
  · refine lineStored_lineMerge s _ _ _ fun hline => ?_
    rw [hbytes, mem_linesOf] at hl
    exact hl.elim (fun h => h (by omega)) (fun h => by simp [hopc] at h)

theorem applyData_accumulate (hopc : p.opc = 3) :
    ∃ z, applyData s x [p] off = ([answerBytes s p off], z) ∧ Applied s z p off x := by
  have hbytes : packetBytes p = 32 * p.len.toNat := by simp [packetBytes, hopc]
  have hlen : (accApply p.arg.toNat (genGet s (genKey x)) (homeBytes s p.key off (packetBytes p)) [p.payload]).1.length =
      packetBytes p := by
    rw [length_accApply, length_homeBytes, hbytes, Nat.mul_div_cancel' (accSize_dvd ..)]
  have happlied := applied_homeWrite s x off _ hlen (by simp [newBytes, hopc]) (by simp [hopc])
  refine ⟨_, by simp only [applyData, hopc, answerBytes]; rfl, ?_⟩
  split
  · exact happlied.sameData x off ⟨rfl, rfl, rfl, rfl, rfl⟩ (genSet_serviceOnly ..)
  · exact happlied

theorem applyData_atomic (hopc : p.opc = 4) :
    ∃ z, applyData s x [p] off = ([answerBytes s p off], z) ∧ Applied s z p off x := by
  refine ⟨homeWrite s p.key off (newBytes s p off x), ?_, applied_homeWrite s x off _ ?_ rfl (by simp [hopc])⟩
  · have hold := leBytes_leNat (homeBytes s p.key off (packetBytes p))
    rw [length_homeBytes] at hold
    simp [applyData, hopc, answerBytes, atomicGroup, newBytes, hold]
  · simp [newBytes, hopc, length_leBytes]

end

theorem applyData_applied (s : State) (x : Target) {p : Packet} {off : Nat} (hok : p.ok = true) (hopc : p.opc.toNat ≤ 4)
    (halign : alignOk p = true) (hoff : offsetOf s p = off) :
    ∃ z, applyData s x [p] off = ([answerBytes s p off], z) ∧ Applied s z p off x := by
  rcases packetOpc_cases hopc with h | h | h | h | h
  · exact ⟨s, applyData_read s x off h⟩
  · exact applyData_write s x off hok h
  · refine applyData_writeMasked s x off h (hoff ▸ offsetOf_mod_line ?_)
    simpa [alignOk, h] using halign
  · exact applyData_accumulate s x off h
  · exact applyData_atomic s x off h

end Sys2Proof.Proofs
end

section
/-! SUPPORT. A request at its home: one group accepted by its target (03 R82; 05 R133, R149 to R151). -/
namespace Sys2Proof.Proofs
open Sys2Proof Machine Safety Laws

/-! ### Completion -/

/-- The request's counter has its count, and its extent one request less in flight. -/
def completed (s : State) (p : Packet) (off : Nat) : State :=
  noteInflight (if p.cen then hubAdd s p.counter.toNat (BitVec.ofNat 64 (countOf p)) else s) off false

theorem hubAdd_eq (s : State) (k : Nat) (v : W64) : LogsOnly (hubSet s k (hubGet s k + v)) (hubAdd s k v) :=
  bump_logsOnly ..

/-- The hub counters after a request's count. -/
def hubAfter (s : State) (p : Packet) : NatMap W64 :=
  if p.cen then tput s.sync.hub p.counter.toNat (hubGet s p.counter.toNat + BitVec.ofNat 64 (countOf p)) else s.sync.hub

/-- Completion of a request changes its counter, its extent's requests in flight, and logs. -/
theorem completed_eq (s : State) (p : Packet) (off : Nat) : ∃ e, LogsOnly
    { s with sync := { s.sync with hub := hubAfter s p }, work := { s.work with extents := e } } (completed s p off) := by
  unfold completed hubAfter
  refine ⟨(noteInflight s off false).work.extents, ?_⟩
  by_cases hc : p.cen = true
  · rw [if_pos hc, if_pos hc, hubAdd_eq s p.counter.toNat]
    rfl
  · rw [if_neg hc, if_neg hc]
    rfl

theorem completeGroup_alone {s : State} {p : Packet} {off : Nat} (d : List Byte) (hmirror : mirrorOf s (extentOf off) = none)
    (htwins : twinPeers s off = []) :
    completeGroup s [(⟨p, .peer p⟩, d)] off = finishPeer (completed s p off) p 0 d := by
  simp only [completeGroup, hmirror, htwins, ite_self]
  rfl

/-- A request that the tier has applied is served once it is complete. -/
theorem Applied.homeServes {s z : State} {p : Packet} {off : Nat} {x : Target} (h : Applied s z p off x) :
    HomeServes s (completed z p off) p off x ∧ (completed z p off).xbar = s.xbar := by
  obtain ⟨hservice, hbytes, hlines⟩ := h
  obtain ⟨e, hlogs⟩ := completed_eq z p off
  have hsame : SameData z (completed z p off) := by
    rw [hlogs]; exact ⟨rfl, rfl, rfl, rfl, rfl⟩
  refine ⟨⟨(hsame.homeBytes ..).trans hbytes, fun l hl => (hsame.lineStored l).trans (hlines l hl), fun k => ?_,
    ?_, ?_, ?_, ?_, ?_, ?_, ?_, ?_⟩, ?_⟩
  · have hhub : ∀ k, hubGet z k = hubGet s k := fun k => by rw [hservice]; rfl
    rw [← hhub, hlogs]
    unfold hubGet hubAfter
    dsimp only
    by_cases hc : p.cen = true
    · rw [if_pos hc, tget_tput]
      by_cases hk : k = p.counter.toNat
      · rw [if_pos hk, if_pos ⟨hc, hk⟩, hk]; rfl
      · rw [if_neg hk, if_neg (fun h => hk h.2)]; exact (BitVec.add_zero _).symm
    · rw [if_neg hc, if_neg (fun h => hc h.1)]; exact (BitVec.add_zero _).symm
  all_goals rw [hlogs, hservice]

/-! ### One group -/

theorem firstBad_pair {a b : Status} (h : firstBad [a, b] = 0) : a = 0 ∧ b = 0 := by
  unfold firstBad at h
  by_cases ha : a = 0
  · by_cases hb : b = 0
    · exact ⟨ha, hb⟩
    · rw [List.find?_cons_of_neg (by simpa using ha), List.find?_cons_of_pos (by simpa using hb)] at h
      exact absurd h hb
  · rw [List.find?_cons_of_pos (by simpa using ha)] at h
    exact absurd h ha

theorem CountsOnly.offsetOf {s t : State} (h : CountsOnly s t) (p : Packet) : offsetOf t p = offsetOf s p := by
  obtain ⟨-, -, hguest, hhome, -⟩ := h.data
  have hoff : homeOffset t p.addr.toNat = homeOffset s p.addr.toNat := by
    unfold homeOffset guestOf
    rw [hguest, hhome]
  rw [Machine.offsetOf, hoff, ← Machine.offsetOf]

/-- What the tier applies to a state whose accesses are counted, it applies to the state before. -/
theorem CountsOnly.applied {s c z : State} (h : CountsOnly s c) {p : Packet} {off : Nat} {x : Target}
    (happ : Applied c z p off x) : Applied s z p off x := by
  obtain ⟨hservice, hbytes, hlines⟩ := happ
  exact ⟨h.service.trans hservice, hbytes.trans (h.newBytes p off x),
    fun l hl => (hlines l hl).trans (h.data.lineStored l)⟩

/-- A group of one request that the home may serve is applied, and the request answered (05 R149 to R151). -/
theorem applyGroup_ready {s : State} {p : Packet} {off : Nat} (x : Target) (hok : p.ok = true) (hopc : p.opc.toNat ≤ 4)
    (h : HomeReady s p off) : ∃ y, applyGroup s x [⟨p, .peer p⟩] = finishPeer y p 0 (answerBytes s p off) ∧
      HomeServes s y p off x ∧ y.xbar = s.xbar := by
  obtain ⟨-, halign, -, hoff, hstage, hflash, hbehind, htwins, hmirror⟩ := h
  obtain ⟨hlook, htier⟩ := firstBad_pair hstage
  have hcounts := countAccesses_countsOnly (blocksOf off (packetBytes p)) s
  generalize hc : (blocksOf off (packetBytes p)).foldl countAccess s = c at hcounts
  rw [← hcounts.flashBlocksOf] at hflash
  rw [← hcounts.deferred] at hbehind
  rw [← hcounts.tierStatus] at htier
  obtain ⟨z, hdata, happ⟩ := applyData_applied c x hok hopc halign ((hcounts.offsetOf p).trans hoff)
  have happlied : Applied s (if writesMemory p then (blocksOf off (packetBytes p)).foldl staleShadow z else z) p off x := by
    refine hcounts.applied ?_
    split
    · exact happ.sameData x off (staleShadows_sameData ..) (ServiceOnly.foldl staleShadow_serviceOnly ..)
    · exact happ
  have hgroup : applyGroup s x [⟨p, .peer p⟩] = completeGroup (if writesMemory p then
      (blocksOf off (packetBytes p)).foldl staleShadow z else z) [(⟨p, .peer p⟩, answerBytes c p off)] off := by
    have hnot : ¬ (0 = stXlate ∨ (0 : Status) = stReset) := by decide
    simp only [applyGroup, hoff, hlook, if_neg hnot, hc, hflash, hbehind, htier, hdata, demand, List.foldl_nil,
      List.map_cons, List.map_nil, List.zip_cons_cons, List.zip_nil_right]
    rfl
  have hserved := happlied.homeServes
  obtain ⟨hservice, -, -⟩ := happlied
  rw [hgroup, completeGroup_alone _ ((hservice.mirrorOf _).trans hmirror) ((hservice.twinPeers off).trans htwins),
    hcounts.answerBytes]
  exact ⟨_, rfl, hserved⟩

/-! ### Windows -/

theorem windowOf_setWindow (s : State) (t : Target) (gs : List (List Req)) : windowOf (setWindow s t gs) t = gs := by
  have hnone : (s.xbar.windows.filter (·.1 ≠ t)).find? (·.1 = t) = none := by simp [List.find?_eq_none]
  unfold windowOf setWindow State.setXbar
  dsimp only
  rw [List.find?_append, hnone]
  cases gs <;> simp

theorem windowOf_congr {s t : State} (h : t.xbar = s.xbar) (x : Target) : windowOf t x = windowOf s x := by
  unfold windowOf; rw [h]

/-- A request that waits alone for its target is served when the target accepts it (05 R133). -/
theorem execTierApply_ready {s : State} {p : Packet} {off : Nat} {x : Target} (hok : p.ok = true) (hopc : p.opc.toNat ≤ 4)
    (hwin : windowOf s x = [[⟨p, .peer p⟩]]) (hx : x.ok = true) (hheld : targetHeld s x = false) (h : HomeReady s p off) :
    ∃ y, exec (.tierApply x) s = .next (finishPeer y p 0 (answerBytes s p off)) ∧ HomeServes s y p off x ∧
      windowOf y x = [] := by
  obtain ⟨y, hy, hserves, hxbar⟩ := applyGroup_ready (s := setWindow s x []) x hok hopc h
  refine ⟨y, ?_, hserves, (windowOf_congr hxbar x).trans (windowOf_setWindow ..)⟩
  have haccept : acceptOne s x = finishPeer y p 0 (answerBytes s p off) := by
    simp only [acceptOne, hheld, hwin, Bool.false_eq_true, if_false]
    exact hy
  simp only [Machine.exec, execTierApply, onOk, hx, if_true, haccept]

end Sys2Proof.Proofs
end

section
/-! SUPPORT. A request on its way to its home: the checks of its arrival in order (05 R128, R137, R153; 14 R391). -/
namespace Sys2Proof.Proofs
open Sys2Proof Machine Safety Laws

/-! ### The rows of requests -/

/-- The commands of a request for the home, each under what its packet must be. -/
def requestRows (n : Nat) (p : Packet) (h : Bool) : List (Instr × Prop) :=
  [(.read n p h, p.opc = 0), (.write n p h, p.opc = 1), (.writeMasked n p h, p.opc = 2), (.accumulate n p h, p.opc = 3),
    (.atomicAdd n p h, p.opc = 4 ∧ p.arg.toNat % 4 = 0), (.atomicMin n p h, p.opc = 4 ∧ p.arg.toNat % 4 = 1),
    (.atomicMax n p h, p.opc = 4 ∧ p.arg.toNat % 4 = 2), (.atomicCas n p h, p.opc = 4 ∧ p.arg.toNat % 4 = 3)]

section
variable {s w : State} {n : Nat} {p : Packet}

theorem requestRow_arrives (hold : Bool) {is : Bool} (hn : n < Config.ports) (hok : p.ok = true) (his : is = true) :
    requestRow n p hold is s = .next (arrive s n p hold) := by
  simp only [requestRow, onOk, portOk, hn, hok, his, decide_true, Bool.and_self, if_true]

/-- Each of these commands is the arrival of its packet. -/
theorem exec_requestRows {h : Bool} {i : Instr} {c : Prop} (hrow : (i, c) ∈ requestRows n p h) (hc : c)
    (hn : n < Config.ports) (hok : p.ok = true) : exec i s = .next (arrive s n p h) ∧ p.opc.toNat ≤ 4 := by
  simp only [requestRows, List.mem_cons, Prod.mk.injEq, List.not_mem_nil, or_false] at hrow
  have hplain : ∀ k : BitVec 4, p.opc = k → (p.opc == k) = true := fun _ => beq_iff_eq.mpr
  have hatomic : ∀ k : Nat, p.opc = 4 ∧ p.arg.toNat % 4 = k → (p.opc == 4 && p.arg.toNat % 4 == k) = true :=
    fun k hk => by simp [hk.1, hk.2]
  rcases hrow with ⟨rfl, rfl⟩ | ⟨rfl, rfl⟩ | ⟨rfl, rfl⟩ | ⟨rfl, rfl⟩ | ⟨rfl, rfl⟩ | ⟨rfl, rfl⟩ | ⟨rfl, rfl⟩ | ⟨rfl, rfl⟩
  · exact ⟨requestRow_arrives h hn hok (hplain 0 hc), by simp [hc]⟩
  · exact ⟨requestRow_arrives h hn hok (hplain 1 hc), by simp [hc]⟩
  · exact ⟨requestRow_arrives h hn hok (hplain 2 hc), by simp [hc]⟩
  · exact ⟨requestRow_arrives h hn hok (hplain 3 hc), by simp [hc]⟩
  · exact ⟨requestRow_arrives h hn hok (hatomic 0 hc), by simp [hc.1]⟩
  · exact ⟨requestRow_arrives h hn hok (hatomic 1 hc), by simp [hc.1]⟩
  · exact ⟨requestRow_arrives h hn hok (hatomic 2 hc), by simp [hc.1]⟩
  · exact ⟨requestRow_arrives h hn hok (hatomic 3 hc), by simp [hc.1]⟩

/-! ### Arrival -/

/-- What a request's sequence number asks for; a READ is performed again (05 R153). -/
def arrivalOf (v : State) (p : Packet) : Arrival :=
  let x := rxWindow v p.src
  if p.opc = 0 then .perform else judge 32 (x.newest.map (·.toNat)) x.seqs x.restarted p.seq.toNat

section
variable (hold : Bool) (hdata : portData s n = true) (hloc : isLocal s p.dst = true) (hhost : isHostAgent s p.dst = false)
include hdata hloc hhost

theorem arrive_unknown (hep : epochIs (takeIn s n p) p.epoch = .unknown) :
    arrive s n p hold = bump (takeIn s n p) (rk pXBAR 0x158) 32 1 := by
  simp only [arrive, hdata, hloc, hhost, hep, Bool.not_true, Bool.or_self, Bool.false_eq_true, if_false]

theorem arrive_stale (hep : epochIs (takeIn s n p) p.epoch = .stale) :
    arrive s n p hold = answer (takeIn s n p) p stStaleEpoch [] := by
  simp only [arrive, hdata, hloc, hhost, hep, Bool.not_true, Bool.or_self, Bool.false_eq_true, if_false, answerStale]

variable (hep : epochIs (takeIn s n p) p.epoch = .ok)
include hep

theorem arrive_expired (hj : arrivalOf (takeIn s n p) p = .expired) :
    arrive s n p hold = answer (takeIn s n p) p stReplayExpired [] := by
  unfold arrivalOf at hj
  simp only [arrive, hdata, hloc, hhost, hep, hj, Bool.not_true, Bool.or_self, Bool.false_eq_true, if_false]

theorem arrive_again {st : Status} {d : List Byte} (hj : arrivalOf (takeIn s n p) p = .again st d) :
    arrive s n p hold = answer (bump (takeIn s n p) (rk pXBAR 0x148) 32 1) p st d := by
  unfold arrivalOf at hj
  simp only [arrive, hdata, hloc, hhost, hep, hj, Bool.not_true, Bool.or_self, Bool.false_eq_true, if_false]

variable (hj : arrivalOf (takeIn s n p) p = .perform)
include hj

theorem arrive_malformed (hform : firstReadOk p = false) (hcen : (p.cen && p.cls != 0) = false) :
    arrive s n p hold = failPeer (markSeq (takeIn s n p) p .inProgress) p stFormat pXBAR 0x3F := by
  unfold arrivalOf at hj
  simp only [arrive, hdata, hloc, hhost, hep, hj, hform, hcen, Bool.not_true, Bool.not_false, Bool.or_self,
    Bool.false_eq_true, if_false, if_true]

theorem arrive_notPermitted (hform : firstReadOk p = true)
    (hmay : agentMay (markSeq (takeIn s n p) p .inProgress) p.src p.part = false) :
    arrive s n p hold = failPeer (markSeq (takeIn s n p) p .inProgress) p stPerm pXBAR 0x3F := by
  unfold arrivalOf at hj
  simp only [arrive, hdata, hloc, hhost, hep, hj, hform, hmay, Bool.not_true, Bool.not_false, Bool.or_self,
    Bool.false_eq_true, if_false, if_true]

theorem arrive_permitted (hform : firstReadOk p = true)
    (hmay : agentMay (markSeq (takeIn s n p) p .inProgress) p.src p.part = true) (hxl : p.xl = true) :
    arrive s n p hold =
      if p.opc = 0xB then
        if !alignOk p then failPeer (markSeq (takeIn s n p) p .inProgress) p stAlign pXBAR 0x3F
        else (applyTwin (markSeq (takeIn s n p) p .inProgress) p).getD s
      else arriveHome (markSeq (takeIn s n p) p .inProgress) ⟨p, .peer p⟩ hold := by
  unfold arrivalOf at hj
  simp only [arrive, hdata, hloc, hhost, hep, hj, hform, hmay, hxl, Bool.not_true, Bool.or_self, Bool.false_eq_true,
    if_false]

end

theorem markSeq_arrivalOnly (s : State) (p : Packet) (v : SeqState) : ArrivalOnly s (markSeq s p v) := by
  unfold markSeq; split <;> rfl

/-- A request taken in reaches its home, or as a TWIN_WRITE the line that it replaces. -/
theorem arrive_takenIn (hold : Bool) (h : TakenIn s n p w) (hhost : isHostAgent s p.dst = false) (hxl : p.xl = true) :
    arrive s n p hold =
      if p.opc = 0xB then if !alignOk p then failPeer w p stAlign pXBAR 0x3F else (applyTwin w p).getD s
      else arriveHome w ⟨p, .peer p⟩ hold := by
  obtain ⟨-, -, hdata, hloc, hep, hjudge, hform, hagent, rfl⟩ := h
  have hmay := ((takeIn_arrivalOnly s n p).trans (markSeq_arrivalOnly _ p .inProgress)).agentMay p.src p.part
  refine arrive_permitted hold hdata hloc hhost hep ?_ hform (hmay.trans hagent) hxl
  unfold arrivalOf
  split
  · rfl
  · next hopc => exact hjudge hopc

/-! ### At the home -/

/-- A request that joins no group waits alone. -/
theorem enqueue_alone {t : Target} (r : Req) (hwin : windowOf s t = []) : enqueue s t r = setWindow s t [[r]] := by
  simp only [enqueue, hwin, joinGroup, Bool.not_false, if_true]

/-- An admitted request that no cache may hold waits for its target, which may accept it (05 R133; 13 R366). -/
theorem arriveHome_admitted {off : Nat} (hold : Bool) (hadm : admitted w p = .ok off) (hcoh : p.coh = false) :
    let t := targetOf (off / 65536) (blockGet w (off / 65536)).loc
    let z := enqueue (noteInflight w off true) t ⟨p, .peer p⟩
    arriveHome w ⟨p, .peer p⟩ hold = if hold then z else drainTarget z t := by
  simp only [arriveHome, hadm, hcoh, Bool.false_eq_true, if_false]
  rfl

theorem drainTarget_ready {off : Nat} {t : Target} (hok : p.ok = true) (hopc : p.opc.toNat ≤ 4) (hready : HomeReady w p off)
    (hwin : windowOf w t = []) (hheld : targetHeld w t = false) :
    ∃ y, drainTarget (enqueue (noteInflight w off true) t ⟨p, .peer p⟩) t = finishPeer y p 0 (answerBytes w p off) ∧
      HomeServes w y p off t := by
  let z := setWindow (noteInflight w off true) t [[⟨p, .peer p⟩]]
  obtain ⟨y, hy, hserves, -⟩ := applyGroup_ready (s := setWindow z t []) t hok hopc hready
  refine ⟨y, ?_, hserves⟩
  have hheldz : targetHeld z t = false := hheld
  have hempty : windowOf (noteInflight w off true) t = [] := hwin
  rw [enqueue_alone _ hempty, drainTarget, hheldz, windowOf_setWindow]
  exact hy

end

end Sys2Proof.Proofs
end

section
/-! PROOFS. Requests at their home (05 R128, R137, R142, R149 to R153; 12 R333, R336, R353; 14 R391). -/
namespace Sys2Proof.Proofs
open Sys2Proof Machine Safety Laws

/-! ### Combined atomics -/

/-- In a group of integer atomics each member is answered what the members before it left (12 R333). -/
theorem atomicGroup_append (arg old : Nat) (xs : List (Nat × Nat)) (x y : Nat) (hint : arg / 16 % 8 < 2) :
    atomicGroup arg old (xs ++ [(x, y)]) =
      ((atomicGroup arg old xs).1 ++ [(atomicGroup arg old xs).2], atomicNew arg (atomicGroup arg old xs).2 x y) := by
  have hfold : ∀ zs : List (Nat × Nat), ¬ (arg % 4 = 0 ∧ 2 ≤ arg / 16 % 8 ∧ 1 < zs.length) := fun _ h => by omega
  simp only [atomicGroup, if_neg (hfold _), List.foldl_append, List.foldl_cons, List.foldl_nil]

/-! ### Stored lines of a twin -/

/-- One line that a TWIN_WRITE brings: stored as it came, and no longer failing. -/
def twinLine (off : Nat) (d : List Byte) (s : State) (l : Nat) : State :=
  clearBad (lineStore s l (lineOf (slice d (64 * (l - off / 64)) 64))) l

theorem lineStored_twinLines (off : Nat) (d : List Byte) (ls : List Nat) (s : State) (l : Nat) :
    lineStored (ls.foldl (twinLine off d) s) l =
      if l ∈ ls then lineOf (slice d (64 * (l - off / 64)) 64) else lineStored s l := by
  induction ls generalizing s with
  | nil => simp
  | cons x r ih =>
    rw [List.foldl_cons, ih, twinLine, (clearBad_sameData ..).lineStored, lineStored_lineStore]
    by_cases hr : l ∈ r
    · rw [if_pos hr, if_pos (List.mem_cons_of_mem _ hr)]
    · by_cases hx : l = x
      · rw [if_neg hr, if_pos hx, if_pos (List.mem_cons.mpr (.inl hx)), hx]
      · rw [if_neg hr, if_neg hx, if_neg (List.not_mem_cons_of_ne_of_not_mem hx hr)]

/-- The lines of a range in order: the index of each is its distance from the first. -/
theorem zipIdx_linesOf (off n : Nat) : (linesOf off n).zipIdx = (linesOf off n).map (fun l => (l, l - off / 64)) := by
  rw [linesOf_eq]
  refine List.ext_getElem (by simp) fun i _ _ => ?_
  simp

theorem countStale_sameData (s : State) (b : Nat) : SameData s (staleShadow (countAccess s b) b) :=
  (countAccess_countsOnly s b).data.trans (staleShadow_sameData ..)

theorem countStales_sameData (bs : List Nat) (s : State) :
    SameData s (bs.foldl (fun s b => staleShadow (countAccess s b) b) s) := by
  induction bs generalizing s with
  | nil => exact ⟨rfl, rfl, rfl, rfl, rfl⟩
  | cons b r ih => exact (countStale_sameData s b).trans (ih _)

/-- A TWIN_WRITE of lines that no flash block holds replaces them (12 R353). -/
theorem applyTwin_stores {w : State} {p : Packet} {off : Nat} (hoff : twinOffset w p.addr.toNat = some off)
    (hlook : lookupStatus w p off = 0) (hflash : flashBlocksOf w p off = []) :
    ∃ y, applyTwin w p = some (finishPeer y p 0 []) ∧ ∀ l, lineStored y l =
      if l ∈ linesOf off (packetBytes p) then lineOf (slice p.payload (64 * (l - off / 64)) 64) else lineStored w l := by
  have hcounted := countStales_sameData (blocksOf off (packetBytes p)) w
  generalize hc : (blocksOf off (packetBytes p)).foldl (fun s b => staleShadow (countAccess s b) b) w = c at hcounted
  refine ⟨bump ((linesOf off (packetBytes p)).foldl (twinLine off p.payload) c) (rk pPLC 0x228) 48 1, ?_, fun l => ?_⟩
  · have hlost : ¬ (0 : Status) = stLost := by decide
    simp only [applyTwin, hoff, hlook, hflash, hc, zipIdx_linesOf, List.foldl_nil, List.foldl_map, if_neg hlost,
      ne_eq, not_true_eq_false, if_false]
    rfl
  · rw [lineStored, (bump_logsOnly ..).store, ← lineStored, lineStored_twinLines, hcounted.lineStored]

/-! ### The commands -/

section
variable {s w : State} {n off : Nat} {p : Packet} {i : Instr} {c : Prop} (htaken : TakenIn s n p w)
  (hhost : isHostAgent s p.dst = false) (hxl : p.xl = true)
include htaken hhost hxl

/-- A request that is not held is served at once where its target accepts it. -/
theorem exec_request_served (hrow : (i, c) ∈ requestRows n p false) (hc : c) (hadmit : admitted w p = .ok off)
    (hready : HomeReady w p off) (hwin : windowOf w (targetOf (off / 65536) (blockGet w (off / 65536)).loc) = [])
    (hheld : targetHeld w (targetOf (off / 65536) (blockGet w (off / 65536)).loc) = false) :
    ∃ y, exec i s = .next (finishPeer y p 0 (answerBytes w p off)) ∧
      HomeServes w y p off (targetOf (off / 65536) (blockGet w (off / 65536)).loc) := by
  have ⟨hn, hok, _⟩ := htaken
  have ⟨_, _, hcoh, _⟩ := hready
  obtain ⟨hexec, hopc⟩ := exec_requestRows hrow hc hn hok
  obtain ⟨y, hy, hserves⟩ := drainTarget_ready hok hopc hready hwin hheld
  refine ⟨y, ?_, hserves⟩
  rw [hexec, arrive_takenIn false htaken hhost hxl, if_neg (by bv_omega), arriveHome_admitted false hadmit hcoh]
  exact congrArg _ hy

/-- A held request waits for its target. -/
theorem exec_request_held (hrow : (i, c) ∈ requestRows n p true) (hc : c) (hadmit : admitted w p = .ok off)
    (hcoh : p.coh = false) : exec i s = .next (enqueue (noteInflight w off true)
      (targetOf (off / 65536) (blockGet w (off / 65536)).loc) ⟨p, .peer p⟩) := by
  have ⟨hn, hok, _⟩ := htaken
  obtain ⟨hexec, hopc⟩ := exec_requestRows hrow hc hn hok
  rw [hexec, arrive_takenIn true htaken hhost hxl, if_neg (by bv_omega), arriveHome_admitted true hadmit hcoh]
  rfl

/-- A TWIN_WRITE taken in replaces its lines as they are stored. -/
theorem exec_twinWrite_stores (hopc : p.opc = 0xB) (halign : alignOk p = true)
    (hoff : twinOffset w p.addr.toNat = some off) (hlook : lookupStatus w p off = 0) (hflash : flashBlocksOf w p off = []) :
    ∃ y, exec (.twinWrite n p) s = .next (finishPeer y p 0 []) ∧ ∀ l, lineStored y l =
      if l ∈ linesOf off (packetBytes p) then lineOf (slice p.payload (64 * (l - off / 64)) 64) else lineStored w l := by
  have ⟨hn, hok, _⟩ := htaken
  obtain ⟨y, hy, hlines⟩ := applyTwin_stores hoff hlook hflash
  refine ⟨y, ?_, hlines⟩
  have hrow : exec (.twinWrite n p) s = .next (arrive s n p false) := requestRow_arrives false hn hok (by simp [hopc])
  rw [hrow, arrive_takenIn false htaken hhost hxl, if_pos hopc, halign, hy]
  rfl

end

/-- Settles O45, by the rows' common arrival, the tier's operation on one ready request, and the fold over a twin's lines. -/
theorem requestsAtTheHome : Obligations.RequestsAtTheHome := by
  unfold Obligations.RequestsAtTheHome
  intro s w n off p t v rows
  refine ⟨?served, ?held, ?answered,
    fun x hok hopc hwin hx hheld hready => execTierApply_ready hok hopc hwin hx hheld hready, atomicGroup_append,
    fun htaken hhost hopc hxl halign => exec_twinWrite_stores htaken hhost hxl hopc halign⟩
  case served =>
    intro i c hrow hc htaken hhost hxl hadm hready
    split at hadm
    · next hadmit =>
      subst hadm
      exact exec_request_served htaken hhost hxl hrow hc hadmit hready
    · exact hadm.elim
  case held =>
    intro i c hrow hc htaken hhost hxl hadm
    split at hadm
    · next hadmit =>
      subst hadm
      exact exec_request_held htaken hhost hxl hrow hc hadmit
    · exact hadm.elim
  case answered =>
    intro h i c hrow hc hn hok hdata hloc hhost
    obtain ⟨hexec, -⟩ := exec_requestRows hrow hc hn hok
    rw [hexec]
    exact ⟨fun hep => congrArg _ (arrive_unknown h hdata hloc hhost hep),
      fun hep => congrArg _ (arrive_stale h hdata hloc hhost hep),
      fun hep => ⟨fun hj => congrArg _ (arrive_expired h hdata hloc hhost hep hj),
        fun _ _ hj => congrArg _ (arrive_again h hdata hloc hhost hep hj),
        fun hj hform hcen => congrArg _ (arrive_malformed h hdata hloc hhost hep hj hform hcen),
        fun hj hform hmay => congrArg _ (arrive_notPermitted h hdata hloc hhost hep hj hform hmay)⟩⟩

end Sys2Proof.Proofs
end

section
/-! PROOFS. Packets for other agents: a malformed request does not go on (05 R127). -/
namespace Sys2Proof.Proofs
open Sys2Proof Machine Safety Laws

/-- The first controller that reads a malformed request answers it with FORMAT_ERROR, whoever it is for (05 R127). -/
theorem execPacketForward_malformed {s : State} {n : Nat} {p : Packet} (hn : n < Config.ports) (hok : p.ok = true)
    (hdata : portData s n = true) (haway : isLocal s p.dst = false) (hcls : p.cls ≠ 1) (hform : firstReadOk p = false) :
    exec (.packetForward n p) s = .next (answer (logRecord (freeCells s n (subClass p) (cellsOf p)) pXBAR
      (packetFail p stFormat)) p stFormat []) := by
  have hport : (portOk n && p.ok) = true := by simp [portOk, hn, hok]
  have hreq : isResponse p = false := beq_eq_false_iff_ne.mpr hcls
  simp [execPacketForward, onOk, hport, forward, hdata, haway, hreq, hform]

/-- Port 3 is up, and so is port 9, by which agent 8 is reached; no route leads to agent 7. -/
def routedByPort9 : State :=
  { State.reset with
    lantern := { Lantern.reset with ports := [(3, { Port.down with state := 3 }), (9, { Port.down with state := 3 })] }
    xbar := { Xbar.reset with routeCur := [(8, 0x1009)] } }

/-- A READ of agent 7 for agent 8 with a reserved bit set. -/
def malformedRead : Packet :=
  { opc := 0, cls := 0, dl := false, dst := 8, src := 7, part := 0, epoch := 0, len := 0, ekind := 0, eidx := 0, seq := 0,
    ctx := 0, status := 0, xl := true, nocomb := false, jc := false, addr := 0, coh := false, mir := false, key := 0,
    cen := false, cunit := false, counter := 0, arg := 64, rsvd := true, payload := [] }

/-- Refutes O46: a request that is malformed does not go on. Its second clause asks nothing about the form of a request in
the current epoch, and the controller answers a malformed one itself (05 R127): port 9, by which `malformedRead` would go
on, has nothing to send. -/
theorem not_packetsThatGoOn : ¬ Obligations.PacketsThatGoOn := by
  unfold Obligations.PacketsThatGoOn
  intro h
  have hdata : portData routedByPort9 3 = true := by decide +kernel
  have haway : isLocal routedByPort9 malformedRead.dst = false := by decide +kernel
  obtain ⟨-, hforward, -⟩ := h routedByPort9 routedByPort9 3 malformedRead
  have hgoes := hforward (by decide) rfl hdata haway (.inr (by decide +kernel)) 9 0 (by decide +kernel)
  have hanswered := execPacketForward_malformed (by decide) rfl hdata haway (by decide) (by decide)
  have hsame := Host.Outcome.next.inj (hgoes.symm.trans hanswered)
  exact absurd (congrArg (fun t => (t.port 9).queue.length) hsame) (by decide +kernel)

end Sys2Proof.Proofs
end

section
/-! PROOFS. Counters and semaphores in BAR0 (06 R171, R173, R174; 17 R471, R482 to R484). -/
namespace Sys2Proof.Proofs
open Sys2Proof Machine Safety Laws

/-! ### Values after an addition -/

theorem LogsOnly.sync {s t : State} (h : LogsOnly s t) : t.sync = s.sync := by rw [h]

theorem hubGet_hubAdd (s : State) (k j : Nat) (v : W64) :
    hubGet (hubAdd s k v) j = if j = k then hubGet s j + v else hubGet s j := by
  rw [hubGet, (hubAdd_eq s k v).sync, hubSet, setSync_sync, tget_tput]
  split
  · next h => rw [h]
  · rfl

/-- Ids below 1,024 keep the local counters of different sconces apart. -/
theorem localKey_inj {b sc j n : Nat} (hj : j < 1024) (hn : n < 1024) : localKey b j = localKey sc n ↔ b = sc ∧ j = n := by
  unfold localKey; omega

theorem localAdd_logsOnly (s : State) (sc n : Nat) (v : W64) :
    LogsOnly (localSet s sc n (localGet s sc n + v)) (localAdd s sc n v) := bump_logsOnly ..

theorem localGet_localAdd (s : State) (v : W64) {b sc j n : Nat} (hj : j < 1024) (hn : n < 1024) :
    localGet (localAdd s sc n v) b j = if b = sc ∧ j = n then localGet s b j + v else localGet s b j := by
  rw [localGet, (localAdd_logsOnly s sc n v).sync, localSet, setSync_sync, tget_tput]
  simp only [localKey_inj hj hn]
  split
  · next h => obtain ⟨rfl, rfl⟩ := h; rfl
  · rfl

theorem semGet_semSet_add (s : State) (k j : Nat) (v : W64) :
    semGet (semSet s k (semGet s k + v)) j = if j = k then semGet s j + v else semGet s j := by
  rw [semGet, semSet, setSync_sync, tget_tput]
  split
  · next h => rw [h]
  · rfl

/-! ### A write of an entry -/

/-- What a write of an entry of an owned array comes to: dropped, a fault, or its effect. -/
def ownedWrite (size : Nat) (owner part : BitVec 6) (dropped fault effect : State) : State :=
  if size ≠ 8 then dropped else if owner ≠ part then fault else effect

section
variable {size : Nat} {owner part : BitVec 6} (dropped fault effect : State)

theorem ownedWrite_dropped (h : size ≠ 8) : ownedWrite size owner part dropped fault effect = dropped := if_pos h

theorem ownedWrite_fault (h : owner ≠ part) : ownedWrite 8 owner part dropped fault effect = fault :=
  (if_neg (· rfl)).trans (if_pos h)

theorem ownedWrite_effect (h : owner = part) : ownedWrite 8 owner part dropped fault effect = effect :=
  (if_neg (· rfl)).trans (if_neg (· h))

end

/-! ### The commands -/

section
variable {s : State} {src : RegSrc} (hsrc : src.ok = true)
include hsrc

theorem execHubCounterWrite_eq {k : Nat} (hk : k < Config.hubCounters) (size : Nat) (v : W64) :
    exec (.hubCounterWrite src k size v) s = .next (ownedWrite size (counterOwner s k) (srcPart src)
      (dropWrite s src (hubOff k)) (ownerFault s (srcPart src) none k) (hubAdd s k v)) :=
  if_pos (by simp [hsrc, counterOk, hk])

theorem execLocalCounterWrite_eq {sc n : Nat} (hsc : sc < Config.sconces) (hn : n < 1024) (size : Nat) (v : W64) :
    exec (.localCounterWrite src sc n size v) s = .next (ownedWrite size (sconceOwner s sc) (srcPart src)
      (dropWrite s src (localOff sc n)) (ownerFault s (srcPart src) none n) (localAdd s sc n v)) :=
  if_pos (by simp [hsrc, sconceOk, hsc, localOk, hn])

theorem execSemaphoreWrite_eq {k : Nat} (hk : k < Config.semaphores) (size : Nat) (v : W64) :
    exec (.semaphoreWrite src k size v) s = .next (ownedWrite size (semOwner s k) (srcPart src)
      (dropWrite s src (semOff k)) (ownerFault s (srcPart src) none k) (serve (semSet s k (semGet s k + v)) k)) :=
  if_pos (by simp [hsrc, semaphoreOk, hk])

theorem execSemaphoreRead_eq {k : Nat} (hk : k < Config.semaphores) : exec (.semaphoreRead src k) s =
    .next (emit s (.regRead src (semOff k) (if seesPart src (semOwner s k) then semGet s k else 0))) :=
  if_pos (by simp [hsrc, semaphoreOk, hk])

end

/-! ### The arrays -/

section
variable {s : State} {src : RegSrc} (hsrc : src.ok = true) (v : W64)
include hsrc

theorem hubCounter_adds {k : Nat} (hk : k < Config.hubCounters) (howner : counterOwner s k = srcPart src) :
    exec (.hubCounterWrite src k 8 v) s = .next (hubAdd s k v) := by
  rw [execHubCounterWrite_eq hsrc hk, ownedWrite_effect _ _ _ howner]

theorem localCounter_adds {sc n : Nat} (hsc : sc < Config.sconces) (hn : n < 1024) (howner : sconceOwner s sc = srcPart src) :
    exec (.localCounterWrite src sc n 8 v) s = .next (localAdd s sc n v) := by
  rw [execLocalCounterWrite_eq hsrc hsc hn, ownedWrite_effect _ _ _ howner]

/-- A SIGNAL with no WAIT_DEC held at its semaphore serves nobody. -/
theorem semaphore_signals {k : Nat} (hk : k < Config.semaphores) (howner : semOwner s k = srcPart src)
    (hheld : ∀ h ∈ s.sync.held, h.sem ≠ k) :
    exec (.semaphoreWrite src k 8 v) s = .next (semSet s k (semGet s k + v)) := by
  rw [execSemaphoreWrite_eq hsrc hk, ownedWrite_effect _ _ _ howner,
    serve_of_none_held (s := semSet s k (semGet s k + v)) hheld]

end

/-- Settles O23: each command by what a write of its entry comes to, and the values after an addition. -/
theorem counterArrays : Obligations.CounterArrays := by
  unfold Obligations.CounterArrays
  intro s src v hsrc
  refine ⟨fun k hk => ⟨fun howner => ?hubAdds, fun howner => ?hubFault, ?hubDropped⟩,
    fun sc n hsc hn => ⟨fun howner => ?localAdds, fun howner => ?localFault, ?localDropped⟩,
    fun k hk => ⟨?semReads, fun howner hheld => ?semSignals, fun howner => ?semFault, ?semDropped⟩⟩
  case hubAdds => exact ⟨_, hubCounter_adds hsrc v hk howner, fun j => hubGet_hubAdd s k j v⟩
  case hubFault => rw [execHubCounterWrite_eq hsrc hk, ownedWrite_fault _ _ _ howner]
  case hubDropped => rw [execHubCounterWrite_eq hsrc hk, ownedWrite_dropped _ _ _ (by decide), hubOff]
  case localAdds => exact ⟨_, localCounter_adds hsrc v hsc hn howner, fun b j hj => localGet_localAdd s v hj hn⟩
  case localFault => rw [execLocalCounterWrite_eq hsrc hsc hn, ownedWrite_fault _ _ _ howner]
  case localDropped => rw [execLocalCounterWrite_eq hsrc hsc hn, ownedWrite_dropped _ _ _ (by decide), localOff]
  case semReads =>
    rw [execSemaphoreRead_eq hsrc hk, semOff]
    cases src with
    | vf n => simp only [seesPart, beq_iff_eq]
    | pf => rfl
    | lmp b => rfl
  case semSignals =>
    exact ⟨_, semaphore_signals hsrc v hk howner hheld, rfl, fun j => semGet_semSet_add s k j v⟩
  case semFault => rw [execSemaphoreWrite_eq hsrc hk, ownedWrite_fault _ _ _ howner]
  case semDropped => rw [execSemaphoreWrite_eq hsrc hk, ownedWrite_dropped _ _ _ (by decide), semOff]

end Sys2Proof.Proofs
end

section
/-! PROOFS. Spot checks: the end of the copy, the comparison, and a check that is not compared (07 R214 to R217). -/
namespace Sys2Proof.Proofs
open Sys2Proof Machine Safety Laws

/-! ### Counters and what a log keeps -/

theorem LogsOnly.sconce {s t : State} (h : LogsOnly s t) (sc : Nat) : t.sconce sc = s.sconce sc := by
  rw [State.sconce, State.sconce, h]

theorem draw_logsOnly (s : State) : LogsOnly s (draw s).2 := rfl

/-- A counter that its field can hold one more of gains what is added. -/
theorem toNat_regGet_bump_self {s : State} {k width n : Nat} (hwidth : width ≤ 64)
    (h : (regGet s k).toNat + n < 2 ^ width) : (regGet (bump s k width n) k).toNat = (regGet s k).toNat + n := by
  have h64 : (regGet s k).toNat + n < 2 ^ 64 := h.trans_le (Nat.pow_le_pow_right (by decide) hwidth)
  simp only [bump, if_pos h, regGet_setReg, if_true, BitVec.toNat_ofNat, Nat.mod_eq_of_lt h64]

/-! ### The check is closed -/

/-- The sconce has no check open any more. -/
def closeSpot (s : State) (sc : Nat) : State := s.setSconce sc (fun c => { c with spot := none })

theorem spot_none_of_closed {s t : State} {sc : Nat} (h : LogsOnly (closeSpot s sc) t) : (t.sconce sc).spot = none := by
  rw [h.sconce, closeSpot, sconce_setSconce, if_pos rfl]

theorem wicks_of_closed {s t : State} {sc : Nat} (h : LogsOnly (closeSpot s sc) t) : t.wicks = s.wicks :=
  h.wicks.trans (setSconce_wicks ..)

theorem skipSpot_logsOnly (s : State) (sc w : Nat) : LogsOnly (closeSpot s sc) (skipSpot s sc w) :=
  (bump_logsOnly ..).trans (logErr_logsOnly ..)

theorem spotMismatch_logsOnly (s : State) (sc : Nat) (sp : Spot) (ord : Nat) : LogsOnly s (spotMismatch s sc sp ord) :=
  (bump_logsOnly ..).trans ((setReg_logsOnly ..).trans (logErr_logsOnly ..))

/-! ### The outcomes of a comparison (R217) -/

/-- SPOT_RUN of the sconce. -/
def spotRuns (s : State) (sc : Nat) : Nat := (regGet s (rk (pSCN sc) 0x128)).toNat

/-- SPOT_MISMATCH of the sconce. -/
def spotMismatches (s : State) (sc : Nat) : Nat := (regGet s (rk (pSCN sc) 0x138)).toNat

/-- A comparison finds a mismatch at some ordinal, or a match. -/
theorem compareSpot_cases (s : State) (sc : Nat) (sp : Spot) :
    (∃ ord, compareSpot s sc sp = spotMismatch (draw (closeSpot s sc)).2 sc sp ord) ∨
      compareSpot s sc sp = bump (draw (closeSpot s sc)).2 (rk (pSCN sc) 0x128) 32 1 := by
  unfold compareSpot closeSpot
  dsimp only
  split
  · exact .inl ⟨_, rfl⟩
  · split
    · exact .inl ⟨_, rfl⟩
    · exact .inr rfl

theorem compareSpot_logsOnly (s : State) (sc : Nat) (sp : Spot) : LogsOnly (closeSpot s sc) (compareSpot s sc sp) := by
  refine (draw_logsOnly _).trans ?_
  obtain ⟨ord, hmismatch⟩ | hmatch := compareSpot_cases s sc sp
  · rw [hmismatch]; exact spotMismatch_logsOnly ..
  · rw [hmatch]; exact bump_logsOnly ..

theorem spotRuns_spotMismatch (s : State) (sc : Nat) (sp : Spot) (ord : Nat) :
    spotRuns (spotMismatch s sc sp ord) sc = spotRuns s sc := by
  have hne : ∀ j < 4096, (0x128 : Nat) ≠ j → rk (pSCN sc) 0x128 ≠ rk (pSCN sc) j := fun _ hj h => rk_ne (by decide) hj h
  rw [spotRuns, spotMismatch, regGet_logErr_of_ne (by decide) (by decide), regGet_setReg,
    if_neg (hne 0x140 (by decide) (by decide)), regGet_bump _ _ (hne 0x138 (by decide) (by decide)), spotRuns]

theorem spotMismatches_spotMismatch {s : State} {sc : Nat} (sp : Spot) (ord : Nat) (h : spotMismatches s sc + 1 < 2 ^ 32) :
    spotMismatches (spotMismatch s sc sp ord) sc = spotMismatches s sc + 1 := by
  rw [spotMismatches, spotMismatch, regGet_logErr_of_ne (by decide) (by decide), regGet_setReg,
    if_neg (rk_ne (by decide) (by decide) (by decide)), toNat_regGet_bump_self (by decide) h, spotMismatches]

/-- SPOT_RUN or SPOT_MISMATCH gains 1, and the other of the two keeps its count. -/
theorem compareSpot_counts {s : State} {sc : Nat} (sp : Spot) (hruns : spotRuns s sc + 1 < 2 ^ 32)
    (hmismatches : spotMismatches s sc + 1 < 2 ^ 32) :
    spotRuns (compareSpot s sc sp) sc = spotRuns s sc + 1 ∧
        spotMismatches (compareSpot s sc sp) sc = spotMismatches s sc ∨
      spotRuns (compareSpot s sc sp) sc = spotRuns s sc ∧
        spotMismatches (compareSpot s sc sp) sc = spotMismatches s sc + 1 := by
  obtain ⟨ord, hmismatch⟩ | hmatch := compareSpot_cases s sc sp
  · rw [hmismatch]
    exact .inr ⟨spotRuns_spotMismatch .., spotMismatches_spotMismatch sp ord hmismatches⟩
  · rw [hmatch]
    refine .inl ⟨toNat_regGet_bump_self (by decide) hruns, ?_⟩
    exact congrArg BitVec.toNat (regGet_bump 32 1 (rk_ne (by decide) (by decide) (by decide)))

/-! ### The commands -/

theorem sconce_setWick (s : State) (w n : Nat) (f : Wick → Wick) : (s.setWick w f).sconce n = s.sconce n := rfl

theorem wick_setSconce (s : State) (n w : Nat) (f : Sconce → Sconce) : (s.setSconce n f).wick w = s.wick w := rfl

section
variable {s : State} {sc : Nat} {sp : Spot} (hsc : sc < Config.sconces) (hspot : (s.sconce sc).spot = some sp)
include hsc hspot

theorem execSpotCopyDone_resumes (hcopied : sp.copied = false) (hheld : (s.wick sp.wick).state = .held) :
    exec (.spotCopyDone sc) s = .next ((s.setSconce sc (fun c => { c with spot := some { sp with copied := true } })).setWick
      sp.wick (fun k => { k with state := .running })) := by
  simp [execSpotCopyDone, onOk, sconceOk, hsc, hspot, hcopied, hheld]

theorem execSpotCompare_compares (hcopied : sp.copied = true) (hended : (s.wick sp.wick).state = .ended) :
    exec (.spotCompare sc) s = .next (settle (compareSpot s sc sp)) := by
  simp [execSpotCompare, onOk, sconceOk, hsc, hspot, hcopied, hended]

theorem execSpotCompare_skips (hstopped : (s.wick sp.wick).state = .stopped) :
    exec (.spotCompare sc) s = .next (settle (skipSpot s sc sp.wick)) := by
  simp [execSpotCompare, onOk, sconceOk, hsc, hspot, hstopped]

end

/-- Settles O36: each command by its own lemma above, the comparison by its two outcomes. -/
theorem spotChecks : Obligations.SpotChecks := by
  unfold Obligations.SpotChecks
  intro s sc sp hsc hspot
  refine ⟨fun hcopied hheld => ?copyDone, fun hcopied hended hruns hmismatches => ?compared, fun hstopped => ?skipped⟩
  case copyDone =>
    refine ⟨_, execSpotCopyDone_resumes hsc hspot hcopied hheld, ?_, ?_, fun w hw => ?_⟩
    · rw [wick_setWick, if_pos rfl]
    · rw [sconce_setWick, sconce_setSconce, if_pos rfl]
    · rw [wick_setWick, if_neg hw, wick_setSconce]
  case compared =>
    have hclosed := compareSpot_logsOnly s sc sp
    exact ⟨_, execSpotCompare_compares hsc hspot hcopied hended, spot_none_of_closed hclosed, wicks_of_closed hclosed,
      compareSpot_counts sp hruns hmismatches⟩
  case skipped =>
    have hclosed := skipSpot_logsOnly s sc sp.wick
    exact ⟨_, execSpotCompare_skips hsc hspot hstopped, spot_none_of_closed hclosed, wicks_of_closed hclosed⟩

end Sys2Proof.Proofs
end
section
/-! SUPPORT. A wick's registers, and how an instruction that it reaches runs, goes on or stops (08 R220 to R225, R229,
R255). -/
namespace Sys2Proof.Proofs
open Sys2Proof Machine Safety Laws

/-! ### Registers (R220) -/

theorem rdS_wrS (k : Wick) (d n : Nat) (v : W64) :
    rdS (wrS k d v) n = if n = 0 then 0 else if n = d then v else rdS k n := by
  by_cases hn : n = 0
  · simp [rdS, hn]
  · by_cases hd : d = 0 <;> simp [rdS, wrS, hn, hd]

theorem rdK_wrK (k : Wick) (d n : Nat) (v : W16) :
    rdK (wrK k d v) n = if n = 0 then 0xFFFF else if n = d then v else rdK k n := by
  by_cases hn : n = 0
  · simp [rdK, hn]
  · by_cases hd : d = 0 <;> simp [rdK, wrK, hn, hd]

theorem rdV_wrV (k : Wick) (d n : Nat) (v : W512) : rdV (wrV k d v) n = if n = d then v else rdV k n := by
  simp only [rdV, wrV, tget_tput]

theorem rdAcc_wrAcc (k : Wick) (d n : Nat) (v : BitVec 2048) :
    rdAcc (wrAcc k d v) n = if n = d then v else rdAcc k n := by
  simp only [rdAcc, wrAcc, tget_tput]

/-- A write to a scalar or a mask register leaves every other field of the wick. -/
theorem wrS_eq (k : Wick) (d : Nat) (v : W64) : wrS k d v = { k with sreg := (wrS k d v).sreg } := by
  unfold wrS; split <;> rfl
theorem wrK_eq (k : Wick) (d : Nat) (v : W16) : wrK k d v = { k with kreg := (wrK k d v).kreg } := by
  unfold wrK; split <;> rfl

@[simp] theorem wrS_pc (k : Wick) (d : Nat) (v : W64) : (wrS k d v).pc = k.pc := by rw [wrS_eq]
@[simp] theorem wrK_pc (k : Wick) (d : Nat) (v : W16) : (wrK k d v).pc = k.pc := by rw [wrK_eq]
@[simp] theorem wrV_pc (k : Wick) (d : Nat) (v : W512) : (wrV k d v).pc = k.pc := rfl
@[simp] theorem raise_pc (k : Wick) (f : FFlags) : (raise k f).pc = k.pc := rfl
@[simp] theorem vecWrite_pc (i : W32) (f : Wick → Nat → LaneRes) (k : Wick) : (vecWrite i f k).pc = k.pc := rfl

/-! ### What leaves all but the wick as it was -/

theorem onlyWick_trans {s t u : State} {w : Nat} (h : OnlyWick s t w) (h' : OnlyWick t u w) : OnlyWick s u w := by
  obtain ⟨hs, hv⟩ := h
  obtain ⟨ht, hv'⟩ := h'
  exact ⟨by rw [ht, hs], fun v hne => (hv' v hne).trans (hv v hne)⟩

theorem onlyWick_setWick (s : State) (w : Nat) (f : Wick → Wick) : OnlyWick s (s.setWick w f) w :=
  ⟨rfl, fun v hne => by rw [wick_setWick, if_neg hne]⟩

/-! ### Issuing (R256; 07 R192) -/

theorem wickRun_reaches {op : Op} {s : State} {w : Nat} {i : W32} (h : Reaches op s w i) (f : State → State) :
    wickRun op w i s f = .next (f (issue s w)) := by
  obtain ⟨hw, hissue, hfrozen, hbad, hword, hop⟩ := h
  simp [wickRun, wickOk, hw, hissue, hfrozen, hbad, hword, hop]

theorem wick_issue (s : State) (w v : Nat) : (issue s w).wick v =
    if v = w then { s.wick w with cycle := (s.wick w).cycle + 1 + Config.stall s.free } else s.wick v :=
  wick_setWick s w v (fun k => { k with cycle := k.cycle + 1 + Config.stall s.free })

theorem wick_issue_self (s : State) (w : Nat) : ∃ y : W64, (issue s w).wick w = { s.wick w with cycle := y } :=
  ⟨_, by rw [wick_issue, if_pos rfl]⟩

theorem onlyWick_issue (s : State) (w : Nat) : OnlyWick s (issue s w) w :=
  ⟨rfl, fun v hne => by rw [wick_issue, if_neg hne]⟩

/-! ### Going on (R229) -/

theorem goTo_inside (s : State) (w : Nat) {target : Int} (h : 0 ≤ target ∧ target < 4096) :
    goTo s w target = s.setWick w (fun k => { k with pc := target.toNat }) := if_pos h

theorem advance_inside {s : State} {w : Nat} (h : (s.wick w).pc < 4095) :
    advance s w = s.setWick w (fun k => { k with pc := (s.wick w).pc + 1 }) := by
  rw [advance, goTo_inside _ _ (by omega)]
  rfl

/-- An instruction that changes registers and goes on, where the next index is in range. -/
theorem wickDo_inside {f : Wick → Wick} (hpc : ∀ k, (f k).pc = k.pc) {s : State} {w : Nat} (h : (s.wick w).pc < 4095) :
    OnlyWick s (wickDo w f s) w ∧ (wickDo w f s).wick w = { f (s.wick w) with pc := (s.wick w).pc + 1 } := by
  have hwick : (s.setWick w f).wick w = f (s.wick w) := by rw [wick_setWick, if_pos rfl]
  rw [wickDo, advance_inside (by rwa [hwick, hpc])]
  refine ⟨onlyWick_trans (onlyWick_setWick s w f) (onlyWick_setWick ..), ?_⟩
  rw [wick_setWick, if_pos rfl, hwick, hpc]

section
variable {c : Instr} {s : State} {w : Nat} {f g : Wick → Wick}

/-- An instruction completes once its row is known to change registers, none of them the PC, and to go on. -/
theorem completes_of_next (hnext : HasNext s w) (hc : exec c s = .next (wickDo w g (issue s w)))
    (hpc : ∀ k, (g k).pc = k.pc) (hfg : ∀ y : W64, g { s.wick w with cycle := y } = f { s.wick w with cycle := y }) :
    Completes c s w f := by
  obtain ⟨y, hy⟩ := wick_issue_self s w
  obtain ⟨honly, hwick⟩ := wickDo_inside hpc (s := issue s w) (w := w) (by rw [hy]; exact hnext)
  exact ⟨_, hc, onlyWick_trans (onlyWick_issue s w) honly, y, by rw [hwick, hy, hfg]⟩

theorem completes_of_reaches {op : Op} {i : W32} (hnext : HasNext s w) (h : Reaches op s w i)
    (hc : exec c s = wickRun op w i s (wickDo w g)) (hpc : ∀ k, (g k).pc = k.pc)
    (hfg : ∀ y : W64, g { s.wick w with cycle := y } = f { s.wick w with cycle := y }) : Completes c s w f :=
  completes_of_next hnext (hc.trans (wickRun_reaches h _)) hpc hfg

theorem completes_congr (h : Completes c s w g)
    (hfg : ∀ y : W64, g { s.wick w with cycle := y } = f { s.wick w with cycle := y }) : Completes c s w f := by
  obtain ⟨t, ht, honly, y, hwick⟩ := h
  exact ⟨t, ht, honly, y, by rw [hwick, hfg]⟩

end

end Sys2Proof.Proofs
end
section
/-! PROOFS. Register files (08 R220). -/
namespace Sys2Proof.Proofs
open Sys2Proof Machine Safety Laws

/-- Settles O2, by what each file reads after a write to it. -/
theorem registerFiles : Obligations.RegisterFiles :=
  fun k d n => ⟨rdS_wrS k d n, rdK_wrK k d n, rdV_wrV k d n, rdAcc_wrAcc k d n⟩

end Sys2Proof.Proofs
end
section
/-! PROOFS. Scalar instructions on registers (08 R226). -/
namespace Sys2Proof.Proofs
open Sys2Proof Machine Safety Laws

/-! ### The encodings -/

theorem okIf_eq_some {c : Bool} {o p : Op} : okIf c o = some p ↔ c = true ∧ o = p := by
  cases c <;> simp [okIf]

/-- The function codes of SALU. -/
def saluTable : List (Nat × Op) :=
  [(0, .saluAdd), (1, .saluSub), (2, .saluAnd), (3, .saluOr), (4, .saluXor), (5, .andn),
    (8, .saluShl), (9, .saluShr), (0xA, .saluSar), (0xB, .ror), (0x10, .clt), (0x11, .cltu), (0x12, .ceq),
    (0x14, .saluMin), (0x15, .saluMax), (0x16, .minu), (0x17, .maxu), (0x18, .mullo), (0x19, .mulhi), (0x1A, .mulhiu),
    (0x1C, .quo), (0x1D, .mod), (0x20, .popc), (0x21, .clz)]

theorem decodeOp_salu {i : W32} (h : wOP i = 1) : decodeOp i = (saluTable.find? (fun e =>
    e.1 == wFN i && decide (wPK i = 0) && (decide (e.1 < 0x20) || decide (wB i = 0)))).map (·.2) := by
  have hdec : decodeOp i = decSalu i := by simp only [decodeOp, h]
  rw [hdec, decSalu]
  by_cases hpk : wPK i = 0
  · simp only [hpk, if_true, decide_true, Bool.and_true]
    split
    case h_25 => simp_all [saluTable]; omega
    all_goals
      rename_i hfn
      by_cases hb : wB i = 0 <;> simp [saluTable, okIf, hfn, hb]
  · simp [hpk]

/-! ### The results -/

theorem boolWord_eq {b : Bool} {p : Prop} [Decidable p] (h : b = true ↔ p) : boolWord b = if p then 1 else 0 := by
  rw [boolWord]; exact if_congr h rfl rfl

theorem popc_eq_countP {n : Nat} (v : BitVec n) :
    Sys2Proof.Machine.popc n v.toNat = (List.range n).countP (fun j => v.getLsbD j) := by
  rw [Sys2Proof.Machine.popc, ← List.countP_eq_length_filter]
  rfl

section
variable {c : Instr} {op : Op} {s : State} {w : Nat} {i : W32} {f : W64 → W64 → W64}
  (hnext : HasNext s w) (h : Reaches op s w i)
include hnext h

theorem salu_completes (hc : exec c s = wickRun op w i s (salu w i f)) {v : W64}
    (hv : f (rdS (s.wick w) (wA i)) (rdS (s.wick w) (wB i)) = v) : Completes c s w (fun k => wrS k (wD i) v) := by
  subst hv
  exact completes_of_reaches hnext h hc (fun _ => wrS_pc ..) (fun _ => rfl)

/-- QUO and MOD: 0 and DZ where the divisor is 0. -/
theorem saluDiv_completes (hc : exec c s = wickRun op w i s (saluDiv w i f)) {v : W64}
    (hf : f (rdS (s.wick w) (wA i)) (rdS (s.wick w) (wB i)) = if rdS (s.wick w) (wB i) = 0 then 0 else v) :
    Completes c s w (fun k => if rdS (s.wick w) (wB i) = 0 then { wrS k (wD i) 0 with flags := k.flags ||| flDZ }
      else wrS k (wD i) v) := by
  refine completes_of_reaches hnext h hc (fun k => ?_) (fun y => ?_)
  · dsimp only; split <;> simp
  · have hread (n : Nat) : rdS { s.wick w with cycle := y } n = rdS (s.wick w) n := rfl
    simp only [hread, hf]
    split
    · rw [wrS_eq]; rfl
    · rfl

end

/-- Settles O3: each row by its one operation on two registers. -/
theorem scalarResults : Obligations.ScalarResults := by
  unfold Obligations.ScalarResults
  intro s w i hnext
  have slt (a b : W64) : a.slt b = true ↔ a.toInt < b.toInt := BitVec.slt_iff_toInt_lt
  have ult (a b : W64) : a.ult b = true ↔ a.toNat < b.toNat := BitVec.ult_iff_lt
  have mul_eq (a b : W64) : a * b = BitVec.ofNat 64 (a.toNat * b.toNat) := BitVec.eq_of_toNat_eq (by simp)
  exact ⟨decodeOp_salu,
    fun h => saluDiv_completes hnext h (exec_quo ..) rfl,
    fun h => saluDiv_completes hnext h (exec_mod ..) rfl,
    fun h => salu_completes hnext h (exec_saluAdd ..) rfl,
    fun h => salu_completes hnext h (exec_saluSub ..) rfl,
    fun h => salu_completes hnext h (exec_saluAnd ..) rfl,
    fun h => salu_completes hnext h (exec_saluOr ..) rfl,
    fun h => salu_completes hnext h (exec_saluXor ..) rfl,
    fun h => salu_completes hnext h (exec_andn ..) rfl,
    fun h => salu_completes hnext h (exec_saluShl ..) rfl,
    fun h => salu_completes hnext h (exec_saluShr ..) rfl,
    fun h => salu_completes hnext h (exec_saluSar ..) rfl,
    fun h => salu_completes hnext h (exec_ror ..) rfl,
    fun h => salu_completes hnext h (exec_clt ..) (boolWord_eq (slt ..)),
    fun h => salu_completes hnext h (exec_cltu ..) (boolWord_eq (ult ..)),
    fun h => salu_completes hnext h (exec_ceq ..) (boolWord_eq beq_iff_eq),
    fun h => salu_completes hnext h (exec_saluMin ..) (if_congr (slt ..) rfl rfl),
    fun h => salu_completes hnext h (exec_saluMax ..) (if_congr (slt ..) rfl rfl),
    fun h => salu_completes hnext h (exec_minu ..) (if_congr (ult ..) rfl rfl),
    fun h => salu_completes hnext h (exec_maxu ..) (if_congr (ult ..) rfl rfl),
    fun h => salu_completes hnext h (exec_mullo ..) (mul_eq ..),
    fun h => salu_completes hnext h (exec_mulhi ..) rfl,
    fun h => salu_completes hnext h (exec_mulhiu ..) rfl,
    fun h => salu_completes hnext h (exec_popc ..) (congrArg (BitVec.ofNat 64) (popc_eq_countP _)),
    fun h => salu_completes hnext h (exec_clz ..) rfl⟩

end Sys2Proof.Proofs
end
section
/-! PROOFS. Scalar instructions on immediates, and constants (08 R227, R228). -/
namespace Sys2Proof.Proofs
open Sys2Proof Machine Safety Laws

/-! ### The encodings -/

/-- The instructions of SALUI by F3. -/
def saluiTable : List (Nat × Op) :=
  [(0, .addi), (1, .andi), (2, .ori), (3, .xori), (4, .shli), (5, .shri), (6, .sari), (7, .muli)]

theorem bits_lt (v lo n : Nat) : bits v lo n < 2 ^ n := Nat.mod_lt _ (Nat.two_pow_pos n)

theorem decodeOp_salui {i : W32} (h : wOP i = 2) : decodeOp i = (saluiTable.find? (fun e => e.1 == wF3 i &&
    (decide (e.1 < 4) || decide (e.1 = 7) || decide (wIMMu i < 64)))).map (·.2) := by
  have hdec : decodeOp i = decSalui i := by simp only [decodeOp, h]
  have hlt : wF3 i < 8 := bits_lt ..
  rw [hdec, decSalui]
  by_cases hsh : wIMMu i < 64
  all_goals generalize wF3 i = n at hlt; interval_cases n <;> simp [saluiTable, okIf, hsh]

theorem decodeOp_constant {i : W32} (h : wOP i = 3) {op : Op} (hop : decodeOp i = some op) :
    op = if wKEEP i then .putq else .setq := by
  have hdec : decodeOp i = okIf (!bit i.toNat 12) (if wKEEP i then .putq else .setq) := by simp only [decodeOp, h]
  exact (okIf_eq_some.mp (hdec ▸ hop)).2.symm

/-! ### Quarters (R228) -/

/-- A number of `n` bits put over the bits of another from `lo` on. -/
theorem testBit_splice (v lo : Nat) {n x : Nat} (hx : x < 2 ^ n) (j : Nat) :
    (v % 2 ^ lo + x * 2 ^ lo + v / 2 ^ (lo + n) * 2 ^ (lo + n)).testBit j =
      if lo ≤ j ∧ j < lo + n then x.testBit (j - lo) else v.testBit j := by
  have hsum : v % 2 ^ lo + x * 2 ^ lo + v / 2 ^ (lo + n) * 2 ^ (lo + n) =
      2 ^ lo * (2 ^ n * (v / 2 ^ (lo + n)) + x) + v % 2 ^ lo := by rw [pow_add]; ring
  rw [hsum, Nat.testBit_two_pow_mul_add _ (Nat.mod_lt _ (Nat.two_pow_pos lo)), Nat.testBit_mod_two_pow]
  by_cases hlow : j < lo
  · rw [if_pos hlow, if_neg (by omega)]; simp [hlow]
  · rw [if_neg hlow, Nat.testBit_two_pow_mul_add _ hx, Nat.testBit_div_two_pow]
    by_cases hhigh : j - lo < n
    · rw [if_pos hhigh, if_pos (by omega)]
    · rw [if_neg hhigh, if_neg (by omega)]
      congr 1; omega

theorem getLsbD_putQuarter (v : W64) {h m n : Nat} (hm : m < 2 ^ 16) (hn : n < 64) : (putQuarter v h m).getLsbD n =
    if 16 * h ≤ n ∧ n < 16 * h + 16 then m.testBit (n - 16 * h) else v.getLsbD n := by
  rw [putQuarter, BitVec.getLsbD_ofNat, testBit_splice _ _ hm]
  simp [hn, BitVec.getLsbD]

theorem setQuarter_eq (h : Nat) {m : Nat} (hm : m < 2 ^ 16) :
    setQuarter h m = BitVec.signExtend 64 (BitVec.ofNat 16 m) <<< (16 * h) := by
  have hval : sval 16 m = (BitVec.ofNat 16 m).toInt := by
    rw [← sval_toNat, BitVec.toNat_ofNat, Nat.mod_eq_of_lt hm]
  rw [setQuarter, hval, BitVec.signExtend, BitVec.shiftLeft_eq_mul_twoPow, BitVec.ofInt_mul]
  congr 1
  have hpow : ((2 : Int) ^ (16 * h)) = ((2 ^ (16 * h) : Nat) : Int) := by push_cast; rfl
  rw [hpow, BitVec.ofInt_natCast]
  exact BitVec.eq_of_toNat_eq (by rw [BitVec.toNat_ofNat, BitVec.toNat_twoPow])

/-! ### The results -/

section
variable {c : Instr} {op : Op} {s : State} {w : Nat} {i : W32} {f : W64 → W64 → W64}
  (hnext : HasNext s w) (h : Reaches op s w i)
include hnext h

theorem salui_completes (hc : exec c s = wickRun op w i s (salui w i f)) :
    Completes c s w (fun k => wrS k (wD i) (f (rdS (s.wick w) (wA i)) (BitVec.ofInt 64 (wIMM i)))) :=
  completes_of_reaches hnext h hc (fun _ => wrS_pc ..) (fun _ => rfl)

end

/-- Settles O4: each row by its one operation on a register and a constant. -/
theorem scalarImmediates : Obligations.ScalarImmediates := by
  unfold Obligations.ScalarImmediates
  intro s w i hnext
  have himm : wIMM16 i < 2 ^ 16 := bits_lt ..
  refine ⟨decodeOp_salui, fun hop _ => decodeOp_constant hop,
    fun h => salui_completes hnext h (exec_addi ..), fun h => salui_completes hnext h (exec_andi ..),
    fun h => salui_completes hnext h (exec_ori ..), fun h => salui_completes hnext h (exec_xori ..),
    fun h => salui_completes hnext h (exec_shli ..), fun h => salui_completes hnext h (exec_shri ..),
    fun h => salui_completes hnext h (exec_sari ..), fun h => salui_completes hnext h (exec_muli ..),
    fun h => ?setq, fun h => ⟨_, ?putq, fun n hn => getLsbD_putQuarter (rdS (s.wick w) (wD i)) himm hn⟩⟩
  case setq =>
    rw [← setQuarter_eq _ himm]
    exact completes_of_reaches hnext h (exec_setq ..) (fun _ => wrS_pc ..) (fun _ => rfl)
  case putq => exact completes_of_reaches hnext h (exec_putq ..) (fun _ => wrS_pc ..) (fun _ => rfl)

end Sys2Proof.Proofs
end
section
/-! SUPPORT. The OP field of a word is that of its instruction (08 R224). -/
namespace Sys2Proof.Proofs
open Sys2Proof Machine Safety Laws

/-- The OP field of an instruction's words. -/
def opcode : Op → Nat
  | .saluAdd | .saluSub | .saluAnd | .saluOr | .saluXor | .andn | .saluShl | .saluShr | .saluSar | .ror | .clt | .cltu
  | .ceq | .saluMin | .saluMax | .minu | .maxu | .mullo | .mulhi | .mulhiu | .quo | .mod | .popc | .clz => 0x01
  | .addi | .andi | .ori | .xori | .shli | .shri | .sari | .muli => 0x02
  | .setq | .putq => 0x03
  | .br => 0x04
  | .call => 0x05
  | .jind => 0x06
  | .nop | .endProgram | .mfs | .mts => 0x07
  | .lds => 0x10
  | .sts => 0x11
  | .ldv => 0x12
  | .stv => 0x13
  | .ldm => 0x14
  | .stm => 0x15
  | .ldmv => 0x16
  | .stmv => 0x17
  | .lda => 0x18
  | .str => 0x19
  | .stn => 0x1A
  | .amo => 0x1B
  | .vacc => 0x1C
  | .ldsb => 0x1D
  | .stsb => 0x1E
  | .fadd | .fsub | .fmul | .fma | .fnma | .fmin | .fmax | .fabs | .fneg | .iadd | .isub | .imul | .valuAnd | .valuOr
  | .valuXor | .valuShl | .valuShr | .valuSar | .imin | .imax | .mov | .cvtif | .cvtfi => 0x20
  | .exp | .rcp | .rsq => 0x22
  | .vcvtWiden | .vcvtNarrow => 0x23
  | .feq | .flt | .fle | .funord | .ieq | .ilt | .iltu | .kand | .kor | .kxor | .kandn | .kfroms | .ktos | .kpop => 0x24
  | .bcst | .ext | .ins | .lane | .redsum | .redmax | .rediadd => 0x25
  | .vsbToSb | .vsbFromSb => 0x26
  | .dot => 0x30
  | .dotsb => 0x31
  | .azero | .aread | .awrite => 0x32
  | .mvt | .mvx => 0x38
  | .cwait | .cread | .cadd | .semop | .wickFence | .acquire | .mwait => 0x39

/-- A decoder's answer is an instruction of the OP field `n`, if it is one. -/
def OfOpcode (n : Nat) (x : Option Op) : Prop := ∀ o ∈ x, opcode o = n

@[simp] theorem ofOpcode_none (n : Nat) : OfOpcode n none := by simp [OfOpcode]
@[simp] theorem ofOpcode_some (n : Nat) (o : Op) : OfOpcode n (some o) ↔ opcode o = n := by simp [OfOpcode]
@[simp] theorem ofOpcode_okIf (n : Nat) (c : Bool) (o : Op) : OfOpcode n (okIf c o) ↔ (c = true → opcode o = n) := by
  cases c <;> simp [okIf]
@[simp] theorem ofOpcode_ite (n : Nat) (c : Prop) [Decidable c] (x y : Option Op) :
    OfOpcode n (if c then x else y) ↔ (c → OfOpcode n x) ∧ (¬ c → OfOpcode n y) := by
  split <;> simp [*]

/-! Each group's decoder accepts words as that group's instructions only. -/

theorem decSalu_ofOpcode (i : W32) : OfOpcode 0x01 (decSalu i) := by
  unfold decSalu
  refine (ofOpcode_ite ..).mpr ⟨fun _ => ?_, fun _ => ofOpcode_none _⟩
  split <;> simp [opcode]
theorem decSalui_ofOpcode (i : W32) : OfOpcode 0x02 (decSalui i) := by
  unfold decSalui; dsimp only; split <;> simp [opcode]
theorem decSys_ofOpcode (i : W32) : OfOpcode 0x07 (decSys i) := by
  unfold decSys; split_ifs <;> [skip; split] <;> simp [opcode]
theorem decValu_ofOpcode (i : W32) : OfOpcode 0x20 (decValu i) := by
  unfold decValu; dsimp only; split <;> simp [opcode]
theorem decVmsk_ofOpcode (i : W32) : OfOpcode 0x24 (decVmsk i) := by
  unfold decVmsk; dsimp only; split <;> simp [opcode]
theorem decVmov_ofOpcode (i : W32) : OfOpcode 0x25 (decVmov i) := by
  unfold decVmov; dsimp only; split <;> simp [opcode]
theorem decVcvt_ofOpcode (i : W32) : OfOpcode 0x23 (decVcvt i) := by
  simp [decVcvt, opcode]
theorem decVsb_ofOpcode (i : W32) : OfOpcode 0x26 (decVsb i) := by
  simp [decVsb, opcode]
theorem decAcc_ofOpcode (i : W32) : OfOpcode 0x32 (decAcc i) := by
  unfold decAcc; split_ifs <;> [skip; split] <;> simp [opcode]
theorem decMove_ofOpcode (i : W32) : OfOpcode 0x38 (decMove i) := by
  unfold decMove; split_ifs <;> [skip; split] <;> simp [opcode]
theorem decSync_ofOpcode (i : W32) : OfOpcode 0x39 (decSync i) := by
  unfold decSync; dsimp only; split_ifs <;> [skip; split] <;> simp [opcode]

theorem decodeOp_ofOpcode (i : W32) : OfOpcode (wOP i) (decodeOp i) := by
  unfold decodeOp
  split
  case h_3 hop => cases wKEEP i <;> simp [hop, opcode]
  case h_24 hop => rw [hop]; split <;> simp [opcode]
  all_goals simp [*, opcode, decSalu_ofOpcode, decSalui_ofOpcode, decSys_ofOpcode, decValu_ofOpcode, decVmsk_ofOpcode,
    decVmov_ofOpcode, decVcvt_ofOpcode, decVsb_ofOpcode, decAcc_ofOpcode, decMove_ofOpcode, decSync_ofOpcode]

theorem wOP_of_decodeOp {i : W32} {o : Op} (h : decodeOp i = some o) : wOP i = opcode o :=
  (decodeOp_ofOpcode i o h).symm

end Sys2Proof.Proofs
end
section
/-! SUPPORT. A wick that stops, and one that continues at a target (07 R191; 08 R229, R255). -/
namespace Sys2Proof.Proofs
open Sys2Proof Machine Safety Laws

/-! ### Stopping -/

/-- A wick's own state once it has stopped with a status. -/
def stoppedWith (k : Wick) (st : Status) : Wick := { k with state := .stopped, stop := st, wait := .none }

theorem wick_haltWick (s : State) (w v : Nat) (st : Status) :
    (haltWick s w st).wick v = if v = w then stoppedWith (s.wick w) st else s.wick v := wick_setWick ..

theorem wick_stopWick (s : State) (w v : Nat) (st : Status) (kind : BitVec 3) (addr : Nat) :
    (stopWick s w st kind addr).wick v = if v = w then stoppedWith (s.wick w) st else s.wick v := by
  simp only [stopWick, wick_haltWick, (logRecord_logsOnly ..).wick]

theorem wick_stopAtPc (s : State) (w v : Nat) (st : Status) :
    (stopAtPc s w st).wick v = if v = w then stoppedWith (s.wick w) st else s.wick v := wick_stopWick ..

/-! ### Continuing at a target -/

/-- Where a wick stands after a jump that took some cycles and changed its registers as `f` says: at the target, or
stopped because it is out of range. -/
def Continues (s t : State) (w : Nat) (f : Wick → Wick) (target : Int) : Prop :=
  (∀ v, v ≠ w → t.wick v = s.wick v) ∧ ∃ y : W64,
    if 0 ≤ target ∧ target < 4096 then
      OnlyWick s t w ∧ t.wick w = { f { s.wick w with cycle := y } with pc := target.toNat }
    else (t.wick w).state = .stopped ∧ (t.wick w).stop = stFormat

theorem goTo_outside {s : State} {w : Nat} {target : Int} (h : ¬ (0 ≤ target ∧ target < 4096)) :
    goTo s w target = stopAtPc s w stFormat := if_neg h

theorem goTo_continues {s u : State} {w : Nat} {f : Wick → Wick} {y : W64} (hu : OnlyWick s u w)
    (hwick : u.wick w = f { s.wick w with cycle := y }) (target : Int) : Continues s (goTo u w target) w f target := by
  by_cases h : 0 ≤ target ∧ target < 4096
  · have hall := onlyWick_trans hu (onlyWick_setWick u w (fun k => { k with pc := target.toNat }))
    rw [goTo_inside _ _ h]
    refine ⟨hall.2, y, ?_⟩
    rw [if_pos h, wick_setWick, if_pos rfl, hwick]
    exact ⟨hall, rfl⟩
  · rw [goTo_outside h]
    refine ⟨fun v hv => by rw [wick_stopAtPc, if_neg hv, hu.2 v hv], y, ?_⟩
    rw [if_neg h, wick_stopAtPc, if_pos rfl]
    exact ⟨rfl, rfl⟩

end Sys2Proof.Proofs
end
section
/-! PROOFS. Branches and jumps (08 R229). -/
namespace Sys2Proof.Proofs
open Sys2Proof Machine Safety Laws

/-- DNZ names no register A. -/
theorem wA_of_decodeOp_br {i : W32} (h : decodeOp i = some .br) (hdnz : wF3 i = 7) : wA i = 0 := by
  have hdec : decodeOp i = okIf (wF3 i != 7 || wA i == 0) .br := by simp only [decodeOp, wOP_of_decodeOp h, opcode]
  have hform := (okIf_eq_some.mp (hdec ▸ h)).1
  rw [hdnz] at hform
  simpa using hform

theorem wickDo_pastEnd {f : Wick → Wick} (hpc : ∀ k, (f k).pc = k.pc) {s : State} {w : Nat} (h : (s.wick w).pc = 4095) :
    ((wickDo w f s).wick w).state = .stopped ∧ ((wickDo w f s).wick w).stop = stFormat := by
  have hwick : (s.setWick w f).wick w = f (s.wick w) := by rw [wick_setWick, if_pos rfl]
  rw [wickDo, advance, hwick, hpc, h, goTo_outside (by decide), wick_stopAtPc, if_pos rfl]
  exact ⟨rfl, rfl⟩

/-- The condition of a branch, with the comparisons of R229 as orders of integers. -/
def branchTaken (f3 : Nat) (a d : W64) : Bool :=
  match f3 with
  | 0 => a == d | 1 => a != d | 2 => decide (a.toInt < d.toInt) | 3 => decide (a.toInt ≤ d.toInt)
  | 4 => decide (a.toNat < d.toNat) | 5 => decide (a.toNat ≤ d.toNat) | 6 => (a &&& d) != 0 | _ => d - 1 != 0

theorem brTaken_eq (f3 : Nat) (a d : W64) : brTaken f3 a d = branchTaken f3 a d := by
  match f3 with
  | 0 | 1 | 2 | 3 | 4 | 5 | 6 | _ + 7 => rfl

/-- A branch's target: IMM from its own index where it is taken, and the next index otherwise. -/
theorem branch_continues (s : State) (w : Nat) (i : W32) : let k := s.wick w
    let d := rdS k (wD i)
    Continues s (branch w i (issue s w)) w (fun k => if wF3 i = 7 then wrS k (wD i) (d - 1) else k)
      (if branchTaken (wF3 i) (rdS k (wA i)) d then (k.pc : Int) + wIMM i else (k.pc : Int) + 1) := by
  obtain ⟨y, hy⟩ := wick_issue_self s w
  intro k d
  generalize hu : (if wF3 i = 7 then (issue s w).setWick w (fun k => wrS k (wD i) (d - 1)) else issue s w) = u
  have hwick : u.wick w = if wF3 i = 7 then wrS { s.wick w with cycle := y } (wD i) (d - 1)
      else { s.wick w with cycle := y } := by
    rw [← hu]; split
    · rw [wick_setWick, if_pos rfl, hy]
    · exact hy
  have honly : OnlyWick s u w := by
    rw [← hu]; split
    · exact onlyWick_trans (onlyWick_issue s w) (onlyWick_setWick ..)
    · exact onlyWick_issue s w
  have hpc : (u.wick w).pc = k.pc := by rw [hwick]; split <;> simp [k]
  have hbranch : branch w i (issue s w) = goTo u w
      (if branchTaken (wF3 i) (rdS k (wA i)) d then (k.pc : Int) + wIMM i else (k.pc : Int) + 1) := by
    have hread (n : Nat) : rdS { s.wick w with cycle := y } n = rdS k n := rfl
    simp only [branch, hy, hread, brTaken_eq]
    rw [show rdS k (wD i) = d from rfl, hu, advance, hpc]
    split <;> rfl
  rw [hbranch]
  exact goTo_continues (f := fun k => if wF3 i = 7 then wrS k (wD i) (d - 1) else k) honly hwick _

theorem jump_continues (s : State) (w : Nat) (i : W32) {target : Wick → Int}
    (htarget : ∀ y : W64, target { s.wick w with cycle := y } = target (s.wick w)) :
    Continues s (jump w i target (issue s w)) w
      (fun k => wrS k (wD i) (BitVec.ofNat 64 ((s.wick w).pc + 1))) (target (s.wick w)) := by
  obtain ⟨y, hy⟩ := wick_issue_self s w
  have hjump : jump w i target (issue s w) = goTo ((issue s w).setWick w (fun k =>
      wrS k (wD i) (BitVec.ofNat 64 (k.pc + 1)))) w (target (s.wick w)) := by
    simp only [jump, hy, htarget]
  rw [hjump]
  exact goTo_continues (f := fun k => wrS k (wD i) (BitVec.ofNat 64 ((s.wick w).pc + 1))) (y := y)
    (onlyWick_trans (onlyWick_issue s w) (onlyWick_setWick ..)) (by rw [wick_setWick, if_pos rfl, hy]) _

/-- Settles O5: each row by where its wick continues. -/
theorem branchesAndJumps : Obligations.BranchesAndJumps := by
  unfold Obligations.BranchesAndJumps
  intro s w i
  refine ⟨fun f hpc hend => wickDo_pastEnd hpc hend, wA_of_decodeOp_br, fun h => ?_, fun h => ?_, fun h => ?_⟩
  · exact ⟨_, wickRun_reaches h _, branch_continues s w i⟩
  · exact ⟨_, wickRun_reaches h _, jump_continues s w i (fun _ => rfl)⟩
  · exact ⟨_, wickRun_reaches h _, jump_continues s w i (fun _ => rfl)⟩

end Sys2Proof.Proofs
end
section
/-! PROOFS. NOP, END and the special registers (08 R236, R237, R253). -/
namespace Sys2Proof.Proofs
open Sys2Proof Machine Safety Laws

/-- MTS names a writable special register. -/
theorem wA_of_decodeOp_mts {i : W32} (h : decodeOp i = some .mts) : wA i = 3 ∨ wA i = 4 ∨ wA i = 5 := by
  have hdec : decodeOp i = decSys i := by simp only [decodeOp, wOP_of_decodeOp h, opcode]
  rw [hdec, decSys] at h
  split_ifs at h
  split at h
  case h_4 =>
    have hsel := (okIf_eq_some.mp h).1
    simp only [Bool.and_eq_true, decide_eq_true_eq] at hsel
    omega
  all_goals simp [okIf] at h

/-- The readable special registers by their selectors. -/
theorem specialReg_eq (k : Wick) (w n : Nat) : specialReg k w n =
    if n = 0 then BitVec.ofNat 64 w else if n = 1 then k.step.setWidth 64 else if n = 2 then k.cycle
    else if n = 3 then k.flags.setWidth 64 else if n = 4 then k.mstat.setWidth 64
    else if n = 5 then k.cntsel.setWidth 64 else if n = 6 then k.ctx.setWidth 64
    else if n = 7 then k.part.setWidth 64 else k.rel.getD (n - 8) 0 := by
  match n with
  | 0 | 1 | 2 | 3 | 4 | 5 | 6 | 7 | _ + 8 => simp [specialReg]

theorem setSpecial_eq (k : Wick) {n : Nat} (h : n = 3 ∨ n = 4 ∨ n = 5) (v : W64) : setSpecial k n v =
    if n = 3 then { k with flags := v.setWidth 5 } else if n = 4 then { k with mstat := v.setWidth 9 }
    else { k with cntsel := v.setWidth 19 } := by
  rcases h with rfl | rfl | rfl <;> rfl

theorem setSpecial_pc (k : Wick) (n : Nat) (v : W64) : (setSpecial k n v).pc = k.pc := by
  unfold setSpecial; split <;> rfl

/-- Settles O6: each row by what it does to the wick. -/
theorem systemInstructions : Obligations.SystemInstructions := by
  unfold Obligations.SystemInstructions
  intro s w i
  refine ⟨fun h hnext => completes_of_reaches hnext h (exec_nop ..) (fun _ => rfl) (fun _ => rfl), fun h => ?ended,
    fun h hnext => ?mfs, fun h hnext => ?mts⟩
  case ended =>
    obtain ⟨y, hy⟩ := wick_issue_self s w
    exact ⟨_, (exec_endProgram ..).trans (wickRun_reaches h _),
      onlyWick_trans (onlyWick_issue s w) (onlyWick_setWick ..), y, by rw [wick_setWick, if_pos rfl, hy]⟩
  case mfs =>
    exact completes_of_reaches hnext h (exec_mfs ..) (fun _ => wrS_pc ..) (fun _ => by rw [specialReg_eq])
  case mts =>
    obtain ⟨-, -, -, -, -, hop⟩ := id h
    have hsel := wA_of_decodeOp_mts hop
    exact ⟨hsel, completes_of_reaches hnext h (exec_mts ..) (fun _ => setSpecial_pc ..) (fun _ => setSpecial_eq _ hsel _)⟩

end Sys2Proof.Proofs
end
section
/-! SUPPORT. Lanes of a vector register, and writes under a mask (08 R220, R238). -/
namespace Sys2Proof.Proofs
open Sys2Proof Machine Safety Laws

/-! ### Digits -/

theorem bits_mod {v lo n m : Nat} (h : lo + n ≤ m) : bits (v % 2 ^ m) lo n = bits v lo n := by
  apply Nat.eq_of_testBit_eq
  intro j
  by_cases hj : j < n
  · have hlo : lo + j < m := by omega
    simp [bits, Nat.testBit_mod_two_pow, Nat.testBit_div_two_pow, Nat.add_comm j lo, hlo]
  · simp [bits, Nat.testBit_mod_two_pow, hj]

theorem bits_ofNat (v : Nat) {lo n m : Nat} (h : lo + n ≤ m) : bits (BitVec.ofNat m v).toNat lo n = bits v lo n := by
  rw [BitVec.toNat_ofNat, bits_mod h]

theorem bits_packN (n : Nat) (l : List Nat) (j : Nat) : bits (packN n l) (n * j) n = l.getD j 0 % 2 ^ n := by
  induction l generalizing j with
  | nil => simp [packN, bits]
  | cons x r ih =>
    cases j with
    | zero => simp [packN, bits, Nat.add_mul_mod_self_left]
    | succ j =>
      have hdiv : packN n (x :: r) / 2 ^ n = packN n r := by
        rw [packN, Nat.add_mul_div_left _ _ (Nat.two_pow_pos n),
          Nat.div_eq_of_lt (Nat.mod_lt _ (Nat.two_pow_pos n)), Nat.zero_add]
      rw [List.getD_cons_succ, ← ih j, bits, bits, Nat.mul_succ, Nat.add_comm, pow_add, ← Nat.div_div_eq_div_mul, hdiv]

/-! ### Lanes -/

theorem laneAt_lt (v : W512) (l : Nat) : laneAt v l < 2 ^ 32 := bits_lt ..

theorem laneAt_ofLanes (xs : List Nat) {l : Nat} (h : l < 16) : laneAt (ofLanes xs) l = xs.getD l 0 % 2 ^ 32 := by
  have hin : 32 * l + 32 ≤ 512 := by omega
  rw [laneAt, ofLanes, bits_ofNat _ hin, bits_packN]

theorem laneAt_ofLanes_map (f : Nat → Nat) {l : Nat} (h : l < 16) :
    laneAt (ofLanes ((List.range 16).map f)) l = f l % 2 ^ 32 := by
  rw [laneAt_ofLanes _ h]
  simp [h]

theorem laneAt_mergeLanes (m : W16) (old : W512) (rs : List LaneRes) {l : Nat} (h : l < 16) :
    laneAt (mergeLanes m old rs) l = if m.getLsbD l then (rs.getD l (0, 0)).1 % 2 ^ 32 else laneAt old l := by
  rw [mergeLanes, laneAt_ofLanes_map _ h]
  split
  · rfl
  · exact Nat.mod_eq_of_lt (laneAt_lt old l)

/-! ### Flags -/

theorem getLsbD_foldl_or {α : Type} (p : α → Bool) (g : α → FFlags) (l : List α) (f : FFlags) (b : Nat) :
    (l.foldl (fun f e => if p e then f ||| g e else f) f).getLsbD b =
      (f.getLsbD b || l.any (fun e => p e && (g e).getLsbD b)) := by
  induction l generalizing f with
  | nil => simp
  | cons e r ih =>
    rw [List.foldl_cons, ih, List.any_cons]
    cases p e <;> simp [Bool.or_assoc]

theorem zip_range_eq {α : Type} (d : α) {n : Nat} {l : List α} (h : l.length = n) :
    (List.range n).zip l = (List.range n).map (fun j => (j, l.getD j d)) := by
  apply List.ext_getElem
  · simp [h]
  · intro j h1 h2
    have hj : j < l.length := by simpa [h] using h2
    simp [hj]

theorem getLsbD_lanesFlags (m : W16) {rs : List LaneRes} (h : rs.length = 16) (b : Nat) :
    (lanesFlags m rs).getLsbD b = (List.range 16).any (fun j => m.getLsbD j && (rs.getD j (0, 0)).2.getLsbD b) := by
  rw [lanesFlags, zip_range_eq (0, 0) h, getLsbD_foldl_or (fun e : Nat × LaneRes => m.getLsbD e.1) (fun e => e.2.2),
    List.any_map]
  simp
  rfl

end Sys2Proof.Proofs
end
section
/-! PROOFS. Predicated lanes and vector arithmetic (08 R238, R239). -/
namespace Sys2Proof.Proofs
open Sys2Proof Machine Safety Laws

/-- Settles O7, by the lanes and by the flags of a predicated write. -/
theorem predicatedLanes : Obligations.PredicatedLanes := by
  unfold Obligations.PredicatedLanes
  exact fun m old rs l hlen hl => ⟨laneAt_mergeLanes m old rs hl, getLsbD_lanesFlags m hlen⟩

/-! ### Lane operations -/

theorem sval_eq_toInt {n : Nat} (hn : 0 < n) (v : Nat) : sval n v = (BitVec.ofNat n v).toInt := by
  obtain ⟨m, rfl⟩ : ∃ m, n = m + 1 := ⟨n - 1, by omega⟩
  simp only [sval, BitVec.toInt, BitVec.toNat_ofNat, Nat.add_sub_cancel, pow_succ]
  push_cast
  exact if_congr (by omega) rfl rfl

section
variable {c : Instr} {op : Op} {s : State} {w : Nat} {i : W32} (hnext : HasNext s w) (h : Reaches op s w i)
include hnext h

theorem vecWrite_completes {f : Wick → Nat → LaneRes} (hc : exec c s = wickRun op w i s (wickDo w (vecWrite i f))) :
    Completes c s w (vecWrite i f) := completes_of_reaches hnext h hc (fun _ => vecWrite_pc ..) (fun _ => rfl)

theorem valu1_completes {f g : Nat → LaneRes} (hc : exec c s = wickRun op w i s (valu1 w i f)) (hfg : f = g) :
    Completes c s w (vecWrite i (fun k l => g (laneAt (rdV k (wA i)) l))) :=
  hfg ▸ vecWrite_completes hnext h hc

theorem valu2_completes {f g : Nat → Nat → LaneRes} (hc : exec c s = wickRun op w i s (valu2 w i f)) (hfg : f = g) :
    Completes c s w (vecWrite i (fun k l => g (laneAt (rdV k (wA i)) l) (laneAt (rdV k (wB i)) l))) :=
  hfg ▸ vecWrite_completes hnext h hc

theorem valu3_completes {f : Nat → Nat → Nat → LaneRes} (hc : exec c s = wickRun op w i s (valu3 w i f)) :
    Completes c s w (vecWrite i (fun k l =>
      f (laneAt (rdV k (wA i)) l) (laneAt (rdV k (wB i)) l) (laneAt (rdV k (wD i)) l))) :=
  vecWrite_completes hnext h hc

end

/-- Settles O8: each row by its one operation on lanes. -/
theorem vectorArithmetic : Obligations.VectorArithmetic := by
  unfold Obligations.VectorArithmetic
  intro s w i hnext
  have slt (a b : W32) : a.slt b = true ↔ a.toInt < b.toInt := BitVec.slt_iff_toInt_lt
  have imin : int2 (fun a b => if b.slt a then b else a) = int2 (fun a b => if b.toInt < a.toInt then b else a) := by
    simp only [slt]
  have imax : int2 (fun a b => if a.slt b then b else a) = int2 (fun a b => if a.toInt < b.toInt then b else a) := by
    simp only [slt]
  exact ⟨fun h => (valu2_completes hnext h (exec_fadd ..) rfl :),
    fun h => (valu2_completes hnext h (exec_fsub ..) rfl :),
    fun h => (valu2_completes hnext h (exec_fmul ..) rfl :),
    fun h => (valu3_completes hnext h (exec_fma ..) :),
    fun h => (valu3_completes hnext h (exec_fnma ..) :),
    fun h => (valu2_completes hnext h (exec_fmin ..) rfl :),
    fun h => (valu2_completes hnext h (exec_fmax ..) rfl :),
    fun h => (valu1_completes hnext h (exec_fabs ..) rfl :),
    fun h => (valu1_completes hnext h (exec_fneg ..) rfl :),
    fun h => (valu2_completes hnext h (exec_iadd ..) rfl :),
    fun h => (valu2_completes hnext h (exec_isub ..) rfl :),
    fun h => (valu2_completes hnext h (exec_imul ..) rfl :),
    fun h => (valu2_completes hnext h (exec_valuAnd ..) rfl :),
    fun h => (valu2_completes hnext h (exec_valuOr ..) rfl :),
    fun h => (valu2_completes hnext h (exec_valuXor ..) rfl :),
    fun h => (valu2_completes hnext h (exec_valuShl ..) rfl :),
    fun h => (valu2_completes hnext h (exec_valuShr ..) rfl :),
    fun h => (valu2_completes hnext h (exec_valuSar ..) rfl :),
    fun h => (valu2_completes hnext h (exec_imin ..) imin :),
    fun h => (valu2_completes hnext h (exec_imax ..) imax :),
    fun h => (valu1_completes hnext h (exec_mov ..) rfl :),
    fun h => (valu1_completes hnext h (exec_cvtif ..) (funext fun a => by rw [sval_eq_toInt (by decide)]) :),
    fun h => (valu1_completes hnext h (exec_cvtfi ..) rfl :)⟩

end Sys2Proof.Proofs
end
section
/-! PROOFS. Compares and masks (08 R240). -/
namespace Sys2Proof.Proofs
open Sys2Proof Machine Safety Laws

/-! ### The mask of a compare -/

theorem testBit_eq_bits (v j : Nat) : v.testBit j = decide (bits v j 1 = 1) := Nat.testBit_eq_decide_div_mod_eq

theorem getLsbD_cmpMask (m : W16) (a b : W512) (f : Nat → Nat → Bool) {l : Nat} (h : l < 16) :
    (cmpMask m a b f).getLsbD l = (m.getLsbD l && f (laneAt a l) (laneAt b l)) := by
  have hdigit := bits_packN 1 ((List.range 16).map (fun l => b2n (m.getLsbD l && f (laneAt a l) (laneAt b l)))) l
  rw [Nat.one_mul] at hdigit
  rw [cmpMask, BitVec.getLsbD_ofNat, testBit_eq_bits, hdigit]
  simp only [h, decide_true, Bool.true_and, List.getD_eq_getElem?_getD, List.getElem?_map, List.getElem?_range h,
    Option.map_some, Option.getD_some]
  cases (m.getLsbD l && f (laneAt a l) (laneAt b l)) <;> rfl

theorem fcmpIs_iff {ok : Ordering → Bool} {r : Ordering → Prop} (h : ∀ o, ok o = true ↔ r o) (a b : Nat) :
    fcmpIs ok a b = true ↔ f32 a ≠ .nan ∧ f32 b ≠ .nan ∧ r (fcmp (f32 a) (f32 b)) := by
  simp [fcmpIs, h, and_assoc]

section
variable {c : Instr} {op : Op} {s : State} {w : Nat} {i : W32} (hnext : HasNext s w) (h : Reaches op s w i)
include hnext h

theorem vcmp_completes {f : Nat → Nat → Bool} {r : Nat → Nat → Prop} (hc : exec c s = wickRun op w i s (vcmp w i f))
    (hr : ∀ a b, f a b = true ↔ r a b) : ∃ m : W16, Completes c s w (fun k => wrK k (wD i) m) ∧
      ∀ l < 16, (m.getLsbD l = true ↔ (rdK (s.wick w) (wPK i)).getLsbD l = true ∧
        r (laneAt (rdV (s.wick w) (wA i)) l) (laneAt (rdV (s.wick w) (wB i)) l)) := by
  refine ⟨cmpMask (rdK (s.wick w) (wPK i)) (rdV (s.wick w) (wA i)) (rdV (s.wick w) (wB i)) f,
    completes_of_reaches hnext h hc (fun _ => wrK_pc ..) (fun _ => rfl), fun l hl => ?_⟩
  rw [getLsbD_cmpMask _ _ _ _ hl, Bool.and_eq_true, hr]

theorem kop_completes {f : W16 → W16 → W16} (hc : exec c s = wickRun op w i s (kop w i f)) :
    Completes c s w (fun k => wrK k (wD i) (f (rdK (s.wick w) (wA i)) (rdK (s.wick w) (wB i)))) :=
  completes_of_reaches hnext h hc (fun _ => wrK_pc ..) (fun _ => rfl)

end

/-- Settles O9: compares by the bits of their mask, the rest by their one operation. -/
theorem maskInstructions : Obligations.MaskInstructions := by
  unfold Obligations.MaskInstructions
  intro s w i hnext
  refine ⟨fun h => vcmp_completes hnext h (exec_feq ..) (fcmpIs_iff (r := (· = .eq)) fun _ => ?_),
    fun h => vcmp_completes hnext h (exec_flt ..) (fcmpIs_iff (r := (· = .lt)) fun _ => ?_),
    fun h => vcmp_completes hnext h (exec_fle ..) (fcmpIs_iff (r := (· ≠ .gt)) fun _ => ?_),
    fun h => vcmp_completes (r := fun a b => f32 a = .nan ∨ f32 b = .nan) hnext h (exec_funord ..) (fun a b => ?_),
    fun h => vcmp_completes hnext h (exec_ieq ..) (fun _ _ => beq_iff_eq),
    fun h => vcmp_completes hnext h (exec_ilt ..) (fun _ _ => BitVec.slt_iff_toInt_lt),
    fun h => vcmp_completes hnext h (exec_iltu ..) (fun _ _ => decide_eq_true_iff),
    fun h => (kop_completes hnext h (exec_kand ..) :), fun h => (kop_completes hnext h (exec_kor ..) :),
    fun h => (kop_completes hnext h (exec_kxor ..) :), fun h => (kop_completes hnext h (exec_kandn ..) :),
    fun h => completes_of_reaches hnext h (exec_kfroms ..) (fun _ => wrK_pc ..) (fun _ => rfl),
    fun h => completes_of_reaches hnext h (exec_ktos ..) (fun _ => wrS_pc ..) (fun _ => rfl),
    fun h => completes_of_reaches hnext h (exec_kpop ..) (fun _ => wrS_pc ..) (fun _ => by rw [popc_eq_countP]; rfl)⟩
  · simp
  · simp
  · simp
  · simp

end Sys2Proof.Proofs
end
section
/-! PROOFS. Lane moves, reductions and special functions (08 R241, R242). -/
namespace Sys2Proof.Proofs
open Sys2Proof Machine Safety Laws

/-! ### Lane moves -/

theorem laneAt_setLane (v : W512) (n x : Nat) {l : Nat} (h : l < 16) :
    laneAt (ofLanes ((lanesOf v).set n x)) l = if l = n then x % 2 ^ 32 else laneAt v l := by
  have hlen : l < (lanesOf v).length := by simpa [lanesOf] using h
  rw [laneAt_ofLanes _ h, List.getD_eq_getElem?_getD, List.getElem?_set]
  by_cases hn : l = n
  · subst hn; simp [hlen]
  · rw [if_neg (Ne.symm hn), if_neg hn]
    simpa [lanesOf, h] using laneAt_lt v l

/-! ### Reductions -/

/-- The sum of two lanes with the flags of both and its own. -/
def laneSum (x y : LaneRes) : LaneRes := ((f32Add x.1 y.1).1, x.2 ||| y.2 ||| (f32Add x.1 y.1).2)

theorem getD_redLevel {n j : Nat} (h : j < n) (l : List LaneRes) :
    (redLevel n l).getD j (0, 0) = laneSum (l.getD j (0, 0)) (l.getD (j + n) (0, 0)) := by
  simp [redLevel, h]
  rfl

/-- REDSUM's tree: lanes 8 apart, then 4, then 2, then 1. -/
theorem redSum_lanesOf (v : W512) : let x (l : Nat) : LaneRes := (laneAt v l, 0)
    let a (l : Nat) : LaneRes := laneSum (x l) (x (l + 8))
    let b (l : Nat) : LaneRes := laneSum (a l) (a (l + 4))
    let c (l : Nat) : LaneRes := laneSum (b l) (b (l + 2))
    redSum (lanesOf v) = laneSum (c 0) (c 1) := by
  have hleaf {l : Nat} (h : l < 16) : ((lanesOf v).map (fun x => ((x, 0) : LaneRes))).getD l (0, 0) = (laneAt v l, 0) := by
    simp [lanesOf, h]
  simp only [redSum, getD_redLevel, hleaf, Nat.reduceLT, Nat.reduceAdd]

theorem raise_zero (k : Wick) : raise k 0 = k := by
  have hor : k.flags ||| 0 = k.flags := BitVec.or_zero
  rw [raise, hor]

section
variable {c : Instr} {op : Op} {s : State} {w : Nat} {i : W32} (hnext : HasNext s w) (h : Reaches op s w i)
include hnext h

theorem reduce_completes {f : List Nat → LaneRes} (hc : exec c s = wickRun op w i s (reduce w i f)) :
    Completes c s w (fun k => raise (wrV k (wD i) (ofLanes (List.replicate 16 (f (lanesOf (rdV k (wA i)))).1)))
      (f (lanesOf (rdV k (wA i)))).2) := completes_of_reaches hnext h hc (fun _ => rfl) (fun _ => rfl)

/-- A reduction that raises no flag. -/
theorem reduce_completes_quiet {f : List Nat → Nat} (hc : exec c s = wickRun op w i s (reduce w i (fun l => (f l, 0)))) :
    Completes c s w (fun k => wrV k (wD i) (ofLanes (List.replicate 16 (f (lanesOf (rdV k (wA i))))))) :=
  completes_congr (reduce_completes hnext h hc) (fun _ => raise_zero _)

end

/-- Settles O10: moves and special functions by their one operation, reductions by their value of all lanes. -/
theorem laneMovesAndReductions : Obligations.LaneMovesAndReductions := by
  unfold Obligations.LaneMovesAndReductions
  intro s w i hnext
  refine ⟨fun h => vecWrite_completes hnext h (exec_bcst ..),
    fun h => completes_of_reaches hnext h (exec_ext ..) (fun _ => wrS_pc ..) (fun _ => rfl),
    fun h => ⟨ofLanes ((lanesOf (rdV (s.wick w) (wD i))).set (wB i) (lowWord (rdS (s.wick w) (wA i)))),
      completes_of_reaches hnext h (exec_ins ..) (fun _ => rfl) (fun _ => rfl), fun l hl => ?ins⟩,
    fun h => vecWrite_completes hnext h (exec_lane ..),
    fun h => completes_congr (reduce_completes hnext h (exec_redsum ..)) (fun _ => by rw [redSum_lanesOf]; rfl),
    fun h => (reduce_completes_quiet hnext h (exec_redmax ..) :),
    fun h => (reduce_completes_quiet hnext h (exec_rediadd ..) :),
    fun h => (valu1_completes hnext h (exec_exp ..) rfl :), fun h => (valu1_completes hnext h (exec_rcp ..) rfl :),
    fun h => (valu1_completes hnext h (exec_rsq ..) rfl :)⟩
  case ins => rw [laneAt_setLane _ _ _ hl, lowWord, Nat.mod_mod]

end Sys2Proof.Proofs
end
section
/-! SUPPORT. Accesses to scratch: what a load reads, and what a store of pieces leaves in every byte (08 R230 to R235). -/
namespace Sys2Proof.Proofs
open Sys2Proof Machine Safety Laws

/-! ### An access that may go on -/

theorem scratchAccess_goesOn {s : State} {w a n align : Nat} {writes : Bool} (h : ScratchOk s w a n align writes)
    (hn : 0 < n) (go : State → State) : scratchAccess w a n align writes go s = go s := by
  obtain ⟨hend, halign, htracked, hbad⟩ := h
  have hread : (!writes && scratchBad s w a n) = false := by
    rcases hbad with hw | hb
    · rw [hw]; rfl
    · rw [hb, Bool.and_false]
  rw [scratchAccess, if_neg (by omega), if_neg (by omega), if_neg (by omega), htracked, hread]
  rfl

/-- The cycles that an instruction takes bear on no access of its own. -/
theorem scratchOk_issue {s : State} {w a n align : Nat} {writes : Bool} (h : ScratchOk s w a n align writes) :
    ScratchOk (issue s w) w a n align writes := by
  obtain ⟨hend, halign, htracked, hbad⟩ := h
  obtain ⟨y, hy⟩ := wick_issue_self s w
  exact ⟨hend, halign, by rw [hy]; exact htracked, hbad⟩

/-! ### Loads -/

theorem scratchLoad_completes {c : Instr} {s : State} {w a n align : Nat} {f : List Byte → Wick → Wick}
    (hnext : HasNext s w) (hc : exec c s = .next (scratchLoad w a n align f (issue s w)))
    (h : ScratchOk s w a n align false) (hn : 0 < n) (hpc : ∀ d k, (f d k).pc = k.pc) :
    Completes c s w (f (scratchRead s w a n)) :=
  completes_of_next hnext (hc.trans (congrArg _ (scratchAccess_goesOn (scratchOk_issue h) hn _))) (hpc _) (fun _ => rfl)

theorem extendLoad_eq {n : Nat} (hn : 0 < n) (sext : Bool) (v : Nat) : extendLoad n sext v =
    if sext then (BitVec.ofNat (8 * n) v).signExtend 64 else BitVec.ofNat 64 v := by
  rw [extendLoad, sval_eq_toInt (by omega)]; rfl

theorem foldl_pc {α : Type} {f : Wick → α → Wick} (h : ∀ k a, (f k a).pc = k.pc) (l : List α) (k : Wick) :
    (l.foldl f k).pc = k.pc := by
  induction l generalizing k with
  | nil => rfl
  | cons a r ih => rw [List.foldl_cons, ih, h]

theorem unpackSb_pc (sb4 : Bool) (i : W32) (d : List Byte) (k : Wick) : (unpackSb sb4 i d k).pc = k.pc := by
  rw [unpackSb, wrS_pc]
  exact foldl_pc (fun k r => wrV_pc k ..) _ k

theorem eight_sbSize (sb4 : Bool) : 8 * sbSize sb4 = if sb4 then 136 else 264 := by cases sb4 <;> rfl

/-! ### Stores of pieces -/

/-- A piece covers an offset. -/
def Covers (p : Nat × List Byte) (o : Nat) : Prop := p.1 ≤ o ∧ o < p.1 + p.2.length

/-- No offset is covered by two pieces. -/
def Apart (pieces : List (Nat × List Byte)) : Prop := pieces.Pairwise (fun p q => ∀ o, Covers p o → ¬ Covers q o)

theorem pieceByte_eq_none {pieces : List (Nat × List Byte)} {o : Nat} (h : ∀ p ∈ pieces, ¬ Covers p o) :
    pieceByte pieces o = none := by
  rw [pieceByte, List.findSome?_eq_none_iff]
  exact fun p hp => if_neg (h p hp)

/-- Bytes of a memory after pieces that stand apart have been written from an address on. -/
theorem cellGet_writePieces (base x : Nat) {pieces : List (Nat × List Byte)} (h : Apart pieces) (m : List Host.Cell) :
    cellGet (pieces.foldl (fun m p => cellWrite m (base + p.1) p.2) m) x =
      if base ≤ x then (pieceByte pieces (x - base)).getD (cellGet m x) else cellGet m x := by
  induction pieces generalizing m with
  | nil => simp [pieceByte]
  | cons p r ih =>
    obtain ⟨hp, hr⟩ := List.pairwise_cons.mp h
    rw [List.foldl_cons, ih hr, cellGet_cellWrite]
    by_cases hx : base ≤ x
    · by_cases hcov : p.1 ≤ x - base ∧ x - base < p.1 + p.2.length
      · have hnone : pieceByte r (x - base) = none := pieceByte_eq_none (fun q hq => hp q hq _ hcov)
        rw [if_pos hx, if_pos hx, hnone, if_pos (by omega), pieceByte, List.findSome?_cons, if_pos hcov]
        simp [Nat.sub_sub]
      · rw [if_pos hx, if_pos hx, if_neg (by omega), pieceByte, pieceByte, List.findSome?_cons, if_neg hcov]
    · rw [if_neg hx, if_neg hx, if_neg (by omega)]

/-- Nothing but wicks, scratch, the spot checks and the count of free values has changed. -/
def StoredOnly (s t : State) : Prop := t = { s with
  wicks := t.wicks, free := t.free, scratch := t.scratch, badScratch := t.badScratch, sconces := t.sconces }

theorem StoredOnly.trans {s t u : State} (h : StoredOnly s t) (h' : StoredOnly t u) : StoredOnly s u := by
  unfold StoredOnly at *; rw [h', h]

theorem StoredOnly.sync {s t : State} (h : StoredOnly s t) : t.sync = s.sync := by rw [h]

theorem StoredOnly.work {s t : State} (h : StoredOnly s t) : t.work = s.work := by rw [h]

theorem StoredOnly.xbar {s t : State} (h : StoredOnly s t) : t.xbar = s.xbar := by rw [h]

theorem storedOnly_of_onlyWick {s t : State} {w : Nat} (h : OnlyWick s t w) : StoredOnly s t := by
  unfold StoredOnly; rw [h.1]

/-- A store of pieces as bytes: all of it before the wick goes on. -/
def storePieces (w a : Nat) (pieces : List (Nat × List Byte)) (s : State) : State :=
  spotOutput (pieces.foldl (fun s p => scratchWrite s w (a + p.1) p.2) s) w

theorem scratchWrites_stored (w a : Nat) (pieces : List (Nat × List Byte)) (s : State) :
    let u := pieces.foldl (fun s p => scratchWrite s w (a + p.1) p.2) s
    StoredOnly s u ∧ u.wicks = s.wicks ∧
      u.scratch = pieces.foldl (fun m p => cellWrite m (scratchAddr w a + p.1) p.2) s.scratch := by
  induction pieces generalizing s with
  | nil => exact ⟨rfl, rfl, rfl⟩
  | cons p r ih =>
    obtain ⟨honly, hwicks, hscratch⟩ := ih (scratchWrite s w (a + p.1) p.2)
    refine ⟨StoredOnly.trans (t := scratchWrite s w (a + p.1) p.2) rfl honly, hwicks, ?_⟩
    rw [List.foldl_cons, List.foldl_cons, hscratch, scratchWrite, scratchAddr, scratchAddr, Nat.add_assoc]

theorem spotOutput_stored (s : State) (w : Nat) : StoredOnly s (spotOutput s w) ∧
    (spotOutput s w).wicks = s.wicks ∧ (spotOutput s w).scratch = s.scratch := by
  unfold spotOutput
  split
  · split
    · exact ⟨rfl, rfl, rfl⟩
    · exact ⟨rfl, rfl, rfl⟩
  · exact ⟨rfl, rfl, rfl⟩

theorem storePieces_stored (w a : Nat) (pieces : List (Nat × List Byte)) (s : State) :
    StoredOnly s (storePieces w a pieces s) ∧ (∀ v, (storePieces w a pieces s).wick v = s.wick v) ∧
      (storePieces w a pieces s).scratch =
        pieces.foldl (fun m p => cellWrite m (scratchAddr w a + p.1) p.2) s.scratch := by
  obtain ⟨honly, hwicks, hscratch⟩ := scratchWrites_stored w a pieces s
  obtain ⟨honly', hwicks', hscratch'⟩ := spotOutput_stored (pieces.foldl (fun s p => scratchWrite s w (a + p.1) p.2) s) w
  refine ⟨honly.trans honly', fun v => ?_, hscratch'.trans hscratch⟩
  rw [State.wick, State.wick, storePieces, hwicks', hwicks]

theorem scratchStore_stores {c : Instr} {s : State} {w a n align : Nat} {pieces : List (Nat × List Byte)}
    {f g : Wick → Wick} (hnext : HasNext s w) (hc : exec c s = .next (scratchStore w a n align pieces g (issue s w)))
    (h : ScratchOk s w a n align true) (hn : 0 < n) (hapart : Apart pieces) (hpc : ∀ k, (g k).pc = k.pc)
    (hfg : ∀ y : W64, g { s.wick w with cycle := y } = f { s.wick w with cycle := y }) :
    StoresScratch c s w a pieces f := by
  obtain ⟨y, hy⟩ := wick_issue_self s w
  obtain ⟨hstored, hwick, hscratch⟩ := storePieces_stored w a pieces (issue s w)
  generalize hu : storePieces w a pieces (issue s w) = u at hstored hwick hscratch
  have hnext' : (u.wick w).pc < 4095 := by rw [hwick, hy]; exact hnext
  obtain ⟨honly, hw⟩ := wickDo_inside hpc hnext'
  refine ⟨wickDo w g u, ?_, ?_, fun v hv => ?_, ⟨y, ?_⟩, fun x => ?_⟩
  · rw [hc, scratchStore, scratchAccess_goesOn (scratchOk_issue h) hn, ← hu]; rfl
  · exact ((storedOnly_of_onlyWick (onlyWick_issue s w)).trans hstored).trans (storedOnly_of_onlyWick honly)
  · rw [honly.2 v hv, hwick, wick_issue, if_neg hv]
  · rw [hw, hwick, hy, hfg]
  · have hsame : (wickDo w g u).scratch = u.scratch := by rw [honly.1]
    rw [hsame, hscratch]
    exact cellGet_writePieces (scratchAddr w a) x hapart s.scratch

/-! ### Pieces that stand apart -/

theorem apart_singleton (p : Nat × List Byte) : Apart [p] := List.pairwise_singleton ..

/-- Pieces of `n` bytes at rising multiples of `n`. -/
theorem apart_map {α : Type} {l : List α} {n : Nat} (key : α → Nat) (val : α → List Byte)
    (hlen : ∀ a, (val a).length = n) (hkey : l.Pairwise (fun a b => key a < key b)) :
    Apart (l.map (fun a => (n * key a, val a))) := by
  refine List.pairwise_map.mpr (hkey.imp fun {a b} hab o ha hb => ?_)
  have hnext : n * (key a + 1) ≤ n * key b := Nat.mul_le_mul_left n hab
  obtain ⟨-, hend⟩ := ha
  obtain ⟨hstart, -⟩ := hb
  simp only [hlen] at hend hstart
  rw [Nat.mul_succ] at hnext
  omega

theorem pairwise_zip_left {α β : Type} {R : α → α → Prop} {l : List α} (h : l.Pairwise R) (m : List β) :
    (l.zip m).Pairwise (fun x y => R x.1 y.1) := by
  induction h generalizing m with
  | nil => simp
  | cons ha hr ih =>
    cases m with
    | nil => simp
    | cons b m =>
      rw [List.zip_cons_cons, List.pairwise_cons]
      exact ⟨fun e he => ha _ (List.of_mem_zip (a := e.1) (b := e.2) he).1, ih m⟩

theorem pairwise_filter_range (p : Nat → Bool) (n : Nat) : ((List.range n).filter p).Pairwise (· < ·) :=
  List.pairwise_lt_range.filter _

theorem apart_lanePieces (m : W16) (v : W512) : Apart (lanePieces m v) :=
  apart_map id _ (fun _ => length_leBytes ..) (pairwise_filter_range ..)

theorem apart_narrowStore (i : W32) (k : Wick) : Apart (narrowStore i k).1 :=
  apart_map Prod.fst _ (fun _ => length_leBytes ..) (pairwise_zip_left (pairwise_filter_range ..) _)

end Sys2Proof.Proofs
end
section
/-! PROOFS. Loads from scratch and stores to it (08 R230 to R235). -/
namespace Sys2Proof.Proofs
open Sys2Proof Machine Safety Laws

theorem f3Size_pos (i : W32) : 0 < f3Size i := Nat.two_pow_pos _

/-- The lanes that STN narrows do not depend on the count of cycles. -/
theorem narrowStore_withCycle (i : W32) (k : Wick) (y : W64) : narrowStore i { k with cycle := y } =
    ((narrowStore i k).1, { (narrowStore i k).2 with cycle := y }) := by
  unfold narrowStore
  generalize hon : (List.range 16).filter (fun l => (rdK k (wPK i)).getLsbD l) = on
  have hon' : (List.range 16).filter (fun l => (rdK { k with cycle := y } (wPK i)).getLsbD l) = on := hon
  have hlane (l : Nat) : laneAt (rdV { k with cycle := y } (wD i)) l = laneAt (rdV k (wD i)) l := rfl
  simp only [hon', hlane]
  rfl

/-- Settles O12: each row by its one access. -/
theorem scratchLoads : Obligations.ScratchLoads := by
  unfold Obligations.ScratchLoads
  intro s w i hnext
  obtain ⟨y, hy⟩ := wick_issue_self s w
  refine ⟨fun h hok => ?lds, fun h hok => ?ldv, fun h hok => ?ldsb⟩
  case lds =>
    refine completes_congr (scratchLoad_completes hnext ?_ hok (f3Size_pos i)
      (f := fun d k => wrS k (wD i) (extendLoad (f3Size i) (bit (wF3 i) 2) (leNat d))) (fun _ _ => wrS_pc ..)) (fun _ => ?_)
    · rw [exec_lds, execLds, wickRun_reaches h, hy]; rfl
    · rw [extendLoad_eq (f3Size_pos i)]; rfl
  case ldv =>
    refine scratchLoad_completes hnext ?_ hok (by decide) (f := fun d k => wrV k (wD i) (lineOf d)) (fun _ _ => wrV_pc ..)
    rw [exec_ldv, execLdv, wickRun_reaches h, hy]; rfl
  case ldsb =>
    refine scratchLoad_completes hnext ?_ hok (by split <;> decide) (unpackSb_pc _ _)
    rw [exec_ldsb, execLdsb, wickRun_reaches h, hy, ← eight_sbSize]; rfl

/-- Settles O13: each row by its one access and the pieces that it stores. -/
theorem scratchStores : Obligations.ScratchStores := by
  unfold Obligations.ScratchStores
  intro s w i hnext
  obtain ⟨y, hy⟩ := wick_issue_self s w
  refine ⟨fun h hok => ?sts, fun h hok => ?stv, fun h hok => ?stsb, fun h hspace hok => ?stn⟩
  case sts =>
    refine scratchStore_stores hnext ?_ hok (f3Size_pos i) (apart_singleton _) (fun _ => rfl) (fun _ => rfl)
    rw [exec_sts, execSts, wickRun_reaches h, hy]; rfl
  case stv =>
    refine scratchStore_stores hnext ?_ hok (by decide) (apart_lanePieces _ _) (fun _ => rfl) (fun _ => rfl)
    rw [exec_stv, execStv, wickRun_reaches h, hy]; rfl
  case stsb =>
    refine scratchStore_stores hnext ?_ hok (by split <;> decide) (apart_singleton _) (fun _ => rfl) (fun _ => rfl)
    rw [exec_stsb, execStsb, wickRun_reaches h, hy, ← eight_sbSize]; rfl
  case stn =>
    refine scratchStore_stores hnext ?_ hok ?_ (apart_narrowStore i _) (fun _ => rfl) (fun _ => rfl)
      (g := fun k => { k with flags := (narrowStore i (s.wick w)).2.flags, gen := (narrowStore i (s.wick w)).2.gen })
    · rw [exec_stn, execStn, wickRun_reaches h, hy]
      simp only [hspace, Bool.false_eq_true, if_false, narrowStore_withCycle]
      rfl
    · unfold narrowSize; split <;> decide

end Sys2Proof.Proofs
end
section
/-! PROOFS. What stops a wick: a misaligned access that passes the end of scratch (08 R230). -/
namespace Sys2Proof.Proofs
open Sys2Proof Machine Safety Laws

/-- R230 stops an access with XLATE_FAULT where its address has a bit of [63:17] set; a misaligned one below 128 KiB is an
ALIGN_ERROR, also where its last byte lies beyond. -/
theorem scratchAccess_misaligned {a align : Nat} (ha : a < Config.scratchBytes) (h : a % align ≠ 0) (w n : Nat)
    (writes : Bool) (go : State → State) (s : State) : scratchAccess w a n align writes go s = stopWick s w stAlign 0 a := by
  rw [scratchAccess, if_neg (by omega), if_pos h]

theorem execLds_misaligned {s : State} {w : Nat} {i : W32} (h : Reaches .lds s w i)
    (ha : memAddr (s.wick w) i (f3Size i) < Config.scratchBytes) (hbad : memAddr (s.wick w) i (f3Size i) % f3Size i ≠ 0) :
    exec (.lds w i) s = .next (stopWick (issue s w) w stAlign 0 (memAddr (s.wick w) i (f3Size i))) := by
  obtain ⟨y, hy⟩ := wick_issue_self s w
  rw [exec_lds, execLds, wickRun_reaches h, hy]
  exact congrArg _ (scratchAccess_misaligned ha hbad ..)

/-- LDS s2 of two bytes at s1. -/
def loadHalfWord : W32 := 0b000000000000_001_00001_00010_0010000

/-- Wick 0 is at that load, and s1 holds the address of the last byte of scratch. -/
def atLastByte : State :=
  { State.reset.setWick 0 (fun k => { k with state := .running, sreg := [(1, 131071)] }) with
    imem := cellWrite [] 0 (leBytes 4 loadHalfWord.toNat) }

/-- Refutes O14: two bytes at 131,071 pass 128 KiB, and the wick stops with ALIGN_ERROR, as R230 asks of a misaligned
access whose address has bits [63:17] zero. The statement asks for XLATE_FAULT of every access that passes 128 KiB,
misaligned ones too. -/
theorem not_wickStops : ¬ Obligations.WickStops := by
  unfold Obligations.WickStops
  intro h
  have hreach : Reaches .lds atLastByte 0 loadHalfWord :=
    ⟨by decide, by decide +kernel, by decide +kernel, by decide +kernel, by decide +kernel, by decide +kernel⟩
  obtain ⟨-, hlds, -⟩ := h atLastByte 0 loadHalfWord
  obtain ⟨t, ht, -, hstop, -⟩ := (hlds hreach).1 (by decide +kernel)
  rw [execLds_misaligned hreach (by decide +kernel) (by decide +kernel)] at ht
  rw [← Host.Outcome.next.inj ht, wick_stopWick, if_pos rfl] at hstop
  exact absurd hstop (by decide)

end Sys2Proof.Proofs
end
section
/-! SUPPORT. Accesses of a wick to the store that translate (08 R230, R231; 05 R128). -/
namespace Sys2Proof.Proofs
open Sys2Proof Machine Safety Laws

theorem storeAccess_translates {s u : State} {w a n sa : Nat} {use : Use} {writes : Bool} {leaf : Leaf}
    (h : Translates s w a n use writes u sa leaf) (failed : Status → State → State) (go : Nat → Leaf → State → State) :
    storeAccess w a n n use writes failed go s = go sa leaf u := by
  obtain ⟨ha, halign, htracked, base, hrun, rfl⟩ := h
  rw [storeAccess, if_neg (by omega), if_neg (by omega), if_neg (by simp [htracked]), hrun]

/-- A packet that its sliver port does not serve is sent, and the wick waits. -/
theorem sendWait_submits {s : State} {w : Nat} {p : Packet} (o : Origin) (own : List Byte → Wick → Wick)
    (h : ownSliver (s.setWick w (fun k => { k with wait := .response })) w p = none) :
    sendWait s w p o own = submit (s.setWick w (fun k => { k with wait := .response })) { pkt := p, origin := o } false := by
  simp only [sendWait, h]

theorem withCntsel_eq (k : Wick) (p : Packet) : withCntsel k p =
    { p with counter := k.cntsel.setWidth 17, cen := k.cntsel.getLsbD 17, cunit := k.cntsel.getLsbD 18 } := by
  rw [withCntsel, BitVec.setWidth_eq_extractLsb' (by decide)]

/-- A packet is posted with the counter fields of CNTSEL, the wick's registers change as `f` says, and it goes on. -/
def posted (u : State) (w : Nat) (p : Packet) (f : Wick → Wick) : State :=
  advance (sendPosted (spotOutput (u.setWick w f) w) w (withCntsel (u.wick w) p) false) w

/-- The WRITE_MASKED of a line's pieces. -/
def maskedWrite (u : State) (w sa : Nat) (leaf : Leaf) (pieces : List (Nat × List Byte)) : Packet :=
  wickPacket u w 2 leaf (sa / 64 * 64) 0
    (maskedPayload (linePayload (sa % 64) pieces).1 (linePayload (sa % 64) pieces).2)

/-- The read buffer after a store of a line's pieces. -/
def buffered (sa : Nat) (pieces : List (Nat × List Byte)) (k : Wick) : Wick :=
  bufStore k (sa / 64) (linePayload (sa % 64) pieces).1 (linePayload (sa % 64) pieces).2

theorem postMasked_posts {s u : State} {w a n sa : Nat} {leaf : Leaf}
    (h : Translates s w a n .write true u sa leaf) (pieces : List (Nat × List Byte)) :
    postMasked w a n pieces s = posted u w (maskedWrite u w sa leaf pieces) (buffered sa pieces) :=
  storeAccess_translates h ..

end Sys2Proof.Proofs
end
section
/-! PROOFS. Loads from the store (08 R231; 06 R165, R177). -/
namespace Sys2Proof.Proofs
open Sys2Proof Machine Safety Laws

/-- A load that neither the sliver port nor the read buffer serves sends a READ of its line and waits. A load-acquire
asks the buffer nothing. -/
theorem loadStore_sends {s u : State} {w a n sa : Nat} {leaf : Leaf} {acquire : Bool}
    (h : Translates s w a n .read false u sa leaf)
    (hmiss : acquire = true ∨ (u.wick w).buf.find? (fun e => e.1 = sa / 64) = none)
    (hsliver : ownSliver u w (wickPacket u w 0 leaf (sa / 64 * 64) 64 []) = none)
    (o : Nat → Origin) (set : List Byte → Wick → Wick) :
    loadStore w a n acquire o set s = submit (u.setWick w (fun k => { k with wait := .response }))
      { pkt := wickPacket u w 0 leaf (sa / 64 * 64) 64 [], origin := o (sa % 64) } false := by
  have hbuf : (if ((ownSliver u w (wickPacket u w 0 leaf (sa / 64 * 64) 64 [])).isSome || acquire) = true then none
      else (u.wick w).buf.find? (fun e => e.1 = sa / 64)) = none := by
    rcases hmiss with rfl | hnone
    · rw [Bool.or_true, if_pos rfl]
    · rw [hnone, ite_self]
  rw [loadStore, storeAccess_translates h]
  simp only [hbuf]
  exact sendWait_submits _ _ hsliver

/-- Settles O15: the three loads by the one access that they make. -/
theorem storeLoads : Obligations.StoreLoads := by
  unfold Obligations.StoreLoads
  intro s u w sa i leaf
  obtain ⟨y, hy⟩ := wick_issue_self s w
  refine ⟨fun h htrans hmiss hsliver => ?ldm, fun h htrans hsliver => ?lda, fun h htrans hmiss hsliver => ?ldmv⟩
  case ldm =>
    rw [exec_ldm, execLdm, wickRun_reaches h, hy]
    exact congrArg _ (loadStore_sends htrans (.inr hmiss) hsliver ..)
  case lda =>
    rw [exec_lda, execLda, wickRun_reaches h, hy]
    exact congrArg _ (loadStore_sends htrans (.inl rfl) hsliver ..)
  case ldmv =>
    rw [exec_ldmv, execLdmv, wickRun_reaches h, hy]
    exact congrArg _ (loadStore_sends htrans (.inr hmiss) hsliver ..)

end Sys2Proof.Proofs
end
section
/-! PROOFS. Posted stores (08 R231, R232, R234, R236). -/
namespace Sys2Proof.Proofs
open Sys2Proof Machine Safety Laws

/-! ### A posted store that fails its translation -/

/-- MSTAT keeps the first status, and notes that there was a further one (R236). -/
theorem noteMstat_mstat (k : Wick) (st : Status) :
    if k.mstat.toNat % 256 = 0 then
      (noteMstat k st).mstat.toNat % 256 = st.toNat ∧ (noteMstat k st).mstat.getLsbD 8 = k.mstat.getLsbD 8
    else (noteMstat k st).mstat.toNat % 256 = k.mstat.toNat % 256 ∧ (noteMstat k st).mstat.getLsbD 8 = true := by
  have hlow (v : BitVec 9) : v.toNat % 256 = (v.setWidth 8).toNat := (BitVec.toNat_setWidth 8 v).symm
  have hmore : (0x100 : BitVec 9).setWidth 8 = 0#8 := rfl
  unfold noteMstat
  split
  · have hst : (st.setWidth 9).setWidth 8 = st := by simp
    refine ⟨?_, ?_⟩
    · rw [hlow, BitVec.setWidth_or, BitVec.setWidth_and, hmore, BitVec.and_zero, BitVec.zero_or, hst]
    · have hbit : (0x100 : BitVec 9).getLsbD 8 = true := rfl
      have hnot : (st.setWidth 9).getLsbD 8 = false := by simp
      rw [BitVec.getLsbD_or, BitVec.getLsbD_and, hbit, hnot, Bool.and_true, Bool.or_false]
  · refine ⟨?_, ?_⟩
    · rw [hlow, hlow, BitVec.setWidth_or, hmore, BitVec.or_zero]
    · have hbit : (0x100 : BitVec 9).getLsbD 8 = true := rfl
      rw [BitVec.getLsbD_or, hbit, Bool.or_true]

theorem noteMstat_eq (k : Wick) (st : Status) : noteMstat k st = { k with mstat := (noteMstat k st).mstat } := by
  unfold noteMstat; split <;> rfl

theorem noteFence_eq (s : State) (w ord : Nat) (st : Status) : ∃ x, noteFence s w ord st = { s with xbar := x } := by
  unfold noteFence
  split
  · split
    · exact ⟨_, rfl⟩
    · exact ⟨_, rfl⟩
  · exact ⟨_, rfl⟩

/-- A posted store that fails notes its status and goes on; all memory is as before. -/
theorem postedFailed_goesOn {s : State} {w : Nat} (hnext : HasNext s w) (st : Status) : ∃ x,
    OnlyWick { s with xbar := x } (postedFailed w st s) w ∧
      (postedFailed w st s).wick w = { noteMstat (s.wick w) st with pc := (s.wick w).pc + 1 } := by
  obtain ⟨x, hx⟩ := noteFence_eq (s.setXbar (fun x => { x with issued := x.issued + 1 })) w s.xbar.issued st
  have hfailed : postedFailed w st s = wickDo w (fun k => noteMstat k st) { s with xbar := x } := by
    rw [postedFailed, hx]; rfl
  rw [hfailed]
  exact ⟨x, wickDo_inside (s := { s with xbar := x }) (fun k => by rw [noteMstat_eq]) hnext⟩

/-! ### The rows -/

section
variable {s u : State} {w sa : Nat} {i : W32} {leaf : Leaf}

theorem execStm_posts (h : Reaches .stm s w i)
    (htrans : Translates (issue s w) w (memAddr (s.wick w) i (f3Size i)) (f3Size i) .write true u sa leaf) :
    let word := [(0, leBytes (f3Size i) (rdS (s.wick w) (wD i)).toNat)]
    exec (.stm w i) s = .next (posted u w (maskedWrite u w sa leaf word) (buffered sa word)) := by
  obtain ⟨y, hy⟩ := wick_issue_self s w
  rw [exec_stm, execStm, wickRun_reaches h, hy]
  exact congrArg _ (postMasked_posts htrans _)

/-- STMV without a mask sends its whole row. -/
theorem execStmv_posts_row (h : Reaches .stmv s w i)
    (htrans : Translates (issue s w) w (memAddr (s.wick w) i 64) 64 .write true u sa leaf) (hall : wF3 i = 0) :
    let row := bytesOf (rdV (u.wick w) (wD i))
    exec (.stmv w i) s = .next (posted u w (wickPacket u w 1 leaf sa 0 row)
      (fun k => bufStore k (sa / 64) row (List.replicate 64 true))) := by
  obtain ⟨y, hy⟩ := wick_issue_self s w
  rw [exec_stmv, execStmv, wickRun_reaches h, hy]
  simp only [hall, ne_eq, not_true_eq_false, if_false]
  exact congrArg _ (storeAccess_translates htrans _ _)

theorem execStmv_posts_lanes (h : Reaches .stmv s w i)
    (htrans : Translates (issue s w) w (memAddr (s.wick w) i 64) 64 .write true u sa leaf) (hmask : wF3 i ≠ 0) :
    let lanes := lanePieces (rdK (s.wick w) (wF3 i)) (rdV (s.wick w) (wD i))
    exec (.stmv w i) s = .next (posted u w (maskedWrite u w sa leaf lanes) (buffered sa lanes)) := by
  obtain ⟨y, hy⟩ := wick_issue_self s w
  rw [exec_stmv, execStmv, wickRun_reaches h, hy]
  simp only [hmask, ne_eq, not_false_eq_true, if_true]
  exact congrArg _ (postMasked_posts htrans _)

theorem execStn_posts (h : Reaches .stn s w i) (hstore : bit (wFN i) 5 = true)
    (htrans : Translates (issue s w) w (rdS (s.wick w) (wA i)).toNat (16 * narrowSize (bits (wFN i) 0 3)) .write true
      u sa leaf) :
    let y := narrowStore i (s.wick w)
    exec (.stn w i) s = .next (posted u w (maskedWrite u w sa leaf y.1)
      (fun k => buffered sa y.1 { k with flags := y.2.flags, gen := y.2.gen })) := by
  obtain ⟨y, hy⟩ := wick_issue_self s w
  rw [exec_stn, execStn, wickRun_reaches h, hy]
  simp only [hstore, if_true, narrowStore_withCycle]
  exact congrArg _ (storeAccess_translates htrans _ _)

theorem execVacc_posts (h : Reaches .vacc s w i)
    (htrans : Translates (issue s w) w (rdS (s.wick w) (wA i)).toNat 64 .accum true u sa leaf) :
    exec (.vacc w i) s = .next (posted u w
      (wickPacket u w 3 leaf sa (bits (wFN i) 0 3 + 16 * b2n (bit (wFN i) 3)) (bytesOf (rdV (u.wick w) (wD i))))
      (fun k => bufDrop k (sa / 64))) := by
  obtain ⟨y, hy⟩ := wick_issue_self s w
  rw [exec_vacc, execVacc, wickRun_reaches h, hy]
  exact congrArg _ (storeAccess_translates htrans _ _)

end

/-- Settles O16: the four posted stores by the packet that they send, then the one that fails. -/
theorem postedStores : Obligations.PostedStores := by
  unfold Obligations.PostedStores
  intro s u w sa i leaf
  have hposted (p : Packet) (f : Wick → Wick) : posted u w p f = advance (sendPosted (spotOutput (u.setWick w f) w) w
      { p with counter := (u.wick w).cntsel.setWidth 17, cen := (u.wick w).cntsel.getLsbD 17,
               cunit := (u.wick w).cntsel.getLsbD 18 } false) w := by rw [posted, withCntsel_eq]
  refine ⟨fun h htrans => (execStm_posts h htrans).trans (congrArg _ (hposted ..)), fun h htrans => ?stmv,
    fun h hstore htrans => (execStn_posts h hstore htrans).trans (congrArg _ (hposted ..)),
    fun h htrans => (execVacc_posts h htrans).trans (congrArg _ (hposted ..)), fun st hnext => ?failed⟩
  case stmv =>
    by_cases hall : wF3 i = 0
    · rw [if_pos hall]
      exact (execStmv_posts_row h htrans hall).trans (congrArg _ (hposted ..))
    · rw [if_neg hall]
      exact (execStmv_posts_lanes h htrans hall).trans (congrArg _ (hposted ..))
  case failed =>
    obtain ⟨x, ⟨honly, -⟩, hwick⟩ := postedFailed_goesOn hnext st
    have hcells : (postedFailed w st s).store.cells = s.store.cells := by rw [honly]
    have hscratch : (postedFailed w st s).scratch = s.scratch := by rw [honly]
    have hres : (postedFailed w st s).reservoir = s.reservoir := by rw [honly]
    dsimp only
    rw [hwick]
    exact ⟨rfl, by rw [noteMstat_eq], noteMstat_mstat (s.wick w) st, hcells, hscratch, hres⟩

end Sys2Proof.Proofs
end
section
/-! PROOFS. Atomics and store-releases (08 R233, R252; 06 R176). -/
namespace Sys2Proof.Proofs
open Sys2Proof Machine Safety Laws

/-! ### Releases (R252) -/

theorem release_waits {s : State} {w : Nat} (h : wickOpen s w = true) (wait : WWait) (go : State → State) :
    release s w wait go = s.setWick w (fun k => { k with wait := wait }) := if_pos h

theorem releaseNow_performs {s : State} {w : Nat} (hbad : (takeFence s w).1 = 0) (go : State → State) :
    releaseNow s w go = go (takeFence s w).2 := if_neg (not_not.mpr hbad)

theorem release_performs {s : State} {w : Nat} (h : wickOpen s w = false) (hbad : (takeFence s w).1 = 0) (wait : WWait)
    (go : State → State) : release s w wait go = go (takeFence s w).2 := by
  rw [release, if_neg (by simp [h]), releaseNow_performs hbad]

/-- Settles O17: AMO by the packet that it sends, STR by its release. -/
theorem atomicsAndReleases : Obligations.AtomicsAndReleases := by
  unfold Obligations.AtomicsAndReleases
  intro s u w sa i leaf
  obtain ⟨y, hy⟩ := wick_issue_self s w
  refine ⟨fun h htrans hsliver => ?amo, fun h htrans => ⟨fun hopen => ?waits, fun hclosed hbad => ?sends⟩⟩
  case amo =>
    rw [exec_amo, execAmo, wickRun_reaches h, hy]
    exact congrArg _ ((storeAccess_translates htrans _ _).trans (sendWait_submits _ _ hsliver))
  case waits =>
    rw [exec_str, execStr, wickRun_reaches h, hy]
    exact congrArg _ ((storeAccess_translates htrans _ _).trans (release_waits hopen _ _))
  case sends =>
    rw [exec_str, execStr, wickRun_reaches h, hy]
    exact congrArg _ ((storeAccess_translates htrans _ _).trans (release_performs hclosed hbad _ _))

end Sys2Proof.Proofs
end
section
/-! PROOFS. Transfers that a wick issues (08 R247 to R249). -/
namespace Sys2Proof.Proofs
open Sys2Proof Machine Safety Laws

/-- A transfer that neither the tracker nor its channel holds enters the channel, tracked, and the wick goes on. -/
theorem issueMove_enters {s u : State} {w : Nat} {src dst : Range} {x : Xfer} {start : State → Xfer → Option State}
    (hfree : (s.wick w).track.length < 16 ∧ channelFull s x.eng = false ∧ tracked (s.wick w) src false = false ∧
      tracked (s.wick w) dst true = false)
    (hstart : start (s.setWick w (fun k => { k with track := k.track ++ [⟨x.id, src, dst⟩] }))
      { x with wick := some w, handle := some (s.wick w).handle } = some u) :
    issueMove s w src dst x start = advance (spotOutput u w) w := by
  obtain ⟨hroom, hchannel, hsrc, hdst⟩ := hfree
  rw [issueMove, if_neg (by simp [hchannel, hsrc, hdst, hroom])]
  simp only [hstart]

/-- Settles O18: every check of MVT and of MVX passes, and the transfer enters. -/
theorem moverIssue : Obligations.MoverIssue := by
  unfold Obligations.MoverIssue
  intro s w i v k a b p n d t ch toScr unit src dst free enters
  refine ⟨fun h hscratch hspace hsconce hgranted hsrc hdst hfree u hu => ?mvt,
    fun h hgranted hrsvd hpos hmax htarget hend ha hb hn hfree u hu => ?mvx⟩
  case mvt =>
    rw [exec_mvt, execMvt, wickRun_reaches h]
    refine congrArg _ ((scratchAccess_goesOn hscratch (by decide) _).trans ?_)
    have hform : ¬ (t.space ≠ 0 ∨ t.dwick / 64 ≠ w / 64 ∨ (!channelGranted v w ch) = true) := by
      simp [hspace, hsconce, hgranted]
    have haligned : ¬ (t.src % elemAlign t.sf ≠ 0 ∨ t.daddr % 16 ≠ 0) := by simp [hsrc, hdst]
    exact (if_neg hform).trans ((if_neg haligned).trans (issueMove_enters hfree hu))
  case mvx =>
    rw [exec_mvx, execMvx, wickRun_reaches h]
    have hform : ¬ ((!channelGranted v w ch) = true ∨ bits p 40 24 ≠ 0 ∨ n = 0 ∨ 65536 < n ∨
        (toScr = true ∧ (bits b 17 12 / 64 ≠ w / 64 ∨ 2 ^ 29 ≤ b)) ∨
        ((!toScr) = true ∧ bit (wFN i) 4 = true ∧ (!accumOk (bits p 36 3 + 16 * bits p 39 1)) = true)) := by
      rintro (hc | hc | hc | hc | ⟨hto, hc⟩ | ⟨hto, hacc, hc⟩)
      · simp [hgranted] at hc
      · exact hc hrsvd
      · omega
      · omega
      · rw [if_pos hto] at htarget
        omega
      · rw [if_neg (by simpa using hto)] at htarget
        simp [htarget.2 hacc] at hc
    have hstore : ¬ ((!toScr) = true ∧ 2 ^ 57 ≤ b) := by
      rintro ⟨hto, hc⟩
      rw [if_neg (by simpa using hto)] at htarget
      omega
    have hfits : ¬ (toScr = true ∧ 131072 < bits b 0 17 + n) := by
      rintro ⟨hto, hc⟩
      rw [if_pos hto] at htarget
      omega
    have hunits : ¬ (b % unit ≠ 0 ∨ n % unit ≠ 0) := by omega
    exact congrArg _ ((if_neg hform).trans ((if_neg (by omega : ¬ 131072 ≤ a)).trans ((if_neg hstore).trans
      ((if_neg (by omega : ¬ a % 16 ≠ 0)).trans ((if_neg hunits).trans ((if_neg (by omega : ¬ 131072 < a + n)).trans
        ((if_neg hfits).trans (issueMove_enters hfree hu))))))))

end Sys2Proof.Proofs
end
section
/-! PROOFS. Waits on counters (08 R250; 06 R172, R177). -/
namespace Sys2Proof.Proofs
open Sys2Proof Machine Safety Laws

/-! ### How a CWAIT ends -/

/-- What a CWAIT that goes on does to its wick's registers: a counter that was reached is an acquire. -/
def endCwait (d : Nat) (reached : Bool) (k : Wick) : Wick :=
  let k := wrS { k with wait := .none } d (if reached then 1 else 0)
  { k with buf := if reached then [] else k.buf }

theorem endCwait_eq (d : Nat) (reached : Bool) (k : Wick) : endCwait d reached k =
    { wrS { k with wait := .none } d (if reached then 1 else 0) with buf := if reached then [] else k.buf } := by
  rw [endCwait, wrS_buf]

theorem cwaitDone_eq (s : State) (w d : Nat) (reached : Bool) :
    cwaitDone s w d reached = wickDo w (endCwait d reached) (dropWait s (.wick w)) := by
  cases reached <;> rfl

/-- The wick's wait has ended: it goes on, no other wick changes, and nothing else but the waits that are held. -/
def CwaitEnds (s t : State) (w d : Nat) (reached : Bool) : Prop :=
  t = { s with wicks := t.wicks, free := t.free, sync := t.sync } ∧ t.sync = { s.sync with waits := t.sync.waits } ∧
    (∀ v, v ≠ w → t.wick v = s.wick v) ∧ ∃ c : W64, t.wick w =
      { wrS { s.wick w with cycle := c, wait := .none } d (if reached then 1 else 0) with
        pc := (s.wick w).pc + 1, buf := if reached then [] else (s.wick w).buf }

theorem onlyWick_exists {s t : State} {w : Nat} (h : OnlyWick s t w) : ∃ a b, t = { s with wicks := a, free := b } :=
  ⟨_, _, h.1⟩

/-- A wick whose registers, but for its cycles, are those of `s` ends its wait. -/
theorem cwaitDone_ends {s u : State} {w : Nat} {c : W64} (hnext : HasNext s w) (honly : OnlyWick s u w)
    (hwick : u.wick w = { s.wick w with cycle := c }) (d : Nat) (reached : Bool) :
    CwaitEnds s (cwaitDone u w d reached) w d reached := by
  have hinside : ((dropWait u (.wick w)).wick w).pc < 4095 := by
    rw [show (dropWait u (.wick w)).wick w = u.wick w from rfl, hwick]; exact hnext
  obtain ⟨hrest, hdone⟩ := wickDo_inside (f := endCwait d reached) (s := dropWait u (.wick w)) (w := w)
    (fun k => by rw [endCwait, wrS_pc]) hinside
  obtain ⟨wicks, free, ht⟩ := onlyWick_exists hrest
  obtain ⟨wicks', free', hu⟩ := onlyWick_exists honly
  rw [cwaitDone_eq]
  refine ⟨by rw [ht, hu]; rfl, by rw [ht, hu]; rfl, fun v hne => (hrest.2 v hne).trans (honly.2 v hne), c, ?_⟩
  rw [hdone, show (dropWait u (.wick w)).wick w = u.wick w from rfl, hwick, endCwait_eq]

/-! ### Commands that end one -/

theorem wickTarget_reached {s : State} {w id d : Nat} {loc : Bool} {target : W64} (hrun : (s.wick w).state = .running)
    (hwait : (s.wick w).wait = .counter loc id target d) (habort : waitAborted s loc id = false)
    (hle : target ≤ wickCounter s w loc id) : wickTarget s w = cwaitDone s w d true := by
  simp only [wickTarget, hwait, hrun, habort, hle, ne_eq, not_true_eq_false, if_false, if_true, Bool.false_eq_true]

theorem cwaitBound_passes {s : State} {w id d : Nat} {loc : Bool} {target : W64} (hw : w < Config.wicks)
    (hrun : (s.wick w).state = .running) (hwait : (s.wick w).wait = .counter loc id target d)
    (hbound : rdS (s.wick w) d ≠ 0)
    (hlt : ¬ target ≤ wickCounter s w loc id) : execCwaitBound w s = .next (cwaitDone s w d false) := by
  have hok : wickOk w = true := decide_eq_true hw
  simp only [execCwaitBound, hok, onOk, hwait, hrun, hbound, hlt, ne_eq, not_false_eq_true, true_and, if_true]

/-! ### The row of CWAIT -/

section
variable {s : State} {w : Nat} {i : W32}

theorem execCwait_reached (h : Reaches .cwait s w i)
    (habort : waitAborted s (bit (wFN i) 4) ((rdS (s.wick w) (wA i)).toNat % 2 ^ 17) = false)
    (hle : rdS (s.wick w) (wB i) ≤ wickCounter s w (bit (wFN i) 4) ((rdS (s.wick w) (wA i)).toNat % 2 ^ 17)) :
    exec (.cwait w i) s = .next (cwaitDone (issue s w) w (wD i) true) := by
  obtain ⟨y, hy⟩ := wick_issue_self s w
  rw [exec_cwait, execCwait, wickRun_reaches h, hy]
  exact congrArg _ ((if_neg (by rw [Bool.not_eq_true]; exact habort)).trans (if_pos hle))

theorem execCwait_waits (h : Reaches .cwait s w i)
    (habort : waitAborted s (bit (wFN i) 4) ((rdS (s.wick w) (wA i)).toNat % 2 ^ 17) = false)
    (hlt : ¬ rdS (s.wick w) (wB i) ≤ wickCounter s w (bit (wFN i) 4) ((rdS (s.wick w) (wA i)).toNat % 2 ^ 17)) :
    let id := (rdS (s.wick w) (wA i)).toNat % 2 ^ 17
    let target := rdS (s.wick w) (wB i)
    exec (.cwait w i) s = .next (addWait
      ((issue s w).setWick w (fun k => { k with wait := .counter (bit (wFN i) 4) id target (wD i) }))
      (.wick w, id, bit (wFN i) 4, target)) := by
  obtain ⟨y, hy⟩ := wick_issue_self s w
  rw [exec_cwait, execCwait, wickRun_reaches h, hy]
  exact congrArg _ ((if_neg (by rw [Bool.not_eq_true]; exact habort)).trans (if_neg hlt))

end

/-- Settles O19: the two ways of CWAIT, the two ends of a wait, and CREAD. -/
theorem counterWaits : Obligations.CounterWaits := by
  unfold Obligations.CounterWaits
  intro s w i hnext k loc id value goesOn
  obtain ⟨y, hy⟩ := wick_issue_self s w
  refine ⟨fun h habort => ⟨fun hle => ?reached, fun hlt => ?waits⟩,
    fun loc id target d hw hwait hrun => ⟨fun habort hle => ?target, fun hbound hlt => ?bound⟩, fun h => ?cread⟩
  case reached =>
    exact ⟨_, execCwait_reached h habort hle, cwaitDone_ends hnext (onlyWick_issue s w) hy ..⟩
  case waits =>
    refine ⟨_, execCwait_waits h habort hlt, ?_, ?_, List.mem_append_right _ (List.mem_singleton.mpr rfl)⟩
    all_goals
      rw [show ∀ u e, (addWait u e).wick w = u.wick w from fun _ _ => rfl, wick_setWick, if_pos rfl, hy]
  case target =>
    refine ⟨_, ?_, cwaitDone_ends hnext ⟨rfl, fun _ _ => rfl⟩ (c := k.cycle) rfl d true⟩
    have hok : (Waiter.wick w).ok = true := decide_eq_true hw
    rw [exec_counterTargetReached, execCounterTargetReached, onOk, if_pos hok]
    exact congrArg (fun t => Host.Outcome.next (settle t)) (wickTarget_reached hrun hwait habort hle)
  case bound =>
    exact ⟨_, cwaitBound_passes hw hrun hwait hbound hlt,
      cwaitDone_ends hnext ⟨rfl, fun _ _ => rfl⟩ (c := k.cycle) rfl d false⟩
  case cread =>
    exact completes_of_next hnext ((exec_cread ..).trans (wickRun_reaches h _)) (fun k => wrS_pc ..) (fun _ => rfl)

end Sys2Proof.Proofs
end
section
/-! PROOFS. Releases by message, fences and acquires of a wick with nothing open (08 R250 to R252; 06 R172 to R176). -/
namespace Sys2Proof.Proofs
open Sys2Proof Machine Safety Laws

/-! ### A fence that finds no failure -/

theorem takeFence_ok {s : State} {w : Nat} (h : tfind s.xbar.fenceBad w = none) : (takeFence s w).1 = 0 := by
  rw [takeFence, h]; rfl

/-- With none of its packets open and no failure to report, a release of the wick is performed at once. -/
theorem release_quiet {s : State} {w : Nat} (hclosed : wickOpen s w = false) (hbad : tfind s.xbar.fenceBad w = none)
    (wait : WWait) (go : State → State) : release s w wait go = go (takeFence s w).2 :=
  release_performs hclosed (takeFence_ok hbad) wait go

/-- A wait ends with a value in sD. -/
def wakeWith (d : Nat) (v : W64) (k : Wick) : Wick := wrS { k with wait := .none } d v

theorem wakeWith_eq (d : Nat) (v : W64) (k : Wick) : wakeWith d v k = { wrS k d v with wait := .none } := by
  rw [wakeWith, wrS, wrS]
  split <;> rfl

theorem fenceDone_eq (s : State) (w d : Nat) : fenceDone s w d =
    wickDo w (wakeWith d ((takeFence s w).1.setWidth 64)) (takeFence s w).2 := rfl

/-- A fence ends: its status is in sD and the wick goes on. -/
theorem fenceDone_goesOn {s : State} {w : Nat} (hpc : (s.wick w).pc < 4095) (d : Nat) :
    ((fenceDone s w d).wick w).pc = (s.wick w).pc + 1 ∧ ∀ n, rdS ((fenceDone s w d).wick w) n =
      if n ≠ 0 ∧ n = d then (takeFence s w).1.setWidth 64 else rdS (s.wick w) n := by
  obtain ⟨-, hwick⟩ := wickDo_inside (f := wakeWith d ((takeFence s w).1.setWidth 64)) (s := (takeFence s w).2)
    (fun _ => wrS_pc ..) hpc
  rw [fenceDone_eq, hwick]
  refine ⟨rfl, fun n => (rdS_wrS ..).trans ?_⟩
  by_cases hn : n = 0
  · rw [if_pos hn, if_neg (fun h => h.1 hn), hn]; rfl
  · rw [if_neg hn]
    simp only [hn, ne_eq, not_false_eq_true, true_and]
    rfl

/-! ### The fields of a CNT_ADD -/

section
variable {m : CtlMsg} {id : Nat} {v : W64}

/-- The bytes of a message hold the counter and, above it, the value. -/
theorem cfld_id (hbody : m.body = BitVec.ofNat 192 (id + 2 ^ 32 * v.toNat)) (hid : id < 2 ^ 32) : cfld m 8 4 = id := by
  rw [cfld, hbody, bits_ofNat _ (by decide), bits_zero]
  omega

theorem cfld_value (hbody : m.body = BitVec.ofNat 192 (id + 2 ^ 32 * v.toNat)) (hid : id < 2 ^ 32) :
    BitVec.ofNat 64 (cfld m 12 8) = v := by
  have hbits : bits (id + 2 ^ 32 * v.toNat) 32 64 = v.toNat := by
    rw [bits]
    omega
  rw [cfld, hbody, bits_ofNat _ (by decide), hbits, BitVec.ofNat_toNat, BitVec.setWidth_eq]

end

/-! ### CADD -/

/-- The wick goes on from a CADD before its addition is sent. -/
def caddReady (s : State) (w : Nat) : State := advance (spotOutput (s.setWick w (fun k => { k with wait := .none })) w) w

theorem caddReady_stored {s : State} {w : Nat} (hpc : (s.wick w).pc < 4095) :
    StoredOnly s (caddReady s w) ∧ ((caddReady s w).wick w).pc = (s.wick w).pc + 1 := by
  obtain ⟨honly, hwicks, -⟩ := spotOutput_stored (s.setWick w (fun k => { k with wait := .none })) w
  have hwick : (spotOutput (s.setWick w (fun k => { k with wait := .none })) w).wick w =
      { s.wick w with wait := .none } := by
    rw [State.wick, hwicks, ← State.wick, wick_setWick, if_pos rfl]
  have hready : caddReady s w = (spotOutput (s.setWick w (fun k => { k with wait := .none })) w).setWick w
      (fun k => { k with pc := (s.wick w).pc + 1 }) := by
    rw [caddReady, advance_inside (by rw [hwick]; exact hpc), hwick]
  rw [hready]
  exact ⟨StoredOnly.trans (StoredOnly.trans (t := s.setWick w _) rfl honly) rfl, by rw [wick_setWick, if_pos rfl]⟩

theorem performCadd_local {s : State} {w : Nat} {m : CtlMsg} (hpc : (s.wick w).pc < 4095) (htag : m.tag = 1)
    (hid : cfld m 8 4 < 1024) (howner : sconceOwner s (w / 64) = (s.wick w).part) :
    performCadd s w m = localAdd (caddReady s w) (w / 64) (cfld m 8 4) (BitVec.ofNat 64 (cfld m 12 8)) := by
  have hwork : (caddReady s w).work = s.work := (caddReady_stored hpc).1.work
  have hsame : ¬ sconceOwner (caddReady s w) (w / 64) ≠ (s.wick w).part := by
    rw [sconceOwner, hwork]; exact not_not.mpr howner
  simp only [performCadd]
  rw [if_pos htag, if_neg (by omega)]
  exact if_neg hsame

theorem wick_setXbar (s : State) (f : Xbar → Xbar) (w : Nat) : (s.setXbar f).wick w = s.wick w := rfl

theorem performCadd_sends {s : State} {w : Nat} {m : CtlMsg} (hpc : (s.wick w).pc < 4095) (htag : m.tag ≠ 1) :
    ∃ u, (u.wick w).pc = (s.wick w).pc + 1 ∧ u.sync = s.sync ∧ performCadd s w m =
      sendCntAdd u m.dst (s.wick w).part (cfld m 8 4) (BitVec.ofNat 64 (cfld m 12 8)) (.wickCadd w s.xbar.issued) := by
  obtain ⟨hstored, hgoes⟩ := caddReady_stored hpc
  refine ⟨(caddReady s w).setXbar (fun x => { x with issued := x.issued + 1 }), ?_, ?_, ?_⟩
  · rw [wick_setXbar, hgoes]
  · rw [setXbar_sync, hstored.sync]
  · rw [← hstored.xbar]
    simp only [performCadd, if_neg htag, caddReady]

theorem wick_localAdd (s : State) (sc n : Nat) (v : W64) (w : Nat) : (localAdd s sc n v).wick w = s.wick w :=
  (localAdd_logsOnly s sc n v).wick w

/-- What a local CADD leaves: the wick goes on, and one local counter has grown. -/
theorem localAdd_caddReady {s : State} {w : Nat} (hpc : (s.wick w).pc < 4095) (sc : Nat) {id : Nat} (hid : id < 1024)
    (v : W64) : ((localAdd (caddReady s w) sc id v).wick w).pc = (s.wick w).pc + 1 ∧
      ∀ b n, n < 1024 → localGet (localAdd (caddReady s w) sc id v) b n =
        if b = sc ∧ n = id then localGet s b n + v else localGet s b n := by
  obtain ⟨hstored, hnext⟩ := caddReady_stored hpc
  refine ⟨?_, fun b n hn => ?_⟩
  · rw [wick_localAdd, hnext]
  · have hsync : (caddReady s w).sync = s.sync := by rw [hstored]
    rw [localGet_localAdd _ _ hn hid, localGet, hsync]
    rfl

section
variable {s : State} {w : Nat} {i : W32}

/-- The message of a CADD. -/
def caddMsg (s : State) (w : Nat) (i : W32) : CtlMsg :=
  let k := s.wick w
  let a := (rdS k (wA i)).toNat
  { mkCtl s 4 (BitVec.ofNat 10 (bits a 17 10)) k.part (a % 2 ^ 17 + 2 ^ 32 * (rdS k (wB i)).toNat) with
    tag := if bit (wFN i) 4 then 1 else 0 }

theorem caddMsg_issue (s : State) (w : Nat) (i : W32) : caddMsg (issue s w) w i = caddMsg s w i := by
  obtain ⟨y, hy⟩ := wick_issue_self s w
  rw [caddMsg, hy]
  rfl

theorem cfld_caddMsg_id (s : State) (w : Nat) (i : W32) :
    cfld (caddMsg s w i) 8 4 = (rdS (s.wick w) (wA i)).toNat % 2 ^ 17 :=
  cfld_id (m := caddMsg s w i) rfl (by omega)

theorem cfld_caddMsg_value (s : State) (w : Nat) (i : W32) :
    BitVec.ofNat 64 (cfld (caddMsg s w i) 12 8) = rdS (s.wick w) (wB i) :=
  cfld_value (m := caddMsg s w i) rfl (by omega)

/-- The wick once it has issued and its fence has found nothing. -/
def fenced (s : State) (w : Nat) : State := (takeFence (issue s w) w).2

theorem wick_fenced (s : State) (w : Nat) : ∃ y : W64, (fenced s w).wick w = { s.wick w with cycle := y } :=
  wick_issue_self s w

theorem execCadd_quiet (h : Reaches .cadd s w i) (hclosed : wickOpen (issue s w) w = false)
    (hbad : tfind s.xbar.fenceBad w = none) :
    exec (.cadd w i) s = .next (performCadd (fenced s w) w (caddMsg s w i)) := by
  have hctype : (caddMsg (issue s w) w i).ctype = 4 := rfl
  rw [exec_cadd, execCadd, wickRun_reaches h, ← caddMsg_issue]
  exact congrArg _ ((release_quiet hclosed hbad _ _).trans (if_pos hctype))

/-- SEMOP is performed at once, whether it is a release or not. -/
theorem execSemop_quiet (h : Reaches .semop s w i) (hclosed : wickOpen (issue s w) w = false)
    (hbad : tfind s.xbar.fenceBad w = none) :
    let a := (rdS (s.wick w) (wA i)).toNat
    ∃ u, exec (.semop w i) s = .next (performSem u w (wD i)
      (mkCtl (issue s w) 5 (BitVec.ofNat 10 (bits a 15 10)) (s.wick w).part
        (a % 2 ^ 15 + 2 ^ 32 * bits (wFN i) 4 3 + 2 ^ 64 * (rdS (s.wick w) (wB i)).toNat))) ∧ u.sync = s.sync := by
  obtain ⟨y, hy⟩ := wick_issue_self s w
  have hctype (dst part body) : ¬ (mkCtl (issue s w) 5 dst part body).ctype = 4 :=
    (by decide : ¬ BitVec.ofNat 4 5 = 4)
  rw [exec_semop, execSemop, wickRun_reaches h, hy]
  by_cases hrelease : (bits (wFN i) 4 3 == 1 || bits (wFN i) 4 3 == 4) = true
  · exact ⟨fenced s w, congrArg _ ((if_pos hrelease).trans ((release_quiet hclosed hbad _ _).trans
      (if_neg (hctype _ _ _)))), rfl⟩
  · exact ⟨issue s w, congrArg _ ((if_neg hrelease).trans (if_neg (hctype _ _ _))), rfl⟩

end

/-- Settles O20: each command by what it performs once its fence, if it has one, finds nothing. -/
theorem releasesFencesAcquires : Obligations.ReleasesFencesAcquires := by
  unfold Obligations.ReleasesFencesAcquires
  intro s w i hnext k a quiet
  obtain ⟨y, hy⟩ := wick_fenced s w
  have hpc : ((fenced s w).wick w).pc < 4095 := by rw [hy]; exact hnext
  refine ⟨fun h hq hloc hid howner => ?here, fun h hq hloc => ?there, fun h hq => execSemop_quiet h hq.1 hq.2,
    fun h hq => ?fence, fun d hw hrun hclosed hwait => ?complete,
    fun h => completes_of_reaches hnext h rfl (fun _ => rfl) (fun _ => rfl), fun h htrack => ?mwait⟩
  case here =>
    have htag : (caddMsg s w i).tag = 1 := if_pos hloc
    have howner' : sconceOwner (fenced s w) (w / 64) = ((fenced s w).wick w).part := by rw [hy]; exact howner
    refine ⟨_, execCadd_quiet h hq.1 hq.2, ?_⟩
    rw [performCadd_local hpc htag (by rw [cfld_caddMsg_id]; exact hid) howner', cfld_caddMsg_id, cfld_caddMsg_value]
    obtain ⟨hgoes, hgrown⟩ := localAdd_caddReady hpc (w / 64) hid (rdS k (wB i))
    exact ⟨by rw [hgoes, hy], hgrown⟩
  case there =>
    have htag : (caddMsg s w i).tag ≠ 1 := by
      rw [show (caddMsg s w i).tag = 0 from if_neg (by simp [hloc])]; decide
    obtain ⟨u, hgoes, hsync, hsent⟩ := performCadd_sends hpc htag
    refine ⟨u, _, execCadd_quiet h hq.1 hq.2, by rw [hgoes, hy], hsync, hsent.trans ?_⟩
    rw [cfld_caddMsg_id, cfld_caddMsg_value, hy]
    rfl
  case fence =>
    obtain ⟨hgoes, hregs⟩ := fenceDone_goesOn (s := issue s w) hpc (wD i)
    refine ⟨_, ((exec_wickFence ..).trans (wickRun_reaches h _)).trans (congrArg _ (if_neg (by simp [hq.1]))), ?_⟩
    obtain ⟨y, hy⟩ := wick_issue_self s w
    rw [hgoes, hy]
    refine ⟨rfl, fun n => (hregs n).trans ?_⟩
    rw [takeFence_ok (s := issue s w) hq.2, hy]
    by_cases hn : n = 0
    · rw [if_neg (fun hc => hc.1 hn), hn]
      exact (ite_self _).symm
    · simp only [hn, ne_eq, not_false_eq_true, true_and]
      rfl
  case complete =>
    have hok : (Engine.wick w).ok = true := decide_eq_true hw
    have hready : ¬ (wickOpen s w || (s.wick w).state != .running) = true := by
      simp [hclosed, show (s.wick w).state = _ from hrun]
    refine ⟨fenceDone s w d, ?_, fenceDone_goesOn hnext d⟩
    rw [exec_fenceComplete, execFenceComplete, onOk, if_pos hok]
    simp only [if_neg hready, show (s.wick w).wait = _ from hwait]
  case mwait =>
    obtain ⟨y, hy⟩ := wick_issue_self s w
    have hidle : ((issue s w).wick w).track = [] := by rw [hy]; exact htrack
    have hexec : exec (.mwait w i) s = .next (mwaitDone (issue s w) w (wD i)) :=
      ((exec_mwait ..).trans (wickRun_reaches h _)).trans (congrArg _ (if_pos hidle))
    exact completes_of_next (g := fun k => wakeWith (wD i) (BitVec.ofNat 64 (k.mstat.toNat % 256)) k) hnext hexec
      (fun _ => wrS_pc ..) (fun _ => wakeWith_eq ..)

end Sys2Proof.Proofs
end
section
/-! SUPPORT. The step that a wick runs is set when the step starts and by nothing that follows from a command by itself
(09 R276). Logs, moves and messages. -/
namespace Sys2Proof.Proofs
open Sys2Proof Machine Safety Laws

/-- The step that each wick runs. -/
def stepNumbers (s : State) (w : Nat) : W32 := (s.wick w).step

/-! ### Updates of the state -/

section
variable {s t : State}

theorem stepNumbers_congr (h : t.wicks = s.wicks) : stepNumbers t = stepNumbers s := by
  funext w; rw [stepNumbers, stepNumbers, State.wick, State.wick, h]

theorem LogsOnly.stepNumbers (h : LogsOnly s t) : stepNumbers t = stepNumbers s := stepNumbers_congr h.wicks

theorem stepNumbers_setWick {f : Wick → Wick} (h : ∀ k, (f k).step = k.step) (s : State) (w : Nat) :
    stepNumbers (s.setWick w f) = stepNumbers s := by
  funext v
  rw [stepNumbers, stepNumbers, wick_setWick]
  split
  · next e => rw [h, e]
  · rfl

variable (s)

@[simp] theorem stepNumbers_setReg (k : Nat) (v : W64) : stepNumbers (s.setReg k v) = stepNumbers s := rfl
@[simp] theorem stepNumbers_setHost (f : HostLink → HostLink) : stepNumbers (s.setHost f) = stepNumbers s := rfl
@[simp] theorem stepNumbers_setPort (n : Nat) (f : Port → Port) : stepNumbers (s.setPort n f) = stepNumbers s := rfl
@[simp] theorem stepNumbers_setXbar (f : Xbar → Xbar) : stepNumbers (s.setXbar f) = stepNumbers s := rfl
@[simp] theorem stepNumbers_setSync (f : Sync → Sync) : stepNumbers (s.setSync f) = stepNumbers s := rfl
@[simp] theorem stepNumbers_setStore (f : Store → Store) : stepNumbers (s.setStore f) = stepNumbers s := rfl
@[simp] theorem stepNumbers_setXlt (f : Xlt → Xlt) : stepNumbers (s.setXlt f) = stepNumbers s := rfl
@[simp] theorem stepNumbers_setWork (f : Work → Work) : stepNumbers (s.setWork f) = stepNumbers s := rfl
@[simp] theorem stepNumbers_setQueue (q : Nat) (f : Queue → Queue) : stepNumbers (s.setQueue q f) = stepNumbers s := rfl
@[simp] theorem stepNumbers_setDir (f : Directory → Directory) : stepNumbers (s.setDir f) = stepNumbers s := rfl
@[simp] theorem stepNumbers_setPlan (h : Nat) (f : Plan → Plan) : stepNumbers (s.setPlan h f) = stepNumbers s := rfl
@[simp] theorem stepNumbers_emit (o : Out) : stepNumbers (emit s o) = stepNumbers s := rfl
@[simp] theorem stepNumbers_draw : stepNumbers (draw s).2 = stepNumbers s := rfl
@[simp] theorem stepNumbers_bump (k width n : Nat) : stepNumbers (bump s k width n) = stepNumbers s :=
  (bump_logsOnly s k width n).stepNumbers
@[simp] theorem stepNumbers_logRecord (p : Nat) (f : Fail) : stepNumbers (logRecord s p f) = stepNumbers s :=
  (logRecord_logsOnly s p f).stepNumbers
@[simp] theorem stepNumbers_logErr (p b : Nat) (f : Fail) : stepNumbers (logErr s p b f) = stepNumbers s :=
  (logErr_logsOnly s p b f).stepNumbers
@[simp] theorem stepNumbers_logEvt (p b : Nat) : stepNumbers (logEvt s p b) = stepNumbers s :=
  (logEvt_logsOnly s p b).stepNumbers
@[simp] theorem stepNumbers_sendCtl (m : CtlMsg) : stepNumbers (sendCtl s m) = stepNumbers s :=
  stepNumbers_congr (by rw [(sendCtl_sentOnly s m).1])
@[simp] theorem stepNumbers_raiseNoRoute (a : BitVec 10) : stepNumbers (raiseNoRoute s a) = stepNumbers s :=
  stepNumbers_congr (by rw [(raiseNoRoute_sentOnly s a).1])

end

/-- An operation over a list leaves what its step leaves. -/
theorem stepNumbers_foldl {α : Type} {f : State → α → State} (h : ∀ s a, stepNumbers (f s a) = stepNumbers s)
    (l : List α) (s : State) : stepNumbers (l.foldl f s) = stepNumbers s := by
  induction l generalizing s with
  | nil => rfl
  | cons a l ih => rw [List.foldl_cons, ih, h]

theorem stepNumbers_foldl_pair {α β : Type} {f : β × State → α → β × State}
    (h : ∀ x a, stepNumbers (f x a).2 = stepNumbers x.2) (l : List α) (x : β × State) :
    stepNumbers (l.foldl f x).2 = stepNumbers x.2 := by
  induction l generalizing x with
  | nil => rfl
  | cons a l ih => rw [List.foldl_cons, ih, h]

end Sys2Proof.Proofs
end
section
/-! SUPPORT. Packets, messages and the placement engine start no step of a wick (02 R39 to R49; 05 R127 to R155). -/
namespace Sys2Proof.Proofs
open Sys2Proof Machine Safety Laws

theorem ServiceOnly.stepNumbers {s t : State} (h : ServiceOnly s t) : stepNumbers t = stepNumbers s :=
  stepNumbers_congr (by rw [h])

section
variable (s : State)

/-! ### Sending -/

@[simp] theorem stepNumbers_portSend (n : Nat) (p : Packet) : stepNumbers (portSend s n p) = stepNumbers s := by
  simp only [portSend]; split <;> simp
@[simp] theorem stepNumbers_transmit (p : Packet) : stepNumbers (transmit s p) = stepNumbers s := by
  unfold transmit; split <;> simp
@[simp] theorem stepNumbers_setTx (a : BitVec 10) (f : TxStream → TxStream) :
    stepNumbers (setTx s a f) = stepNumbers s := stepNumbers_setXbar ..
@[simp] theorem stepNumbers_launch (p : Packet) (o : Origin) : stepNumbers (launch s p o) = stepNumbers s := by
  simp [launch]
@[simp] theorem stepNumbers_sendNew (p : Packet) (o : Origin) : stepNumbers (sendNew s p o) = stepNumbers s := by
  simp only [sendNew]; split <;> simp
@[simp] theorem stepNumbers_launchCtl (m : CtlMsg) (o : Origin) : stepNumbers (launchCtl s m o) = stepNumbers s := by
  simp [launchCtl]
@[simp] theorem stepNumbers_answer (p : Packet) (st : Status) (d : List Byte) :
    stepNumbers (answer s p st d) = stepNumbers s := by
  unfold answer; split <;> simp
@[simp] theorem stepNumbers_markSeq (p : Packet) (v : SeqState) : stepNumbers (markSeq s p v) = stepNumbers s := by
  unfold markSeq; split
  · rfl
  · exact stepNumbers_setXbar ..
@[simp] theorem stepNumbers_finishPeer (p : Packet) (st : Status) (d : List Byte) :
    stepNumbers (finishPeer s p st d) = stepNumbers s := by
  simp [finishPeer]

/-! ### Blocks and lines of the home -/

@[simp] theorem stepNumbers_blockSet (b : Nat) (f : Block → Block) : stepNumbers (blockSet s b f) = stepNumbers s := rfl
@[simp] theorem stepNumbers_placeSet (l : Loc) (v : Option Nat) : stepNumbers (placeSet s l v) = stepNumbers s := by
  unfold placeSet; split <;> simp
@[simp] theorem stepNumbers_countAccess (b : Nat) : stepNumbers (countAccess s b) = stepNumbers s :=
  (countAccess_countsOnly s b).service.stepNumbers
@[simp] theorem stepNumbers_lineWrite (k : BitVec 12) (l : Nat) (v : W512) :
    stepNumbers (lineWrite s k l v) = stepNumbers s :=
  (clearBad_serviceOnly (lineStore s l _) l).stepNumbers
@[simp] theorem stepNumbers_lineMerge (k : BitVec 12) (l : Nat) (d : List Byte) (m : List Bool) :
    stepNumbers (lineMerge s k l d m) = stepNumbers s :=
  (lineMerge_serviceOnly ..).stepNumbers
@[simp] theorem stepNumbers_homeWrite (k : BitVec 12) (off : Nat) (d : List Byte) :
    stepNumbers (homeWrite s k off d) = stepNumbers s :=
  (homeWrite_serviceOnly ..).stepNumbers
@[simp] theorem stepNumbers_clearForfeits (ls : List Nat) : stepNumbers (clearForfeits s ls) = stepNumbers s :=
  (clearForfeits_serviceOnly ..).stepNumbers
@[simp] theorem stepNumbers_staleShadow (b : Nat) : stepNumbers (staleShadow s b) = stepNumbers s :=
  (staleShadow_serviceOnly ..).stepNumbers
@[simp] theorem stepNumbers_genSet (k : Nat) (g : W32) : stepNumbers (genSet s k g) = stepNumbers s := rfl
@[simp] theorem stepNumbers_hubAdd (k : Nat) (v : W64) : stepNumbers (hubAdd s k v) = stepNumbers s := by
  simp [hubAdd, hubSet]
@[simp] theorem stepNumbers_ownerFault (part : BitVec 6) (a : Option (BitVec 10)) (id : Nat) :
    stepNumbers (ownerFault s part a id) = stepNumbers s := stepNumbers_logErr ..
@[simp] theorem stepNumbers_writeShadow (b : Nat) : stepNumbers (writeShadow s b) = stepNumbers s := by
  unfold writeShadow; split <;> rfl
@[simp] theorem stepNumbers_setFlashFree (n : Nat) : stepNumbers (setFlashFree s n) = stepNumbers s := by
  simp [setFlashFree, apply_ite stepNumbers]
@[simp] theorem stepNumbers_applyData (t : Target) (ps : List Packet) (off : Nat) :
    stepNumbers (applyData s t ps off).2 = stepNumbers s := by
  unfold applyData
  split
  · rfl
  · simp only
    split
    · rfl
    · simp
    · simp
    · simp [apply_ite stepNumbers]
    · simp

end

end Sys2Proof.Proofs
end
section
/-! SUPPORT. The placement engine starts no step of a wick (02 R39 to R49). -/
namespace Sys2Proof.Proofs
open Sys2Proof Machine Safety Laws

section
variable (s : State)

@[simp] theorem stepNumbers_addMove (m : Move) : stepNumbers (addMove s m) = stepNumbers s := rfl
@[simp] theorem stepNumbers_bumpBusy : stepNumbers (bumpBusy s) = stepNumbers s := stepNumbers_bump ..
@[simp] theorem stepNumbers_dropMove (b : Nat) : stepNumbers (dropMove s b) = stepNumbers s := rfl
@[simp] theorem stepNumbers_adviceDone (q : Nat) (tag : W32) (b : Nat) (st : Status) :
    stepNumbers (adviceDone s q tag b st) = stepNumbers s := rfl

@[simp] theorem stepNumbers_sweepVictim (tier b cnt : Nat) :
    stepNumbers (sweepVictim s tier b cnt).2 = stepNumbers s := by
  simp only [sweepVictim]; split <;> rfl

@[simp] theorem stepNumbers_roomInCapacity (b cnt rank : Nat) (why : MoveWhy) (need : Bool) :
    stepNumbers (roomInCapacity s b cnt rank why need).2 = stepNumbers s := by
  have hsweep := stepNumbers_sweepVictim s 1 b cnt
  unfold roomInCapacity
  split
  · rfl
  · split <;> simp_all

@[simp] theorem stepNumbers_roomInStacked (b cnt rank : Nat) (why : MoveWhy) (wick : Option Nat) (need : Bool) :
    stepNumbers (roomInStacked s b cnt rank why wick need).2 = stepNumbers s := by
  have hsweep := stepNumbers_sweepVictim s 0 b cnt
  unfold roomInStacked
  split
  · rfl
  · split
    · rfl
    · split
      · next v l t heq =>
        have hroom := stepNumbers_roomInCapacity t v (counterOf t v) rank why false
        split <;> simp_all
      · simp_all

@[simp] theorem stepNumbers_startMove (b tier : Nat) (wick : Option Nat) (rank : Nat) (why : MoveWhy) :
    stepNumbers (startMove s b tier wick rank why).2 = stepNumbers s := by
  have hroom (full : Bool) : stepNumbers (if tier = 0 then roomInStacked s b (counterOf s b) rank why wick full
      else roomInCapacity s b (counterOf s b) rank why full).2 = stepNumbers s := by
    simp [apply_ite Prod.snd, apply_ite stepNumbers]
  simp only [startMove]
  split
  · simp [apply_ite Prod.snd, apply_ite stepNumbers]
  · split
    · rfl
    · split
      · rfl
      · split
        · next heq =>
          have hsame := (congrArg (fun x => stepNumbers x.2) heq).symm.trans (hroom _)
          split <;> simp [apply_ite Prod.snd, apply_ite stepNumbers, ← hsame]
        · next heq =>
          have hsame := (congrArg (fun x => stepNumbers x.2) heq).symm.trans (hroom _)
          simp [apply_ite stepNumbers, ← hsame]

@[simp] theorem stepNumbers_pinBlock (b : Nat) : stepNumbers (pinBlock s b).2 = stepNumbers s := by
  simp only [pinBlock]; split
  · rfl
  · split <;> rfl

@[simp] theorem stepNumbers_tellAdvice (rank b : Nat) (st : Status) (q : Nat) (tag : W32) :
    stepNumbers (tellAdvice s rank b st q tag) = stepNumbers s := by
  unfold tellAdvice
  split
  · exact stepNumbers_pinBlock s b
  · rfl

@[simp] theorem stepNumbers_tellMove (m : Move) (st : Status) : stepNumbers (tellMove s m st) = stepNumbers s := by
  simp only [tellMove]
  rw [stepNumbers_foldl (fun s e => stepNumbers_tellAdvice s ..)]
  split <;> simp

@[simp] theorem stepNumbers_cancelMove (m : Move) : stepNumbers (cancelMove s m) = stepNumbers s := by
  simp [cancelMove, apply_ite stepNumbers]

@[simp] theorem stepNumbers_requestMove (b tier : Nat) (wick : Option Nat) (rank : Nat) (why : MoveWhy) :
    stepNumbers (requestMove s b tier wick rank why).2 = stepNumbers s := by
  simp only [requestMove, apply_ite Prod.snd, apply_ite stepNumbers, stepNumbers_bumpBusy, ite_self]
  cases pendingMove s b <;> simp [apply_ite Prod.snd, apply_ite stepNumbers]

@[simp] theorem stepNumbers_retryWaiting : stepNumbers (retryWaiting s) = stepNumbers s := by
  unfold retryWaiting
  refine (stepNumbers_foldl (fun s m => ?_) _ _).trans rfl
  have h := stepNumbers_requestMove s m.block (tierOf m.dst) m.wick m.rank m.why
  simp only
  split <;> simp_all

@[simp] theorem stepNumbers_flipMove (m : Move) : stepNumbers (flipMove s m) = stepNumbers s := by
  simp [flipMove, apply_ite stepNumbers]

@[simp] theorem stepNumbers_finishMove (m : Move) : stepNumbers (finishMove s m) = stepNumbers s := by
  simp [finishMove]

end

/-- What is left of a promotion once the block's earlier move is out of the way. -/
theorem stepNumbers_promoted {u t : State} {b : Nat} {ms : State → List Move}
    (h : (if tierOf (blockGet u b).loc ≠ 2 then some u
      else match requestMove u b 1 none 0 .demand with
        | (some st, t) => if st = 0 then some t else none
        | (none, t) => some ((ms t).foldl (fun t m => finishMove (flipMove t m) { m with flipped := true }) t)) = some t) :
    stepNumbers t = stepNumbers u := by
  have hmove := stepNumbers_requestMove u b 1 none 0 .demand
  split at h
  · rw [Option.some.inj h]
  · split at h
    · next heq =>
      rw [heq] at hmove
      split at h
      · rw [← Option.some.inj h, hmove]
      · exact absurd h (by simp)
    · next heq =>
      rw [heq] at hmove
      rw [← Option.some.inj h, stepNumbers_foldl (fun t m => by simp), hmove]

theorem stepNumbers_promoteNow {s t : State} {b : Nat} (h : promoteNow s b = some t) : stepNumbers t = stepNumbers s := by
  rw [stepNumbers_promoted h]
  split
  · simp [apply_ite stepNumbers]
  · rfl

end Sys2Proof.Proofs
end
section
/-! SUPPORT. Responses start no step of a wick, and neither do requests at their home (05 R127 to R155; 13 R366 to R376). -/
namespace Sys2Proof.Proofs
open Sys2Proof Machine Safety Laws

/-! ### Wicks -/

section
variable (s : State)

@[simp] theorem wrS_step (k : Wick) (d : Nat) (v : W64) : (wrS k d v).step = k.step := by rw [wrS_eq]
@[simp] theorem noteMstat_step (k : Wick) (st : Status) : (noteMstat k st).step = k.step := by rw [noteMstat_eq]
@[simp] theorem bufInsert_step (k : Wick) (l : Nat) (v : W512) : (bufInsert k l v).step = k.step := by
  simp only [bufInsert]

@[simp] theorem stepNumbers_haltWick (w : Nat) (st : Status) : stepNumbers (haltWick s w st) = stepNumbers s :=
  stepNumbers_setWick (by intro k; rfl) ..

@[simp] theorem stepNumbers_advance (w : Nat) : stepNumbers (advance s w) = stepNumbers s := by
  rw [advance, goTo]
  split
  · exact stepNumbers_setWick (by intro k; rfl) ..
  · simp [stopAtPc, stopWick]

theorem stepNumbers_wickDo {f : Wick → Wick} (h : ∀ k, (f k).step = k.step) (w : Nat) :
    stepNumbers (wickDo w f s) = stepNumbers s := by
  rw [wickDo, stepNumbers_advance, stepNumbers_setWick h]

theorem stepNumbers_wickGot {f : Wick → Wick} (h : ∀ k, (f k).step = k.step) (w : Nat) :
    stepNumbers (wickGot s w f) = stepNumbers s := by
  unfold wickGot
  split
  · rw [stepNumbers_advance, stepNumbers_setWick (by intro k; exact h _)]
  · rfl

@[simp] theorem stepNumbers_wickFailed (w : Nat) (st : Status) : stepNumbers (wickFailed s w st) = stepNumbers s := by
  simp [wickFailed, apply_ite stepNumbers]

@[simp] theorem stepNumbers_stopRunning (w : Nat) (st : Status) : stepNumbers (stopRunning s w st) = stepNumbers s := by
  simp [stopRunning, apply_ite stepNumbers]

@[simp] theorem stepNumbers_noteFence (w ord : Nat) (st : Status) : stepNumbers (noteFence s w ord st) = stepNumbers s := by
  obtain ⟨x, hx⟩ := noteFence_eq s w ord st
  rw [hx]; rfl

/-! ### Faults -/

@[simp] theorem stepNumbers_noteFault (dst : BitVec 10) (part : BitVec 6) (k : Nat) (st : Status) :
    stepNumbers (noteFault s dst part k st) = stepNumbers s := by
  simp [noteFault, apply_ite stepNumbers]

theorem setErrOnly_logsOnly (p b : Nat) (f : Fail) : LogsOnly s (setErrOnly s p b f) := by
  simp only [setErrOnly]
  refine withVectors_logsOnly p _ s ?_
  have hbits := (setReg_logsOnly s (rk p 0x20) (regGet s (rk p 0x20) ||| BitVec.ofNat 64 (2 ^ b))).trans
    (bumpSat_logsOnly _ (rk p 0x40) 32 1)
  split
  · exact hbits.trans ((setReg_logsOnly _ _ _).trans (setReg_logsOnly _ _ _))
  · exact hbits

@[simp] theorem stepNumbers_setErrOnly (p b : Nat) (f : Fail) : stepNumbers (setErrOnly s p b f) = stepNumbers s :=
  (setErrOnly_logsOnly s p b f).stepNumbers

@[simp] theorem stepNumbers_logStageWith (f : Fail) (off : Nat) (t : Target) (st : Status) :
    stepNumbers (logStageWith s f off t st) = stepNumbers s := by
  simp [logStageWith, apply_ite stepNumbers]

@[simp] theorem stepNumbers_logStage (p : Packet) (off : Nat) (t : Target) (st : Status) :
    stepNumbers (logStage s p off t st) = stepNumbers s := stepNumbers_logStageWith ..

/-! ### Responses -/

@[simp] theorem stepNumbers_noteXfer (id : Nat) (st : Status) : stepNumbers (noteXfer s id st) = stepNumbers s := rfl

@[simp] theorem stepNumbers_ingressRecord (p : Packet) (st : Status) (recorded : Bool) :
    stepNumbers (ingressRecord s p st recorded) = stepNumbers s := by
  simp [ingressRecord, apply_ite stepNumbers]

@[simp] theorem stepNumbers_joinDone (j i : Nat) (st : Status) (d : List Byte) (recorded : Bool) :
    stepNumbers (joinDone s j i st d recorded) = stepNumbers s := by
  unfold joinDone
  split
  · rfl
  · simp only
    split <;> simp

@[simp] theorem stepNumbers_hostWriteFails (f : Fail) (recorded : Bool) :
    stepNumbers (hostWriteFails s f recorded) = stepNumbers s := by
  rw [hostWriteFails, stepNumbers_bump]
  split <;> simp [apply_ite stepNumbers]

@[simp] theorem stepNumbers_deliver (o : Origin) (p : Packet) (st : Status) (data : List Byte) (recorded : Bool) :
    stepNumbers (deliver s o p st data recorded) = stepNumbers s := by
  cases o with
  | peer q => exact stepNumbers_finishPeer ..
  | ingress q => exact (stepNumbers_finishPeer ..).trans (stepNumbers_ingressRecord ..)
  | part j i => exact (stepNumbers_joinDone ..).trans (stepNumbers_ingressRecord ..)
  | hostRead a => change stepNumbers (ite (st = 0) _ _) = _; split <;> simp
  | hostWrite a => refine (stepNumbers_emit ..).trans ?_; split <;> simp
  | forwardRead len skip => change stepNumbers (ite (st = 0) _ _) = _; split <;> simp
  | forwardWrite => exact stepNumbers_ingressRecord ..
  | wickLoad w d size off sext acquire =>
    change stepNumbers (ite (st = 0) _ _) = _
    split
    · exact stepNumbers_wickGot s (fun k => by split <;> simp) w
    · simp
  | wickVLoad w d =>
    change stepNumbers (ite (st = 0) _ _) = _
    split
    · exact stepNumbers_wickGot s (fun k => by simp [wrV]) w
    · simp
  | wickAmo w d size =>
    change stepNumbers (ite (st = 0) _ _) = _
    split
    · exact stepNumbers_wickGot s (fun k => by simp) w
    · simp
  | wickPosted w ord stop =>
    change stepNumbers (ite (st = 0) _ (ite (stop = true) (ite _ _ _) _)) = _
    split
    · rfl
    · split
      · split <;> simp
      · rw [stepNumbers_setWick (fun k => noteMstat_step k st), stepNumbers_noteFence]
  | _ => rfl

end

end Sys2Proof.Proofs
end
section
/-! SUPPORT. Completions and the directory start no step of a wick (05 R149 to R155; 13 R366 to R376). -/
namespace Sys2Proof.Proofs
open Sys2Proof Machine Safety Laws

section
variable (s : State)

/-! ### Completions at the home -/

@[simp] theorem stepNumbers_noteInflight (off : Nat) (up : Bool) : stepNumbers (noteInflight s off up) = stepNumbers s := rfl

@[simp] theorem stepNumbers_completeHome (r : Req) (off : Nat) (data : List Byte) :
    stepNumbers (completeHome s r off data) = stepNumbers s := by
  simp [completeHome, apply_ite stepNumbers]

@[simp] theorem stepNumbers_failHome (r : Req) (off : Nat) (st : Status) :
    stepNumbers (failHome s r off st) = stepNumbers s := by
  simp [failHome]

@[simp] theorem stepNumbers_completeGroup (rs : List (Req × List Byte)) (off : Nat) :
    stepNumbers (completeGroup s rs off) = stepNumbers s := by
  unfold completeGroup
  split
  · rfl
  · extract_lets peers logged
    have hlogged : stepNumbers logged = stepNumbers s := by
      dsimp only [logged]
      split <;> simp [apply_ite stepNumbers]
    split
    · rw [stepNumbers_foldl (fun s e => by simp), hlogged]
    · rw [stepNumbers_foldl (fun s a => stepNumbers_foldl (fun s e => by simp) _ _)]
      exact hlogged

@[simp] theorem stepNumbers_twinDone (id : Nat) (p : Packet) (st : Status) :
    stepNumbers (twinDone s id p st) = stepNumbers s := by
  unfold twinDone
  split
  · rfl
  · extract_lets dead toRebuild noted t rest closed
    have hnoted : stepNumbers noted = stepNumbers s := by
      dsimp only [noted]
      split
      · rfl
      · split
        · split <;> simp
        · rfl
    split
    · rw [stepNumbers_foldl (fun s e => by simp [apply_ite stepNumbers])]
      exact hnoted
    · exact hnoted

/-! ### Entries of the directory -/

@[simp] theorem stepNumbers_putEntry (l : Nat) (e : DirEntry) : stepNumbers (putEntry s l e) = stepNumbers s := rfl
@[simp] theorem stepNumbers_setEntry (l : Nat) (f : DirEntry → DirEntry) : stepNumbers (setEntry s l f) = stepNumbers s := rfl
@[simp] theorem stepNumbers_addTxn (t : DirTxn) : stepNumbers (addTxn s t) = stepNumbers s := rfl
@[simp] theorem stepNumbers_waitDir (r : Req) (off : Nat) : stepNumbers (waitDir s r off) = stepNumbers s := rfl

@[simp] theorem stepNumbers_forfeitLine (l : Nat) (a : BitVec 10) : stepNumbers (forfeitLine s l a) = stepNumbers s := by
  simp [forfeitLine, apply_ite stepNumbers]

@[simp] theorem stepNumbers_twinLines (p : Packet) (l : Nat) : stepNumbers (twinLines s p l) = stepNumbers s := by
  simp only [twinLines]
  split
  · rfl
  · exact stepNumbers_foldl (fun s a => by simp) _ _

@[simp] theorem stepNumbers_dirtyWrite (l : Nat) (v : W512) : stepNumbers (dirtyWrite s l v) = stepNumbers s := by
  have hpromoted : stepNumbers ((promoteNow s (l / 1024)).getD s) = stepNumbers s := by
    cases h : promoteNow s (l / 1024) with
    | none => rfl
    | some t => exact stepNumbers_promoteNow h
  simp [dirtyWrite, apply_ite stepNumbers, hpromoted]

@[simp] theorem stepNumbers_hostSnoop (p : Packet) : stepNumbers (hostSnoop s p) = stepNumbers s := by
  simp [hostSnoop, apply_ite stepNumbers]

@[simp] theorem stepNumbers_sendSnoop (l : Nat) (a : BitVec 10) (inv : Bool) (part : BitVec 6) :
    stepNumbers (sendSnoop s l a inv part) = stepNumbers s := by
  simp [sendSnoop, apply_ite stepNumbers]

@[simp] theorem stepNumbers_markBusy (l : Nat) (b : Bool) : stepNumbers (markBusy s l b) = stepNumbers s := by
  simp [markBusy, apply_ite stepNumbers]

@[simp] theorem stepNumbers_takeWay (a : Nat × Option Nat × Nat) : stepNumbers (takeWay s a).2 = stepNumbers s := by
  simp only [takeWay]
  split
  · rfl
  · rw [stepNumbers_foldl (fun s x => by simp)]
    simp [apply_ite stepNumbers]

@[simp] theorem stepNumbers_depositHint (p : Packet) (l : Nat) : stepNumbers (depositHint s p l) = stepNumbers s := by
  unfold depositHint
  split
  · rfl
  · split
    · split
      · rfl
      · split
        · simp
        · split
          · rfl
          · have htaken := stepNumbers_takeWay s
            simp [htaken]
    · rfl

@[simp] theorem stepNumbers_sweepEntry (a : BitVec 10) (remove : Bool) (l : Nat) :
    stepNumbers (sweepEntry s a remove l) = stepNumbers s := by
  simp [sweepEntry, apply_ite stepNumbers]

@[simp] theorem stepNumbers_sweepAfter (ls : List Nat) (own : Bool) : stepNumbers (sweepAfter s ls own) = stepNumbers s := by
  unfold sweepAfter
  split
  · split
    · rfl
    · exact stepNumbers_foldl (fun s l => by simp) _ _
  · rfl

/-! ### Transactions -/

@[simp] theorem stepNumbers_finishReq (t : DirTxn) (r : Req) (off : Nat) :
    stepNumbers (finishReq s t r off) = stepNumbers s := by
  unfold finishReq
  extract_lets p rq win cls reads written buffered lost st settleLine tgt
  have hsettle (ok : Bool) (s : State) (l : Nat) : stepNumbers (settleLine ok s l) = stepNumbers s := stepNumbers_putEntry ..
  have hwritten : stepNumbers written = stepNumbers s :=
    stepNumbers_foldl (fun s d => by simp [apply_ite stepNumbers]) _ _
  split
  · rw [stepNumbers_failHome, stepNumbers_logStage, stepNumbers_foldl (hsettle false), hwritten]
  · next counted _ =>
    have hcounted : stepNumbers counted = stepNumbers s :=
      (stepNumbers_foldl (fun s b => stepNumbers_countAccess s b) _ _).trans hwritten
    split
    next data applied heq =>
    have happlied : stepNumbers applied = stepNumbers s :=
      (congrArg (fun x => stepNumbers x.2) heq).symm.trans (by simp [apply_ite Prod.snd, apply_ite stepNumbers, hcounted])
    extract_lets fresh settled completed
    have hcompleted : stepNumbers completed = stepNumbers s := by
      rw [stepNumbers_completeGroup, stepNumbers_foldl (hsettle true), ← happlied]
      dsimp only [fresh]
      split
      · rfl
      · exact stepNumbers_foldl (fun s b => stepNumbers_staleShadow s b) _ _
    split
    · exact hcompleted
    · rw [stepNumbers_foldl (fun s l => stepNumbers_depositHint s p l), hcompleted]

@[simp] theorem stepNumbers_finishTxn (t : DirTxn) : stepNumbers (finishTxn s t) = stepNumbers s := by
  unfold finishTxn
  extract_lets closed invalid left ended
  have hleft : stepNumbers left = stepNumbers s := by
    refine (stepNumbers_foldl (fun s a => ?_) _ _).trans rfl
    split
    · split <;> simp
    · rfl
  have hended : stepNumbers ended = stepNumbers s := by
    rw [← hleft]
    dsimp only [ended]
    split
    · simp
    · split
      · exact stepNumbers_foldl (fun s l => by simp [apply_ite stepNumbers]) _ _
      · exact stepNumbers_foldl (fun s l => by split <;> simp) _ _
  rw [stepNumbers_sweepAfter, hended]

@[simp] theorem stepNumbers_cohStart (r : Req) (off : Nat) : stepNumbers (cohStart s r off) = stepNumbers s := by
  unfold cohStart
  extract_lets p ls tgts
  split
  · simp
  · next opened _ =>
    split
    · simp
    · split
      · rfl
      · split
        next w1 taken heq =>
        have htaken : stepNumbers taken = stepNumbers s := by
          refine (congrArg (fun x => stepNumbers x.2) heq).symm.trans
            ((stepNumbers_foldl_pair (fun x a => ?_) _ _).trans rfl)
          exact stepNumbers_takeWay x.2 a
        extract_lets busy
        have hbusy : stepNumbers busy = stepNumbers s :=
          (stepNumbers_foldl (fun s l => stepNumbers_markBusy s l true) _ _).trans htaken
        split
        next w2 snooped heq' =>
        have hsnooped : stepNumbers snooped = stepNumbers s := by
          refine (congrArg (fun x => stepNumbers x.2) heq').symm.trans
            ((stepNumbers_foldl_pair (fun x n => ?_) _ _).trans hbusy)
          split
          · dsimp only
            rw [stepNumbers_foldl (fun s a => by simp)]
            split <;> simp
          · rfl
        simp [apply_ite stepNumbers, hsnooped]

@[simp] theorem stepNumbers_dirAnswer (l : Nat) (a : BitVec 10) (st : Status) (data : List Byte) (recorded : Bool) :
    stepNumbers (dirAnswer s l a st data recorded) = stepNumbers s := by
  simp only [dirAnswer]
  split
  · rfl
  · simp [apply_ite stepNumbers]

@[simp] theorem stepNumbers_retryDir : stepNumbers (retryDir s) = stepNumbers s := by
  unfold retryDir
  exact (stepNumbers_foldl (fun s (e : Req × Nat) => stepNumbers_cohStart s e.1 e.2) _ _).trans rfl

theorem stepNumbers_settleDirN (n : Nat) : stepNumbers (settleDirN n s) = stepNumbers s := by
  induction n generalizing s with
  | zero => rfl
  | succ n ih =>
    unfold settleDirN
    split
    · rw [ih, stepNumbers_dirAnswer, stepNumbers_setDir]
    · simp only
      split
      · simp
      · rw [ih, stepNumbers_retryDir]

@[simp] theorem stepNumbers_settleDir : stepNumbers (settleDir s) = stepNumbers s := stepNumbers_settleDirN ..

end

end Sys2Proof.Proofs
end
section
/-! SUPPORT. Requests at their home and the work of an engine start no step of a wick (02 R42, R48; 03 R68 to R79;
05 R149 to R151). -/
namespace Sys2Proof.Proofs
open Sys2Proof Machine Safety Laws

section
variable (s : State)

/-! ### Completions -/

@[simp] theorem stepNumbers_endCommand (q : Nat) (idx : W32) (st : Status) (r : W64) :
    stepNumbers (endCommand s q idx st r) = stepNumbers s := stepNumbers_congr (endCommand_queuesOnly s q idx st r).wicks

@[simp] theorem stepNumbers_complete (o : Origin) (p : Packet) (st : Status) (data : List Byte) (recorded : Bool) :
    stepNumbers (complete s o p st data recorded) = stepNumbers s := by
  unfold complete
  split
  · simp
  · rfl
  · simp
  · simp
  · split <;> simp
  · simp only [postDone]; split <;> simp
  · exact stepNumbers_endCommand ..
  · simp

@[simp] theorem stepNumbers_sendCntAdd (a : BitVec 10) (part : BitVec 6) (k : Nat) (v : W64) (o : Origin) :
    stepNumbers (sendCntAdd s a part k v o) = stepNumbers s := by
  simp [sendCntAdd, apply_ite stepNumbers]

/-! ### Groups -/

@[simp] theorem stepNumbers_failGroup (g : List Req) (off : Nat) (t : Target) (st : Status) :
    stepNumbers (failGroup s g off t st) = stepNumbers s :=
  stepNumbers_foldl (fun s r => by simp) _ _

@[simp] theorem stepNumbers_demand (bs : List Nat) : stepNumbers (demand s bs).2 = stepNumbers s := by
  unfold demand
  refine (stepNumbers_foldl_pair (fun x b => ?_) _ _).trans rfl
  exact stepNumbers_requestMove x.2 b 1 none 0 .demand

@[simp] theorem stepNumbers_applyGroup (t : Target) (g : List Req) : stepNumbers (applyGroup s t g) = stepNumbers s := by
  unfold applyGroup
  split
  · rfl
  · extract_lets p off n st counted
    have hcounted : stepNumbers counted = stepNumbers s := by
      dsimp only [counted]
      split
      · rfl
      · exact stepNumbers_foldl (fun s b => stepNumbers_countAccess s b) _ _
    split
    · rw [stepNumbers_failGroup, hcounted]
    · next fl _ =>
      split
      next ok moved heq =>
      have hmoved : stepNumbers moved = stepNumbers s :=
        (congrArg (fun x => stepNumbers x.2) heq).symm.trans ((stepNumbers_demand ..).trans hcounted)
      split
      · rw [stepNumbers_failGroup, hmoved]
      · split
        · exact hmoved
        · extract_lets st
          split
          · rw [stepNumbers_failGroup, hmoved]
          · split
            next data applied heq =>
            have happlied : stepNumbers applied = stepNumbers s :=
              (congrArg (fun x => stepNumbers x.2) heq).symm.trans ((stepNumbers_applyData ..).trans hmoved)
            rw [stepNumbers_completeGroup, ← happlied]
            split
            · exact stepNumbers_foldl (fun s b => stepNumbers_staleShadow s b) _ _
            · rfl

@[simp] theorem stepNumbers_drainTarget (t : Target) : stepNumbers (drainTarget s t) = stepNumbers s := by
  unfold drainTarget
  split
  · rfl
  · exact (stepNumbers_foldl (fun s g => stepNumbers_applyGroup s t g) _ _).trans rfl

theorem stepNumbers_admitWith {s t : State} {p : Packet} {f : Status → Fail} {st : Status}
    (h : admitWith s p f = .error (st, t)) : stepNumbers t = stepNumbers s := by
  simp only [admitWith] at h
  split at h
  · cases h; simp
  · split at h
    · cases h; simp
    · split_ifs at h
      all_goals cases h
      all_goals simp

end

/-! ### The work of an engine -/

/-- Work that starts with the steps `n` leaves them. -/
structure LeavesSteps {α : Type} (n : Nat → W32) (m : Eng α) : Prop where
  leaves : ∀ s, stepNumbers s = n → stepNumbers (m s).2 = n

section
variable {α β : Type} {n : Nat → W32} {m : Eng α}

theorem leavesSteps_pure (a : α) : LeavesSteps n (pure a : Eng α) := ⟨fun _ hs => hs⟩
theorem leavesSteps_throw (e : EFail) : LeavesSteps n (throw e : Eng α) := ⟨fun _ hs => hs⟩
theorem leavesSteps_set {s : State} (hs : stepNumbers s = n) : LeavesSteps n (set s : Eng Unit) := ⟨fun _ _ => hs⟩
theorem leavesSteps_modify {f : State → State} (hf : ∀ s, stepNumbers (f s) = stepNumbers s) :
    LeavesSteps n (modify f : Eng Unit) := ⟨fun s hs => (hf s).trans hs⟩

theorem leavesSteps_bind {f : α → Eng β} (hm : LeavesSteps n m) (hf : ∀ a, LeavesSteps n (f a)) :
    LeavesSteps n (m >>= f) := by
  refine ⟨fun s hs => ?_⟩
  have hleft := hm.leaves s hs
  change stepNumbers (ExceptT.bind m f s).2 = n
  simp only [ExceptT.bind, ExceptT.mk, bind, StateT.bind]
  revert hleft
  rcases m s with ⟨e | a, t⟩ <;> intro hleft
  · exact hleft
  · exact (hf a).leaves t hleft

/-- After the state is read, the work may speak of it. -/
theorem leavesSteps_get_bind {f : State → Eng β} (hf : ∀ s, stepNumbers s = n → LeavesSteps n (f s)) :
    LeavesSteps n (get >>= f) := ⟨fun s hs => (hf s hs).leaves s hs⟩

theorem leavesSteps_tryCatch {f : EFail → Eng α} (hm : LeavesSteps n m) (hf : ∀ e, LeavesSteps n (f e)) :
    LeavesSteps n (tryCatch m f) := by
  refine ⟨fun s hs => ?_⟩
  have hleft := hm.leaves s hs
  change stepNumbers (ExceptT.tryCatch m f s).2 = n
  simp only [ExceptT.tryCatch, ExceptT.mk, bind, StateT.bind]
  revert hleft
  rcases m s with ⟨e | a, t⟩ <;> intro hleft
  · exact (hf e).leaves t hleft
  · exact hleft

theorem leavesSteps_ite {c : Prop} [Decidable c] {m' : Eng α} (hm : LeavesSteps n m) (hm' : LeavesSteps n m') :
    LeavesSteps n (if c then m else m') := by
  split
  · exact hm
  · exact hm'

theorem leavesSteps_mapM {f : β → Eng α} (hf : ∀ b, LeavesSteps n (f b)) (l : List β) : LeavesSteps n (l.mapM f) := by
  induction l with
  | nil => exact leavesSteps_pure []
  | cons b l ih =>
    rw [List.mapM_cons]
    exact leavesSteps_bind (hf b) (fun a => leavesSteps_bind ih (fun _ => leavesSteps_pure _))

theorem leavesSteps_forM {f : β → Eng Unit} (hf : ∀ b, LeavesSteps n (f b)) (l : List β) : LeavesSteps n (l.forM f) := by
  induction l with
  | nil => exact leavesSteps_pure ()
  | cons b l ih => exact leavesSteps_bind (hf b) (fun _ => ih)

theorem leavesSteps_failLog {f : State → State} (hf : ∀ s, stepNumbers (f s) = stepNumbers s) (st : Status) :
    LeavesSteps n (failLog st f : Eng α) := leavesSteps_bind (leavesSteps_modify hf) (fun _ => leavesSteps_throw _)

/-- A failure whose record is written into a state known before. -/
theorem leavesSteps_failWith {t : State} (ht : stepNumbers t = n) (st : Status) :
    LeavesSteps n (failLog st (fun _ => t) : Eng α) :=
  leavesSteps_bind ⟨fun _ _ => ht⟩ (fun _ => leavesSteps_throw _)

/-- A check: work that first fails or waits, or goes on at once. -/
theorem leavesSteps_check {β : Type} {c : Prop} [Decidable c] {m : Eng Unit} {f : Unit → Eng β} (hm : LeavesSteps n m)
    (hf : ∀ u, LeavesSteps n (f u)) : LeavesSteps n (if c then m >>= f else f ()) :=
  leavesSteps_ite (leavesSteps_bind hm hf) (hf ())

theorem runEng_leavesSteps {r : Except Status α} {s t : State} (hm : LeavesSteps (stepNumbers s) m)
    (h : runEng m s = some (r, t)) : stepNumbers t = stepNumbers s := by
  have hleft := hm.leaves s rfl
  simp only [runEng] at h
  split at h
  · next heq => rw [heq] at hleft; cases h; exact hleft
  · next heq => rw [heq] at hleft; cases h; exact hleft
  · cases h

end

end Sys2Proof.Proofs
end
section
/-! SUPPORT. Accesses, translations and tiles of an engine start no step of a wick (02 R42, R62; 03 R68 to R79). -/
namespace Sys2Proof.Proofs
open Sys2Proof Machine Safety Laws

section
variable {α : Type} {n : Nat → W32}

theorem leavesSteps_waitNow : LeavesSteps n (waitNow : Eng α) := leavesSteps_throw _
theorem leavesSteps_failNow (st : Status) : LeavesSteps n (failNow st : Eng α) := leavesSteps_throw _
theorem leavesSteps_failAt (w : Who) (st : Status) (kind : BitVec 3) (a : Nat) :
    LeavesSteps n (failAt w st kind a : Eng α) := leavesSteps_failLog (fun s => by simp) st

/-! ### Accesses -/

theorem stepNumbers_promoteAll {bs : List Nat} {s t : State}
    (h : bs.foldl (fun (o : Option State) b => o.bind (fun s => promoteNow s b)) (some s) = some t) :
    stepNumbers t = stepNumbers s := by
  induction bs generalizing s with
  | nil => rw [Option.some.inj h]
  | cons b bs ih =>
    rw [List.foldl_cons, Option.bind_some] at h
    cases hb : promoteNow s b with
    | none =>
      rw [hb, List.foldl_fixed' (by simp)] at h
      exact absurd h (by simp)
    | some u =>
      rw [hb] at h
      rw [ih h, stepNumbers_promoteNow hb]

theorem leavesSteps_homeNow (w : Who) (p : Packet) : LeavesSteps n (homeNow w p) := by
  unfold homeNow
  refine leavesSteps_get_bind (fun s hs => ?_)
  split
  · next heq =>
    refine leavesSteps_bind (leavesSteps_set ?_) (fun _ => leavesSteps_failNow _)
    rw [stepNumbers_noteFault, stepNumbers_admitWith heq, hs]
  · next off _ =>
    extract_lets k tgts drained fail st counted r goOn
    have hcounted : stepNumbers counted = n := by
      have hdrained : stepNumbers drained = n :=
        (stepNumbers_foldl (fun s t => stepNumbers_drainTarget s t) _ _).trans hs
      dsimp only [counted]
      split
      · exact hdrained
      · exact (stepNumbers_foldl (fun s b => stepNumbers_countAccess s b) _ _).trans hdrained
    have hfail (s : State) (st : Status) : stepNumbers (fail s st) = stepNumbers s := by simp [fail]
    refine leavesSteps_check leavesSteps_waitNow (fun u => leavesSteps_ite
      (leavesSteps_failWith ((hfail ..).trans hcounted) _) ?_)
    split
    · exact leavesSteps_failWith ((hfail ..).trans hcounted) _
    · next promoted heq =>
      have hpromoted : stepNumbers promoted = n := (stepNumbers_promoteAll heq).trans hcounted
      extract_lets st data finish goOn
      refine leavesSteps_check leavesSteps_waitNow (fun u => leavesSteps_check leavesSteps_waitNow (fun u =>
        leavesSteps_ite (leavesSteps_failWith ((hfail ..).trans hpromoted) _) (leavesSteps_ite
          (leavesSteps_bind (leavesSteps_set (by simp [hpromoted])) (fun _ => leavesSteps_pure _)) ?_)))
      split
      next data applied heq =>
      have happlied : stepNumbers applied = n :=
        (congrArg (fun x => stepNumbers x.2) heq).symm.trans ((stepNumbers_applyData ..).trans hpromoted)
      extract_lets fresh
      refine leavesSteps_bind (leavesSteps_set ?_) (fun _ => leavesSteps_pure _)
      rw [stepNumbers_completeGroup, stepNumbers_noteInflight, ← happlied]
      dsimp only [fresh]
      split
      · exact stepNumbers_foldl (fun s b => stepNumbers_staleShadow s b) _ _
      · rfl

theorem leavesSteps_remoteNow (w : Who) (p : Packet) (a : Nat) : LeavesSteps n (remoteNow w p a) := by
  have hstore {s : State} (hs : stepNumbers s = n) (m : List Host.Cell) (d : List Byte) :
      LeavesSteps n (do set { s with remote := m }; return d) :=
    leavesSteps_bind (leavesSteps_set ((stepNumbers_congr rfl).trans hs)) (fun _ => leavesSteps_pure _)
  unfold remoteNow
  refine leavesSteps_get_bind (fun s hs => ?_)
  extract_lets st k site f noted
  have hnoted : stepNumbers noted = n := by simp [noted, apply_ite stepNumbers, hs]
  refine leavesSteps_ite (leavesSteps_failWith ((stepNumbers_noteFault ..).trans hnoted) _) ?_
  split
  · exact leavesSteps_pure _
  · exact hstore hs _ _
  · exact hstore hs _ _
  · exact hstore (s := { s with free := s.free + 1 }) hs _ _
  · exact hstore hs _ _

theorem leavesSteps_accessNow (w : Who) (p : Packet) : LeavesSteps n (accessNow w p) :=
  leavesSteps_get_bind (fun _ _ => leavesSteps_ite (leavesSteps_homeNow w p) (leavesSteps_remoteNow w p _))

/-! ### Translations -/

@[simp] theorem stepNumbers_tlbFill (s : State) (t : Tlb) (c : BitVec 20) (base : Nat) (leaf : Leaf) :
    stepNumbers (tlbFill s t c base leaf) = stepNumbers s := rfl

theorem leavesSteps_badEntry (w : Who) (ea : Nat) : LeavesSteps n (badEntry w ea : Eng α) :=
  leavesSteps_failLog (fun s => by simp) _

theorem leavesSteps_walkFrom (w : Who) (cx : Ctx) (dva : Nat) (k node : Nat) : LeavesSteps n (walkFrom w cx dva k node) := by
  have hcaught (ea : Nat) (e : EFail) : LeavesSteps n (match e with
      | .stat st => failLog st (fun s => logErr s pXLT 2 (w.fail st 2 ea))
      | .wait => waitNow : Eng (List Byte)) := by
    cases e with
    | stat st => exact leavesSteps_failLog (fun s => by simp) st
    | wait => exact leavesSteps_waitNow
  have hrefused : LeavesSteps n (failLog stXlate (fun s => logRecord s pXLT (w.fail stXlate 1 dva)) : Eng (Nat × Leaf)) :=
    leavesSteps_failLog (fun s => by simp) _
  have hbad (ea : Nat) : LeavesSteps n (badEntry w ea : Eng (Nat × Leaf)) := leavesSteps_badEntry w ea
  induction k generalizing node with
  | zero =>
    exact leavesSteps_get_bind (fun _ _ => leavesSteps_bind
      (leavesSteps_tryCatch (leavesSteps_accessNow ..) (fun e => hcaught _ e)) (fun _ => leavesSteps_get_bind (fun _ _ =>
        leavesSteps_ite hrefused (leavesSteps_ite (leavesSteps_ite (hbad _) (hbad _))
          (leavesSteps_ite (hbad _) (leavesSteps_pure _))))))
  | succ k ih =>
    exact leavesSteps_get_bind (fun _ _ => leavesSteps_bind
      (leavesSteps_tryCatch (leavesSteps_accessNow ..) (fun e => hcaught _ e)) (fun _ => leavesSteps_get_bind (fun _ _ =>
        leavesSteps_ite hrefused (leavesSteps_ite (leavesSteps_ite (hbad _) (ih _))
          (leavesSteps_ite (hbad _) (leavesSteps_pure _))))))

theorem leavesSteps_walkNow (w : Who) (cx : Ctx) (dva : Nat) : LeavesSteps n (walkNow w cx dva) :=
  leavesSteps_bind (leavesSteps_modify (fun s => by simp)) (fun _ => leavesSteps_bind (leavesSteps_walkFrom ..)
    (fun _ => leavesSteps_bind (leavesSteps_modify (fun s => by simp)) (fun _ => leavesSteps_pure _)))

theorem leavesSteps_translate (w : Who) (t : Tlb) (use : Use) (dva : Nat) : LeavesSteps n (Machine.translate w t use dva) := by
  unfold Machine.translate
  refine leavesSteps_get_bind (fun s hs => ?_)
  split
  · exact leavesSteps_failLog (fun s => by simp) _
  · refine leavesSteps_ite (leavesSteps_failLog (fun s => by simp) _)
      (leavesSteps_ite (leavesSteps_failLog (fun s => by simp) _) ?_)
    extract_lets found filled
    have hfound (e : Nat × Leaf) : LeavesSteps n (found e) :=
      leavesSteps_ite (leavesSteps_pure _) (leavesSteps_failLog (fun s => by simp) _)
    split
    · exact leavesSteps_bind (leavesSteps_pure _) hfound
    · have hfilled (e : Nat × Leaf) : LeavesSteps n (filled e) :=
        leavesSteps_check (leavesSteps_modify (fun s => by simp)) (fun _ => leavesSteps_bind (leavesSteps_pure _) hfound)
      split
      · exact leavesSteps_bind (leavesSteps_pure _) hfilled
      · exact leavesSteps_bind (leavesSteps_walkNow ..) hfilled

theorem leavesSteps_translateAll (w : Who) (t : Tlb) (use : Use) (dva k : Nat) :
    LeavesSteps n (translateAll w t use dva k) := leavesSteps_mapM (fun a => leavesSteps_translate w t use a) _

/-! ### Bytes of the store and of host memory -/

theorem leavesSteps_readPages (w : Who) (ps : List (Nat × Leaf)) (dva k : Nat) :
    LeavesSteps n (readPages w ps dva k) :=
  leavesSteps_bind (leavesSteps_mapM (fun _ => leavesSteps_get_bind (fun _ _ =>
    leavesSteps_bind (leavesSteps_accessNow ..) (fun _ => leavesSteps_pure _))) _) (fun _ => leavesSteps_pure _)

theorem leavesSteps_writePages (w : Who) (ps : List (Nat × Leaf)) (dva : Nat) (d : List Byte) :
    LeavesSteps n (writePages w ps dva d) :=
  leavesSteps_forM (fun _ => leavesSteps_get_bind (fun _ _ => leavesSteps_ite
    (leavesSteps_bind (leavesSteps_accessNow ..) (fun _ => leavesSteps_pure _))
    (leavesSteps_bind (leavesSteps_accessNow ..) (fun _ => leavesSteps_pure _)))) _

theorem leavesSteps_readDva (w : Who) (t : Tlb) (dva k : Nat) : LeavesSteps n (readDva w t dva k) :=
  leavesSteps_bind (leavesSteps_translateAll ..) (fun _ => leavesSteps_readPages ..)

theorem leavesSteps_writeDva (w : Who) (t : Tlb) (dva : Nat) (d : List Byte) : LeavesSteps n (writeDva w t dva d) :=
  leavesSteps_bind (leavesSteps_translateAll ..) (fun _ => leavesSteps_writePages ..)

theorem leavesSteps_hostAnswer (w : Who) (hc : HostCpl) (a : Nat) : LeavesSteps n (hostAnswer w hc a) := by
  cases hc with
  | ok => exact leavesSteps_pure ()
  | _ => exact leavesSteps_failLog (fun s => by simp) _

theorem leavesSteps_hostCheck (w : Who) (a k : Nat) : LeavesSteps n (hostCheck w a k) :=
  leavesSteps_get_bind (fun _ _ => leavesSteps_ite (leavesSteps_pure ()) (leavesSteps_failLog (fun s => by simp) _))

@[simp] theorem stepNumbers_atcFill (s : State) (c : BitVec 20) (a k : Nat) :
    stepNumbers (atcFill s c a k) = stepNumbers s := by
  unfold atcFill
  split
  · split
    · rfl
    · refine stepNumbers_foldl (fun s i => ?_) _ _
      extract_lets page
      rw [apply_ite stepNumbers, stepNumbers_setXlt, ite_self]
  · rfl

theorem leavesSteps_readHost (w : Who) (hc : HostCpl) (a k : Nat) : LeavesSteps n (readHost w hc a k) :=
  leavesSteps_bind (leavesSteps_hostCheck ..) (fun _ => leavesSteps_bind (leavesSteps_hostAnswer ..) (fun _ =>
    leavesSteps_bind (leavesSteps_modify (fun s => by simp)) (fun _ => leavesSteps_get_bind (fun _ _ => leavesSteps_pure _))))

theorem leavesSteps_writeHost (w : Who) (hc : HostCpl) (a : Nat) (d : List Byte) : LeavesSteps n (writeHost w hc a d) :=
  leavesSteps_bind (leavesSteps_hostCheck ..) (fun _ => leavesSteps_bind (leavesSteps_hostAnswer ..) (fun _ =>
    leavesSteps_modify (fun s => (stepNumbers_congr rfl).trans (stepNumbers_atcFill s w.ctx a d.length))))

/-! ### Tiles -/

theorem leavesSteps_translateRows (w : Who) (t : Tlb) (use : Use) (rows : List (Nat × Nat)) :
    LeavesSteps n (translateRows w t use rows) :=
  leavesSteps_bind (leavesSteps_mapM (fun _ => leavesSteps_translateAll ..) _) (fun _ => leavesSteps_pure _)

theorem leavesSteps_tileCounterOk (w : Who) (t : Tile) : LeavesSteps n (tileCounterOk w t) := by
  have hrefused (st : Status) (b : Nat) (f : Fail) :
      LeavesSteps n (failLog st (fun s => logErr s pSYNC b f) : Eng Unit) := leavesSteps_failLog (fun s => by simp) _
  exact leavesSteps_get_bind (fun _ _ => leavesSteps_ite (leavesSteps_pure _) (leavesSteps_ite
    (leavesSteps_ite (hrefused ..) (leavesSteps_ite (hrefused ..) (leavesSteps_pure _)))
    (leavesSteps_ite (hrefused ..) (leavesSteps_pure _))))

theorem leavesSteps_acceptTile (w : Who) (tl : Tlb) (d : W512) (t : Tile) : LeavesSteps n (acceptTile w tl d t) := by
  unfold acceptTile
  extract_lets rows
  have hrows (u : Unit) : LeavesSteps n (rows u) :=
    leavesSteps_bind (leavesSteps_translateRows ..) (fun _ => leavesSteps_ite
      (leavesSteps_bind (leavesSteps_translateRows ..) (fun _ => leavesSteps_pure _))
      (leavesSteps_bind (leavesSteps_pure _) (fun _ => leavesSteps_pure _)))
  refine leavesSteps_check (leavesSteps_failAt ..) (fun _ => leavesSteps_check (leavesSteps_failAt ..) (fun _ =>
    leavesSteps_bind (leavesSteps_tileCounterOk ..) (fun _ => leavesSteps_get_bind (fun s hs => ?_))))
  extract_lets reserved owned fits
  have howned (u : Unit) : LeavesSteps n (owned u) :=
    leavesSteps_ite (leavesSteps_check (leavesSteps_failAt ..) (fun _ => leavesSteps_check (leavesSteps_failAt ..) hrows))
      (hrows ())
  exact leavesSteps_ite (leavesSteps_check (leavesSteps_failAt ..) (fun _ =>
    leavesSteps_check (leavesSteps_failAt ..) howned)) (howned ())

end

end Sys2Proof.Proofs
end
section
/-! SUPPORT. What follows from a command by itself starts no step of a wick (09 R267, R274 to R277; 12 R348 to R350; 14 R394
to R398; 15 R432 to R436). -/
namespace Sys2Proof.Proofs
open Sys2Proof Machine Safety Laws

section
variable (s : State)

/-! ### Transfers and streams -/

@[simp] theorem stepNumbers_finishXfer (id : Nat) (st : Status) : stepNumbers (finishXfer s id st) = stepNumbers s := by
  unfold finishXfer
  split
  · rfl
  · extract_lets dropped released told
    have hreleased : stepNumbers released = stepNumbers s := by
      dsimp -zeta only [released]
      split
      · next w _ =>
        extract_lets freed
        have hfreed : stepNumbers freed = stepNumbers s := by
          refine (stepNumbers_setWick (fun k => ?_) dropped w).trans rfl
          dsimp only
          split <;> simp
        split
        · split
          · rw [mwaitDone, stepNumbers_wickDo _ (fun k => by simp), hfreed]
          · exact hfreed
        · exact hfreed
      · rfl
    have htold : stepNumbers told = stepNumbers s := by
      rw [← hreleased]
      dsimp only [told]
      split <;> simp
    split
    · exact htold
    · exact htold

theorem stepNumbers_issueTile {s t : State} {x : Xfer} (h : issueTile s x = some t) : stepNumbers t = stepNumbers s := by
  unfold issueTile at h
  split at h
  · cases h
  · extract_lets entered at h
    split at h
    · cases h
    · next hrun =>
      rw [← Option.some.inj h, stepNumbers_finishXfer, runEng_leavesSteps (leavesSteps_acceptTile ..) hrun]; rfl
    · next hrun =>
      rw [← Option.some.inj h, setXfer, stepNumbers_setWork, runEng_leavesSteps (leavesSteps_acceptTile ..) hrun]; rfl

theorem stepNumbers_refillPlan (n h j : Nat) : stepNumbers (refillPlan n s h j) = stepNumbers s := by
  induction n generalizing s with
  | zero => rfl
  | succ n ih =>
    unfold refillPlan
    split
    · rfl
    · split
      · rfl
      · extract_lets st
        split
        · rfl
        · split
          · rfl
          · next hissued => rw [ih, stepNumbers_issueTile hissued, stepNumbers_setPlan]

theorem stepNumbers_readTile {s t : State} {x : TStream} {eng : Engine} {part : BitVec 6} {ctx : BitVec 20}
    {r : Except Status W512} (h : readTile s x eng part ctx = some (r, t)) : stepNumbers t = stepNumbers s :=
  runEng_leavesSteps (leavesSteps_bind (leavesSteps_readDva ..) (fun _ => leavesSteps_pure _)) h

theorem stepNumbers_refillQueue (n q : Nat) (i : W32) (part : BitVec 6) (ctx : BitVec 20) :
    stepNumbers (refillQueue n s q i part ctx) = stepNumbers s := by
  induction n generalizing s with
  | zero => rfl
  | succ n ih =>
    unfold refillQueue
    split
    · rfl
    · split
      · rfl
      · extract_lets eng set
        split
        · rfl
        · next hread => exact (stepNumbers_setWork ..).trans (stepNumbers_readTile hread)
        · next hread =>
          extract_lets taken x
          split
          · rfl
          · next hissued =>
            rw [ih, stepNumbers_issueTile hissued]
            exact (stepNumbers_setWork ..).trans (stepNumbers_readTile hread)

@[simp] theorem stepNumbers_endTstreams : stepNumbers (endTstreams s) = stepNumbers s :=
  stepNumbers_congr (endTstreams_queuesOnly s).wicks

@[simp] theorem stepNumbers_stepStreams : stepNumbers (stepStreams s) = stepNumbers s := by
  unfold stepStreams
  extract_lets plans
  have hplans : stepNumbers plans = stepNumbers s := by
    refine stepNumbers_foldl (fun s e => ?_) _ _
    split
    · exact stepNumbers_foldl (fun s r => stepNumbers_refillPlan s ..) _ _
    · rfl
  rw [stepNumbers_endTstreams, ← hplans]
  refine stepNumbers_foldl (fun s t => ?_) _ _
  split
  · exact stepNumbers_refillQueue ..
  · rfl

/-! ### Runs of plans -/

@[simp] theorem stepNumbers_dropWait (e : Waiter) : stepNumbers (dropWait s e) = stepNumbers s := rfl

@[simp] theorem stepNumbers_detectPlan (p : Plan) (st : Status) : stepNumbers (detectPlan s p st) = stepNumbers s := by
  simp [detectPlan, apply_ite stepNumbers]

@[simp] theorem stepNumbers_freePlan (h : Nat) (r : Option (Nat × W32)) : stepNumbers (freePlan s h r) = stepNumbers s := by
  unfold freePlan
  split
  · exact stepNumbers_endCommand ..
  · rfl

@[simp] theorem stepNumbers_startHead (q : Nat) (i : W32) : stepNumbers (startHead s q i) = stepNumbers s := by
  unfold startHead
  split
  · split <;> rfl
  · rfl

@[simp] theorem stepNumbers_endRun (h : Nat) (st : Status) : stepNumbers (endRun s h st) = stepNumbers s := by
  unfold endRun
  split
  · rfl
  · split
    · rfl
    · extract_lets idle counted told ended
      have htold : stepNumbers told = stepNumbers s := by
        dsimp only [told]
        split
        · exact stepNumbers_bump ..
        · rw [stepNumbers_detectPlan, stepNumbers_logEvt]; exact stepNumbers_bump ..
      have hended : stepNumbers ended = stepNumbers s := by
        rw [← htold]
        dsimp only [ended]
        split
        · simp [apply_ite stepNumbers]
        · rfl
      split <;> simp [hended]

@[simp] theorem stepNumbers_haltPlan (p : Plan) (st : Status) : stepNumbers (haltPlan s p st) = stepNumbers s :=
  stepNumbers_foldl (fun s w => stepNumbers_stopRunning s w st) _ _

@[simp] theorem stepNumbers_skipSpot (sc w : Nat) : stepNumbers (skipSpot s sc w) = stepNumbers s :=
  stepNumbers_congr (wicks_of_closed (skipSpot_logsOnly s sc w))

@[simp] theorem stepNumbers_skipSpots (p : Plan) : stepNumbers (skipSpots s p) = stepNumbers s := by
  refine stepNumbers_foldl (fun s sc => ?_) _ _
  split
  · split <;> simp
  · rfl

@[simp] theorem stepNumbers_stopRun (h : Nat) (st : Status) : stepNumbers (stopRun s h st) = stepNumbers s := by
  unfold stopRun
  split
  · rfl
  · split
    · rfl
    · extract_lets stopped mine freed dropped
      have hstopped : stepNumbers stopped = stepNumbers s := by
        dsimp only [stopped]
        split <;> simp
      have hfreed : stepNumbers freed = stepNumbers s := by
        refine (stepNumbers_foldl (fun s x => ?_) _ _).trans hstopped
        split
        · exact stepNumbers_setWick (by intro k; rfl) ..
        · rfl
      exact (stepNumbers_endRun ..).trans hfreed

/-! ### Groups that abort -/

@[simp] theorem stepNumbers_endWait (e : Waiter) : stepNumbers (endWait s e) = stepNumbers s := by
  unfold endWait
  split
  · simp
  · simp
  · extract_lets dropped
    split
    · exact stepNumbers_endCommand ..
    · rfl

@[simp] theorem stepNumbers_enterAborted (part : BitVec 6) (gid : W16) (cause : Status) :
    stepNumbers (enterAborted s part gid cause) = stepNumbers s := by
  have haborts (s : State) (g : Group) : stepNumbers (sendAborts s g) = stepNumbers s :=
    stepNumbers_foldl (fun s m => by simp [apply_ite stepNumbers]) _ _
  unfold enterAborted
  split
  · rfl
  · split
    · rfl
    · refine (stepNumbers_foldl (fun s (e : Waiter × Nat × Bool × W64) => stepNumbers_endWait s e.1) _ _).trans ?_
      simp [haborts, setGroup]

theorem stepNumbers_settleGroupsN (n : Nat) : stepNumbers (settleGroupsN n s) = stepNumbers s := by
  induction n generalizing s with
  | zero => rfl
  | succ n ih =>
    unfold settleGroupsN
    split
    · rfl
    · rw [ih, stepNumbers_enterAborted, stepNumbers_setSync]

@[simp] theorem stepNumbers_settleGroups : stepNumbers (settleGroups s) = stepNumbers s := stepNumbers_settleGroupsN ..

/-! ### Queues -/

@[simp] theorem stepNumbers_failCmd (c : Cmd) (st : Status) : stepNumbers (failCmd s c st) = stepNumbers s := by
  simp [failCmd, endCmd]

@[simp] theorem stepNumbers_stepFence (q : Nat) (a : Active) : stepNumbers (stepFence s q a) = stepNumbers s := by
  simp [stepFence, apply_ite stepNumbers]

@[simp] theorem stepNumbers_stepFences : stepNumbers (stepFences s) = stepNumbers s := by
  unfold stepFences
  exact stepNumbers_foldl (fun s e => stepNumbers_foldl (fun s a => stepNumbers_stepFence s _ a) _ _) _ _

@[simp] theorem stepNumbers_stepAdvice : stepNumbers (stepAdvice s) = stepNumbers s := by
  unfold stepAdvice
  exact (stepNumbers_foldl (fun s a => by simp [logAdvice, apply_ite stepNumbers]) _ _).trans rfl

theorem stepNumbers_refuseHeads (n q : Nat) : stepNumbers (refuseHeads n s q) = stepNumbers s := by
  induction n generalizing s with
  | zero => rfl
  | succ n ih =>
    unfold refuseHeads
    split
    · rfl
    · split
      · rfl
      · exact (ih _).trans ((stepNumbers_failCmd ..).trans rfl)

@[simp] theorem stepNumbers_refuseAll : stepNumbers (refuseAll s) = stepNumbers s := by
  unfold refuseAll
  exact stepNumbers_foldl (fun s e => stepNumbers_refuseHeads s ..) _ _

theorem stepNumbers_writeCompletion {s t : State} {e : Ended} (h : writeCompletion s e = some t) :
    stepNumbers t = stepNumbers s := by
  unfold writeCompletion at h
  extract_lets k a d w at h
  have hwrite (n : Nat → W32) : LeavesSteps n (if ringHost k.cpl then writeHost w .ok a d else writeDva w .l2 a d) :=
    leavesSteps_ite (leavesSteps_writeHost ..) (leavesSteps_writeDva ..)
  split at h
  · cases h
  · next hrun => rw [← Option.some.inj h, runEng_leavesSteps (hwrite _) hrun]
  · next hrun =>
    rw [← Option.some.inj h, apply_ite stepNumbers, stepNumbers_emit, ite_self, runEng_leavesSteps (hwrite _) hrun]

@[simp] theorem stepNumbers_stepEnded : stepNumbers (stepEnded s) = stepNumbers s := by
  unfold stepEnded
  refine (stepNumbers_foldl (fun s e => ?_) _ _).trans rfl
  split
  · next h => exact stepNumbers_writeCompletion h
  · rfl

@[simp] theorem stepNumbers_setTail (q : Nat) (v : W32) : stepNumbers (setTail s q v) = stepNumbers s := by
  simp [setTail, stopQueue, apply_ite stepNumbers]

theorem stepNumbers_readEntry {s t : State} {q : Nat} {hc : HostCpl} {r : Except Status W512}
    (h : readEntry s q hc = some (r, t)) : stepNumbers t = stepNumbers s := by
  unfold readEntry at h
  extract_lets k a w at h
  refine runEng_leavesSteps ?_ h
  split
  · exact leavesSteps_bind (leavesSteps_readHost ..) (fun _ => leavesSteps_pure _)
  · exact leavesSteps_bind (leavesSteps_readDva ..) (fun _ => leavesSteps_pure _)

theorem stepNumbers_fetchN (n q : Nat) (hc : HostCpl) : stepNumbers (fetchN n s q hc) = stepNumbers s := by
  induction n generalizing s with
  | zero => rfl
  | succ n ih =>
    unfold fetchN
    split
    · rfl
    · next hread => exact (stepNumbers_setQueue ..).trans (stepNumbers_readEntry hread)
    · next hread => rw [ih, stepNumbers_setQueue, stepNumbers_readEntry hread]

@[simp] theorem stepNumbers_fetchQueue (q : Nat) (hc : HostCpl) : stepNumbers (fetchQueue s q hc) = stepNumbers s := by
  simp only [fetchQueue]
  split
  · rfl
  · exact stepNumbers_fetchN ..

@[simp] theorem stepNumbers_stepTails : stepNumbers (stepTails s) = stepNumbers s := by
  unfold stepTails
  exact stepNumbers_foldl (fun s e => by simp [apply_ite stepNumbers]) _ _

/-! ### Rebuilds -/

@[simp] theorem stepNumbers_finishRebuild (r : Rebuild) (st : Status) :
    stepNumbers (finishRebuild s r st) = stepNumbers s := by
  simp [finishRebuild, closeRebuild, apply_ite stepNumbers]

@[simp] theorem stepNumbers_storedLines (l : Nat) : stepNumbers (storedLines s l).2 = stepNumbers s := by
  have hline (s : State) (l : Nat) : stepNumbers (storedLine s l).2 = stepNumbers s := by
    unfold storedLine
    split
    · rfl
    · refine stepNumbers_foldl_pair (fun x _ => ?_) _ _
      exact stepNumbers_draw x.2
  unfold storedLines
  refine stepNumbers_foldl_pair (fun x i => ?_) _ _
  exact hline x.2 (l + i)

@[simp] theorem stepNumbers_sendBlock (r : Rebuild) : stepNumbers (sendBlock s r) = stepNumbers s := by
  unfold sendBlock
  extract_lets b
  split
  · simp
  · refine (stepNumbers_foldl (fun s i => ?_) _ _).trans (stepNumbers_setStore ..)
    simp

@[simp] theorem stepNumbers_stepSend (r : Rebuild) : stepNumbers (stepSend s r) = stepNumbers s := by
  simp [stepSend, apply_ite stepNumbers]

@[simp] theorem stepNumbers_stepReceive (r : Rebuild) : stepNumbers (stepReceive s r) = stepNumbers s := by
  have hfound (s : State) (is : List Nat) (b : Nat → State → Nat) (f : Block → Block) :
      stepNumbers (is.foldl (fun s i => blockSet s (b i s) f) s) = stepNumbers s :=
    stepNumbers_foldl (fun s i => stepNumbers_blockSet ..) _ _
  simp [stepReceive, apply_ite stepNumbers, hfound]

@[simp] theorem stepNumbers_stepRebuild : stepNumbers (stepRebuild s) = stepNumbers s := by
  unfold stepRebuild
  split
  · rfl
  · split <;> simp

/-! ### Settling -/

@[simp] theorem stepNumbers_settle : stepNumbers (settle s) = stepNumbers s := by
  simp [settle, settleOnce]

end

end Sys2Proof.Proofs
end
section
/-! PROOFS. Runs of a plan: a service plan that is ready starts no step (09 R276, R280; 08 R220). -/
namespace Sys2Proof.Proofs
open Sys2Proof Machine Safety Laws

/-- Function commands run a service plan: the start of a step is not for it. -/
theorem startStep_service {s : State} {h : Nat} {p : Plan} (hplan : s.plan h = some p) (hservice : p.service = true) :
    startStep s h = s := by
  unfold startStep
  rw [hplan]
  dsimp only
  split
  · rfl
  · exact if_pos (.inl hservice)

theorem execStepStart_service {s : State} {h : Nat} {p : Plan} (hh : h < 256) (hrun : frozen s = false)
    (hplan : s.plan h = some p) (hservice : p.service = true) : exec (.stepStart h) s = .next (settle s) := by
  have hok : handleOk h = true := decide_eq_true hh
  rw [exec_stepStart, execStepStart, onOk, if_pos hok, hrun, startStep_service hplan hservice]
  rfl

/-- A step of a service plan: it waits at a gate. -/
def serviceStep : PStep :=
  { sconceBound := 0, hubBound := 0, gateBound := 0, kind := 0, serviceOp := 0x20, spot := false, gate := true, post := false
    launchFirst := 0, launchCount := 0, streamFirst := 0, streamCount := 0, gateCounter := 0, postCounter := 0
    gateBase := 1, gateStride := 1, postAgent := 0, postInc := 0 }

/-- A service plan with wick 0, whose gate has opened. -/
def openService : Plan :=
  { ctx := 0, part := 0, service := true, multi := false, armed := true, tag := 0, partMask := 0, seed := 0
    claims := [⟨1, 0, 0, 0, 1⟩], steps := [serviceStep], launches := [], code := [], streams := [], tiles := []
    routes := [], deadlines := [], spots := [], run := .ready, curStep := 0, runIndex := 0, rel := [], status := 0
    misses := 0, lates := 0, runs := 0, streamRuns := [], runner := none, comp := 0, retire := none }

/-- Wick 0 still holds another step. -/
def serviceReadied : State := { State.reset.setWick 0 (fun k => { k with step := 1 }) with plans := [(0, openService)] }

/-- Refutes O35: a service plan whose gate has opened is ready, and meets each premise of the clause about the start of a
step; but its start does nothing, and nothing that follows by itself sets the step of wick 0 to the plan's. -/
theorem not_planRuns : ¬ Obligations.PlanRuns := by
  unfold Obligations.PlanRuns
  intro h
  obtain ⟨-, hruns⟩ := h serviceReadied serviceReadied 0 0 ⟨0, 0, 0, 0, 0, .work⟩ 0 openService serviceStep
  obtain ⟨hstart, -⟩ := hruns (by decide) rfl rfl
  have hrun : frozen serviceReadied = false := by decide +kernel
  obtain ⟨v, hexec, -, hwicks⟩ := hstart rfl (by decide +kernel) hrun rfl rfl
  have hsettle : settle serviceReadied = settle v :=
    Host.Outcome.next.inj ((execStepStart_service (by decide) hrun rfl rfl).symm.trans hexec)
  have hold : stepNumbers serviceReadied 0 = 1 := by
    decide +kernel
  have hnew : stepNumbers v 0 = 0 := by
    rw [stepNumbers, hwicks 0, if_pos (by decide +kernel)]
    dsimp only
    split <;> rfl
  have hsame : stepNumbers serviceReadied 0 = stepNumbers v 0 := by
    rw [← stepNumbers_settle, hsettle, stepNumbers_settle]
  rw [hold, hnew] at hsame
  exact absurd hsame (by decide)

end Sys2Proof.Proofs
end
section
/-! SUPPORT. Plans as the hub keeps them: the table of plans, the counters of their claims, and what admission, arming and
retiring do to them (09 R261, R272 to R275). -/
namespace Sys2Proof.Proofs
open Sys2Proof Machine Safety Laws

/-! ### The table of plans -/

section
variable {s t : State}

theorem LogsOnly.plans (h : LogsOnly s t) : t.plans = s.plans := by rw [h]

theorem plan_congr (h : t.plans = s.plans) (j : Nat) : t.plan j = s.plan j := by rw [State.plan, State.plan, h]

theorem tfind_map_at {α : Type} (m : NatMap α) (k n : Nat) (f : α → α) :
    tfind (m.map (fun e => if e.1 = k then (e.1, f e.2) else e)) n = if n = k then (tfind m n).map f else tfind m n := by
  induction m with
  | nil => simp [tfind]
  | cons e r ih =>
    obtain ⟨j, v⟩ := e
    by_cases hj : j = n
    · subst hj
      by_cases hk : j = k <;> simp [tfind, hk]
    · by_cases hk : j = k <;> simp_all [tfind]

theorem plan_setPlan (s : State) (h j : Nat) (f : Plan → Plan) :
    (s.setPlan h f).plan j = if j = h then (s.plan j).map f else s.plan j := tfind_map_at ..

theorem plan_setPlan_self {h : Nat} {p : Plan} (f : Plan → Plan) (hp : s.plan h = some p) :
    (s.setPlan h f).plan h = some (f p) := by rw [plan_setPlan, if_pos rfl, hp, Option.map_some]

theorem plan_setPlan_of_ne {h j : Nat} (f : Plan → Plan) (hj : j ≠ h) : (s.setPlan h f).plan j = s.plan j := by
  rw [plan_setPlan, if_neg hj]

/-- An operation over a list keeps what each of its steps keeps. -/
theorem foldl_keeps {α β σ : Type} (part : σ → β) {f : σ → α → σ} (h : ∀ s a, part (f s a) = part s) (l : List α)
    (s : σ) : part (l.foldl f s) = part s := by
  induction l generalizing s with
  | nil => rfl
  | cons a l ih => rw [List.foldl_cons, ih, h]

/-! ### The counters of claims -/

/-- A claim names a hub counter (R260). -/
def claimHasHub (k : Nat) (c : Claim) : Bool :=
  c.kind == 4 && decide (claimFirst c ≤ k ∧ k < claimFirst c + claimCount c)

theorem planHub_eq_any (p : Plan) (k : Nat) : planHub p k = p.claims.any (claimHasHub k) := rfl

theorem zeroCounters_cons (s : State) (c : Claim) (cs : List Claim) (hub : Bool) :
    zeroCounters s (c :: cs) hub = zeroCounters (zeroCounters s [c] hub) cs hub := rfl

/-- Counters lie in the sync block. -/
theorem zeroCounters_syncOnly (s : State) (cs : List Claim) (hub : Bool) :
    ∃ f, zeroCounters s cs hub = s.setSync f := by
  induction cs generalizing s with
  | nil => exact ⟨id, rfl⟩
  | cons c cs ih =>
    have hone : ∃ f, zeroCounters s [c] hub = s.setSync f := by
      simp only [zeroCounters, List.foldl_cons, List.foldl_nil]
      split
      · exact ⟨_, rfl⟩
      · split
        · exact ⟨_, rfl⟩
        · exact ⟨id, rfl⟩
    obtain ⟨f, hf⟩ := hone
    obtain ⟨g, hg⟩ := ih (s.setSync f)
    exact ⟨g ∘ f, by rw [zeroCounters_cons, hf, hg]; rfl⟩

theorem tget_filter_key {α : Type} (d : α) (keep : Nat → Bool) (m : NatMap α) (k : Nat) :
    tget d (m.filter (fun e => keep e.1)) k = if keep k then tget d m k else d := by
  induction m with
  | nil => simp [tget]
  | cons e r ih =>
    obtain ⟨j, v⟩ := e
    by_cases hj : j = k
    · subst hj
      cases hkeep : keep j <;> simp_all [tget]
    · cases hkeep : keep j <;> simp_all [tget]

theorem hubGet_zeroCounters_one (s : State) (c : Claim) (k : Nat) :
    hubGet (zeroCounters s [c] true) k = if claimHasHub k c then 0 else hubGet s k := by
  by_cases hkind : c.kind = 4
  · have hone : zeroCounters s [c] true = s.setSync (fun y => { y with
        hub := y.hub.filter (fun e => ¬ (claimFirst c ≤ e.1 ∧ e.1 < claimFirst c + claimCount c)) }) := by
      simp [zeroCounters, hkind]
    rw [hone, hubGet, setSync_sync,
      tget_filter_key 0 (fun j => ¬ (claimFirst c ≤ j ∧ j < claimFirst c + claimCount c))]
    by_cases hin : claimFirst c ≤ k ∧ k < claimFirst c + claimCount c <;> simp [claimHasHub, hkind, hin, hubGet]
  · have hone : (zeroCounters s [c] true).sync.hub = s.sync.hub := by
      simp only [zeroCounters, List.foldl_cons, List.foldl_nil, hkind, false_and, if_false]
      split <;> rfl
    rw [hubGet, hone, claimHasHub, beq_false_of_ne hkind]
    rfl

/-- Every hub counter of the claims reads 0, and no other changes (R272). -/
theorem hubGet_zeroCounters (s : State) (cs : List Claim) (k : Nat) :
    hubGet (zeroCounters s cs true) k = if cs.any (claimHasHub k) then 0 else hubGet s k := by
  induction cs generalizing s with
  | nil => rfl
  | cons c cs ih =>
    rw [zeroCounters_cons, ih, hubGet_zeroCounters_one, List.any_cons]
    cases claimHasHub k c <;> simp

/-! ### The lowest free number -/

/-- A search from 0 upward for a place that holds nothing ends at the lowest one. -/
theorem find?_range_lowest {α : Type} {n k : Nat} {held : Nat → Option α} (hk : k < n) (hfree : held k = none)
    (hlow : ∀ j < k, held j ≠ none) : (List.range n).find? (fun i => (held i).isNone) = some k := by
  refine List.find?_range_eq_some.mpr ⟨Option.isNone_iff_eq_none.mpr hfree, List.mem_range.mpr hk, fun j hj => ?_⟩
  rw [Option.isNone_eq_false_iff.mpr (Option.isSome_iff_ne_none.mpr (hlow j hj))]
  rfl

/-! ### A denied admission (R273) -/

/-- The state in which a denied admission has left its record, its count and its cause. -/
def admitDenied (s : State) (c : Cmd) (dva : Nat) (ctx : BitVec 20) (reason : Nat) : State :=
  (bump (logErr s pPLAN 2 { c.who.fail stDenied 1 dva with ctx := some ctx }) (rk pPLAN 0x128) 32 1).setReg
    (rk pPLAN 0x130) (BitVec.ofNat 64 (reason + 2 ^ 8 * ctx.toNat))

theorem denyAdmit_eq (s : State) (c : Cmd) (dva : Nat) (ctx : BitVec 20) (reason : Nat) : denyAdmit s c dva ctx reason =
    endCommand (admitDenied s c dva ctx reason) c.q c.idx stDenied (BitVec.ofNat 64 reason) := rfl

theorem admitDenied_logsOnly (s : State) (c : Cmd) (dva : Nat) (ctx : BitVec 20) (reason : Nat) :
    LogsOnly s (admitDenied s c dva ctx reason) :=
  (logErr_logsOnly ..).trans ((bump_logsOnly ..).trans (setReg_logsOnly ..))

theorem regGet_admitDenied (s : State) (c : Cmd) (dva : Nat) (ctx : BitVec 20) (reason : Nat) :
    regGet (admitDenied s c dva ctx reason) (rk pPLAN 0x130) = BitVec.ofNat 64 (reason + 2 ^ 8 * ctx.toNat) := by
  rw [admitDenied, regGet_setReg, if_pos rfl]

/-! ### A granted admission (R272) -/

/-- The plan stands in the table under the handle `h`, for the composition of the command's queue. -/
def planEntered (s : State) (c : Cmd) (p : Plan) (h : Nat) : State :=
  { s with plans := tput s.plans h { p with comp := BitVec.ofNat 12 (qComp (s.queue c.q)) } }

/-- The generator of a sconce's spot checks is seeded from the plan (07 R214). -/
def spotSeeded (p : Plan) (s : State) (sc : Nat) : State :=
  s.setSconce sc (fun k => { k with spotGen := genSeed p.seed })

/-- The state in which a plan holds its claims under the handle `h`. -/
def admitGranted (s : State) (c : Cmd) (p : Plan) (h : Nat) : State :=
  bump ((spotSconces p).foldl (spotSeeded p) (zeroCounters (planEntered s c p h) p.claims true)) (rk pPLAN 0x120) 32 1

theorem grantPlan_lowest {c : Cmd} {p : Plan} {h : Nat} (hh : h < 256) (hfree : s.plan h = none)
    (hlow : ∀ j < h, s.plan j ≠ none) :
    grantPlan s c p = endCommand (admitGranted s c p h) c.q c.idx 0 (BitVec.ofNat 64 h) := by
  have hfind : (List.range 256).find? (fun i => (s.plan i).isNone) = some h := find?_range_lowest hh hfree hlow
  simp only [grantPlan, hfind, Option.getD_some]
  rfl

theorem plan_admitGranted (s : State) (c : Cmd) (p : Plan) (h j : Nat) : (admitGranted s c p h).plan j =
    if j = h then some { p with comp := BitVec.ofNat 12 (qComp (s.queue c.q)) } else s.plan j := by
  obtain ⟨f, hzero⟩ := zeroCounters_syncOnly (planEntered s c p h) p.claims true
  have hplans : (admitGranted s c p h).plans = (planEntered s c p h).plans := by
    rw [admitGranted, (bump_logsOnly ..).plans, foldl_keeps State.plans (f := spotSeeded p) (fun _ _ => rfl), hzero]
    rfl
  rw [plan_congr hplans]
  exact tfind_tput ..

theorem hubGet_admitGranted (s : State) (c : Cmd) (p : Plan) (h k : Nat) :
    hubGet (admitGranted s c p h) k = if planHub p k then 0 else hubGet s k := by
  rw [admitGranted, hubGet, (bump_logsOnly ..).sync, foldl_keeps State.sync (f := spotSeeded p) (fun _ _ => rfl)]
  exact hubGet_zeroCounters ..

/-! ### Commands on an admitted plan -/

theorem planCmd_noPlan {c : Cmd} {f : Nat → Plan → Option State} (h : s.plan (c.f 16 1) = none) :
    planCmd c s f = some (denyPlan s c rsNoPlan) := by simp only [planCmd, h]

theorem planCmd_of_plan {c : Cmd} {p : Plan} {f : Nat → Plan → Option State} (h : s.plan (c.f 16 1) = some p)
    (hpart : p.part = c.part) (hretire : p.retire = none) : planCmd c s f = f (c.f 16 1) p := by
  simp [planCmd, h, hpart, hretire]

theorem freePlan_command (s : State) (h q : Nat) (i : W32) :
    freePlan s h (some (q, i)) = endCommand (dropWait { s with plans := tdel s.plans h } (.gate h)) q i 0 0 := rfl

end

end Sys2Proof.Proofs
end
section
/-! PROOFS. PLAN_ADMIT, PLAN_ARM and PLAN_RETIRE (09 R272 to R275; 14 R390). -/
namespace Sys2Proof.Proofs
open Sys2Proof Machine Safety Laws

/-! ### PLAN_ADMIT -/

/-- The context id of a command's bytes 24 to 27. -/
theorem ofNat_fld_planCtx (e : W512) : BitVec.ofNat 20 (fld e 24 4) = e.extractLsb' 192 20 := by
  apply BitVec.eq_of_toNat_eq
  rw [BitVec.extractLsb'_toNat, Nat.shiftRight_eq_div_pow, BitVec.toNat_ofNat, fld, bits]
  exact Nat.mod_mod_of_dvd _ (by decide)

section
variable {s u t t2 : State} {q : Nat} {e : W512} {c : Cmd} {img : List Byte} {p : Plan} {x : Ctx}

/-- An admission whose operands and image are right: the first reason against the plan denies it, and a plan with none
whose code may run is granted. -/
theorem execPlanAdmit_of_starts (hs : Starts s q e [(128, 64), (192, 32)] .work c u) (hop : fld e 0 1 = 0x10)
    (hrestart : u.lamp.restarting = false) (hgave : u.lamp.gaveUp = false) (hdva : fld e 16 8 < 2 ^ 57)
    (halign : fld e 16 8 % 64 = 0) (hctx : fld e 24 4 < 2 ^ 20) (hx : ctxOf u (e.extractLsb' 192 20) = some x)
    (htype : x.type = 1) (hpart : x.part = c.part)
    (himg : runEng (readImage { c.who with ctx := e.extractLsb' 192 20 } (fld e 16 8)) u = some (.ok (some img), t))
    (hparse : parsePlan img t.xbar.agentId c.part (e.extractLsb' 192 20) = some p) :
    (∀ r, admitReason t p = some r →
      execPlanAdmit q e s = .next (settle (denyAdmit t c (fld e 16 8) (e.extractLsb' 192 20) r))) ∧
    (admitReason t p = none →
      runEng (codePages { c.who with ctx := e.extractLsb' 192 20 } (fld e 16 8) img) t = some (.ok true, t2) →
      execPlanAdmit q e s = .next (settle (grantPlan t2 c p))) := by
  obtain ⟨-, hraw, -⟩ := Starts_cmd hs
  have hrow : (opcodeOf e == 0x10) = true := beq_iff_eq.mpr hop
  have hform : ¬ (2 ^ 57 ≤ fld e 16 8 ∨ fld e 16 8 % 64 ≠ 0 ∨ 2 ^ 20 ≤ fld e 24 4) := by omega
  refine ⟨fun r hr => cmdRow_of_starts hs hrow ?_, fun hr hcode => cmdRow_of_starts hs hrow ?_⟩
  · simp only [Cmd.f, hraw, hrestart, hgave, hform, ofNat_fld_planCtx, hx, htype, hpart, himg, hparse, hr]; simp
  · simp only [Cmd.f, hraw, hrestart, hgave, hform, ofNat_fld_planCtx, hx, htype, hpart, himg, hparse, hr, hcode]; simp

end

/-! ### PLAN_ARM, PLAN_RUN and PLAN_RETIRE -/

section
variable {s u : State} {q : Nat} {e : W512} {c : Cmd}

/-- A handle under which no plan is admitted is denied, whichever command names it. -/
theorem exec_noPlan {op : Nat} {fields : List (Nat × Nat)} {i : Instr}
    (hi : (op, fields, i) ∈ [(0x11, [(128, 8), (192, 64)], .planArm q e),
      (0x12, [(128, 8), (136, 1), (192, 256)], .planRun q e), (0x13, [(128, 8)], .planRetire q e)])
    (hs : Starts s q e fields .work c u) (hop : fld e 0 1 = op) (hnone : u.plan (fld e 16 1) = none) :
    exec i s = .next (settle (denyPlan u c rsNoPlan)) := by
  obtain ⟨-, hraw, -⟩ := Starts_cmd hs
  have hcmd : ∀ f, planCmd c u f = some (denyPlan u c rsNoPlan) := fun f =>
    planCmd_noPlan (by rw [Cmd.f, hraw, hnone])
  simp only [List.mem_cons, Prod.mk.injEq, List.not_mem_nil, or_false] at hi
  obtain ⟨rfl, rfl, rfl⟩ | ⟨rfl, rfl, rfl⟩ | ⟨rfl, rfl, rfl⟩ := hi
  · rw [exec_planArm]; exact cmdRow_of_starts hs (beq_iff_eq.mpr hop) (hcmd _)
  · rw [exec_planRun]; exact cmdRow_of_starts hs (beq_iff_eq.mpr hop) (hcmd _)
  · rw [exec_planRetire]; exact cmdRow_of_starts hs (beq_iff_eq.mpr hop) (hcmd _)

variable {p : Plan} (hplan : u.plan (fld e 16 1) = some p) (hpart : p.part = c.part) (hretire : p.retire = none)
include hplan hpart hretire

theorem planCmd_of_starts {fields : List (Nat × Nat)} (hs : Starts s q e fields .work c u)
    (f : Nat → Plan → Option State) : planCmd c u f = f (fld e 16 1) p := by
  obtain ⟨-, hraw, -⟩ := Starts_cmd hs
  rw [planCmd_of_plan (by rw [Cmd.f, hraw, hplan]) hpart hretire, Cmd.f, hraw]

theorem execPlanArm_of_starts (hs : Starts s q e [(128, 8), (192, 64)] .work c u) (hop : fld e 0 1 = 0x11) :
    execPlanArm q e s = .next (settle (if p.multi && p.tag == BitVec.ofNat 64 (fld e 24 8) then
      endCommand (u.setPlan (fld e 16 1) (fun p => { p with armed := true })) c.q c.idx 0 0
      else denyPlan u c rsFormat)) := by
  refine cmdRow_of_starts hs (beq_iff_eq.mpr hop) ?_
  obtain ⟨-, hraw, -⟩ := Starts_cmd hs
  rw [planCmd_of_starts hplan hpart hretire hs, Cmd.f, hraw]
  rfl

theorem execPlanRetire_of_starts (hs : Starts s q e [(128, 8)] .work c u) (hop : fld e 0 1 = 0x13)
    (hidle : p.run = .idle) :
    execPlanRetire q e s = .next (settle (freePlan u (fld e 16 1) (some (c.q, c.idx)))) := by
  refine cmdRow_of_starts hs (beq_iff_eq.mpr hop) ?_
  rw [planCmd_of_starts hplan hpart hretire hs, if_pos hidle]

end

/-- Settles O34: admission grants the lowest free handle (the model's choice among the free ones) or changes no plan; the
other commands act on the plan that the handle names. -/
theorem planAdmission : Obligations.PlanAdmission := by
  unfold Obligations.PlanAdmission
  intro s u t t2 q e c
  refine ⟨?admission, ?noPlan, ?onPlan⟩
  case admission =>
    intro hs hop hrestart hgave dva ctx hdva halign hctx hx img p himg hparse
    obtain ⟨x, hx, htype, hpart⟩ := hx
    obtain ⟨hdeny, hgrant⟩ :=
      execPlanAdmit_of_starts (t2 := t2) hs hop hrestart hgave hdva halign hctx hx htype hpart himg hparse
    constructor
    · intro r hr
      have hlogs := admitDenied_logsOnly t c dva ctx r
      exact ⟨admitDenied t c dva ctx r, hdeny r hr, hlogs.plans, hlogs.sync, regGet_admitDenied ..⟩
    · intro hr hcode h hh hfree hlow
      obtain ⟨hq, -⟩ := Starts_cmd hs
      have hexec := hgrant hr hcode
      rw [grantPlan_lowest hh hfree hlow] at hexec
      exact ⟨admitGranted t2 c p h, hexec, by rw [plan_admitGranted, if_pos rfl, hq],
        fun j hj => by rw [plan_admitGranted, if_neg hj], hubGet_admitGranted t2 c p h⟩
  case noPlan => exact fun op fields i hi hs hop hnone => exec_noPlan hi hs hop hnone
  case onPlan =>
    intro p h hplan hpart hretire
    refine ⟨fun hs hop => ⟨fun hmulti htag => ?_, fun hwrong => ?_⟩, fun hs hop hidle => ?_⟩
    · have hexec := execPlanArm_of_starts hplan hpart hretire hs hop
      rw [hmulti, htag, beq_self_eq_true, Bool.and_self, if_pos rfl] at hexec
      exact ⟨_, hexec, plan_setPlan_self _ hplan, fun j hj => plan_setPlan_of_ne _ hj⟩
    · have hno : ¬ (p.multi && p.tag == BitVec.ofNat 64 (fld e 24 8)) = true := by
        rw [Bool.and_eq_true, beq_iff_eq]
        rintro ⟨hmulti, htag⟩
        exact hwrong.elim (fun hno => by simp [hmulti] at hno) (fun hne => hne htag)
      rw [exec_planArm, execPlanArm_of_starts hplan hpart hretire hs hop, if_neg hno]
    · have htable := tfind_tdel u.plans h
      exact ⟨dropWait { u with plans := tdel u.plans h } (.gate h),
        execPlanRetire_of_starts hplan hpart hretire hs hop hidle, (htable h).trans (if_pos rfl),
        fun j hj => (htable j).trans (if_neg hj)⟩

end Sys2Proof.Proofs
end
section
/-! SUPPORT. Runs of a service plan: their start, their end, and the command that makes one (09 R280). -/
namespace Sys2Proof.Proofs
open Sys2Proof Machine Safety Laws

section
variable {s t : State}

/-! ### What the start of a service run leaves of the embedding tables -/

theorem LogsOnly.emb (h : LogsOnly s t) : t.emb = s.emb := by rw [h]

theorem ServiceOnly.emb (h : ServiceOnly s t) : t.emb = s.emb := by rw [h]

theorem compareSpot_emb (s : State) (sc : Nat) (sp : Spot) : (compareSpot s sc sp).emb = s.emb :=
  (compareSpot_logsOnly s sc sp).emb

theorem setupWick_noLaunch (p : Plan) (h : Nat) (s : State) (w : Nat) :
    setupWick p h [] s w = s.setWick w (fun _ => resetWick p h none w) := rfl

theorem serviceSpot_emb (p : Plan) (s : State) (sc : Nat) : (serviceSpot p s sc).emb = s.emb := by
  simp only [serviceSpot]
  split
  · rfl
  · split
    · rfl
    · split
      · exact compareSpot_emb ..
      · exact (logErr_logsOnly ..).emb.trans (bump_logsOnly ..).emb

/-- The start of a service run sets counters, wicks and generators, and no table. -/
theorem serviceStart_emb (s : State) (h : Nat) (p : Plan) : (serviceStart s h p).emb = s.emb := by
  obtain ⟨f, hzero⟩ := zeroCounters_syncOnly s p.claims false
  have hwicks : ((planWicks p).foldl (setupWick p h []) (zeroCounters s p.claims false)).emb = s.emb := by
    rw [foldl_keeps State.emb (f := setupWick p h []) (fun s w => by rw [setupWick_noLaunch]; rfl), hzero]
    rfl
  simp only [serviceStart]
  split
  · rw [foldl_keeps State.emb (serviceSpot_emb p), hwicks]
  · exact hwicks

/-! ### The end of a service run -/

theorem serviceFree_of_noRetire {h : Nat} {x : Plan} (hx : s.plan h = some x) (hretire : x.retire = none) :
    serviceFree s h = s := by simp only [serviceFree, hx, Option.bind_some, hretire]

theorem detectPlan_plans (s : State) (p : Plan) (st : Status) : (detectPlan s p st).plans = s.plans := by
  simp only [detectPlan]
  split <;> rfl

/-- A service plan after one more run of it has ended (R280). -/
def runCounted (x : Plan) : Plan := { x with
  run := .idle, runner := none, runIndex := x.runIndex + 1, runs := x.runs + 1 }

/-- The end of a service run counts in its plan, which is idle again. A PLAN_RETIRE that waited would free the plan, and a
post would send a count; without both nothing further happens to it. -/
theorem plan_serviceEnd {h : Nat} {p x : Plan} {st : Status} (hx : s.plan h = some x) (hretire : x.retire = none)
    (hpost : st ≠ 0 ∨ ∀ z, stepOf p = some z → z.post = false) :
    (serviceEnd s h p st).plan h = some (runCounted x) := by
  have hcounted : (bump ((dropWait s (.gate h)).setPlan h runCounted) (rk pPLAN 0x148) 48 1).plan h =
      some (runCounted x) := by
    rw [plan_congr (bump_logsOnly ..).plans]
    exact plan_setPlan_self runCounted hx
  have hfree := serviceFree_of_noRetire hcounted hretire
  unfold runCounted at hfree hcounted ⊢
  simp only [serviceEnd, hfree]
  split
  · rw [plan_congr (detectPlan_plans ..), plan_congr (logEvt_logsOnly ..).plans, hcounted]
  · next hst =>
    split
    · next z hz => rw [if_neg (by simp [hpost.resolve_left hst z hz]), hcounted]
    · exact hcounted

/-! ### The command -/

section
variable {c : Cmd} {h : Nat} {p : Plan} {work : Eng (Status × W64)} {st : Status} {r : W64}
  (hready : serviceReady s c p = some 0)
include hready

theorem runService_ok (hwork : runEng work (serviceStart s h p) = some (.ok (st, r), t)) :
    runService c h p work s = some (endCommand (serviceEnd t h p st) c.q c.idx st r) := by
  simp only [runService, hready, hwork]; rfl

theorem runService_error (hwork : runEng work (serviceStart s h p) = some (.error st, t)) :
    runService c h p work s = some (endCommand (serviceEnd t h p st) c.q c.idx st 0) := by
  simp only [runService, hready, hwork]; rfl

end

end

end Sys2Proof.Proofs
end
section
/-! PROOFS. Function commands: APPEND, ATTEND, the EMBED operations and tables (09 R280; 10 R293, R299; 11 R310, R325 to
R329). -/
namespace Sys2Proof.Proofs
open Sys2Proof Machine Safety Laws

/-! ### APPEND -/

section
variable {s u t : State} {q : Nat} {e : W512} {c : Cmd}

/-- An APPEND of the wrong form fails; one of the right form does its batch. -/
theorem execAppend_of_starts (hs : Starts s q e [(128, 8), (136, 2), (144, 10), (160, 32), (192, 57)] .work c u)
    (hop : fld e 0 1 = 0x18) :
    let pl := if fld e 16 1 = 0xFF then none else attendPlan u c.part (fld e 16 1)
    let bad := (fld e 16 1 ≠ 0xFF ∧ pl = none) ∨ fld e 20 4 = 0 ∨ 4096 < fld e 20 4 ∨ fld e 24 8 % 64 ≠ 0
    (bad → execAppend q e s = .next (settle (failCmd u c stFormat))) ∧
    (¬ bad → ∀ st n, runEng (batchDo c (fld e 24 8) (fld e 20 4)
        (fun _ => appendEntry c pl (e.getLsbD 136) (e.getLsbD 137) (fld e 18 2))) u = some (.ok (st, n), t) →
      execAppend q e s = .next (settle (endCommand t c.q c.idx st (BitVec.ofNat 64 (sat16 n))))) := by
  obtain ⟨-, hraw, -⟩ := Starts_cmd hs
  refine ⟨fun hbad => cmdRow_of_starts hs (beq_iff_eq.mpr hop) ?_,
    fun hgood st n hrun => cmdRow_of_starts hs (beq_iff_eq.mpr hop) ?_⟩
  · simp only [Cmd.f, hraw]
    rw [if_pos hbad]
  · simp only [Cmd.f, hraw, bit_fld e (by decide : 0 < 8 * 1), bit_fld e (by decide : 1 < 8 * 1)]
    rw [if_neg hgood, hrun]
    rfl

end

/-! ### ATTEND -/

section
variable {s u t : State} {q : Nat} {e : W512} {c : Cmd} {p : Plan}

theorem execAttend_of_starts {seed : Nat} {st : Status} {n : Nat}
    (hs : Starts s q e [(128, 8), (136, 3), (144, 10), (160, 8), (168, 4), (192, 32), (224, 32), (256, 57), (320, 32),
      (352, 17), (383, 1), (384, 57)] .work c u) (hop : fld e 0 1 = 0x19)
    (hplan : attendPlan u c.part (fld e 16 1) = some p)
    (hform : attendForm c p (attendOf c) (batchShape u c (attendOf c).layer (fld e 32 8) (fld e 40 4) 0) = true)
    (hready : serviceReady u c p = some 0)
    (hrun : runEng (batchDo c (fld e 32 8) (fld e 40 4) (fun i => attendEntry c p (attendOf c)
      ((batchShape u c (attendOf c).layer (fld e 32 8) (fld e 40 4) 0).getD (0, 0)) (seed + i)))
      (serviceStart u (fld e 16 1) p) = some (.ok (st, n), t)) :
    execAttend q e seed s = .next (settle (endCommand (serviceEnd t (fld e 16 1) p st) c.q c.idx st 0)) := by
  obtain ⟨-, hraw, -⟩ := Starts_cmd hs
  refine cmdRow_of_starts hs (beq_iff_eq.mpr hop) ?_
  simp only [Cmd.f, hraw, hplan, hform, Bool.not_true, Bool.false_eq_true, if_false]
  exact runService_ok hready ((runEng_bind_ok hrun).trans (runEng_pure _ _))

end

/-! ### EMBED on an open table -/

/-- The work of an EMBED operation's service run: TABLE_CLOSE works at once, any other reads its arguments first. -/
def embedService (op : Nat) (work : Cmd → Plan → Nat → Table → Nat → Eng (Status × W64)) (c : Cmd) (p : Plan)
    (tb : Table) : Eng (Status × W64) := do
  let w := { c.who with eng := .work }
  if op = 6 then work c p (c.f 18 2) tb 0
  else
    let d ← readDva w .l2 (c.f 24 8) 128
    if !argsForm op p tb (leNat d) then failAt w stFormat 1 (c.f 24 8)
    if !argsAlign (embArgs (leNat d)) then failAt w stAlign 1 (c.f 24 8)
    work c p (c.f 18 2) tb (leNat d)

section
variable {s u t : State} {q op : Nat} {e : W512} {c : Cmd} {p : Plan} {tb : Table}
  {work : Cmd → Plan → Nat → Table → Nat → Eng (Status × W64)}

/-- Arguments of the right form and alignment: the operation does its work from there. -/
theorem runEng_embedService {d : List Byte} (hop : op ≠ 6)
    (hread : runEng (readDva { c.who with eng := .work } .l2 (c.f 24 8) 128) s = some (.ok d, t))
    (hform : argsForm op p tb (leNat d) = true) (halign : argsAlign (embArgs (leNat d)) = true) :
    runEng (embedService op work c p tb) s = runEng (work c p (c.f 18 2) tb (leNat d)) t := by
  simp only [embedService, if_neg hop, runEng_bind_ok hread, hform, halign, Bool.not_true, Bool.false_eq_true, if_false]

/-- A table of another partition is refused; on one of the command's the service plan runs. -/
theorem embedRow_of_starts (hs : Starts s q e [(128, 16), (144, 12), (192, 57)] .work c u) (hcode : fld e 0 1 = 0x1A)
    (hop : fld e 17 1 = op) (hplan : embedPlan u c.part (fld e 16 1) = some p)
    (htab : tfind u.emb.tables (fld e 18 2) = some tb) :
    (tb.part ≠ c.part → embedRow q e op work s = .next (settle (failCmd u c stPerm))) ∧
    (tb.part = c.part → (op = 6 ∨ fld e 24 8 % 64 = 0) →
      runService c (fld e 16 1) p (embedService op work c p tb) u = some t →
      embedRow q e op work s = .next (settle t)) := by
  obtain ⟨-, hraw, -⟩ := Starts_cmd hs
  have hrow : (opcodeOf e == 0x1A && fld e 17 1 == op) = true := by simp [opcodeOf, hcode, hop]
  refine ⟨fun hpart => cmdRow_of_starts hs hrow ?_, fun hpart halign hrun => cmdRow_of_starts hs hrow ?_⟩
  · simp only [Cmd.f, hraw, hplan, htab]
    rw [if_pos hpart]
  · have hok : ¬ (op ≠ 6 ∧ fld e 24 8 % 64 ≠ 0) := by tauto
    simp only [embedService, Cmd.f, hraw] at hrun
    simp only [Cmd.f, hraw, hplan, htab]
    rw [if_neg (not_not.mpr hpart), if_neg hok, hrun]

/-- Each of the four operations on rows is an EMBED row with its own work. -/
theorem exec_embedOp {late : List Nat} {hc : HostCpl} {i : Instr}
    (hi : (op, i, work) ∈ [(1, .gather q e late hc, gatherWork late hc), (2, .pool q e late hc, poolWork late hc),
      (3, .scatterAdd q e hc, scatterWork hc), (4, .updateRow q e hc, updateWork hc)]) :
    op ≠ 6 ∧ exec i s = embedRow q e op work s := by
  simp only [List.mem_cons, Prod.mk.injEq, List.not_mem_nil, or_false] at hi
  obtain ⟨rfl, rfl, rfl⟩ | ⟨rfl, rfl, rfl⟩ | ⟨rfl, rfl, rfl⟩ | ⟨rfl, rfl, rfl⟩ := hi
  · exact ⟨by decide, exec_gather ..⟩
  · exact ⟨by decide, exec_pool ..⟩
  · exact ⟨by decide, exec_scatterAdd ..⟩
  · exact ⟨by decide, exec_updateRow ..⟩

end

/-! ### TABLE_OPEN -/

/-- The state in which a table without a row cache stands open under an id. -/
def tableEntered (s : State) (c : Cmd) (v k : Nat) : State :=
  (clearRegion (draw s).2 0 0).setEmb (fun m => { m with
    tables := tput m.tables k { tableOf v c.part c.ctx (Config.freeWord s.free) with base := 0 } })

theorem tfind_tableEntered (s : State) (c : Cmd) (v k j : Nat) : tfind (tableEntered s c v k).emb.tables j =
    if j = k then some (tableOf v c.part c.ctx (Config.freeWord s.free)) else tfind s.emb.tables j := tfind_tput ..

section
variable {s u t : State} {q : Nat} {e : W512} {c : Cmd} {p : Plan} {d : List Byte} {x : Ctx} {k : Nat}

/-- A descriptor of the right form, of a context that the partition owns, enters its table at the lowest free id. -/
theorem runEng_openWork (hread : runEng (readDva { c.who with eng := .work } .l2 (c.f 24 8) 64) s = some (.ok d, t))
    (hform : tableForm (leNat d) = true) (hctx : ctxOf t c.ctx = some x) (hpart : x.part = c.part)
    (hsets : bits (leNat d) 160 28 = 0) (hk : k < 4096) (hfree : tfind t.emb.tables k = none)
    (hlow : ∀ j < k, tfind t.emb.tables j ≠ none) :
    runEng (openWork c) s = some (.ok (0, BitVec.ofNat 64 k), tableEntered t c (leNat d) k) := by
  have hfind : (List.range 4096).find? (fun i => (tfind (draw t).2.emb.tables i).isNone) = some k :=
    find?_range_lowest hk hfree hlow
  have hnone : (tableOf (leNat d) c.part c.ctx (draw t).1).sets = 0 := hsets
  simp only [openWork, runEng_bind_ok hread, runEng_bind_ok (runEng_get t), hform, hctx, hpart, hfind, beq_self_eq_true,
    Bool.not_true, Bool.false_eq_true, if_false, if_pos hnone]
  rw [if_neg (fun hno => hno.1 hnone)]
  rfl

theorem execTableOpen_of_starts (hs : Starts s q e [(128, 16), (144, 12), (192, 57)] .work c u) (hcode : fld e 0 1 = 0x1A)
    (hop : fld e 17 1 = 5) (hplan : embedPlan u c.part (fld e 16 1) = some p) (hid : fld e 18 2 = 0)
    (halign : fld e 24 8 % 64 = 0) (hrun : runService c (fld e 16 1) p (openWork c) u = some t) :
    execTableOpen q e s = .next (settle t) := by
  obtain ⟨-, hraw, -⟩ := Starts_cmd hs
  refine cmdRow_of_starts hs (by simp [opcodeOf, hcode, hop]) ?_
  simp only [Cmd.f, hraw, hplan, hid, halign, ne_eq, not_true_eq_false, if_false]
  exact hrun

end

/-! ### TABLE_CLOSE -/

/-- The state in which every pending move of a table has been aborted and the table is gone. -/
def tableRemoved (s : State) (id : Nat) : State :=
  ((s.emb.moves.filter (fun m => m.table = id)).foldl abortRowMove s).setEmb (fun m => {
    m with tables := tdel m.tables id })

theorem tagSet_emb (s : State) (tb : Table) (set way v : Nat) : (tagSet s tb set way v).emb = s.emb :=
  (homeWrite_serviceOnly ..).emb

/-- An aborted move opens and closes no table. -/
theorem abortRowMove_tables (s : State) (m : RowMove) : (abortRowMove s m).emb.tables = s.emb.tables := by
  simp only [abortRowMove, apply_ite State.emb, (bump_logsOnly ..).emb, ite_self, setEmb_emb]
  split
  · simp only [apply_ite State.emb, tagSet_emb, ite_self]
  · rfl

theorem tfind_tableRemoved (s : State) (id j : Nat) :
    tfind (tableRemoved s id).emb.tables j = if j = id then none else tfind s.emb.tables j := by
  have hkept : ((s.emb.moves.filter (fun m => m.table = id)).foldl abortRowMove s).emb.tables = s.emb.tables :=
    foldl_keeps (fun s : State => s.emb.tables) abortRowMove_tables ..
  rw [tableRemoved, setEmb_emb, tfind_tdel, hkept]

/-- Without a row cache nothing has to be evicted. -/
theorem runEng_closeWork {s : State} {hc : HostCpl} {c : Cmd} {p : Plan} {id v : Nat} {tb : Table} (hsets : tb.sets = 0) :
    runEng (closeWork hc c p id tb v) s = some (.ok (0, 0), tableRemoved s id) := by
  simp only [closeWork, hsets, List.range_zero]
  rfl

/-- Settles O37: each function command is one run of its service plan, whose work decides its status; tables enter and leave
the list of open tables, the lowest free id being the model's choice. -/
theorem functionCommands : Obligations.FunctionCommands := by
  unfold Obligations.FunctionCommands
  intro s u t t1 t2 q e c p st r n hc
  refine ⟨?append, ?attend, ?embed, ?table, ?count⟩
  case append =>
    intro hs hop
    obtain ⟨hbad, hgood⟩ := execAppend_of_starts (t := t) hs hop
    refine ⟨hbad, fun hpl hfirst hlast halign hrun => hgood ?_ st n hrun⟩
    rintro (⟨hh, hnone⟩ | hn | hn | hn)
    · exact hpl.elim hh (fun hsome => hsome hnone)
    all_goals omega
  case attend =>
    intro seed hs hop a ref hplan hform hready hrun
    exact execAttend_of_starts hs hop hplan hform hready hrun
  case embed =>
    intro op i work late hi hs hcode hop hplan tb htab
    obtain ⟨hsix, hexec⟩ := exec_embedOp (s := s) hi
    obtain ⟨-, hraw, -⟩ := Starts_cmd hs
    rw [Ends, Ends, hexec]
    refine ⟨fun hpart => (embedRow_of_starts (t := t) hs hcode hop hplan htab).1 hpart,
      fun hpart halign hready d hread hform hargs => ?_⟩
    have hwork : runEng (embedService op work c p tb) (serviceStart u (fld e 16 1) p) =
        runEng (work c p (fld e 18 2) tb (leNat d)) t1 := by
      rw [runEng_embedService hsix (by rw [Cmd.f, hraw]; exact hread) hform hargs, Cmd.f, hraw]
    exact ⟨fun hrun => (embedRow_of_starts hs hcode hop hplan htab).2 hpart (.inr halign)
        (runService_ok hready (hwork.trans hrun)),
      fun hrun => (embedRow_of_starts hs hcode hop hplan htab).2 hpart (.inr halign)
        (runService_error hready (hwork.trans hrun))⟩
  case table =>
    intro hs hcode hplan hready
    obtain ⟨-, hraw, -⟩ := Starts_cmd hs
    constructor
    · intro hop hid halign d hread hform hctx hsets k hk hfree hlow
      obtain ⟨x, hx, hpart⟩ := hctx
      have hwork := runEng_openWork (by rw [Cmd.f, hraw]; exact hread) hform hx hpart hsets hk hfree hlow
      have htable := tfind_tableEntered t c (leNat d) k
      exact ⟨tableEntered t c (leNat d) k,
        execTableOpen_of_starts hs hcode hop hplan hid halign (runService_ok hready hwork),
        (htable k).trans (if_pos rfl), fun j hj => (htable j).trans (if_neg hj)⟩
    · intro hop tb htab hpart hsets
      have htable := tfind_tableRemoved (serviceStart u (fld e 16 1) p) (fld e 18 2)
      rw [serviceStart_emb] at htable
      refine ⟨tableRemoved (serviceStart u (fld e 16 1) p) (fld e 18 2), ?_, (htable _).trans (if_pos rfl),
        fun j hj => (htable j).trans (if_neg hj)⟩
      have hwork : runEng (embedService 6 (closeWork hc) c p tb) (serviceStart u (fld e 16 1) p) =
          some (.ok (0, 0), tableRemoved (serviceStart u (fld e 16 1) p) (c.f 18 2)) := by
        rw [embedService, if_pos rfl, runEng_closeWork hsets]
      rw [Cmd.f, hraw] at hwork
      exact (embedRow_of_starts hs hcode hop hplan htab).2 hpart (.inl rfl) (runService_ok hready hwork)
  case count => exact fun x hx hretire hpost => plan_serviceEnd hx hretire hpost

end Sys2Proof.Proofs
end
section
/-! SUPPORT. Collective groups: which one a number finds, and what entering ABORTED leaves of it (12 R347, R349, R350). -/
namespace Sys2Proof.Proofs
open Sys2Proof Machine Safety Laws

section
variable {s : State} {part : BitVec 6} {gid : W16} {g : Machine.Group}

/-! ### Finding a group -/

theorem findGroup_key (h : findGroup s part gid = some g) : g.part = part ∧ g.gid = gid := by
  simpa using List.find?_some h

theorem findGroup_congr {t : State} (h : t.sync.groups = s.sync.groups) (part : BitVec 6) (gid : W16) :
    findGroup t part gid = findGroup s part gid := by rw [findGroup, findGroup, h]

/-- A change of a group that keeps its partition and number is found under them. -/
theorem findGroup_setGroup {f : Machine.Group → Machine.Group}
    (hkey : ∀ g : Machine.Group, g.part = part → g.gid = gid → (f g).part = part ∧ (f g).gid = gid)
    (h : findGroup s part gid = some g) : findGroup (setGroup s part gid f) part gid = some (f g) := by
  obtain ⟨hpart, hgid⟩ := findGroup_key h
  have hsame : (fun g : Machine.Group => g.part == part && g.gid == gid) ∘
      (fun g => if g.part = part ∧ g.gid = gid then f g else g) = fun g => g.part == part && g.gid == gid := by
    funext x
    by_cases hx : x.part = part ∧ x.gid = gid
    · obtain ⟨hpart, hgid⟩ := hkey x hx.1 hx.2
      simp [hx, hpart, hgid]
    · simp [hx]
  rw [findGroup, setGroup, setSync_sync, List.find?_map, hsame]
  rw [findGroup] at h
  rw [h, Option.map_some, if_pos ⟨hpart, hgid⟩]

/-! ### Entering ABORTED -/

/-- The group once it has entered ABORTED at a module time. -/
def abortedFor (g : Machine.Group) (cause : Status) (time : W64) : Machine.Group :=
  { g with aborted := true, cause := cause, repeats := 0, abortedAt := time }

/-- The state in which a group stands ABORTED, its members have been told and the abort is on record; the waits on its
counters have not ended yet. -/
def abortTold (s : State) (part : BitVec 6) (gid : W16) (g : Machine.Group) (cause : Status) : State :=
  logRecord (logEvt ((bump (sendAborts (setGroup s part gid (fun _ => g)) g) (rk pSYNC 0x138) 32 1).setReg
    (rk pSYNC 0x148) (BitVec.ofNat 64 (gid.toNat + 2 ^ 16 * part.toNat + 2 ^ 24 * cause.toNat))) pSYNC 0) pSYNC
    { status := stAborted, part := some part, info := cause.toNat, aux := gid.toNat }

theorem sendAborts_sync (s : State) (g : Machine.Group) : (sendAborts s g).sync = s.sync := by
  refine foldl_keeps State.sync (fun t m => ?_) ..
  split
  · rfl
  · rw [(sendCtl_sentOnly ..).1]

theorem abortTold_sync (s : State) (part : BitVec 6) (gid : W16) (g : Machine.Group) (cause : Status) :
    (abortTold s part gid g cause).sync = (setGroup s part gid (fun _ => g)).sync := by
  rw [abortTold, (logRecord_logsOnly ..).sync, (logEvt_logsOnly ..).sync, setReg_sync, (bump_logsOnly ..).sync,
    sendAborts_sync]

/-- A group enters ABORTED only once. -/
theorem enterAborted_of_aborted (cause : Status) (h : findGroup s part gid = some g) (ha : g.aborted = true) :
    enterAborted s part gid cause = s := by simp only [enterAborted, h, ha, if_true]

/-- A group on whose counters nobody waits enters ABORTED, and no wait ends with it. -/
theorem enterAborted_of_noWaits (cause : Status) (h : findGroup s part gid = some g) (ha : g.aborted = false)
    (hwaits : s.sync.waits = []) :
    enterAborted s part gid cause = abortTold s part gid (abortedFor g cause s.lamp.moduleTime) cause := by
  have hnone : (abortTold s part gid (abortedFor g cause s.lamp.moduleTime) cause).sync.waits = [] := by
    rw [abortTold_sync, setGroup, setSync_sync, hwaits]
  simp only [abortTold, abortedFor] at hnone
  simp only [enterAborted, h, ha, Bool.false_eq_true, if_false, hnone, List.filter_nil, List.foldl_nil]
  rfl

theorem findGroup_abortTold (cause : Status) (time : W64) (h : findGroup s part gid = some g) :
    findGroup (abortTold s part gid (abortedFor g cause time) cause) part gid = some (abortedFor g cause time) := by
  rw [findGroup_congr (congrArg _ (abortTold_sync ..))]
  exact findGroup_setGroup (fun _ _ _ => findGroup_key (g := g) h) h

end

end Sys2Proof.Proofs
end
section
/-! PROOFS. COLL_OPEN, COLL_ABORT, COLL_RESET, COLL_CLOSE and ABORT messages (12 R347 to R351). -/
namespace Sys2Proof.Proofs
open Sys2Proof Machine Safety Laws

/-! ### COLL_OPEN -/

/-- The group that a descriptor and its list of members open. -/
def openedGroup (s : State) (c : Cmd) (d : W512) (ms : List Member) : Machine.Group :=
  ⟨c.part, BitVec.ofNat 16 (fld d 0 2), ms, some (BitVec.ofNat 12 (qComp (s.queue c.q))), false, 0, 0, 0⟩

/-- The state in which a group stands after all the others. -/
def groupEntered (s : State) (g : Machine.Group) : State := s.setSync (fun y => { y with groups := y.groups ++ [g] })

section
variable {s t t2 : State} {c : Cmd} {dva : Nat} {d l : List Byte} {ms : List Member}

/-- A descriptor and a list of the right form, of a new group that names this controller, enter their group. -/
theorem runEng_openGroup (halign : dva % 64 = 0) (hread : runEng (readDva c.who .l2 dva 64) s = some (.ok d, t))
    (hform : groupForm (lineOf d) = true)
    (hlist : runEng (readDva c.who .l2 (bits (fld (lineOf d) 8 8) 0 57) (8 * fld (lineOf d) 2 2)) t = some (.ok l, t2))
    (hms : membersOf l (fld (lineOf d) 2 2) = some ms) (hhere : ∃ m ∈ ms, m.agent = t2.xbar.agentId)
    (hnew : findGroup t2 c.part (BitVec.ofNat 16 (fld (lineOf d) 0 2)) = none) (hroom : t2.sync.groups.length < 1024)
    (howned : foreignCounter t2 c.part ms = none) :
    runEng (openGroup c dva) s = some (.ok 0, groupEntered t2 (openedGroup t2 c (lineOf d) ms)) := by
  have hnamed : ms.all (fun m => m.agent != t2.xbar.agentId) = false := by simpa using hhere
  simp only [openGroup, halign, ne_eq, not_true_eq_false, if_false, runEng_bind_ok hread, hform, Bool.not_true,
    Bool.false_eq_true, runEng_bind_ok hlist, runEng_bind_ok (runEng_get t2), hms, hnamed, hnew, Option.isSome_none,
    Bool.or_self, Nat.not_le.mpr hroom, howned]
  rfl

end

/-! ### Commands on an open group -/

/-- The low bits of a command's field are the bits of its entry. -/
theorem ofNat_fld (e : W512) (i : Nat) {n w : Nat} (h : w ≤ 8 * n) :
    BitVec.ofNat w (fld e i n) = e.extractLsb' (8 * i) w := by
  apply BitVec.eq_of_toNat_eq
  rw [BitVec.extractLsb'_toNat, Nat.shiftRight_eq_div_pow, BitVec.toNat_ofNat, fld, bits]
  exact Nat.mod_mod_of_dvd _ (Nat.pow_dvd_pow 2 h)

/-- The group id of a command's bytes 16 and 17. -/
theorem ofNat_fld_group (e : W512) : BitVec.ofNat 16 (fld e 16 2) = e.extractLsb' 128 16 := ofNat_fld e 16 (by decide)

section
variable {s u : State} {q : Nat} {e : W512} {c : Cmd} {g : Machine.Group} {fields : List (Nat × Nat)}

theorem groupCmd_noGroup (hs : Starts s q e fields .work c u) (hnone : findGroup u c.part (e.extractLsb' 128 16) = none)
    (f : Machine.Group → State) : groupCmd c u f = some (failCmd u c stFormat) := by
  obtain ⟨-, hraw, -⟩ := Starts_cmd hs
  simp only [groupCmd, Cmd.f, hraw, ofNat_fld_group, hnone]

theorem groupCmd_of_group (hs : Starts s q e fields .work c u)
    (hg : findGroup u c.part (e.extractLsb' 128 16) = some g) (f : Machine.Group → State) :
    groupCmd c u f = some (f g) := by
  obtain ⟨-, hraw, -⟩ := Starts_cmd hs
  simp only [groupCmd, Cmd.f, hraw, ofNat_fld_group, hg]

/-- A number under which the partition has no open group is refused, whichever command names it. -/
theorem exec_noGroup {op : Nat} {i : Instr}
    (hi : (op, fields, i) ∈ [(0x21, [(128, 16), (144, 8)], .collAbort q e), (0x22, [(128, 16)], .collReset q e),
      (0x23, [(128, 16)], .collClose q e)])
    (hs : Starts s q e fields .work c u) (hop : fld e 0 1 = op)
    (hnone : findGroup u c.part (e.extractLsb' 128 16) = none) : exec i s = .next (settle (failCmd u c stFormat)) := by
  have hcmd := groupCmd_noGroup hs hnone
  simp only [List.mem_cons, Prod.mk.injEq, List.not_mem_nil, or_false] at hi
  obtain ⟨rfl, rfl, rfl⟩ | ⟨rfl, rfl, rfl⟩ | ⟨rfl, rfl, rfl⟩ := hi
  · rw [exec_collAbort]; exact cmdRow_of_starts hs (beq_iff_eq.mpr hop) (hcmd _)
  · rw [exec_collReset]; exact cmdRow_of_starts hs (beq_iff_eq.mpr hop) (hcmd _)
  · rw [exec_collClose]; exact cmdRow_of_starts hs (beq_iff_eq.mpr hop) (hcmd _)

/-- The state in which a group is ACTIVE again and its hub counters on this controller read 0. -/
def groupReset (s : State) (g : Machine.Group) : State :=
  setGroup (s.setSync (fun y => { y with hub := y.hub.filter (fun e => !groupCounters s g e.1) })) g.part g.gid
    (fun g => { g with aborted := false, cause := 0 })

theorem hubGet_groupReset (s : State) (g : Machine.Group) (k : Nat) :
    hubGet (groupReset s g) k = if g.owns s.xbar.agentId k then 0 else hubGet s k := by
  have hfilter := tget_filter_key 0 (fun j => !groupCounters s g j) s.sync.hub k
  cases hk : g.owns s.xbar.agentId k <;> simpa [groupReset, setGroup, hubGet, groupCounters, hk] using hfilter

theorem findGroup_groupReset {part : BitVec 6} {gid : W16} (h : findGroup s part gid = some g) :
    findGroup (groupReset s g) part gid = some { g with aborted := false, cause := 0 } := by
  obtain ⟨rfl, rfl⟩ := findGroup_key h
  exact findGroup_setGroup (fun _ hpart hgid => ⟨hpart, hgid⟩) h

/-- The state in which a group is gone. -/
def groupRemoved (s : State) (g : Machine.Group) : State :=
  s.setSync (fun y => { y with groups := y.groups.filter (fun h => ¬ (h.part = g.part ∧ h.gid = g.gid)) })

theorem findGroup_groupRemoved {part : BitVec 6} {gid : W16} (h : findGroup s part gid = some g) :
    findGroup (groupRemoved s g) part gid = none := by
  obtain ⟨rfl, rfl⟩ := findGroup_key h
  rw [findGroup, groupRemoved, setSync_sync, List.find?_eq_none]
  intro x hx
  simpa [imp_iff_not_or] using (List.mem_filter.mp hx).2

variable (hg : findGroup u c.part (e.extractLsb' 128 16) = some g)
include hg

theorem execCollAbort_of_starts (hs : Starts s q e [(128, 16), (144, 8)] .work c u) (hop : fld e 0 1 = 0x21) :
    Ends (.collAbort q e) s c (enterAborted u c.part (e.extractLsb' 128 16) (BitVec.ofNat 8 (fld e 18 1))) 0 0 := by
  obtain ⟨-, hraw, -⟩ := Starts_cmd hs
  obtain ⟨hpart, hgid⟩ := findGroup_key hg
  rw [Ends, exec_collAbort]
  refine cmdRow_of_starts hs (beq_iff_eq.mpr hop) ?_
  rw [groupCmd_of_group hs hg, hpart, hgid, Cmd.f, hraw]
  rfl

/-- COLL_RESET is refused for 100 µs after the abort, 10,000 ticks of module time, and resets the group after them. -/
theorem execCollReset_of_starts (hs : Starts s q e [(128, 16)] .work c u) (hop : fld e 0 1 = 0x22) :
    exec (.collReset q e) s = .next (settle (if g.aborted ∧ u.lamp.moduleTime - g.abortedAt < 10000
      then failCmd u c stBusy else endCommand (groupReset u g) c.q c.idx 0 0)) := by
  rw [exec_collReset]
  exact cmdRow_of_starts hs (beq_iff_eq.mpr hop) (groupCmd_of_group hs hg _)

theorem execCollClose_of_starts (hs : Starts s q e [(128, 16)] .work c u) (hop : fld e 0 1 = 0x23) :
    Ends (.collClose q e) s c (groupRemoved u g) 0 0 := by
  rw [Ends, exec_collClose]
  exact cmdRow_of_starts hs (beq_iff_eq.mpr hop) (groupCmd_of_group hs hg _)

end

/-! ### ABORT messages -/

section
variable {s : State} {port : Nat} {m : CtlMsg} {g : Machine.Group} (hport : port < Config.ports)
  (hlive : portLive s port = true) (htype : m.ctype = 7) (hdst : m.dst = s.xbar.agentId)
include hport hlive htype hdst

theorem execAbort_of_member (hg : findGroup (takeCtl s port m) m.part (m.body.extractLsb' 0 16) = some g)
    (hmember : ∃ x ∈ g.members, x.agent = m.src) :
    exec (.abort port m) s = .next (settle (enterAborted (takeCtl s port m) m.part (m.body.extractLsb' 0 16)
      (m.body.extractLsb' 16 8))) := by
  obtain ⟨hpart, hgid⟩ := findGroup_key hg
  have hany : g.members.any (fun x => x.agent == m.src) = true := by simpa using hmember
  have hcause : BitVec.ofNat 8 (cfld m 10 1) = m.body.extractLsb' 16 8 := ofNat_cfld m 10 1
  have hid : BitVec.ofNat 16 (cfld m 8 2) = m.body.extractLsb' 0 16 := ofNat_cfld m 8 2
  simp [execAbort, onOk, portOk, hport, hlive, htype, hdst, hid, hg, hany, hpart, hgid, hcause]

theorem execAbort_of_stranger
    (hstranger : ∀ g, findGroup (takeCtl s port m) m.part (m.body.extractLsb' 0 16) = some g →
      ∀ x ∈ g.members, x.agent ≠ m.src) :
    exec (.abort port m) s = .next (bump (takeCtl s port m) (rk pSYNC 0x140) 32 1) := by
  have hid : BitVec.ofNat 16 (cfld m 8 2) = m.body.extractLsb' 0 16 := ofNat_cfld m 8 2
  cases hg : findGroup (takeCtl s port m) m.part (m.body.extractLsb' 0 16) with
  | none => simp [execAbort, onOk, portOk, hport, hlive, htype, hdst, hid, hg]
  | some g =>
    have hany : g.members.any (fun x => x.agent == m.src) = false := by simpa using hstranger g hg
    simp [execAbort, onOk, portOk, hport, hlive, htype, hdst, hid, hg, hany]

end

theorem execAbortRepeat_of_aborted {s : State} {part : BitVec 6} {gid : W16} {g : Machine.Group}
    (h : findGroup s part gid = some g) (ha : g.aborted = true) (hr : g.repeats < 2) :
    exec (.abortRepeat part gid) s =
      .next (sendAborts (setGroup s part gid (fun g => { g with repeats := g.repeats + 1 })) g) := by
  rw [exec_abortRepeat]
  simp only [execAbortRepeat, h, if_pos (And.intro ha hr)]

/-- Settles O40: each command finds its group by the partition of its queue and its number; entering ABORTED is one
operation, which COLL_ABORT and an ABORT from a member share and which does nothing the second time. -/
theorem collectiveGroups : Obligations.CollectiveGroups := by
  unfold Obligations.CollectiveGroups
  intro s u t q e c g
  refine ⟨?opens, ?noGroup, ?onGroup, ?enters, ?once, ?message, ?again⟩
  case opens =>
    intro hs hop halign d l ms t2 hread hform hlist hms hhere hnew hroom howned
    obtain ⟨rfl, rfl, -⟩ := Starts_cmd hs
    refine ⟨groupEntered t2 (openedGroup t2 c (lineOf d) ms), ?_, rfl⟩
    rw [Ends, exec_collOpen]
    exact cmdRow_of_starts hs (beq_iff_eq.mpr hop)
      (engCmd_ok (runEng_openGroup halign hread hform hlist hms hhere hnew hroom howned))
  case noGroup => exact fun op fields i hi hs hop hnone => exec_noGroup hi hs hop hnone
  case onGroup =>
    intro hg
    refine ⟨execCollAbort_of_starts hg, fun hs hop => ⟨fun ha hearly => ?_, fun hlate => ?_⟩, fun hs hop =>
      ⟨groupRemoved u g, execCollClose_of_starts hg hs hop, findGroup_groupRemoved hg, rfl⟩⟩
    · rw [execCollReset_of_starts hg hs hop, if_pos ⟨ha, hearly⟩]
    · refine ⟨groupReset u g, ?_, ⟨_, findGroup_groupReset hg, rfl, rfl⟩, hubGet_groupReset u g⟩
      rw [Ends, execCollReset_of_starts hg hs hop, if_neg (fun h => hlate h.1 h.2)]
  case enters =>
    intro part id cause hg ha hwaits
    refine ⟨abortedFor g cause s.lamp.moduleTime, ?_, rfl, rfl, rfl, rfl⟩
    rw [enterAborted_of_noWaits cause hg ha hwaits]
    exact findGroup_abortTold cause _ hg
  case once => exact fun part id cause hg ha => enterAborted_of_aborted cause hg ha
  case message =>
    exact fun port m hport hlive htype hdst =>
      ⟨execAbort_of_member hport hlive htype hdst, execAbort_of_stranger hport hlive htype hdst⟩
  case again => exact fun part id hg ha hr => execAbortRepeat_of_aborted hg ha hr

end Sys2Proof.Proofs
end

section
/-! SUPPORT. The host link's own events: LINK_STAT, decoders, resets of functions and of the link, configuration space,
BAR4, and the mailboxes (13 R359 to R365, R384, R385; 16 R452; 17 R494). -/
namespace Sys2Proof.Proofs
open Sys2Proof Machine Safety Laws

theorem LogsOnly.host {s t : State} (h : LogsOnly s t) : t.host = s.host := by rw [h]
theorem LogsOnly.dir {s t : State} (h : LogsOnly s t) : t.dir = s.dir := by rw [h]

/-! ### LINK_STAT (R384, R385) -/

theorem setLink_ideGo (s : State) (v : W64) : (setLink s v).host.ideGo = s.host.ideGo := by
  simp only [setLink]
  split
  · rfl
  · rw [(logEvt_logsOnly ..).host]; rfl

theorem setLink_linkStat (s : State) (v : W64) : (setLink s v).host.linkStat = v &&& 0x1FFF := by
  simp only [setLink]
  split
  · next h => exact h.symm
  · rw [(logEvt_logsOnly ..).host]; rfl

theorem setLink_deadTimer {s : State} {v : W64} (h : v &&& 0x1FFF ≠ s.host.linkStat) : (setLink s v).host.deadTimer =
    if v.getLsbD 12 then false else s.host.deadTimer || dlActive s := by
  simp only [setLink, if_neg h]
  rw [(logEvt_logsOnly ..).host, setHost_host]
  simp

/-- LINK_STAT.IDE reads 1 once the link stream has started. -/
theorem refreshIde_linkStat {s : State} (h : 0 ∈ s.host.ideGo) : (refreshIde s).host.linkStat.getLsbD 11 = true := by
  rw [refreshIde, if_pos (List.contains_iff_mem.mpr h), setLink_linkStat]
  simp

/-! ### HDM decoders (R364, R365) -/

section
variable {s : State} {n ways : Nat} {base size : W64} {coh : Bool} {w : Window} (hn : n < 16)
  (hw : tget Window.off s.host.windows n = w) (hopen : w.committed = false) (hstop : s.host.stopped = false)
include hn hw hopen hstop

theorem execHdmCommit_commits (hmay : mayCommit s w base.toNat size.toNat coh ways = true) :
    execHdmCommit n base size coh ways s = .next (s.setHost (fun h =>
      { h with windows := tput h.windows n { w with committed := true, base := base, size := size, status := 0 } })) := by
  simp [execHdmCommit, hw, hn, hopen, hstop, hmay]

theorem execHdmCommit_refused (hmay : mayCommit s w base.toNat size.toNat coh ways = false) : ∃ u,
    execHdmCommit n base size coh ways s = .next u ∧ tget Window.off u.host.windows n = { w with status := stFormat } := by
  refine ⟨logErr (s.setHost (fun h => { h with windows := tput h.windows n { w with status := stFormat } })) pHOST 1
    { status := stFormat }, ?_, ?_⟩
  · simp [execHdmCommit, hw, hn, hopen, hstop, hmay]
  · rw [(logErr_logsOnly ..).host, setHost_host, tget_tput, if_pos rfl]

end

/-! ### Resets from the host (R362; 16 R452) -/

theorem execFunctionLevelReset_next {s : State} {f : BitVec 6} (hf : f ≠ 0) (hon : functionOn s f = true)
    (hstop : s.host.stopped = false) : execFunctionLevelReset f s = .next (autoReset
      (s.setHost (fun h => { h with cfgSpace := h.cfgSpace.filter (fun e => e.1 / 4096 ≠ f.toNat) })) 3 f.toNat false) := by
  rw [execFunctionLevelReset, if_neg (by simpa [hon, hstop] using hf)]

theorem execHostLinkReset_perst {s : State} (hmain : s.power.mainOn = true) (hperst : s.power.perstN = true) :
    execHostLinkReset true s = .next (resetHostLink
      ((s.setPower (fun p => { p with perstN := false })).setHost (fun h => { h with inReset := true }))) := by
  simp [execHostLinkReset, hmain, hperst]

theorem execHostLinkReset_hot {s : State} (hmain : s.power.mainOn = true) (hreset : s.host.inReset = false)
    (hdl : dlActive s = true) : execHostLinkReset false s = .next (resetHostLink s) := by
  simp [execHostLinkReset, hmain, hreset, hdl]

theorem execLinkChange_next {s : State} (v : W64) (hmain : s.power.mainOn = true) (hreset : s.host.inReset = false) :
    execLinkChange v s = .next (setLink s v) := by
  simp [execLinkChange, hmain, hreset]

theorem execPerstRelease_next {s : State} (h : s.power.perstN = false) : ∃ u, execPerstRelease s = .next u ∧
    u.power.perstN = true ∧ u.host.inReset = false := by
  simp only [execPerstRelease, h]
  exact ⟨_, rfl, rfl, rfl⟩

/-! ### Configuration space and BAR4 -/

section
variable {s : State} {f : BitVec 6} {off : BitVec 12} {x : W32} (hdl : dlActive s = true) (hstop : s.host.stopped = false)
include hdl hstop

theorem execConfigRequest_booting (write : Bool) (hboot : s.lamp.booting = true) :
    execConfigRequest f write off x s = .next (emit s .cfgRetry) := by
  simp [execConfigRequest, hdl, hstop, hboot]

theorem execConfigRequest_write (hboot : s.lamp.booting = false) (hon : functionOn s f = true) (hf : f ≠ 0) :
    execConfigRequest f true off x s =
      .next (s.setHost (fun h => { h with cfgSpace := tput h.cfgSpace (cfgKey f off) x })) := by
  have hvf : decide (f = 0 ∧ cfgKey f off = Config.sriovControl.toNat / 4 * 4) = false := decide_eq_false fun h => hf h.1
  simp only [execConfigRequest, hdl, hstop, hboot, hon, hvf]
  rfl

theorem execConfigRequest_read (hboot : s.lamp.booting = false) (hon : functionOn s f = true) {y : W32}
    (hy : tfind s.host.cfgSpace (cfgKey f off) = some y) :
    execConfigRequest f false off x s = .next (emit s (.cfgData y)) := by
  simp [execConfigRequest, hdl, hstop, hboot, hon, hy]

end

theorem reachesRsv_pf {s : State} {a n : Nat} (h : a + n ≤ 0x8000000) : reachesRsv s .pf a n = true := by
  simp [reachesRsv, h]

section
variable {s : State} {off len : Nat} (hstop : s.host.stopped = false) (hfront : s.host.notFront = false)
include hstop hfront

theorem execReservoirBarAccess_write {d : List Byte} (hd : d ≠ []) (hend : off + d.length ≤ 0x8000000) :
    execReservoirBarAccess .pf off len (some d) s = .next (reservoirWrite s off d) := by
  simp [execReservoirBarAccess, onOk, RegSrc.ok, hstop, hfront, hd, reachesRsv_pf hend]

theorem execReservoirBarAccess_read (hlen : 0 < len) (hend : off + len ≤ 0x8000000)
    (hbad : reservoirBad s off len = false) :
    execReservoirBarAccess .pf off len none s = .next (emit s (.barData (reservoirRead s off len))) := by
  simp [execReservoirBarAccess, onOk, RegSrc.ok, hstop, hfront, reachesRsv_pf hend, hbad, Nat.ne_of_gt hlen]

end

/-! ### The mailboxes (R359, R361; log entry 69) -/

theorem execClearEventRecords_next (s : State) (k n : Nat) : ∃ u,
    execClearEventRecords k n s = .next (emit u (.mailbox 0x0101 true [])) ∧
      u.host.events.getD k [] = (s.host.events.getD k []).drop n := by
  refine ⟨_, rfl, ?_⟩
  rw [setHost_host, List.getD_eq_getElem?_getD, List.getD_eq_getElem?_getD, List.getElem?_modify]
  cases s.host.events[k]? <;> simp

section
variable {s : State} (hdl : dlActive s = true) (hstop : s.host.stopped = false)
include hdl hstop

theorem execDoeRequest_spdm (c : List Byte) :
    execDoeRequest (.spdm c) s = .next (emit s (.doe (Config.spdmAnswer c))) := by
  simp [execDoeRequest, hdl, hstop]

theorem execDoeRequest_keyProg {m : Nat} (k : BitVec 256) (hm : m ≤ 8) : execDoeRequest (.ideKeyProg m k) s =
    .next (emit (s.setHost (fun h => { h with ide := tput h.ide m k })) (.doe [])) := by
  simp [execDoeRequest, hdl, hstop, hm]

theorem execDoeRequest_keyGo {m : Nat} (hkey : (tfind s.host.ide m).isSome = true) : ∃ u,
    execDoeRequest (.ideKeyGo m) s = .next (emit u (.doe [])) ∧ m ∈ u.host.ideGo ∧
      (m = 0 → u.host.linkStat.getLsbD 11 = true) := by
  refine ⟨refreshIde (s.setHost (fun h => { h with ideGo := setInsert h.ideGo m })), ?_, ?_, ?_⟩
  · simp [execDoeRequest, hdl, hstop, hkey]
  · rw [refreshIde, setLink_ideGo]
    exact (mem_setInsert ..).mpr (.inl rfl)
  · rintro rfl
    exact refreshIde_linkStat ((mem_setInsert ..).mpr (.inl rfl))

theorem execDoeRequest_keyStop (m : Nat) : ∃ u,
    execDoeRequest (.ideKeyStop m) s = .next (emit u (.doe [])) ∧ m ∉ u.host.ideGo := by
  refine ⟨refreshIde (s.setHost (fun h => { h with ideGo := h.ideGo.filter (· ≠ m) })), ?_, ?_⟩
  · simp [execDoeRequest, hdl, hstop]
  · rw [refreshIde, setLink_ideGo]
    simp

end

end Sys2Proof.Proofs
end

section
/-! SUPPORT. CXL.mem requests of the host and forwarding slots: the packets that they send (13 R365 to R367; 14 R401). -/
namespace Sys2Proof.Proofs
open Sys2Proof Machine Safety Laws

/-! ### Requests that fail before they are sent (R367) -/

theorem hostWriteFails_logsOnly (s : State) (f : Fail) : LogsOnly s (hostWriteFails s f false) := by
  have hlog := logErr_logsOnly s pHOST 0 f
  have hsent : LogsOnly (logErr s pHOST 0 f) (emit (logErr s pHOST 0 f) (.msix 0 0)) := rfl
  exact (LogsOnly.ite hlog (hlog.trans hsent)).trans (bump_logsOnly ..)

theorem hostFails_write (s : State) (a : W64) (f : Fail) : ∃ u,
    hostFails s a true false f = emit u (.memCmp a) ∧ u.store = s.store :=
  ⟨_, rfl, (hostWriteFails_logsOnly s f).store⟩

section
variable {s : State} {addr : W64}

theorem memRequest_noDecoder (opc intent : Nat) (payload : List Byte) (poison : Bool) (o : Origin)
    (h : decoderOf s (addr.toNat / 64 * 64) = none) : ∃ f,
      memRequest s addr opc intent payload poison o = hostFails s addr (opc != 0) false f := by
  simp only [memRequest, h]
  exact ⟨_, rfl⟩

/-- The poison of a MemWr is judged before its agent, its partition and its translation (log entry 68). -/
theorem memRequest_poisoned {w : Window} {c : Ctx} (opc intent : Nat) (payload : List Byte) (o : Origin)
    (hw : decoderOf s (addr.toNat / 64 * 64) = some w) (hc : ctxOf s w.ctx = some c) : ∃ f,
      memRequest s addr opc intent payload true o = hostFails s addr (opc != 0) false f := by
  simp only [memRequest, hw, Option.getD_some, hc]
  exact ⟨_, rfl⟩

/-- The packet of a CXL.mem request: made of the state before its translation, carried onward under the leaf found. -/
def hostPacket (s t : State) (opc intent : Nat) (payload : List Byte) (ctx : BitVec 20) (part : BitVec 6) (leaf : Leaf)
    (sa : Nat) : Packet :=
  onward t { mkReq s opc .work part ctx (plainLeaf 0) 0 (if opc != 0 then 0 else 64) payload with
    ekind := 0, eidx := BitVec.ofNat 12 ((hostAgent s).toNat + 1024 * intent) } leaf sa (hostAgent t) intent

/-- What a CXL.mem request's packet carries (R366). -/
theorem hostPacket_fields (s t : State) (opc intent : Nat) (payload : List Byte) (ctx : BitVec 20) (part : BitVec 6)
    (leaf : Leaf) (sa : Nat) : let q := hostPacket s t opc intent payload ctx part leaf sa
    q.opc = BitVec.ofNat 4 opc ∧ q.arg = BitVec.ofNat 32 (if opc != 0 then 0 else 64) ∧ q.payload = payload ∧
      q.addr = BitVec.ofNat 57 sa ∧ q.key = leaf.key ∧ q.part = part ∧ q.coh = leaf.c ∧ q.ekind = 0 ∧
      q.eidx = BitVec.ofNat 12 ((hostAgent t).toNat + 1024 * intent) :=
  ⟨rfl, rfl, rfl, rfl, rfl, rfl, rfl, rfl, rfl⟩

theorem memRequest_submits {t : State} {w : Window} {c : Ctx} {base dva : Nat} {leaf : Leaf} {opc : Nat} (intent : Nat)
    (payload : List Byte) (o : Origin) (hw : decoderOf s (addr.toNat / 64 * 64) = some w) (hc : ctxOf s w.ctx = some c)
    (hmay : agentMay s (hostAgent s) c.part = true) (hup : partResetting s c.part = false) (hkind : leaf.c = w.coherent)
    (hdva : dva = c.viewBase.toNat + (addr.toNat / 64 * 64 - w.base.toNat))
    (htr : runEng (translate { eng := .work, part := c.part, ctx := w.ctx } .l2 (if opc != 0 then .write else .read) dva) s =
      some (.ok (base, leaf), t)) :
    memRequest s addr opc intent payload false o =
      submit t ⟨hostPacket s t opc intent payload w.ctx c.part leaf (saUnder base leaf dva), o⟩ false := by
  subst hdva
  simp only [memRequest, hw, hc, Option.getD_some, Option.elim_some, hmay, hup, htr, hkind, Bool.false_eq_true, if_false,
    Bool.not_true, ne_eq, not_true_eq_false]
  rfl

end

/-! ### MemRd and MemWr -/

/-- Whole lines go as WRITE, others as WRITE_MASKED with their byte enables (R366). -/
def memwrOpc (mask : W64) : Nat := if mask = BitVec.allOnes 64 then 1 else 2
def memwrPayload (mask : W64) (d : List Byte) : List Byte :=
  if mask = BitVec.allOnes 64 then d else d ++ leBytes 8 mask.toNat ++ zeros 24

theorem memwrOpc_writes (mask : W64) : (memwrOpc mask != 0) = true := by
  unfold memwrOpc; split <;> rfl

theorem fitTo_of_length {n : Nat} {d : List Byte} (h : d.length = n) : fitTo n d = d := by
  rw [fitTo, ← h, List.take_left]

section
variable {s : State} {addr mask : W64} (mv : BitVec 2) (d : List Byte) (hon : cxlOn s = true)
include hon

theorem execMemrd_on : execMemrd addr mv s =
    .next (memRequest s addr 0 (metaIntent mv) [] false (.hostRead addr)) := by
  rw [execMemrd, if_pos hon]

theorem execMemwr_on (poison : Bool) : execMemwr addr mv mask d poison s = .next
    (memRequest s addr (memwrOpc mask) (metaIntent mv) (memwrPayload mask (fitTo 64 d)) poison (.hostWrite addr)) := by
  simp only [execMemwr, hon, memwrOpc, memwrPayload, Bool.not_true, Bool.false_eq_true, if_false]
  split <;> rfl

theorem execMemrd_noDecoder (h : decoderOf s (addr.toNat / 64 * 64) = none) : ∃ u,
    execMemrd addr mv s = .next (emit u (.memData addr (ones 64) true)) := by
  obtain ⟨f, hf⟩ := memRequest_noDecoder 0 (metaIntent mv) [] false (.hostRead addr) h
  rw [execMemrd_on mv hon, hf]
  exact ⟨_, rfl⟩

theorem execMemwr_of_fails {poison : Bool} (h : ∃ f, memRequest s addr (memwrOpc mask) (metaIntent mv)
    (memwrPayload mask (fitTo 64 d)) poison (.hostWrite addr) = hostFails s addr (memwrOpc mask != 0) false f) : ∃ u,
      execMemwr addr mv mask d poison s = .next (emit u (.memCmp addr)) ∧ u.store = s.store := by
  obtain ⟨f, hf⟩ := h
  obtain ⟨u, hu, hstore⟩ := hostFails_write s addr f
  exact ⟨u, by rw [execMemwr_on mv d hon, hf, memwrOpc_writes, hu], hstore⟩

section
variable {t : State} {w : Window} {c : Ctx} {base dva : Nat} {leaf : Leaf}
  (hw : decoderOf s (addr.toNat / 64 * 64) = some w) (hc : ctxOf s w.ctx = some c)
  (hmay : agentMay s (hostAgent s) c.part = true) (hup : partResetting s c.part = false) (hkind : leaf.c = w.coherent)
  (hdva : dva = c.viewBase.toNat + (addr.toNat / 64 * 64 - w.base.toNat))
include hw hc hmay hup hkind hdva

theorem execMemrd_submits (htr : runEng (translate { eng := .work, part := c.part, ctx := w.ctx } .l2 .read dva) s =
    some (.ok (base, leaf), t)) : execMemrd addr mv s = .next (submit t
      ⟨hostPacket s t 0 (metaIntent mv) [] w.ctx c.part leaf (saUnder base leaf dva), .hostRead addr⟩ false) := by
  rw [execMemrd_on mv hon, memRequest_submits (opc := 0) _ _ _ hw hc hmay hup hkind hdva htr]

theorem execMemwr_submits (hd : d.length = 64)
    (htr : runEng (translate { eng := .work, part := c.part, ctx := w.ctx } .l2 .write dva) s =
      some (.ok (base, leaf), t)) : execMemwr addr mv mask d false s = .next (submit t
        ⟨hostPacket s t (memwrOpc mask) (metaIntent mv) (memwrPayload mask d) w.ctx c.part leaf (saUnder base leaf dva),
          .hostWrite addr⟩ false) := by
  rw [execMemwr_on mv d hon, fitTo_of_length hd, memRequest_submits _ _ _ hw hc hmay hup hkind hdva]
  rw [if_pos (memwrOpc_writes mask)]
  exact htr

end

end

/-! ### Forwarding slots (14 R401) -/

/-- A range inside one line is one piece. -/
theorem linePieces_of_line {b n : Nat} (hn : 0 < n) (hline : b % 64 + n ≤ 64) : linePieces b n = [(b, n)] := by
  have hlines : linesOf b n = [b / 64] := by
    rw [linesOf_eq, lineCount, if_neg (by omega), show (b + n - 1) / 64 - b / 64 + 1 = 1 by omega]
    simp
  simp only [linePieces, hlines, List.map_cons, List.map_nil, List.cons.injEq, Prod.mk.injEq, and_true]
  omega

/-- The payload of a WRITE_MASKED that writes `d` from byte `o` of its line on. -/
def maskedPayload (o : Nat) (d : List Byte) : List Byte :=
  zeros o ++ d ++ zeros (64 - o - d.length) ++ leBytes 8 ((2 ^ d.length - 1) * 2 ^ o) ++ zeros 24

theorem getD_maskOf_maskedPayload {o i : Nat} {d : List Byte} {p : Packet} (hend : o + d.length ≤ 64)
    (hp : p.payload = maskedPayload o d) (hi : i < 64) : (maskOf p).getD i false = decide (o ≤ i ∧ i < o + d.length) := by
  have hslice : slice p.payload 64 8 = leBytes 8 ((2 ^ d.length - 1) * 2 ^ o) := by
    have hline : (zeros o ++ d ++ zeros (64 - o - d.length)).length = 64 := by simp [zeros]; omega
    rw [hp, slice, maskedPayload, List.append_assoc, List.drop_left' hline, List.take_left' (length_leBytes ..)]
  have hfits : (2 ^ d.length - 1) * 2 ^ o < 256 ^ 8 := by
    have hpow : 2 ^ d.length * 2 ^ o ≤ 2 ^ 64 := by rw [← pow_add]; exact Nat.pow_le_pow_right (by decide) (by omega)
    have hpos := Nat.mul_lt_mul_of_pos_right (Nat.sub_one_lt (Nat.two_pow_pos d.length).ne') (Nat.two_pow_pos o)
    omega
  simp only [maskOf, hslice, leNat_leBytes, Nat.mod_eq_of_lt hfits, bit]
  rw [List.getD_eq_getElem?_getD, List.getElem?_map, List.getElem?_range hi, Option.map_some, Option.getD_some,
    Nat.testBit_mul_two_pow, Nat.testBit_two_pow_sub_one, ← Bool.decide_and]
  exact decide_eq_decide.mpr (by omega)

theorem getD_maskedPayload {o i : Nat} {d : List Byte} (hlo : o ≤ i) (hhi : i < o + d.length) :
    (maskedPayload o d).getD i 0 = d.getD (i - o) 0 := by
  have hlen : (zeros o).length = o := List.length_replicate
  simp only [maskedPayload, List.append_assoc]
  rw [List.getD_append_right _ _ _ _ (by omega), hlen, List.getD_append _ _ _ _ (by omega)]

section
variable {s : State} {src : RegSrc} {n off : Nat} {c : Comp} {x : Accel} (hok : src.ok = true)
  (hslot : slotFor s src n = some (c, x))
include hok hslot

theorem execForwardWrite_line {d : List Byte} (hd : 0 < d.length) (hend : off + d.length ≤ 0x40000)
    (hline : (x.base.toNat + off) % 64 + d.length ≤ 64) : execForwardWrite src n off d s = .next (sendNew s
      (fwdPacket s c x 2 ((x.base.toNat + off) / 64 * 64) (maskedPayload ((x.base.toNat + off) % 64) d)) .forwardWrite) := by
  have hstart : x.base.toNat + off - (x.base.toNat + off) % 64 = (x.base.toNat + off) / 64 * 64 := by omega
  simp [execForwardWrite, onOk, hok, hslot, Nat.not_lt.mpr hend, linePieces_of_line hd hline, slice, maskedPayload, hstart]

theorem execForwardRead_line {len : Nat} (hend : off + len ≤ 0x40000) (hline : (x.base.toNat + off) % 64 + len ≤ 64) :
    execForwardRead src n off len s = .next (sendNew s (fwdPacket s c x 0 ((x.base.toNat + off) / 64 * 64) [])
      (.forwardRead len ((x.base.toNat + off) % 64))) := by
  simp [execForwardRead, onOk, hok, hslot, Nat.not_lt.mpr hend, Nat.not_lt.mpr hline]

end

end Sys2Proof.Proofs
end

section
/-! SUPPORT. Back-invalidates, the host's loss, and sweeps of the directory (13 R376, R380, R381, R386). -/
namespace Sys2Proof.Proofs
open Sys2Proof Machine Safety Laws

/-! ### A directory with nothing to do -/

/-- No request waits at the directory, and no answer has come at once. -/
theorem settleDir_of_idle {s : State} (hwait : s.dir.waiting = []) (hans : s.dir.answers = []) : settleDir s = s := by
  have hsame : retryDir s = s := by
    calc retryDir s = s.setDir (fun d => { d with waiting := [] }) := by rw [retryDir, hwait]; rfl
      _ = s.setDir (fun d => { d with waiting := s.dir.waiting }) := by rw [hwait]
      _ = s := rfl
  rw [settleDir, show s.dir.answers.length + 1025 * (s.dir.waiting.length + s.dir.txns.length + 1) =
    (s.dir.answers.length + 1025 * (s.dir.waiting.length + s.dir.txns.length) + 1024) + 1 by omega, settleDirN]
  simp only [hans, hsame, and_self, if_true]

/-- A sweep of an idle directory without entries only starts. -/
theorem startSweep_of_idle {s : State} (a : BitVec 10) (remove hostDead : Bool) (hentries : s.dir.entries = [])
    (hwait : s.dir.waiting = []) (hans : s.dir.answers = []) : startSweep s a remove hostDead = s.setDir (fun d => { d with
      sweep := some ⟨a, remove, hostDead⟩, walked := 0 }) := by
  rw [startSweep]
  simp only [setDir_dir, hentries, List.map_nil, List.foldl_nil]
  exact settleDir_of_idle hwait hans

theorem hostDies_of_idle {s : State} (hdead : s.host.dead = false) (hentries : s.dir.entries = [])
    (hwait : s.dir.waiting = []) (hans : s.dir.answers = []) (hopen : s.host.bisnp = []) :
    (hostDies s).host = { s.host with dead := true, deadTimer := false, bisnp := [] } := by
  have hlog := logEvt_logsOnly (s.setHost (fun h => { h with dead := true, deadTimer := false, bisnp := [] })) pHOST 0
  have hdir := hlog.dir
  rw [setHost_dir] at hdir
  rw [hostDies, hdead]
  simp only [hopen, List.foldl_nil, Bool.false_eq_true, if_false]
  split_ifs
  · rw [settleDir_of_idle (by rw [hdir, hwait]) (by rw [hdir, hans]), hlog.host, setHost_host]
  · rw [settleDir_of_idle (by rw [setDir_dir, hdir, hwait]) (by rw [setDir_dir, hdir, hans]), setDir_host, hlog.host,
      setHost_host]
  · rw [startSweep_of_idle _ _ _ (by rw [hdir, hentries]) (by rw [hdir, hwait]) (by rw [hdir, hans]), setDir_host,
      hlog.host, setHost_host]

/-! ### Back-invalidate (R376) -/

theorem dropBisnp_xbar (s : State) (line : Nat) : (dropBisnp s line).xbar = s.xbar := by
  rw [dropBisnp]
  split <;> rfl

section
variable {s : State} {line : Nat} {x : Nat × Bool × Packet}
  (hx : (s.host.bisnp.take bisnpMax).find? (fun b => decide (b.1 = line)) = some x)
include hx

theorem execBirsp_own (dirty : Option (List Byte)) (hsrc : x.2.2.src = s.xbar.agentId) : execBirsp line dirty s =
    .next (settleDir (dirAnswer (dropBisnp s line) (homeLine (dropBisnp s line) x.2.2) x.2.2.dst 0
      ((dirty.map (fitTo 64)).getD []) false)) := by
  simp only [execBirsp, hx, dropBisnp_xbar, if_pos hsrc]

theorem execBirsp_remote (dirty : Option (List Byte)) (hsrc : x.2.2.src ≠ s.xbar.agentId) : execBirsp line dirty s =
    .next (answer (dropBisnp s line) x.2.2 0 ((dirty.map (fitTo 64)).getD [])) := by
  simp only [execBirsp, hx, dropBisnp_xbar, if_neg hsrc]

theorem execBisnpTimeout_next : execBisnpTimeout line s = .next (hostDies (logErr s pHOST 2
    { status := stTargetDead, kind := 2, addr := 64 * line, agent := some (hostAgent s) })) := by
  simp only [execBisnpTimeout, hx]

end

/-! ### HOST_CMD and SWEEP_CMD (R380, R381) -/

theorem execDeclareDead_next {s : State} {src : RegSrc} (h : ByPf s src pHOST) :
    execDeclareDead src s = .next (hostDies s) := by
  rw [execDeclareDead, onOk, if_pos h.1, hostCommand, pfOnly_byPf _ (by decide) (by decide) h]
  simp

theorem execRevive_next {s : State} {src : RegSrc} (h : ByPf s src pHOST) (hdead : s.host.dead = true)
    (hdue : s.dir.hostDue = none) (hsweep : ∀ w, s.dir.sweep = some w → w.hostDead = false) :
    execRevive src s = .next (s.setHost (fun h => { h with dead := false })) := by
  have hidle : (s.dir.sweep.map (·.hostDead)).getD false = false := by
    cases hw : s.dir.sweep with
    | none => rfl
    | some w => exact hsweep w hw
  rw [execRevive, onOk, if_pos h.1, hostCommand, pfOnly_byPf _ (by decide) (by decide) h]
  simp [hdead, hdue, hidle]

theorem sweepWrite_next {s : State} {src : RegSrc} (ag : BitVec 10) (remove : Bool) (h : ByPf s src pDIR)
    (hsweep : s.dir.sweep = none) : onOk src.ok (sweepWrite s src ag remove) = .next (startSweep s ag remove false) := by
  rw [onOk, if_pos h.1, sweepWrite, pfOnly_byPf _ (by decide) (by decide) h, hsweep]
  rfl

/-- The DEAD sweep forfeits a line that the agent holds alone. -/
theorem sweepEntry_forfeits {s : State} {ag : BitVec 10} {line : Nat} (hentry : hasEntry s line = true)
    (hbusy : (dirEntry s line).busy = false) (hstate : (dirEntry s line).state = 2) (hag : ag ∈ (dirEntry s line).ptrs) :
    sweepEntry s ag false line = forfeitLine (putEntry s line (entryI (dirEntry s line))) line ag := by
  simp [sweepEntry, hentry, hbusy, hstate, hag]

theorem execSweepEnd_next {s : State} (hsweep : s.dir.sweep ≠ none) (htxns : s.dir.txns = []) : execSweepEnd s =
    .next (nextSweep (logEvt (s.setDir (fun x => { x with sweep := none, walked := 0x1000000 })) pDIR 0)) := by
  rw [execSweepEnd, if_pos ⟨Option.isSome_iff_ne_none.mpr hsweep, htxns⟩]

/-- With no sweep running and none of the host due, the first agent that is due is swept. -/
theorem nextSweep_of_idle {s : State} {a : BitVec 10} {r : List (BitVec 10)} (hsweep : s.dir.sweep = none)
    (hhost : s.dir.hostDue = none) (hdue : s.dir.sweepDue = a :: r) (hentries : s.dir.entries = [])
    (hwait : s.dir.waiting = []) (hans : s.dir.answers = []) : nextSweep s =
      s.setDir (fun d => { d with sweepDue := r, sweep := some ⟨a, true, false⟩, walked := 0 }) := by
  simp only [nextSweep, hsweep, hhost, hdue]
  exact startSweep_of_idle a true false hentries hwait hans

/-! ### CWIN_CACHE (R386) -/

theorem wordOf_putWord (m : BitVec 1024) {i : Nat} (v : W64) (hi : i < 16) : wordOf (putWord m i v) i = v := by
  refine BitVec.eq_of_getLsbD_eq fun j hj => ?_
  have hones : ((BitVec.allOnes 64).setWidth 1024).getLsbD j = true := by
    rw [BitVec.getLsbD_setWidth, BitVec.getLsbD_allOnes, decide_eq_true hj, decide_eq_true (by omega)]; rfl
  simp only [wordOf, putWord, BitVec.getLsbD_setWidth, BitVec.getLsbD_ushiftRight, BitVec.getLsbD_or, BitVec.getLsbD_and,
    BitVec.getLsbD_not, BitVec.getLsbD_shiftLeft, Nat.add_sub_cancel_left, hones]
  simp [hj, show 64 * i + j < 1024 by omega, show j < 1024 by omega]

/-- Agents of a word of the agent map whose bit clears. -/
def clearedAgents (old v : W64) (i : Nat) : List (BitVec 10) :=
  ((List.range 64).filter (fun k => old.getLsbD k && !v.getLsbD k)).map (fun k => BitVec.ofNat 10 (64 * i + k))

theorem clearedAgents_eq_nil {old v : W64} {i : Nat} : clearedAgents old v i = [] ↔ old &&& ~~~v = 0 := by
  simp only [clearedAgents, List.map_eq_nil_iff, List.filter_eq_nil_iff, List.mem_range, Bool.and_eq_true,
    Bool.not_eq_true', not_and, Bool.not_eq_false]
  refine ⟨fun h => BitVec.eq_of_getLsbD_eq fun k hk => ?_, fun h k hk hold => ?_⟩
  · have := h k hk
    cases hold : old.getLsbD k <;> simp_all
  · have hbit := congrArg (BitVec.getLsbD · k) h
    simpa [hold, hk] using hbit

/-- The agent map of a coherent window with one word written. -/
def cachePut (s : State) (k i : Nat) (v : W64) : State :=
  s.setDir (fun d => { d with windows := tmod CohWin.off d.windows k (fun w => { w with cache := putWord w.cache i v }) })

theorem wordOf_cachePut (s : State) (k : Nat) {i : Nat} (v : W64) (hi : i < 16) :
    wordOf (tget CohWin.off (cachePut s k i v).dir.windows k).cache i = v := by
  rw [cachePut, setDir_dir, tget_tmod, if_pos rfl]
  exact wordOf_putWord _ v hi

section
variable {s : State} {src : RegSrc} {v old : W64} {k i : Nat} (h : ByPf s src pDIR) (hsel : cwinSel s src = (k, i))
  (hold : wordOf (tget CohWin.off s.dir.windows k).cache i = old)
include h hsel hold

theorem execCwinCacheClear_keeps (hkeep : old &&& ~~~v = 0) : execCwinCacheClear src v s = .next (cachePut s k i v) := by
  have hgone := clearedAgents_eq_nil (i := i).mpr hkeep
  rw [execCwinCacheClear, onOk, if_pos h.1, cacheWrite, pfOnly_byPf _ (by decide) (by decide) h]
  simp only [clearedAgents] at hgone
  simp only [hsel, hold, hgone, cachePut]

theorem execCwinCacheClear_clears (hclear : old &&& ~~~v ≠ 0) : execCwinCacheClear src v s =
    .next (if s.dir.sweep.isSome then refuse s pDIR 3 0x110
      else nextSweep ((cachePut s k i v).setDir (fun d => { d with sweepDue := d.sweepDue ++ clearedAgents old v i }))) := by
  obtain ⟨a, r, hgone⟩ := List.exists_cons_of_ne_nil (mt (clearedAgents_eq_nil (i := i)).mp hclear)
  rw [execCwinCacheClear, onOk, if_pos h.1, cacheWrite, pfOnly_byPf _ (by decide) (by decide) h]
  simp only [clearedAgents] at hgone ⊢
  simp only [hsel, hold, hgone]
  rfl

/-- The first agent whose bit clears is swept at once. -/
theorem execCwinCacheClear_sweeps (hi : i < 16) (hclear : old &&& ~~~v ≠ 0) (hsweep : s.dir.sweep = none)
    (hhost : s.dir.hostDue = none) (hdue : s.dir.sweepDue = []) (hentries : s.dir.entries = [])
    (hwait : s.dir.waiting = []) (hans : s.dir.answers = []) : ∃ u w, execCwinCacheClear src v s = .next u ∧
      wordOf (tget CohWin.off u.dir.windows k).cache i = v ∧ u.dir.sweep = some w ∧ w.remove = true := by
  obtain ⟨a, r, hgone⟩ := List.exists_cons_of_ne_nil (mt (clearedAgents_eq_nil (i := i)).mp hclear)
  have hnext := nextSweep_of_idle (r := r)
    (s := (cachePut s k i v).setDir (fun d => { d with sweepDue := d.sweepDue ++ clearedAgents old v i })) hsweep hhost
    (show s.dir.sweepDue ++ clearedAgents old v i = a :: r by rw [hdue, hgone]; rfl) hentries hwait hans
  rw [execCwinCacheClear_clears h hsel hold hclear, if_neg (by simp [hsweep]), hnext]
  exact ⟨_, _, rfl, wordOf_cachePut s k v hi, rfl, rfl⟩

end

end Sys2Proof.Proofs
end

section
/-! PROOFS. The host link's commands (13 R359 to R386; 14 R401; 16 R452; 17 R494). -/
namespace Sys2Proof.Proofs
open Sys2Proof Machine Safety Laws

/-- Settles O53: each command by its own lemma above. Its outcomes include choices of the log: a MetaValue of 3 asks for no
state and poison is judged first (68), the opcodes and answers of the two mailboxes (69). -/
theorem hostLink : Obligations.HostLink := by
  unfold Obligations.HostLink
  intro s t src addr v mask mv d line n off len ag a host intent free quiet reg
  refine ⟨?requests, ?answers, ?back, ?lost, ?revived, ?sweeps, ?forfeits, ?sweepEnd, ?agentMap, ?decoders, ?function, ?link,
    ?perst, ?ats, ?config, ?reservoir, ?slots, ?mailbox, ?doe⟩
  case requests =>
    intro hon
    refine ⟨fun hnone => ⟨execMemrd_noDecoder mv hon hnone,
      execMemwr_of_fails mv d hon (memRequest_noDecoder _ _ _ _ _ hnone)⟩, fun w c base leaf hw hc hmay hup hkind =>
      ⟨fun htr hagent => ⟨_, execMemrd_submits mv hon hw hc hmay hup hkind rfl htr, ?_⟩, fun htr hagent hlen =>
        ⟨_, execMemwr_submits mv d hon hw hc hmay hup hkind rfl hlen htr, ?_⟩,
        execMemwr_of_fails mv d hon (memRequest_poisoned _ _ _ _ hw hc)⟩⟩
    · rw [← hagent]
      exact hostPacket_fields ..
    · rw [← hagent]
      split
      · next hm =>
        rw [memwrOpc, memwrPayload, if_pos hm, if_pos hm]
        exact hostPacket_fields ..
      · next hm =>
        rw [memwrOpc, memwrPayload, if_neg hm, if_neg hm]
        exact hostPacket_fields ..
  case answers =>
    exact fun p st r => ⟨rfl, fun hst => ⟨_, if_neg hst⟩, rfl⟩
  case back =>
    exact fun x hx => ⟨execBirsp_own hx (some d), execBirsp_remote hx (some d), execBisnpTimeout_next hx⟩
  case lost =>
    intro hdead
    refine ⟨fun ht hdl => ?_, execDeclareDead_next, fun ⟨he, hw, ha⟩ hb => ?_⟩
    · exact congrArg Host.Outcome.next (if_pos (by simp [ht, hdl]))
    · rw [hostDies_of_idle hdead he hw ha hb]
      exact ⟨rfl, rfl⟩
  case revived => exact execRevive_next
  case sweeps =>
    refine fun h hsweep => ⟨sweepWrite_next ag false h hsweep, sweepWrite_next ag true h hsweep, fun r ⟨he, hw, ha⟩ => ?_⟩
    rw [startSweep_of_idle ag r false he hw ha]
    rfl
  case forfeits => exact sweepEntry_forfeits
  case sweepEnd => exact execSweepEnd_next
  case agentMap =>
    intro h k i old
    have hsel : cwinSel s src = (k, i) := by simp [cwinSel, bits, k, i, reg]
    have hi : i < 16 := Nat.mod_lt _ (by decide)
    refine ⟨fun hkeep => ⟨_, execCwinCacheClear_keeps h hsel rfl hkeep, wordOf_cachePut s k v hi, rfl⟩, fun hclear hs => ?_,
      fun hclear hs hhost hdue ⟨he, hw, ha⟩ => execCwinCacheClear_sweeps h hsel rfl hi hclear hs hhost hdue he hw ha⟩
    rw [exec_cwinCacheClear, execCwinCacheClear_clears h hsel rfl hclear, if_pos (Option.isSome_iff_ne_none.mpr hs)]
  case decoders =>
    exact fun hn hopen hstop coh ways =>
      ⟨execHdmCommit_commits hn rfl hopen hstop, execHdmCommit_refused hn rfl hopen hstop⟩
  case function => exact fun f hf hon hstop => execFunctionLevelReset_next hf hon hstop
  case link =>
    exact fun hmain => ⟨execHostLinkReset_perst hmain, execHostLinkReset_hot hmain, fun hreset hne =>
      ⟨_, execLinkChange_next v hmain hreset, setLink_linkStat s v, setLink_deadTimer hne⟩⟩
  case perst => exact execPerstRelease_next
  case ats => exact ⟨_, rfl, rfl⟩
  case config =>
    exact fun f o x hdl hstop => ⟨fun hboot w => execConfigRequest_booting hdl hstop w hboot, fun hboot hon =>
      ⟨execConfigRequest_write hdl hstop hboot hon, fun y => execConfigRequest_read hdl hstop hboot hon⟩⟩
  case reservoir =>
    rintro rfl hstop hfront
    exact ⟨execReservoirBarAccess_write hstop hfront, execReservoirBarAccess_read hstop hfront⟩
  case slots =>
    intro hok c x hslot b
    refine ⟨fun hd hend hline => ⟨_, execForwardWrite_line hok hslot hd hend hline, rfl, rfl, rfl, rfl, rfl, fun i hi =>
      ⟨getD_maskOf_maskedPayload hline rfl hi, getD_maskedPayload⟩⟩, fun hend hline =>
      ⟨_, execForwardRead_line hok hslot hend hline, rfl, rfl, rfl, rfl, rfl⟩⟩
  case mailbox =>
    exact ⟨rfl, rfl, fun _ => rfl, rfl, rfl, execClearEventRecords_next s n len, fun _ => rfl⟩
  case doe =>
    exact fun hdl hstop => ⟨execDoeRequest_spdm hdl hstop, fun m k => execDoeRequest_keyProg hdl hstop k, fun m =>
      execDoeRequest_keyGo hdl hstop, execDoeRequest_keyStop hdl hstop⟩

end Sys2Proof.Proofs
end

section
/-! SUPPORT. Rows of queue commands that do not start or that their header refuses, how a command ends, and its completion
entry (14 R391, R396 to R398). -/
namespace Sys2Proof.Proofs
open Sys2Proof Machine Safety Laws

/-! ### A row whose command does not start, or starts and is refused -/

section
variable {s : State} {q : Nat} {e : W512} {i : W32} {r : List QEntry} {isRow : Bool} {fields : List (Nat × Nat)}
  {eng : Engine} {body : Cmd → State → Option State} (hq : q < Config.queues)
  (hfetched : (s.queue q).fetched = ⟨i, e⟩ :: r)
include hq hfetched

theorem cmdRow_of_not_canStart (hstart : canStart s q e = false) : cmdRow q e isRow fields eng body s = .next s := by
  simp [cmdRow, onOk, queueOk, hq, hfetched, hstart]

/-- The header is judged before the command does anything. -/
theorem cmdRow_of_headStatus (hfrozen : frozen s = false) (hrow : isRow = true) (hstart : canStart s q e = true)
    (hhead : headStatus (startEntry s q ⟨i, e⟩ eng).2 (startEntry s q ⟨i, e⟩ eng).1 fields ≠ 0) :
    cmdRow q e isRow fields eng body s = .next (settle (failCmd (startEntry s q ⟨i, e⟩ eng).2
      (startEntry s q ⟨i, e⟩ eng).1
      (headStatus (startEntry s q ⟨i, e⟩ eng).2 (startEntry s q ⟨i, e⟩ eng).1 fields))) := by
  have hok : queueOk q = true := by simpa [queueOk] using hq
  simp only [cmdRow, onOk, hok, hfetched, hrow, hstart, hfrozen, bne_self_eq_false, Bool.not_true, Bool.or_self,
    Bool.false_eq_true, if_false, if_true, if_pos hhead]

end

/-- A command's context is its entry's, or its queue's where the entry says so. -/
theorem startEntry_ctx (s : State) (q : Nat) (x : QEntry) (eng : Engine) : (startEntry s q x eng).1.ctx =
    if x.raw.getLsbD 95 then qCtx (s.queue q) else x.raw.extractLsb' 64 20 := by
  have hbits : BitVec.ofNat 20 (bits x.raw.toNat 64 20) = x.raw.extractLsb' 64 20 := by
    apply BitVec.eq_of_toNat_eq
    rw [BitVec.extractLsb'_toNat, Nat.shiftRight_eq_div_pow, BitVec.toNat_ofNat, bits, Nat.mod_mod]
  rw [← hbits]
  rfl

theorem startEntry_queue {s : State} {q : Nat} {x : QEntry} {r : List QEntry} (hfetched : (s.queue q).fetched = x :: r) :
    (startEntry s q x .work).2.queue q = { s.queue q with
      fetched := r, active := (s.queue q).active ++ [⟨x.idx, x.raw, none, false⟩] } := by
  simp [startEntry, hfetched]

/-! ### Reserved bits of an entry (R391) -/

/-- A field that holds a set bit is not zero. -/
theorem bits_ne_zero_of_testBit {v lo n j : Nat} (hlo : lo ≤ j) (hhi : j < lo + n) (h : v.testBit j = true) :
    bits v lo n ≠ 0 := by
  intro hzero
  have hbit : (bits v lo n).testBit (j - lo) = true := by
    rw [bits, Nat.testBit_mod_two_pow, Nat.testBit_div_two_pow, show j - lo + lo = j by omega, h]
    simp only [Bool.and_true, decide_eq_true_eq]
    omega
  simp [hzero] at hbit

theorem entryForm_of_reservedBit {e : W512} {n : Nat} (fields : List (Nat × Nat))
    (hn : 10 ≤ n ∧ n < 32 ∨ 84 ≤ n ∧ n < 95 ∨ 96 ≤ n ∧ n < 128) (he : e.getLsbD n = true) : entryForm e fields = false := by
  have hset : ¬ (bits e.toNat 10 6 = 0 ∧ bits e.toNat 16 16 = 0 ∧ bits e.toNat 84 11 = 0 ∧ bits e.toNat 96 32 = 0) := by
    rintro ⟨h10, h16, h84, h96⟩
    obtain hlow | hctx | hhigh := hn
    · by_cases hn16 : n < 16
      · exact bits_ne_zero_of_testBit (by omega) (by omega) he h10
      · exact bits_ne_zero_of_testBit (by omega) (by omega) he h16
    · exact bits_ne_zero_of_testBit (by omega) (by omega) he h84
    · exact bits_ne_zero_of_testBit (by omega) (by omega) he h96
  rw [entryForm, decide_eq_false hset, Bool.false_and]

/-- Whoever gives it, an entry of a command for every partition with a reserved bit set is ill-formed. -/
theorem headStatus_of_reservedBit {c : Cmd} {n : Nat} (u : State) (fields : List (Nat × Nat))
    (hop : isPfOp (opcodeOf c.raw) = false) (hn : 10 ≤ n ∧ n < 32 ∨ 84 ≤ n ∧ n < 95 ∨ 96 ≤ n ∧ n < 128)
    (he : c.raw.getLsbD n = true) : headStatus u c fields = stFormat := by
  simp [headStatus, hop, entryForm_of_reservedBit fields hn he]

/-! ### The end of a command (R396) -/

/-- What the end of a command leaves of its queue: a failure stays, unless the command is a FENCE. -/
def leaveQueue (a : Active) (st : Status) (k : Queue) : Queue := { k with
  active := k.active.filter (fun b => b.idx ≠ a.idx),
  failed := if st = 0 ∨ fld a.raw 0 1 = 3 then k.failed else k.failed ++ [(a.idx, st)] }

section
variable {s : State} {q : Nat} {a : Active} {l m : List Active} (hactive : (s.queue q).active = l ++ a :: m)
  (hidx : ∀ b ∈ l ++ m, b.idx ≠ a.idx)
include hactive hidx

theorem endCommand_of_active (st : Status) (res : W64) : endCommand s q a.idx st res =
    (s.setQueue q (leaveQueue a st)).setWork (fun w => { w with ended := w.ended ++ [⟨q, a, st, res⟩] }) := by
  have hfind : (s.queue q).active.find? (fun b => b.idx = a.idx) = some a := by
    have hl : l.find? (fun b => b.idx = a.idx) = none := by
      rw [List.find?_eq_none]
      exact fun b hb => by simpa using hidx b (List.mem_append_left m hb)
    simp [hactive, List.find?_append, hl]
  simp only [endCommand, hfind]
  rfl

theorem endCommand_queue (st : Status) (res : W64) : (endCommand s q a.idx st res).queue q = { s.queue q with
    active := l ++ m,
    failed := if st = 0 ∨ fld a.raw 0 1 = 3 then (s.queue q).failed else (s.queue q).failed ++ [(a.idx, st)] } := by
  have hkeep : (s.queue q).active.filter (fun b => b.idx ≠ a.idx) = l ++ m := by
    have hothers : (l ++ m).filter (fun b => b.idx ≠ a.idx) = l ++ m :=
      List.filter_eq_self.mpr (fun b hb => by simpa using hidx b hb)
    rw [List.filter_append] at hothers
    simpa [hactive, List.filter_append] using hothers
  rw [endCommand_of_active hactive hidx]
  show (s.setQueue q (leaveQueue a st)).queue q = _
  rw [queue_setQueue, if_pos rfl, leaveQueue, hkeep]

theorem endCommand_ended (st : Status) (res : W64) :
    (endCommand s q a.idx st res).work.ended = s.work.ended ++ [⟨q, a, st, res⟩] := by
  rw [endCommand_of_active hactive hidx]
  rfl

end

/-! ### The completion entry (R396, R397) -/

theorem completionBytes_length (x : Ended) (n : Nat) : (completionBytes x n).length = 16 := by
  simp [completionBytes, length_leBytes, zeros]

/-- The bytes of a completion entry: tag, status, phase, two bytes of zero, result. -/
theorem completionBytes_fields (x : Ended) (n : Nat) : let d := completionBytes x n
    leNat (slice d 0 4) = fld x.act.raw 4 4 ∧ d.getD 4 0 = x.status ∧
    (d.getD 5 0 = if x.act.idx.toNat / 2 ^ n % 2 = 0 then 1 else 0) ∧ slice d 6 2 = [0, 0] ∧
    leNat (slice d 8 8) = x.result.toNat := by
  refine ⟨?tag, rfl, ?phase, rfl, ?result⟩
  case tag =>
    calc leNat (leBytes 4 (fld x.act.raw 4 4)) = fld x.act.raw 4 4 % 256 ^ 4 := leNat_leBytes ..
      _ = fld x.act.raw 4 4 := Nat.mod_eq_of_lt (bits_lt _ _ 32)
  case phase =>
    show BitVec.ofNat 8 (b2n (!(x.act.idx.toNat / 2 ^ n).testBit 0)) = _
    obtain hphase | hphase := Nat.mod_two_eq_zero_or_one (x.act.idx.toNat / 2 ^ n)
    · simp [Nat.testBit_zero, hphase, b2n]
    · simp [Nat.testBit_zero, hphase, b2n]
  case result =>
    calc leNat (leBytes 8 x.result.toNat) = x.result.toNat % 256 ^ 8 := leNat_leBytes ..
      _ = x.result.toNat := Nat.mod_eq_of_lt x.result.isLt

/-- A completion ring in the host's memory takes the entry at once, and the queue's message follows the entry. -/
theorem writeCompletion_host {s : State} {x : Ended} {a : Nat} {d : List Byte} (hhost : ringHost (s.queue x.q).cpl = true)
    (ha : a = ringBase (s.queue x.q).cpl + 16 * (x.act.idx.toNat % 2 ^ qN (s.queue x.q)))
    (hd : d = completionBytes x (qN (s.queue x.q))) (hap : inAperture s (qCtx (s.queue x.q)) a 16 = true) :
    ∃ t, writeCompletion s x = some t ∧ cellRead t.host.mem a 16 = d ∧ t.out = s.out ++ [.hostWrite a d] ++
      (if x.act.raw.getLsbD 9 = true ∧ qIrq (s.queue x.q) = true
        then [.msix (queuePart s x.q).toNat (qVector (s.queue x.q))] else []) := by
  have hlen : d.length = 16 := by rw [hd, completionBytes_length]
  have hread : cellRead (cellWrite s.host.mem a d) a 16 = d := hlen ▸ cellRead_cellWrite s.host.mem a d
  obtain ⟨y, hwrite⟩ := runEng_writeHost (queueWho s x.q (fld x.act.raw 4 4)) a d s (by rwa [hlen])
  subst ha hd
  have hbit : bit x.act.raw.toNat 9 = x.act.raw.getLsbD 9 := rfl
  refine ⟨_, by simp only [writeCompletion, hhost, if_true, hwrite]; rfl, ?_⟩
  by_cases hmsg : x.act.raw.getLsbD 9 = true ∧ qIrq (s.queue x.q) = true
  · rw [if_pos hmsg, if_pos (by rw [hbit, hmsg.1, hmsg.2]; rfl)]
    exact ⟨hread, rfl⟩
  · rw [if_neg hmsg, if_neg (by rw [hbit]; simpa using hmsg), List.append_nil]
    exact ⟨hread, rfl⟩

end Sys2Proof.Proofs
end

section
/-! PROOFS. How queue commands start and end (14 R391, R396 to R398). -/
namespace Sys2Proof.Proofs
open Sys2Proof Machine Safety Laws

/-- Settles O26: the row of a FENCE that does not start or that its header refuses, the end of a command, and the completion
entry, each by its own lemma. That a FENCE's own failure is not kept (39) and that a completion ring in the host's memory
answers OK (40) are choices of the log. -/
theorem queueCommandsStartAndEnd : Obligations.QueueCommandsStartAndEnd := by
  unfold Obligations.QueueCommandsStartAndEnd
  intro s q e i r hq hfrozen hfetched fields c u
  rw [exec_fence]
  refine ⟨cmdRow_of_not_canStart hq hfetched, ⟨rfl, rfl, rfl, rfl, startEntry_ctx ..⟩, startEntry_queue hfetched, ?refused,
    ?reserved, ?ends, ?completion⟩
  case refused =>
    exact fun hop hstart hhead => cmdRow_of_headStatus hq hfetched hfrozen (beq_iff_eq.mpr hop) hstart hhead
  case reserved =>
    rintro ⟨n, hn, he⟩ hop
    have hany : isPfOp (opcodeOf c.raw) = false := by rw [show opcodeOf c.raw = 3 from hop]; rfl
    exact headStatus_of_reservedBit u fields hany hn he
  case ends =>
    intro a st res l m hactive hidx t
    have hqueue : t.queue q = _ := endCommand_queue hactive hidx st res
    exact ⟨by rw [hqueue], endCommand_ended hactive hidx st res, by rw [hqueue]⟩
  case completion =>
    intro x k at_ hhost hap
    obtain ⟨t, hwrite, hread, hout⟩ := writeCompletion_host hhost rfl rfl hap
    obtain ⟨htag, hstatus, hphase, hzero, hresult⟩ := completionBytes_fields x (qN k)
    exact ⟨t, _, hwrite, hread, htag, hstatus, hphase, hzero, hresult, hout⟩

end Sys2Proof.Proofs
end

section
/-! SUPPORT. Doorbells, the entries that a queue reads, and Q_CFG's ENABLE (14 R394, R395). -/
namespace Sys2Proof.Proofs
open Sys2Proof Machine Safety Laws

theorem LogsOnly.queue {s t : State} (h : LogsOnly s t) (q : Nat) : t.queue q = s.queue q := by
  simp only [State.queue, h.work]

/-! ### Tails (R395) -/

section
variable {s : State} {q : Nat} {t : W32}

theorem setTail_forward (hrun : (s.queue q).stopped = false) (hne : t ≠ (s.queue q).tail)
    (hlen : (t - (s.queue q).head).toNat ≤ 2 ^ qN (s.queue q)) (hforth : (t - (s.queue q).tail).toNat < 2 ^ 31) :
    setTail s q t = s.setQueue q (fun k => { k with tail := t }) := by
  rw [setTail, if_neg (by simp [hrun, hne]), if_neg (by omega)]

/-- A tail further ahead than the ring is long stops the queue. -/
theorem setTail_far (hrun : (s.queue q).stopped = false) (hne : t ≠ (s.queue q).tail)
    (hlen : 2 ^ qN (s.queue q) < (t - (s.queue q).head).toNat) :
    (setTail s q t).queue q = { s.queue q with stopped := true, stop := stFormat } := by
  rw [setTail, if_neg (by simp [hrun, hne]), if_pos (Or.inl hlen), stopQueue, queue_setQueue, if_pos rfl,
    (logErr_logsOnly ..).queue]

/-! ### Reading entries (R395) -/

theorem fetchQueue_of_stopped (hc : HostCpl) (hstop : (s.queue q).stopped = true) : fetchQueue s q hc = s := by
  simp [fetchQueue, hstop]

theorem fetchQueue_of_running (hc : HostCpl) (hon : qEnabled (s.queue q) = true) (hrun : (s.queue q).stopped = false) :
    fetchQueue s q hc = fetchN ((s.queue q).tail - (s.queue q).head).toNat s q hc := by
  simp [fetchQueue, hon, hrun]

/-- A queue with an entry before its tail reads it, and goes on after it. -/
theorem fetchQueue_of_entry {u : State} {hc : HostCpl} {d : W512} (hon : qEnabled (s.queue q) = true)
    (hrun : (s.queue q).stopped = false) (hne : (s.queue q).head ≠ (s.queue q).tail)
    (hread : readEntry s q hc = some (.ok d, u)) (hkeep : u.queue q = s.queue q) : fetchQueue s q hc =
      fetchQueue (u.setQueue q (fun k => { k with
        head := k.head + 1, fetched := k.fetched ++ [⟨k.head, d⟩] })) q hc := by
  obtain ⟨n, hn⟩ : ∃ n, ((s.queue q).tail - (s.queue q).head).toNat = n + 1 :=
    Nat.exists_eq_succ_of_ne_zero (by bv_omega)
  have hrest : ((s.queue q).tail - ((s.queue q).head + 1)).toNat = n := by bv_omega
  have hqueue : (u.setQueue q (fun k => { k with head := k.head + 1, fetched := k.fetched ++ [⟨k.head, d⟩] })).queue q =
      { s.queue q with head := (s.queue q).head + 1, fetched := (s.queue q).fetched ++ [⟨(s.queue q).head, d⟩] } := by
    rw [queue_setQueue, if_pos rfl, hkeep]
  rw [fetchQueue_of_running hc hon hrun, hn, fetchN, hread,
    fetchQueue_of_running hc (by rw [hqueue]; exact hon) (by rw [hqueue]; exact hrun), hqueue, hrest]

/-- An entry of a ring in the host's memory is the line that stands there; only the host's translations are cached. -/
theorem readEntry_host {a : Nat} (hhost : ringHost (s.queue q).ring = true)
    (ha : a = ringBase (s.queue q).ring + 64 * ((s.queue q).head.toNat % 2 ^ qN (s.queue q)))
    (hap : inAperture s (qCtx (s.queue q)) a 64 = true) :
    ∃ t, readEntry s q .ok = some (.ok (lineOf (cellRead s.host.mem a 64)), t) ∧ t = { s with xlt := t.xlt } := by
  obtain ⟨x, hx⟩ := atcFill_xlt s (qCtx (s.queue q)) a 64
  subst ha
  refine ⟨atcFill s (qCtx (s.queue q)) _ 64, ?_, by rw [hx]⟩
  simp only [readEntry, hhost, if_true]
  exact (runEng_bind_ok (runEng_readHost (queueWho s q 0) _ 64 s hap)).trans (runEng_pure ..)

/-! ### Doorbells (R395) -/

variable {src : RegSrc} {size : Nat} {v : W64} {hc : HostCpl} (hsrc : src.ok = true) (hq : q < Config.queues)
  (hfront : s.host.notFront = false)
include hsrc hq hfront

theorem execDoorbell_dropped (h : size ≠ 8 ∨ reachesQueue s src q = false ∨ qEnabled (s.queue q) = false ∨
    (s.queue q).tailcnt.getLsbD 17 = true) : execDoorbell src q size v hc s = .next (dropDoorbell s) := by
  have hok : (src.ok && queueOk q) = true := by simp [hsrc, queueOk, hq]
  rw [execDoorbell, onOk, if_pos hok, hfront]
  simp only [Bool.false_eq_true, if_false]
  rw [if_pos (by simpa using h)]

theorem execDoorbell_accepted (hsize : size = 8) (hreach : reachesQueue s src q = true)
    (hon : qEnabled (s.queue q) = true) (hcnt : (s.queue q).tailcnt.getLsbD 17 = false) :
    execDoorbell src q size v hc s = .next (settle (fetchQueue (setTail s q (v.setWidth 32)) q hc)) := by
  have hok : (src.ok && queueOk q) = true := by simp [hsrc, queueOk, hq]
  rw [execDoorbell, onOk, if_pos hok, hfront]
  simp only [Bool.false_eq_true, if_false]
  rw [if_neg (by simpa [hsize, hreach, hon] using hcnt)]

end

/-! ### ENABLE (R394) -/

theorem and_enableBit_of_set {v : W64} (h : v.getLsbD 48 = true) : v &&& 0x1000000000000 = 0x1000000000000 := by
  rw [show (0x1000000000000 : W64) = BitVec.twoPow 64 48 from rfl, BitVec.and_twoPow, if_pos h]

/-- Putting in a bit that is set changes nothing. -/
theorem put_enableBit_of_set {v : W64} (h : v.getLsbD 48 = true) :
    v &&& ~~~0x1000000000000 ||| 0x1000000000000 = v := by
  calc v &&& ~~~0x1000000000000 ||| 0x1000000000000
      = v &&& ~~~0x1000000000000 ||| v &&& 0x1000000000000 := by rw [and_enableBit_of_set h]
    _ = v &&& (~~~0x1000000000000 ||| 0x1000000000000) := (BitVec.and_or_distrib_left ..).symm
    _ = v := by rw [show (~~~0x1000000000000 ||| 0x1000000000000 : W64) = BitVec.allOnes 64 from rfl, BitVec.and_allOnes]

theorem not_enabled_of_cleared (k : Queue) (v : W64) : qEnabled { k with cfg := v &&& ~~~0x1000000000000 } = false := by
  show (v &&& ~~~0x1000000000000).getLsbD 48 = false
  simp

/-- The source is a virtual function, which sets ENABLE alone. -/
def isVf : RegSrc → Bool
  | .vf _ => true
  | _ => false

/-- The value that Q_CFG takes as its queue is enabled. -/
def enabledCfg (src : RegSrc) (k : Queue) (v : W64) : W64 :=
  match src with
  | .vf _ => (k.cfg &&& ~~~ (0x1000000000000 : W64)) ||| (v &&& 0x1000000000000)
  | _ => v &&& 0x3FFFFFFFFFFFF

/-- ENABLE's conditions, read from the state. -/
theorem mayEnable_iff (s : State) (q : Nat) (k : Queue) : mayEnable s q k = true ↔
    6 ≤ qN k ∧ qN k ≤ 16 ∧ (∃ c, ctxOf s (qCtx k) = some c ∧ c.part = queuePart s q) ∧
      (s.comp (qComp k)).state = 1 ∧ (s.comp (qComp k)).part = queuePart s q ∧ partResetting s (queuePart s q) = false := by
  unfold mayEnable
  cases ctxOf s (qCtx k) with
  | none => simp
  | some c => simp [and_assoc]

/-- Setting ENABLE, from a virtual function or from another source. -/
theorem put_enableBit_eq_enabledCfg {src : RegSrc} {k : Queue} {v : W64} (hoff : qEnabled k = false)
    (hv : v.getLsbD 48 = true) : (if qEnabled k ∨ isVf src = true then k.cfg else v &&& 0x3FFFFFFFFFFFF) &&&
      ~~~0x1000000000000 ||| 0x1000000000000 = enabledCfg src k v := by
  have hlow : (v &&& 0x3FFFFFFFFFFFF).getLsbD 48 = true := by simpa using hv
  cases src with
  | vf n => rw [if_pos (.inr rfl), enabledCfg, and_enableBit_of_set hv]
  | pf => rw [if_neg (by simp [hoff, isVf]), put_enableBit_of_set hlow]; rfl
  | lmp b => rw [if_neg (by simp [hoff, isVf]), put_enableBit_of_set hlow]; rfl

section
variable {s : State} {src : RegSrc} {v : W64} {q : Nat} (hsrc : src.ok = true) (hup : inReset s pWORK = false)
  (hsel : q = bits (regGet s (rkBank pWORK 0x168 (srcBank src))).toNat 0 18) (hreach : reachesQueue s src q = true)
include hsrc hup hsel hreach

/-- What a write of Q_CFG does once it is not dropped, by the value `x` that its queue would take. -/
theorem execQEnable_of_reaches {on : Bool} {x : Queue} (hv : v.getLsbD 48 = on) (hx : x = { s.queue q with
      cfg := (if qEnabled (s.queue q) ∨ isVf src = true then (s.queue q).cfg else v &&& 0x3FFFFFFFFFFFF) &&&
        ~~~0x1000000000000 ||| if on then 0x1000000000000 else 0 }) : execQEnable src v s = .next (
      if !qEnabled (s.queue q) ∧ !isVf src ∧ ¬ (6 ≤ qN x ∧ qN x ≤ 16) then refuse s pWORK 1 0x180
      else if on ∧ !qEnabled (s.queue q) then
        if mayEnable s q x then settle (s.setQueue q (fun _ => enabledQueue x)) else refuse s pWORK 1 0x180
      else if !on ∧ qEnabled (s.queue q) then s.setQueue q (fun _ => { x with fetched := [] })
      else s.setQueue q (fun _ => x)) := by
  have hgo : ¬ (!reachesQueue s src q || inReset s pWORK) = true := by simp [hreach, hup]
  unfold execQEnable
  rw [onOk, if_pos hsrc, ← hsel, hx, ← hv]
  exact congrArg _ (if_neg hgo)

theorem execQEnable_on (hoff : qEnabled (s.queue q) = false) (hv : v.getLsbD 48 = true) :
    let x := { s.queue q with cfg := enabledCfg src (s.queue q) v }
    execQEnable src v s = .next (if mayEnable s q x then settle (s.setQueue q (fun _ => enabledQueue x))
      else refuse s pWORK 1 0x180) := by
  intro x
  rw [execQEnable_of_reaches hsrc hup hsel hreach (x := x) hv (by rw [if_pos rfl, put_enableBit_eq_enabledCfg hoff hv])]
  congr 1
  by_cases hlen : 6 ≤ qN x ∧ qN x ≤ 16
  · rw [if_neg (by tauto), if_pos (by simp [hoff])]
  · have hno : ¬ mayEnable s q x = true := fun h => by
      obtain ⟨hlo, hhi, -⟩ := (mayEnable_iff s q x).mp h
      exact hlen ⟨hlo, hhi⟩
    simp only [hoff, if_neg hno, Bool.not_false, and_self, if_true, ite_self]

/-- Clearing ENABLE drops what was read and not started. -/
theorem execQEnable_off (hon : qEnabled (s.queue q) = true) (hv : v.getLsbD 48 = false) : execQEnable src v s =
    .next (s.setQueue q (fun _ => { s.queue q with
      cfg := (s.queue q).cfg &&& ~~~0x1000000000000, fetched := [] })) := by
  rw [execQEnable_of_reaches hsrc hup hsel hreach (x := { s.queue q with cfg := (s.queue q).cfg &&& ~~~0x1000000000000 }) hv
    (by simp [hon])]
  simp [hon]

end

end Sys2Proof.Proofs
end

section
/-! PROOFS. Doorbells; enabling and disabling a queue (14 R394, R395). -/
namespace Sys2Proof.Proofs
open Sys2Proof Machine Safety Laws

/-- Settles O24: a doorbell is dropped or accepted; the tail that it sets, and the entries read up to it, each by its own
lemma. -/
theorem doorbells : Obligations.Doorbells := by
  unfold Obligations.Doorbells
  intro s src q size v hc hsrc hq hfront k tail
  rw [exec_doorbell]
  refine ⟨execDoorbell_dropped hsrc hq hfront, ?accepted, ?reads, ?entry⟩
  case accepted =>
    intro hsize hreach hon hcnt hrun
    rw [execDoorbell_accepted hsrc hq hfront hsize hreach hon hcnt]
    refine ⟨fun hne hlen hforth => by rw [setTail_forward hrun hne hlen hforth], fun hlen hne => ?_⟩
    have hstop := setTail_far hrun hne hlen
    exact ⟨_, by rw [fetchQueue_of_stopped hc (by rw [hstop])], hstop⟩
  case reads =>
    exact fun d t hon hrun hne hread hkeep => fetchQueue_of_entry hon hrun hne hread hkeep
  case entry =>
    rintro d a hhost ha hap rfl
    exact readEntry_host hhost ha hap

/-- Settles O25: what a write of Q_CFG does to a disabled and to an enabled queue. That the head and the tail are 0 when a
queue is enabled, and that disabling drops the entries read, are choices of the log (45). -/
theorem queueEnabling : Obligations.QueueEnabling := by
  unfold Obligations.QueueEnabling
  intro s src v hsrc hup q k cfg x may hreach
  rw [exec_qEnable]
  refine ⟨fun hoff hv => ?on, fun hon hv => ?off⟩
  case on =>
    have hcfg : cfg = enabledCfg src k v := by cases src <;> rfl
    have hx : x = { k with cfg := enabledCfg src k v } := by rw [← hcfg]
    have hmay : mayEnable s q x = true ↔ may := mayEnable_iff s q x
    rw [execQEnable_on hsrc hup rfl hreach hoff hv, ← hx]
    exact ⟨fun h => by rw [if_pos (hmay.mpr h)]; rfl, fun h => by rw [if_neg (mt hmay.mp h)]⟩
  case off =>
    have hqueue : ∀ f, (s.setQueue q f).queue q = f k := fun f => by rw [queue_setQueue, if_pos rfl]
    refine ⟨_, execQEnable_off hsrc hup rfl hreach hon hv, ?_, ?_, ?_, rfl, fun j hj => by rw [queue_setQueue, if_neg hj]⟩
    · rw [hqueue]; exact not_enabled_of_cleared { k with fetched := [] } k.cfg
    · rw [hqueue]
    · rw [hqueue]

end Sys2Proof.Proofs
end

section
/-! PROOFS. COMPOSE (14 R400). -/
namespace Sys2Proof.Proofs
open Sys2Proof Machine Safety Laws

section
variable {s u : State} {q k : Nat} {e : W512} {c : Cmd} {a : BitVec 10} (hcode : fld e 0 1 = 0x2B) (hk : fld e 18 2 = k)
include hcode hk

/-- A COMPOSE that starts does its operation on the composition that it names. -/
theorem composeRow_of_starts {op : Nat} {fields : List (Nat × Nat)}
    (hs : Starts s q e ([(128, 8), (144, 12)] ++ fields) .work c u) (hop : fld e 16 1 = op)
    (body : Cmd → Nat → Comp → State → State) :
    composeRow q e op fields body s = .next (settle (body c k (u.comp k) u)) := by
  have hrow : (opcodeOf e == 0x2B && fld e 16 1 == op) = true := by simp [opcodeOf, hcode, hop]
  obtain ⟨-, rfl, -⟩ := Starts_cmd hs
  subst hk
  exact cmdRow_of_starts hs hrow rfl

variable (ha : BitVec.ofNat 10 (fld e 22 2) = a)

theorem execComposeEnd_of_starts (hs : Starts s q e [(128, 8), (144, 12)] .work c u) (hop : fld e 16 1 = 4) :
    execComposeEnd q e s = .next (settle (
      if (u.comp k).state = 0 then failCmd u c stFormat
      else if compInUse u k then failCmd u c stBusy
      else endCommand (u.setComp k (fun x => { x with state := 0, accels := [], teardown := false })) c.q c.idx 0 0)) :=
  composeRow_of_starts hcode hk hs hop _

include ha

theorem execCreate_of_starts (hs : Starts s q e [(128, 8), (144, 12), (160, 6), (176, 10)] .work c u)
    (hop : fld e 16 1 = 1) : execCreate q e s = .next (settle (
      if (u.comp k).state ≠ 0 ∨ agentTaken u k a then failCmd u c stBusy
      else endCommand (u.setComp k (fun _ => { Comp.free with
        state := 1, part := BitVec.ofNat 6 (fld e 20 1), host := a, created := true })) c.q c.idx 0 0)) := by
  rw [execCreate, composeRow_of_starts hcode hk hs hop]
  obtain ⟨-, rfl, -⟩ := Starts_cmd hs
  subst ha
  rfl

theorem execRemoveAgent_of_starts (hs : Starts s q e [(128, 8), (144, 12), (176, 10)] .work c u) (hop : fld e 16 1 = 3) :
    execRemoveAgent q e s = .next (settle (
      if (u.comp k).state ≠ 1 ∨ (u.comp k).accels.all (fun y => y.agent ≠ a) then failCmd u c stFormat
      else endCommand (u.setComp k (fun x => { x with accels := x.accels.filter (fun y => y.agent ≠ a) }))
        c.q c.idx 0 0)) := by
  rw [execRemoveAgent, composeRow_of_starts hcode hk hs hop]
  obtain ⟨-, rfl, -⟩ := Starts_cmd hs
  subst ha
  rfl

/-- ADD_AGENT of an accelerator that is nobody's, to an ACTIVE composition. -/
theorem execAddAgent_of_starts {slot : Nat} (hslot : fld e 24 1 = slot)
    (hs : Starts s q e [(128, 8), (144, 12), (176, 10), (192, 8), (256, 48)] .work c u) (hop : fld e 16 1 = 2)
    (hstate : (u.comp k).state = 1) (htaken : agentTaken u k a = false) (hhost : (u.comp k).host ≠ a)
    (hnew : ∀ y ∈ (u.comp k).accels, y.agent ≠ a) : execAddAgent q e s = .next (settle (
      if 64 ≤ (u.comp k).accels.length then failCmd u c stQuota
      else if slot ≠ 0xFF ∧ (63 < slot ∨ (u.comp k).accels.any (fun y => y.slot == some slot)) then failCmd u c stFormat
      else endCommand (u.setComp k (fun x => { x with accels := x.accels ++
        [⟨a, if slot = 0xFF then none else some slot, BitVec.ofNat 48 (fld e 32 8)⟩] })) c.q c.idx 0 0)) := by
  have hfree : ¬ (agentTaken u k a || (u.comp k).host == a || (u.comp k).accels.any (fun y => y.agent == a)) = true := by
    simpa [htaken, hhost] using hnew
  rw [execAddAgent, composeRow_of_starts hcode hk hs hop]
  obtain ⟨-, rfl, -⟩ := Starts_cmd hs
  subst ha hslot
  refine congrArg (fun t => Host.Outcome.next (settle t)) ?_
  exact (if_neg (not_not_intro hstate)).trans (if_neg hfree)

end

/-- Settles O41: each operation by its row. That an END of a FREE composition is ill-formed, and that END drops the
accelerators, are choices of the log (49). -/
theorem compositions : Obligations.Compositions := by
  unfold Obligations.Compositions
  intro s u q e c k x a slot starts
  refine ⟨?create, ?addAgent, ?removeAgent, ?composeEnd⟩
  case create =>
    rintro ⟨hs, hcode, hop⟩
    rw [Ends, exec_create, execCreate_of_starts hcode rfl rfl hs hop]
    exact ⟨fun h => by rw [if_pos h], fun hstate htaken => by rw [if_neg (by simp [x, a, k, hstate, htaken])]⟩
  case addAgent =>
    rintro ⟨hs, hcode, hop⟩ hstate htaken hhost hnew
    rw [Ends, exec_addAgent, execAddAgent_of_starts hcode rfl rfl rfl hs hop hstate htaken hhost hnew]
    refine ⟨fun hlen => by rw [if_pos hlen], fun hlen hslot => ?_⟩
    have hgood : ¬ (slot ≠ 0xFF ∧ (63 < slot ∨ x.accels.any (fun y => y.slot == some slot) = true)) := by
      rintro ⟨hne, hbad⟩
      obtain heq | ⟨hle, hunused⟩ := hslot
      · exact hne heq
      · obtain hlt | hused := hbad
        · omega
        · obtain ⟨y, hy, hys⟩ := List.any_eq_true.mp hused
          exact hunused y hy (beq_iff_eq.mp hys)
    rw [if_neg (Nat.not_le.mpr hlen), if_neg hgood]
  case removeAgent =>
    rintro ⟨hs, hcode, hop⟩ hstate
    rw [Ends, exec_removeAgent, execRemoveAgent_of_starts hcode rfl rfl hs hop]
    refine ⟨fun hall => by rw [if_pos (.inr (by simpa using hall))], fun ⟨y, hy, hya⟩ => ?_⟩
    rw [if_neg]
    rintro (hne | hall)
    · exact hne hstate
    · exact of_decide_eq_true (List.all_eq_true.mp hall y hy) hya
  case composeEnd =>
    rintro ⟨hs, hcode, hop⟩
    rw [Ends, exec_composeEnd, execComposeEnd_of_starts hcode rfl hs hop]
    exact ⟨fun h => by rw [if_pos h], fun h huse => by rw [if_neg h, if_pos huse],
      fun h huse => by rw [if_neg h, if_neg (Bool.eq_false_iff.mp huse)]⟩

end Sys2Proof.Proofs
end

section
/-! SUPPORT. Extents: what folds over them leave, how their revocation begins with an idle directory, and how it ends (14
R403, R404; 13 R381). -/
namespace Sys2Proof.Proofs
open Sys2Proof Machine Safety Laws

/-! ### Lists of extents -/

theorem mem_extentRange {first n x : Nat} : x ∈ (List.range n).map (· + first) ↔ first ≤ x ∧ x < first + n := by
  simp only [List.mem_map, List.mem_range]
  exact ⟨fun ⟨i, hi, hx⟩ => by omega, fun h => ⟨x - first, by omega, by omega⟩⟩

theorem nodup_extentRange (first n : Nat) : ((List.range n).map (· + first)).Nodup :=
  List.nodup_range.map (add_left_injective first)

/-- Changing each extent of a list once changes those of the list alone, and nothing but the extents. -/
theorem foldl_setExtent {f : Extent → Extent} {xs : List Nat} (hxs : xs.Nodup) (s : State) :
    let t := xs.foldl (fun s x => s.setExtent x f) s
    (∀ x, t.extent x = if x ∈ xs then f (s.extent x) else s.extent x) ∧
      t = { s with work := { s.work with extents := t.work.extents } } := by
  induction xs generalizing s with
  | nil => exact ⟨fun x => by simp, rfl⟩
  | cons y r ih =>
    obtain ⟨hy, hr⟩ := List.nodup_cons.mp hxs
    obtain ⟨hext, hrest⟩ := ih hr (s.setExtent y f)
    refine ⟨fun x => ?_, hrest⟩
    rw [List.foldl_cons, hext, extent_setExtent]
    by_cases hx : x = y
    · simp [hx, hy]
    · simp [hx]

theorem LogsOnly.extent {s t : State} (h : LogsOnly s t) (x : Nat) : t.extent x = s.extent x := by
  simp only [State.extent, h.work]

/-! ### Revocation begins (R403) -/

/-- The directory holds no entry, and nothing waits at it. -/
def DirIdle (s : State) : Prop := s.dir.entries = [] ∧ s.dir.waiting = [] ∧ s.dir.answers = []

/-- The next grant epoch of an extent whose revocation begins. -/
def raised (e : Extent) : Extent := { e with epoch := e.epoch + 1, revoking := true }

/-- A directory without entries has nothing to sweep for an extent. -/
theorem sweepExtent_of_idle {s : State} (x : Nat) (h : DirIdle s) :
    extentLines s x = [] ∧ settleDir ((extentLines s x).foldl revokeLine s) = s := by
  obtain ⟨hentries, hwait, hans⟩ := h
  have hlines : extentLines s x = [] := by rw [extentLines, hentries]; rfl
  exact ⟨hlines, by rw [hlines]; exact settleDir_of_idle hwait hans⟩

theorem foldl_beginRevoke_of_idle (xs : List Nat) {s : State} (h : DirIdle s) :
    xs.foldl beginRevoke s = xs.foldl (fun s x => s.setExtent x raised) s := by
  induction xs generalizing s with
  | nil => rfl
  | cons y r ih =>
    have hfirst : beginRevoke s y = s.setExtent y raised := (sweepExtent_of_idle (s := s.setExtent y raised) y h).2
    rw [List.foldl_cons, List.foldl_cons, hfirst]
    exact ih h

theorem revokeBody_busy {hand : Bool} {c : Cmd} {xs : List Nat} {k : BitVec 12} {s : State} {x : Nat} (hx : x ∈ xs)
    (hrev : (s.extent x).revoking = true) : revokeBody hand c xs k s = failCmd s c stBusy :=
  if_pos (List.any_eq_true.mpr ⟨x, hx, hrev⟩)

/-- The state after a revocation of extents has begun, with an idle directory. -/
theorem revokeBody_of_idle {hand : Bool} {c : Cmd} {xs : List Nat} {k : BitVec 12} {s : State} (hxs : xs.Nodup)
    (hnone : ∀ x ∈ xs, (s.extent x).revoking = false) (h : DirIdle s) :
    (revokeBody hand c xs k s).work.extCmds =
      s.work.extCmds ++ [⟨c.q, c.idx, hand, k, if hand then listedKeys c else [], xs⟩] ∧
    ∀ x, (revokeBody hand c xs k s).extent x = if x ∈ xs then raised (s.extent x) else s.extent x := by
  have hany : ¬ xs.any (fun x => (s.extent x).revoking) = true := by simpa using hnone
  rw [revokeBody, if_neg hany, foldl_beginRevoke_of_idle xs (by exact h)]
  obtain ⟨hext, hrest⟩ := foldl_setExtent (f := raised) hxs (s.setWork (fun w => { w with
    extCmds := w.extCmds ++ [⟨c.q, c.idx, hand, k, if hand then listedKeys c else [], xs⟩] }))
  exact ⟨by rw [hrest]; rfl, hext⟩

/-! ### EXTENT (R403) -/

/-- A list of extents that one EXTENT may name: not empty, not too long, and within the home. -/
def ExtentsFit (s : State) (first n : Nat) : Prop := 1 ≤ n ∧ n ≤ 4096 ∧ (first + n) * 2 ^ 30 ≤ s.store.homeLen

section
variable {s u : State} {q first n : Nat} {e : W512} {c : Cmd} {k : BitVec 12} (hcode : fld e 0 1 = 0x2A)
  (hfirst : fld e 18 2 = first) (hn : fld e 20 2 = n) (hk : BitVec.ofNat 12 (fld e 22 2) = k)
include hcode hfirst hn hk

section
variable {op : Nat} {keys comp : Bool} (hs : Starts s q e ([(128, 8), (144, 16), (160, 16), (176, 12)] ++
    (if keys then (List.range 16).map (fun i => (192 + 16 * i, 12)) else [])) .work c u) (hop : fld e 16 1 = op)
  (body : Cmd → List Nat → BitVec 12 → State → State)
include hs hop

theorem extentRow_of_starts : extentRow q e op keys comp body s = .next (settle (
    if n = 0 ∨ 4096 < n ∨ u.store.homeLen < (first + n) * 2 ^ 30 ∨ (comp ∧ (u.comp k.toNat).state ≠ 1)
    then failCmd u c stFormat else body c ((List.range n).map (· + first)) k u)) := by
  have hrow : (opcodeOf e == 0x2A && fld e 16 1 == op) = true := by simp [opcodeOf, hcode, hop]
  obtain ⟨-, rfl, -⟩ := Starts_cmd hs
  subst hfirst hn hk
  exact cmdRow_of_starts hs hrow (apply_ite some _ _ _).symm

theorem extentRow_refused (h : ¬ ExtentsFit u first n ∨ comp = true ∧ (u.comp k.toNat).state ≠ 1) :
    extentRow q e op keys comp body s = .next (settle (failCmd u c stFormat)) := by
  rw [extentRow_of_starts hcode hfirst hn hk hs hop, if_pos]
  obtain hfit | hcomp := h
  · unfold ExtentsFit at hfit
    omega
  · exact .inr (.inr (.inr hcomp))

/-- An EXTENT does its operation on its extents of this home, for the composition that it names. -/
theorem extentRow_runs (hfit : ExtentsFit u first n) (hcomp : comp = true → (u.comp k.toNat).state = 1) :
    extentRow q e op keys comp body s = .next (settle (body c ((List.range n).map (· + first)) k u)) := by
  obtain ⟨hpos, hmax, hhome⟩ := hfit
  rw [extentRow_of_starts hcode hfirst hn hk hs hop, if_neg]
  rintro (h | h | h | ⟨h, hne⟩)
  · omega
  · omega
  · omega
  · exact hne (hcomp h)

end

theorem execGrant_of_starts (hs : Starts s q e [(128, 8), (144, 16), (160, 16), (176, 12)] .work c u)
    (hop : fld e 16 1 = 1) (hfit : ExtentsFit u first n) (hstate : (u.comp k.toNat).state = 1) :
    let xs := (List.range n).map (· + first)
    execGrant q e s = .next (settle (if xs.any (fun x => (u.extent x).owned) then failCmd u c stBusy
      else endCommand (logEvt (xs.foldl (fun s x => s.setExtent x (fun e => { e with owned := true, comp := k })) u) pWORK 2)
        c.q c.idx 0 0)) :=
  extentRow_runs hcode hfirst hn hk (keys := false) hs hop _ hfit (fun _ => hstate)

end

/-! ### Revocation ends (R403, R404) -/

theorem clearLost_work (s : State) (x : Nat) : (clearLost s x).work = s.work := by
  have fold : ∀ (l : List (Nat × Block)) (t : State),
      (l.foldl (fun s e => blockSet s e.1 (fun b => { b with lost := false })) t).work = t.work := by
    intro l
    induction l with
    | nil => exact fun t => rfl
    | cons b r ih => exact fun t => ih _
  exact fold _ s

/-- An extent whose revocation has ended: unowned, or handed to the command's composition. -/
def released (s : State) (x : Nat) (k : ExtentCmd) : State :=
  if k.hand then s.setExtent x (fun e => { e with comp := k.comp, owned := true, revoking := false })
  else clearLost (s.setExtent x (fun e => { e with comp := 0, owned := false, revoking := false })) x

theorem released_extent (s : State) (x z : Nat) (k : ExtentCmd) : (released s x k).extent z = if z = x
    then { s.extent x with comp := if k.hand then k.comp else 0, owned := k.hand, revoking := false } else s.extent z := by
  unfold released
  cases k.hand
  · exact (congrArg (fun w : Work => tget Extent.unowned w.extents z) (clearLost_work ..)).trans (extent_setExtent ..)
  · exact extent_setExtent ..

section
variable {x : Nat} {k : ExtentCmd}

/-- While extents of the command remain, it stays with the rest of them. -/
theorem finishExtent_of_rest (s : State) (hrest : ∃ z ∈ k.todo, z ≠ x) :
    ∀ z, (finishExtent s x k).extent z = (released s x k).extent z := by
  obtain ⟨z, hz, hne⟩ := hrest
  have htodo : k.todo.filter (· ≠ x) ≠ [] := List.ne_nil_of_mem (List.mem_filter.mpr ⟨hz, by simpa using hne⟩)
  intro y
  rw [finishExtent]
  simp only [if_neg htodo]
  rfl

/-- With the last extent of a HANDOVER that lists no key slot, the command ends. -/
theorem finishExtent_last (s : State) (htodo : k.todo = [x]) (hhand : k.hand = true) (hkeys : k.keys = []) :
    finishExtent s x k = settle (endCommand (logEvt ((s.setExtent x (fun e => { e with
      comp := k.comp, owned := true, revoking := false })).setWork (fun w => { w with
        extCmds := w.extCmds.filter (fun z => ¬ (z.q = k.q ∧ z.tag = k.tag)) })) pWORK 2) k.q k.tag 0 0) := by
  have hnone : k.todo.filter (· ≠ x) = [] := by simp [htodo]
  rw [finishExtent]
  simp only [hhand, hnone, if_true, hkeys]
  rfl

/-- Step 4 runs once no directory entry and no request of the extent remains, and no listed slot drains. -/
theorem execExtentDrain_of_idle {s : State} (hcmd : s.work.extCmds.find? (fun k => k.todo.contains x) = some k)
    (hidle : DirIdle s) (hgone : (s.extent x).inflight = 0)
    (hslots : k.todo = [x] → ∀ z ∈ k.keys, (keySlot s z).busy = false) :
    execExtentDrain x s = .next (finishExtent s x k) := by
  obtain ⟨hlines, hsweep⟩ := sweepExtent_of_idle x hidle
  have hdrained : ¬ (extentLines s x ≠ [] ∨ (s.extent x).inflight ≠ 0) := by simp [hlines, hgone]
  have hfree : ¬ (k.todo = [x] ∧ k.keys.any (fun y => (keySlot s y).busy) = true) := by
    rintro ⟨htodo, hbusy⟩
    obtain ⟨z, hz, hb⟩ := List.any_eq_true.mp hbusy
    exact Bool.false_ne_true ((hslots htodo z hz).symm.trans hb)
  rw [execExtentDrain]
  simp only [hcmd, hsweep, if_neg hdrained, if_neg hfree]

end

end Sys2Proof.Proofs
end

section
/-! PROOFS. EXTENT operations and how revoked extents drain (14 R403, R404; 13 R381). -/
namespace Sys2Proof.Proofs
open Sys2Proof Machine Safety Laws

/-- Settles O42: each operation by its row, and the drain of one extent. That a GRANT beyond the home or to a composition
that is not ACTIVE is ill-formed, and that a HANDOVER makes an extent owned, are choices of the log (49). -/
theorem extents : Obligations.Extents := by
  unfold Obligations.Extents
  intro s u q e c first n k base mine fits quiet begun
  have hmine : ∀ x, x ∈ (List.range n).map (· + first) ↔ mine x := fun x => mem_extentRange
  have hnodup : ((List.range n).map (· + first)).Nodup := nodup_extentRange first n
  refine ⟨fun hs hcode => ⟨?grant, ?illFormed, ?revoke⟩, ?handover, ?drain, ?ended, ?last⟩
  case grant =>
    intro hop hfit hstate
    have hrow := (exec_grant q e s).trans (execGrant_of_starts hcode rfl rfl rfl hs hop hfit hstate)
    refine ⟨fun ⟨x, hx, howned⟩ => by rw [hrow, if_pos (List.any_eq_true.mpr ⟨x, (hmine x).mpr hx, howned⟩)], fun hfree => ?_⟩
    have hnone : ¬ ((List.range n).map (· + first)).any (fun x => (u.extent x).owned) = true := fun h => by
      obtain ⟨x, hx, howned⟩ := List.any_eq_true.mp h
      exact Bool.false_ne_true ((hfree x ((hmine x).mp hx)).symm.trans howned)
    refine ⟨_, by rw [Ends, hrow, if_neg hnone], fun x => ?_⟩
    rw [(logEvt_logsOnly ..).extent, (foldl_setExtent hnodup u).1]
    exact if_congr (hmine x) rfl rfl
  case illFormed =>
    intro hop hbad
    rw [exec_grant]
    exact extentRow_refused hcode rfl rfl rfl (keys := false) hs hop _ (hbad.imp_right (fun h => ⟨rfl, h⟩))
  case revoke =>
    intro hop hfit
    have hrow := (exec_revoke q e s).trans (extentRow_runs hcode rfl rfl rfl (keys := false) (comp := false) hs hop
      (revokeBody false) hfit (fun h => absurd h Bool.false_ne_true))
    refine ⟨fun ⟨x, hx, hrev⟩ => by rw [hrow, revokeBody_busy ((hmine x).mpr hx) hrev], fun hnone hidle => ?_⟩
    · obtain ⟨hcmds, hext⟩ := revokeBody_of_idle (hand := false) (c := c) (k := k) hnodup
        (fun x hx => hnone x ((hmine x).mp hx)) hidle
      exact ⟨_, hrow, hcmds, fun x => (hext x).trans (if_congr (hmine x) rfl rfl)⟩
  case handover =>
    intro hs hcode hop hfit hstate hnone hidle
    have hrow := (exec_handover q e s).trans (extentRow_runs hcode rfl rfl rfl (keys := true) (comp := true) hs hop
      (revokeBody true) hfit (fun _ => hstate))
    obtain ⟨hcmds, hext⟩ := revokeBody_of_idle (hand := true) (c := c) (k := k) hnodup
      (fun x hx => hnone x ((hmine x).mp hx)) hidle
    exact ⟨_, hrow, hcmds, fun x => (hext x).trans (if_congr (hmine x) rfl rfl)⟩
  case drain => exact fun x y hcmd hidle hgone hslots => execExtentDrain_of_idle hcmd hidle hgone hslots
  case ended =>
    intro x y hrest t
    have hext : ∀ z, t.extent z = _ := fun z => (finishExtent_of_rest s hrest z).trans (released_extent s x z y)
    exact ⟨by rw [hext, if_pos rfl]; exact ⟨rfl, rfl, rfl⟩, fun z hz => by rw [hext, if_neg hz]⟩
  case last => exact fun x y => finishExtent_last s

end Sys2Proof.Proofs
end

section
/-! SUPPORT. What every operation of the machine keeps: the commands in wait, what the factory wrote, and canonical
memories; one rule per update of the state and per step of an engine (01 R28; 16 R458; log entry 6). -/
namespace Sys2Proof.Proofs.Keeping
open Sys2Proof Machine Safety Laws
-- One proof at a time: they all cite one another, and proofs that wait would each hold a thread.
set_option Elab.async false

/-- The commands in wait, what the factory wrote, and canonical memories: what no operation of the machine takes away. -/
def Keeps (r s : State) : Prop :=
  s.pending = r.pending ∧ factoryData s = factoryData r ∧ (Canonical r → Canonical s)

variable {r s t : State}

theorem Keeps.refl (s : State) : Keeps s s := ⟨rfl, rfl, id⟩

theorem Keeps.trans (h : Keeps r s) (h' : Keeps s t) : Keeps r t :=
  ⟨h'.1.trans h.1, h'.2.1.trans h.2.1, fun c => h'.2.2 (h.2.2 c)⟩

/-! ### Folds -/

theorem foldlPair_keeps {α β : Type} {f : β × State → α → β × State} {l : List α} {x : β × State} (h : Keeps r x.2)
    (hf : ∀ u a, Keeps r u.2 → Keeps r (f u a).2) : Keeps r (l.foldl f x).2 := by
  induction l generalizing x with
  | nil => exact h
  | cons a l ih => exact ih (hf _ _ h)

theorem snd_keeps {α : Type} {x : α × State} {a : α} (e : x = (a, t)) (h : Keeps r x.2) : Keeps r t := by
  rwa [e] at h

theorem getD_keeps {o : Option State} (h : Keeps r s) (ho : ∀ t, o = some t → Keeps r t) : Keeps r (o.getD s) := by
  cases o with
  | none => exact h
  | some t => exact ho t rfl

/-- An operation that may fail, over a list. -/
theorem foldlOption_keeps {α : Type} {f : State → α → Option State} {l : List α} (h : Keeps r s)
    (hf : ∀ u a v, Keeps r u → f u a = some v → Keeps r v)
    (e : l.foldl (fun (o : Option State) a => o.bind (fun u => f u a)) (some s) = some t) : Keeps r t := by
  induction l generalizing s with
  | nil => exact Option.some.inj e ▸ h
  | cons a l ih =>
    rw [List.foldl_cons, Option.bind_some] at e
    cases ha : f s a with
    | none => rw [ha, List.foldl_fixed' (by simp)] at e; exact absurd e (by simp)
    | some u => rw [ha] at e; exact ih (hf s a u h ha) e

/-- A state with the same commands in wait, the same factory data and the same byte memories. -/
theorem Keeps.of_same (h : Keeps r s) (hp : t.pending = s.pending) (hf : factoryData t = factoryData s)
    (hm : memories t = memories s) : Keeps r t :=
  h.trans ⟨hp, hf, fun c => by unfold Canonical; rw [hm]; exact c⟩

theorem foldl_preserves {σ α : Type} {P : σ → Prop} {f : σ → α → σ} {l : List α} {s : σ} (h : P s)
    (hf : ∀ u a, P u → P (f u a)) : P (l.foldl f s) := by
  induction l generalizing s with
  | nil => exact h
  | cons a l ih => exact ih (hf _ _ h)

theorem foldlState_keeps {α : Type} {f : State → α → State} {l : List α} (h : Keeps r s)
    (hf : ∀ u a, Keeps r u → Keeps r (f u a)) : Keeps r (l.foldl f s) := foldl_preserves h hf
theorem eachDo_keeps {α : Type} {f : State → α → State} {l : List α} (h : Keeps r s)
    (hf : ∀ u a, Keeps r u → Keeps r (f u a)) : Keeps r (eachDo l f s) := foldl_preserves h hf

/-! ### Canonical memories -/

theorem canonical_iff (s : State) : Canonical s ↔
    (Memory.wf s.store.cells = true ∧ Memory.wf s.store.shadowMem = true ∧ Memory.wf s.scratch = true ∧
      Memory.wf s.imem = true ∧ Memory.wf s.reservoir = true) ∧
    Memory.wf s.host.mem = true ∧ Memory.wf s.remote = true ∧ Memory.wf s.lamp.spi = true ∧
      Memory.wf s.lamp.emberA.bytes = true ∧ Memory.wf s.lamp.emberB.bytes = true := by
  simp [Canonical, memories, and_assoc]

theorem wf_writes {α : Type} {at_ : α → Nat} {d : α → List Byte} {l : List α} {m : List Host.Cell}
    (h : Memory.wf m = true) :
    Memory.wf (l.foldl (fun m e => cellWrite m (at_ e) (d e)) m) = true :=
  foldl_preserves (P := fun m => Memory.wf m = true) h fun _ _ => wf_cellWrite _ _ _

/-- An update of the state that leaves the store, the host and the Lamplighter as they are, and the other byte
    memories
canonical. -/
theorem mk_keeps (h : Keeps r s) {out free remote remoteStatus regs lastCmd xbar sync lantern xlt keys scratch imem
    reservoir badScratch badImem badRsv wicks sconces plans emb dir work errs mon power}
    (hr : Memory.wf s.remote = true → Memory.wf remote = true)
    (hs : Memory.wf s.scratch = true → Memory.wf scratch = true)
    (hi : Memory.wf s.imem = true → Memory.wf imem = true)
    (hv : Memory.wf s.reservoir = true → Memory.wf reservoir = true) : Keeps r
    ⟨s.pending, out, free, remote, remoteStatus, regs, lastCmd, xbar, sync, lantern, s.store, xlt, keys, scratch,
     imem, reservoir, badScratch, badImem, badRsv, wicks, sconces, plans, emb, s.host, dir, work, errs, s.lamp,
     mon, power⟩ := by
  refine h.trans ⟨rfl, rfl, fun c => ?_⟩
  rw [canonical_iff] at c ⊢
  obtain ⟨⟨c1, c2, c3, c4, c5⟩, c6, c7, c8⟩ := c
  exact ⟨⟨c1, c2, hs c3, hi c4, hv c5⟩, c6, hr c7, c8⟩

/-! ### Updates of one component -/

theorem setReg_keeps (h : Keeps r s) {k v} : Keeps r (s.setReg k v) := h.of_same rfl rfl rfl
theorem setWick_keeps (h : Keeps r s) {w f} : Keeps r (s.setWick w f) := h.of_same rfl rfl rfl
theorem setSconce_keeps (h : Keeps r s) {w f} : Keeps r (s.setSconce w f) := h.of_same rfl rfl rfl
theorem setPort_keeps (h : Keeps r s) {w f} : Keeps r (s.setPort w f) := h.of_same rfl rfl rfl
theorem setXbar_keeps (h : Keeps r s) {f} : Keeps r (s.setXbar f) := h.of_same rfl rfl rfl
theorem setSync_keeps (h : Keeps r s) {f} : Keeps r (s.setSync f) := h.of_same rfl rfl rfl
theorem setXlt_keeps (h : Keeps r s) {f} : Keeps r (s.setXlt f) := h.of_same rfl rfl rfl
theorem setWork_keeps (h : Keeps r s) {f} : Keeps r (s.setWork f) := h.of_same rfl rfl rfl
theorem setQueue_keeps (h : Keeps r s) {w f} : Keeps r (s.setQueue w f) := h.of_same rfl rfl rfl
theorem setComp_keeps (h : Keeps r s) {w f} : Keeps r (s.setComp w f) := h.of_same rfl rfl rfl
theorem setExtent_keeps (h : Keeps r s) {w f} : Keeps r (s.setExtent w f) := h.of_same rfl rfl rfl
theorem setDir_keeps (h : Keeps r s) {f} : Keeps r (s.setDir f) := h.of_same rfl rfl rfl
theorem setErrs_keeps (h : Keeps r s) {f} : Keeps r (s.setErrs f) := h.of_same rfl rfl rfl
theorem setMon_keeps (h : Keeps r s) {f} : Keeps r (s.setMon f) := h.of_same rfl rfl rfl
theorem setPower_keeps (h : Keeps r s) {f} : Keeps r (s.setPower f) := h.of_same rfl rfl rfl
theorem setEmb_keeps (h : Keeps r s) {f} : Keeps r (s.setEmb f) := h.of_same rfl rfl rfl
theorem setPlan_keeps (h : Keeps r s) {w f} : Keeps r (s.setPlan w f) := h.of_same rfl rfl rfl
theorem emit_keeps (h : Keeps r s) {o} : Keeps r (emit s o) := h.of_same rfl rfl rfl

theorem setStore_keeps (h : Keeps r s) {f : Store → Store}
    (hc : Memory.wf s.store.cells = true → Memory.wf (f s.store).cells = true)
    (hm : Memory.wf s.store.shadowMem = true → Memory.wf (f s.store).shadowMem = true) : Keeps r (s.setStore f) := by
  refine h.trans ⟨rfl, rfl, fun c => ?_⟩
  rw [canonical_iff] at c ⊢
  obtain ⟨⟨c1, c2, c3⟩, c4⟩ := c
  exact ⟨⟨hc c1, hm c2, c3⟩, c4⟩

theorem setHost_keeps (h : Keeps r s) {f : HostLink → HostLink}
    (hm : Memory.wf s.host.mem = true → Memory.wf (f s.host).mem = true) : Keeps r (s.setHost f) := by
  refine h.trans ⟨rfl, rfl, fun c => ?_⟩
  rw [canonical_iff] at c ⊢
  obtain ⟨c1, c2, c3⟩ := c
  exact ⟨c1, hm c2, c3⟩

theorem setLamp_keeps (h : Keeps r s) {f : Lamp → Lamp} (hf : (f s.lamp).factory = s.lamp.factory)
    (hn : (f s.lamp).serial = s.lamp.serial) (hv : (f s.lamp).variantA = s.lamp.variantA)
    (hp : Memory.wf s.lamp.spi = true → Memory.wf (f s.lamp).spi = true)
    (ha : Memory.wf s.lamp.emberA.bytes = true → Memory.wf (f s.lamp).emberA.bytes = true)
    (hb : Memory.wf s.lamp.emberB.bytes = true → Memory.wf (f s.lamp).emberB.bytes = true) : Keeps r (s.setLamp f) :=
        by
  refine h.trans ⟨rfl, by simp only [factoryData, State.setLamp, hf, hn, hv], fun c => ?_⟩
  rw [canonical_iff] at c ⊢
  obtain ⟨c1, c2, c3, c4, c5, c6⟩ := c
  exact ⟨c1, c2, c3, hp c4, ha c5, hb c6⟩

theorem draw_keeps (h : Keeps r s) : Keeps r (draw s).2 := h.of_same rfl rfl rfl

theorem withVectors_keeps {p f} (h : Keeps r (f s)) : Keeps r (withVectors p f s) := by
  grind [withVectors, emit_keeps]

/-! ### The work of an engine -/

/-- An engine's work, whatever it answers, keeps what no operation takes away. -/
def EngKeeps {α : Type} (r : State) (e : Eng α) : Prop := ∀ s, Keeps r s → Keeps r (e s).2

theorem pure_keeps {α : Type} {a : α} : EngKeeps r (pure a) := fun _ h => h

theorem bind_keeps {α β : Type} {e : Eng α} {f : α → Eng β} (he : EngKeeps r e) (hf : ∀ a, EngKeeps r (f a)) :
    EngKeeps r (e >>= f) := by
  intro s hs
  have hb : (e >>= f) s = (match e s with
    | (.ok a, t) => f a t
    | (.error x, t) => (.error x, t)) := by
    show (ExceptT.bind e f) s = _
    simp only [ExceptT.bind, ExceptT.mk, bind, StateT.bind]
    cases h : e s with
    | mk r t => cases r <;> rfl
  have h := he s hs
  rw [hb]
  revert h
  rcases e s with ⟨x | a, t⟩
  · exact id
  · exact hf a t

/-- A part of an engine's work that starts from the state as it finds it. -/
theorem get_keeps {β : Type} {f : State → Eng β} (hf : ∀ s, Keeps r s → EngKeeps r (f s)) : EngKeeps r (get >>= f) :=
  fun s h => hf s h s h
theorem set_keeps (h : Keeps r t) : EngKeeps r (set t) := fun _ _ => h
theorem modify_keeps {f : State → State} (hf : ∀ s, Keeps r s → Keeps r (f s)) : EngKeeps r (modify f) := hf
theorem throw_keeps {α : Type} {x : EFail} : EngKeeps r (throw x : Eng α) := fun _ h => h
theorem failNow_keeps {α : Type} {st : Status} : EngKeeps r (failNow (α := α) st) := fun _ h => h
theorem waitNow_keeps {α : Type} : EngKeeps r (waitNow (α := α)) := fun _ h => h
theorem failLog_keeps {α : Type} {st : Status} {f : State → State} (hf : ∀ s, Keeps r s → Keeps r (f s)) :
    EngKeeps r (failLog (α := α) st f) := hf
theorem tryCatch_keeps {α : Type} {e : Eng α} {f : EFail → Eng α} (he : EngKeeps r e) (hf : ∀ x, EngKeeps r (f x)) :
    EngKeeps r (tryCatch e f) := by
  intro s hs
  have h := he s hs
  have ht : tryCatch e f s = (match e s with
    | (.ok a, t) => (.ok a, t)
    | (.error x, t) => f x t) := by
    show (ExceptT.tryCatch e f) s = _
    simp only [ExceptT.tryCatch, ExceptT.mk, bind, StateT.bind]
    cases h : e s with
    | mk r t => cases r <;> rfl
  rw [ht]
  revert h
  rcases e s with ⟨x | a, t⟩
  · exact hf x t
  · exact id

theorem ite_keeps {α : Type} {c : Prop} [Decidable c] {e e' : Eng α} (h : EngKeeps r e) (h' : EngKeeps r e') :
    EngKeeps r (if c then e else e') := by
  split
  · exact h
  · exact h'

theorem check_keeps {β : Type} {c : Prop} [Decidable c] {m : Eng Unit} {f : Unit → Eng β} (hm : EngKeeps r m)
    (hf : ∀ u, EngKeeps r (f u)) : EngKeeps r (if c then m >>= f else f ()) := ite_keeps (bind_keeps hm hf) (hf ())

theorem mapM_keeps {α β : Type} {f : α → Eng β} {l : List α} (hf : ∀ a, EngKeeps r (f a)) : EngKeeps r (l.mapM f) :=
    by
  induction l with
  | nil => exact pure_keeps
  | cons a l ih =>
    rw [List.mapM_cons]
    exact bind_keeps (hf a) fun _ => bind_keeps ih fun _ => pure_keeps

theorem forM_keeps {α : Type} {f : α → Eng PUnit} {l : List α} (hf : ∀ a, EngKeeps r (f a)) : EngKeeps r (l.forM f) :=
    by
  induction l with
  | nil => exact pure_keeps
  | cons a l ih => exact bind_keeps (hf a) fun _ => ih

theorem foldlM_keeps {α β : Type} {f : β → α → Eng β} {l : List α} {b : β} (hf : ∀ b a, EngKeeps r (f b a)) :
    EngKeeps r (l.foldlM f b) := by
  induction l generalizing b with
  | nil => exact pure_keeps
  | cons a l ih => exact bind_keeps (hf b a) fun _ => ih

theorem runEng_keeps {α : Type} {e : Eng α} {x : Except Status α} (hr : runEng e s = some (x, t)) (he : EngKeeps r e)
    (h : Keeps r s) :
    Keeps r t := by
  have hs := he s h
  revert hr hs
  unfold runEng
  rcases e s with ⟨x | a, u⟩
  · cases x with
    | wait => simp
    | stat st => simp only [Option.some.injEq, Prod.mk.injEq, and_imp]; rintro rfl rfl; exact id
  · simp only [Option.some.injEq, Prod.mk.injEq, and_imp]; rintro rfl rfl; exact id

/-! ### The answer of a command -/

/-- A command whose operands are as they must be moves to a state that keeps what no operation takes away; any other
    is
the fault NO_SUCH_UNIT. -/
def Answers (r : State) (ok : Bool) (o : Host.Outcome State Fault Refusal) : Prop := ∃ t, Keeps r t ∧ o = onOk ok t

theorem onOk_keeps {ok : Bool} (h : Keeps r t) : Answers r ok (onOk ok t) := ⟨t, h, rfl⟩
theorem next_keeps (h : Keeps r t) : Answers r true (.next t) := ⟨t, h, rfl⟩

end Sys2Proof.Proofs.Keeping
end

section
/-! SUPPORT. What registers and records of failures keep (15 R409 to R413; 17 R471 to R478). -/
namespace Sys2Proof.Proofs.Keeping
open Sys2Proof Machine Safety Laws
-- One proof at a time: they all cite one another, and proofs that wait would each hold a thread.
set_option Elab.async false

variable {r s t : State}

theorem bump_keeps (h : Keeps r s) {k width n} : Keeps r (bump s k width n) := by
  grind [bump, setReg_keeps, draw_keeps]
theorem bumpSat_keeps (h : Keeps r s) {k width n} : Keeps r (bumpSat s k width n) := by
  grind [bumpSat, setReg_keeps]
theorem pushRecord_keeps (h : Keeps r s) {r₁ capture} : Keeps r (pushRecord s r₁ capture).2 := by
  grind [pushRecord, setErrs_keeps, bump_keeps]
theorem logRecord_keeps (h : Keeps r s) {p f} : Keeps r (logRecord s p f) := by
  grind [logRecord, mk_keeps, pushRecord_keeps]
theorem logErr_keeps (h : Keeps r s) {p b f} : Keeps r (logErr s p b f) := by
  grind [logErr, mk_keeps, pushRecord_keeps, withVectors_keeps, setReg_keeps, bumpSat_keeps]
theorem logEvt_keeps (h : Keeps r s) {p b} : Keeps r (logEvt s p b) := by
  grind [logEvt, withVectors_keeps, setReg_keeps]
theorem clearErrStat_keeps (h : Keeps r s) {p v} : Keeps r (clearErrStat s p v) := by
  grind [clearErrStat, setReg_keeps, setErrs_keeps]
theorem dropWrite_keeps (h : Keeps r s) {src off} : Keeps r (dropWrite s src off) := by
  grind [dropWrite, setReg_keeps, draw_keeps]
theorem refuse_keeps (h : Keeps r s) {p b rel} : Keeps r (refuse s p b rel) := by
  grind [refuse, logErr_keeps]

end Sys2Proof.Proofs.Keeping
end

section
/-! SUPPORT. What the store and its block map keep (02 R36 to R49). -/
namespace Sys2Proof.Proofs.Keeping
open Sys2Proof Machine Safety Laws
-- One proof at a time: they all cite one another, and proofs that wait would each hold a thread.
set_option Elab.async false

variable {r s t : State}

theorem blockSet_keeps (h : Keeps r s) {b f} : Keeps r (blockSet s b f) := by
  grind [blockSet, setStore_keeps]
theorem placeSet_keeps (h : Keeps r s) {l v} : Keeps r (placeSet s l v) := by
  unfold placeSet
  grind (gen := 20) [setStore_keeps]
theorem countAccess_keeps (h : Keeps r s) {b} : Keeps r (countAccess s b) := by
  grind [countAccess, blockSet_keeps, setStore_keeps]
theorem setKeySlot_keeps (h : Keeps r s) {k f} : Keeps r (setKeySlot s k f) := by
  grind [setKeySlot, mk_keeps]
theorem lineStore_keeps (h : Keeps r s) {l v} : Keeps r (lineStore s l v) := by
  unfold lineStore
  grind (gen := 20) [setStore_keeps, wf_cellWrite, wf_cellZero, wf_cellSet]
theorem clearBad_keeps (h : Keeps r s) {l} : Keeps r (clearBad s l) := by
  grind [clearBad, setStore_keeps, blockSet_keeps]
theorem lineWrite_keeps (h : Keeps r s) {k l v} : Keeps r (lineWrite s k l v) := by
  grind [lineWrite, clearBad_keeps, lineStore_keeps]
theorem lineMerge_keeps (h : Keeps r s) {k l d m} : Keeps r (lineMerge s k l d m) := by
  grind [lineMerge, lineWrite_keeps]
theorem homeWrite_keeps (h : Keeps r s) {k off d} : Keeps r (homeWrite s k off d) := by
  grind [homeWrite, foldlState_keeps, lineMerge_keeps]
theorem scratchWrite_keeps (h : Keeps r s) {w a d} : Keeps r (scratchWrite s w a d) := by
  unfold scratchWrite
  grind (gen := 20) [mk_keeps, wf_cellWrite, wf_cellZero, wf_cellSet]
theorem reservoirWrite_keeps (h : Keeps r s) {a d} : Keeps r (reservoirWrite s a d) := by
  unfold reservoirWrite
  grind (gen := 20) [mk_keeps, wf_cellWrite, wf_cellZero, wf_cellSet]
theorem imemWrite_keeps (h : Keeps r s) {w a d} : Keeps r (imemWrite s w a d) := by
  unfold imemWrite
  grind (gen := 20) [mk_keeps, wf_cellWrite, wf_cellZero, wf_cellSet]

end Sys2Proof.Proofs.Keeping
end

section
/-! SUPPORT. What counters and semaphores keep (06 R165 to R176). -/
namespace Sys2Proof.Proofs.Keeping
open Sys2Proof Machine Safety Laws
-- One proof at a time: they all cite one another, and proofs that wait would each hold a thread.
set_option Elab.async false

variable {r s t : State}

theorem hubSet_keeps (h : Keeps r s) {k v} : Keeps r (hubSet s k v) := by
  grind [hubSet, setSync_keeps]
theorem localSet_keeps (h : Keeps r s) {sc n v} : Keeps r (localSet s sc n v) := by
  grind [localSet, setSync_keeps]
theorem hubAdd_keeps (h : Keeps r s) {k v} : Keeps r (hubAdd s k v) := by
  grind [hubAdd, bump_keeps, hubSet_keeps]
theorem localAdd_keeps (h : Keeps r s) {sc n v} : Keeps r (localAdd s sc n v) := by
  grind [localAdd, bump_keeps, localSet_keeps]
theorem ownerFault_keeps (h : Keeps r s) {part agent id} : Keeps r (ownerFault s part agent id) := by
  grind [ownerFault, logErr_keeps]
theorem semSet_keeps (h : Keeps r s) {k v} : Keeps r (semSet s k v) := by
  grind [semSet, setSync_keeps]

end Sys2Proof.Proofs.Keeping
end

section
/-! SUPPORT. What the links send keeps (04; 05 R127 to R142). -/
namespace Sys2Proof.Proofs.Keeping
open Sys2Proof Machine Safety Laws
-- One proof at a time: they all cite one another, and proofs that wait would each hold a thread.
set_option Elab.async false

variable {r s t : State}

theorem portSend_keeps (h : Keeps r s) {n p} : Keeps r (portSend s n p) := by
  grind [portSend, emit_keeps, setPort_keeps]
theorem portSendCtl_keeps (h : Keeps r s) {n m} : Keeps r (portSendCtl s n m) := by
  grind [portSendCtl, emit_keeps, setPort_keeps]
theorem portDrain_keeps (h : Keeps r s) {n} : Keeps r (portDrain s n) := by
  grind [portDrain, foldlState_keeps, setPort_keeps, portSendCtl_keeps, portSend_keeps]
theorem raiseNoRoute_keeps (h : Keeps r s) {a} : Keeps r (raiseNoRoute s a) := by
  grind [raiseNoRoute, setXbar_keeps, logEvt_keeps]
theorem sendCtlBy_keeps (h : Keeps r s) {bank m} : Keeps r (sendCtlBy s bank m).2 := by
  grind [sendCtlBy, portSendCtl_keeps]
theorem sendCtl_keeps (h : Keeps r s) {m} : Keeps r (sendCtl s m) := by
  grind [sendCtl, sendCtlBy_keeps, raiseNoRoute_keeps]
theorem transmit_keeps (h : Keeps r s) {p} : Keeps r (transmit s p) := by
  grind [transmit, portSend_keeps, raiseNoRoute_keeps]
theorem setTx_keeps (h : Keeps r s) {a f} : Keeps r (setTx s a f) := by
  grind [setTx, setXbar_keeps]
theorem launch_keeps (h : Keeps r s) {p o} : Keeps r (launch s p o) := by
  grind [launch, transmit_keeps, setTx_keeps]
theorem sendNew_keeps (h : Keeps r s) {p o} : Keeps r (sendNew s p o) := by
  grind [sendNew, launch_keeps, setTx_keeps]
theorem releaseWaiting_keeps (h : Keeps r s) {a} : Keeps r (releaseWaiting s a) := by
  grind [releaseWaiting, foldlState_keeps, setTx_keeps, sendNew_keeps]
theorem takeUnfinished_keeps (h : Keeps r s) {a seq} : Keeps r (takeUnfinished s a seq).2 := by
  grind [takeUnfinished, setTx_keeps, releaseWaiting_keeps]
theorem launchCtl_keeps (h : Keeps r s) {m o} : Keeps r (launchCtl s m o) := by
  grind [launchCtl, sendCtl_keeps, setTx_keeps]
theorem takeUnfinishedCtl_keeps (h : Keeps r s) {a cseq} : Keeps r (takeUnfinishedCtl s a cseq).2 := by
  grind [takeUnfinishedCtl, setTx_keeps]
theorem heardFrom_keeps (h : Keeps r s) {a} : Keeps r (heardFrom s a) := by
  grind [heardFrom, setTx_keeps]
theorem answer_keeps (h : Keeps r s) {p status data} : Keeps r (answer s p status data) := by
  grind [answer, transmit_keeps, sendCtl_keeps]
theorem setRx_keeps (h : Keeps r s) {a f} : Keeps r (setRx s a f) := by
  grind [setRx, setXbar_keeps]
theorem markSeq_keeps (h : Keeps r s) {p v} : Keeps r (markSeq s p v) := by
  grind [markSeq, setRx_keeps]
theorem markCseq_keeps (h : Keeps r s) {m v} : Keeps r (markCseq s m v) := by
  grind [markCseq, setRx_keeps]
theorem finishPeer_keeps (h : Keeps r s) {p status data} : Keeps r (finishPeer s p status data) := by
  grind [finishPeer, answer_keeps, markSeq_keeps]
theorem failPeer_keeps (h : Keeps r s) {p status page bit} : Keeps r (failPeer s p status page bit) := by
  grind [failPeer, finishPeer_keeps, logRecord_keeps, logErr_keeps]

end Sys2Proof.Proofs.Keeping
end

section
/-! SUPPORT. What the placement engine keeps (02 R39 to R49). -/
namespace Sys2Proof.Proofs.Keeping
open Sys2Proof Machine Safety Laws
-- One proof at a time: they all cite one another, and proofs that wait would each hold a thread.
set_option Elab.async false

variable {r s t : State}

theorem bumpBusy_keeps (h : Keeps r s) : Keeps r (bumpBusy s) := by
  grind [bumpBusy, bump_keeps]
theorem sweepVictim_keeps (h : Keeps r s) {tier b cnt} : Keeps r (sweepVictim s tier b cnt).2 := by
  unfold sweepVictim
  split <;> grind (gen := 20) [setStore_keeps]
theorem addMove_keeps (h : Keeps r s) {m} : Keeps r (addMove s m) := by
  grind [addMove, setStore_keeps]
theorem roomInCapacity_keeps (h : Keeps r s) {b cnt rank why needVictim} : Keeps r (roomInCapacity s b cnt rank why
    needVictim).2 := by
  grind [roomInCapacity, sweepVictim_keeps, addMove_keeps]

theorem roomInStacked_keeps (h : Keeps r s) {b cnt rank why wick needVictim} : Keeps r (roomInStacked s b cnt rank why
    wick needVictim).2 := by
  unfold roomInStacked
  grind (gen := 20) [sweepVictim_keeps, roomInCapacity_keeps, addMove_keeps]

theorem startMove_keeps (h : Keeps r s) {b tier wick rank why} : Keeps r (startMove s b tier wick rank why).2 := by
  grind [startMove, logEvt_keeps, setStore_keeps, addMove_keeps, roomInStacked_keeps, roomInCapacity_keeps,
    bumpBusy_keeps]
theorem adviceDone_keeps (h : Keeps r s) {q tag b st} : Keeps r (adviceDone s q tag b st) := by
  grind [adviceDone, setStore_keeps]
theorem pinBlock_keeps (h : Keeps r s) {b} : Keeps r (pinBlock s b).2 := by
  grind [pinBlock, blockSet_keeps]
theorem tellAdvice_keeps (h : Keeps r s) {rank b st q tag} : Keeps r (tellAdvice s rank b st q tag) := by
  grind [tellAdvice, pinBlock_keeps, adviceDone_keeps]
theorem tellMove_keeps (h : Keeps r s) {m st} : Keeps r (tellMove s m st) := by
  grind [tellMove, foldlState_keeps, tellAdvice_keeps]
theorem dropMove_keeps (h : Keeps r s) {b} : Keeps r (dropMove s b) := by
  grind [dropMove, setStore_keeps]
theorem cancelMove_keeps (h : Keeps r s) {m} : Keeps r (cancelMove s m) := by
  grind [cancelMove, tellMove_keeps, dropMove_keeps, bumpBusy_keeps]

theorem requestMove_keeps (h : Keeps r s) {b tier wick rank why} : Keeps r (requestMove s b tier wick rank why).2 :=
    by
  unfold requestMove
  grind (gen := 40) (splits := 40) (ematch := 20) (instances := 5000) [bumpBusy_keeps, startMove_keeps,
    setStore_keeps, cancelMove_keeps]

theorem retryWaiting_keeps (h : Keeps r s) : Keeps r (retryWaiting s) := by
  grind [retryWaiting, foldlState_keeps, requestMove_keeps, tellMove_keeps, setStore_keeps]
theorem writeShadow_keeps (h : Keeps r s) {b} : Keeps r (writeShadow s b) := by
  unfold writeShadow
  grind (gen := 20) [blockSet_keeps, setStore_keeps, wf_cellWrite, wf_cellZero, wf_cellSet]
theorem staleShadow_keeps (h : Keeps r s) {b} : Keeps r (staleShadow s b) := by
  grind [staleShadow, blockSet_keeps]
theorem setFlashFree_keeps (h : Keeps r s) {n} : Keeps r (setFlashFree s n) := by
  grind [setFlashFree, setStore_keeps, logEvt_keeps]
theorem flipMove_keeps (h : Keeps r s) {m} : Keeps r (flipMove s m) := by
  grind [flipMove, setFlashFree_keeps, setStore_keeps, placeSet_keeps, blockSet_keeps, writeShadow_keeps,
    staleShadow_keeps]
theorem stopMove_keeps (h : Keeps r s) {m line} : Keeps r (stopMove s m line) := by
  grind [stopMove, logErr_keeps, tellMove_keeps, dropMove_keeps, blockSet_keeps]
theorem finishMove_keeps (h : Keeps r s) {m} : Keeps r (finishMove s m) := by
  unfold finishMove
  grind (gen := 20) [placeSet_keeps, dropMove_keeps, retryWaiting_keeps, tellMove_keeps, bump_keeps]
theorem promoteNow_keeps (h : Keeps r s) {b} (e : promoteNow s b = some t) : Keeps r t := by
  grind [promoteNow, foldlState_keeps, finishMove_keeps, cancelMove_keeps, requestMove_keeps, flipMove_keeps]

end Sys2Proof.Proofs.Keeping
end

section
/-! SUPPORT. What a wick by itself keeps (08 R220 to R229). -/
namespace Sys2Proof.Proofs.Keeping
open Sys2Proof Machine Safety Laws
-- One proof at a time: they all cite one another, and proofs that wait would each hold a thread.
set_option Elab.async false

variable {r s t : State}

theorem haltWick_keeps (h : Keeps r s) {w st} : Keeps r (haltWick s w st) := by
  grind [haltWick, setWick_keeps]
theorem stopWick_keeps (h : Keeps r s) {w st kind addr} : Keeps r (stopWick s w st kind addr) := by
  grind [stopWick, haltWick_keeps, logRecord_keeps]
theorem stopAtPc_keeps (h : Keeps r s) {w st} : Keeps r (stopAtPc s w st) := by
  grind [stopAtPc, stopWick_keeps]
theorem stopUncorr_keeps (h : Keeps r s) {w} : Keeps r (stopUncorr s w) := by
  grind [stopUncorr, haltWick_keeps, logErr_keeps]
theorem goTo_keeps (h : Keeps r s) {w target} : Keeps r (goTo s w target) := by
  grind [goTo, setWick_keeps, stopAtPc_keeps]
theorem advance_keeps (h : Keeps r s) {w} : Keeps r (advance s w) := by
  grind [advance, goTo_keeps]
theorem wickDo_keeps (h : Keeps r s) {w f} : Keeps r (wickDo w f s) := by
  grind [wickDo, advance_keeps, setWick_keeps]
theorem issue_keeps (h : Keeps r s) {w} : Keeps r (issue s w) := by
  grind [issue, mk_keeps, setWick_keeps]

theorem wickRun_keeps (h : Keeps r s) {op w word} {f : State → State} (hf : ∀ s, Keeps r s → Keeps r (f s)) :
    Answers r (wickOk w) (wickRun op w word s f) := by
  refine ⟨_, ?_, rfl⟩
  grind [stopUncorr_keeps, stopAtPc_keeps, issue_keeps]

theorem spotOutput_keeps (h : Keeps r s) {w} : Keeps r (spotOutput s w) := by
  grind [spotOutput, setSconce_keeps]

end Sys2Proof.Proofs.Keeping
end

section
/-! SUPPORT. What the tiers and their bytes keep (02 R36 to R48). -/
namespace Sys2Proof.Proofs.Keeping
open Sys2Proof Machine Safety Laws
-- One proof at a time: they all cite one another, and proofs that wait would each hold a thread.
set_option Elab.async false

variable {r s t : State}

theorem setErrOnly_keeps (h : Keeps r s) {p b f} : Keeps r (setErrOnly s p b f) := by
  grind [setErrOnly, withVectors_keeps, bumpSat_keeps, setReg_keeps]
theorem logStageWith_keeps (h : Keeps r s) {f off t₁ st} : Keeps r (logStageWith s f off t₁ st) := by
  grind [logStageWith, logErr_keeps, bump_keeps, logRecord_keeps]
theorem logStage_keeps (h : Keeps r s) {p off t₁ st} : Keeps r (logStage s p off t₁ st) := by
  grind [logStage, logStageWith_keeps]
theorem genSet_keeps (h : Keeps r s) {k g} : Keeps r (genSet s k g) := by
  grind [genSet, setWork_keeps]
theorem clearForfeits_keeps (h : Keeps r s) {ls} : Keeps r (clearForfeits s ls) := by
  grind [clearForfeits, setDir_keeps]
theorem applyData_keeps (h : Keeps r s) {t₁ ps off} : Keeps r (applyData s t₁ ps off).2 := by
  unfold applyData
  grind (gen := 20) [clearForfeits_keeps, homeWrite_keeps, lineMerge_keeps, genSet_keeps]
theorem noteFault_keeps (h : Keeps r s) {dst part k st} : Keeps r (noteFault s dst part k st) := by
  grind [noteFault, setSync_keeps]
theorem noteFence_keeps (h : Keeps r s) {w ord st} : Keeps r (noteFence s w ord st) := by
  grind [noteFence, setXbar_keeps]
theorem wickGot_keeps (h : Keeps r s) {w f} : Keeps r (wickGot s w f) := by
  grind [wickGot, advance_keeps, setWick_keeps]
theorem wickFailed_keeps (h : Keeps r s) {w st} : Keeps r (wickFailed s w st) := by
  grind [wickFailed, haltWick_keeps]
theorem noteXfer_keeps (h : Keeps r s) {id st} : Keeps r (noteXfer s id st) := by
  grind [noteXfer, setWork_keeps]
theorem ingressRecord_keeps (h : Keeps r s) {p st recorded} : Keeps r (ingressRecord s p st recorded) := by
  grind [ingressRecord, logRecord_keeps]
theorem joinDone_keeps (h : Keeps r s) {j i st data recorded} : Keeps r (joinDone s j i st data recorded) := by
  grind [joinDone, setXbar_keeps, finishPeer_keeps]
theorem hostWriteFails_keeps (h : Keeps r s) {f recorded} : Keeps r (hostWriteFails s f recorded) := by
  grind [hostWriteFails, setErrOnly_keeps, logErr_keeps, emit_keeps, bump_keeps]

theorem deliver_keeps (h : Keeps r s) {o p st data recorded} : Keeps r (deliver s o p st data recorded) := by
  cases o with
  | transfer id => exact noteXfer_keeps h
  | part j i => exact joinDone_keeps (ingressRecord_keeps h)
  | _ =>
    unfold deliver
    grind [finishPeer_keeps, ingressRecord_keeps, emit_keeps, bump_keeps, hostWriteFails_keeps, wickGot_keeps,
      wickFailed_keeps, noteFence_keeps, haltWick_keeps, setWick_keeps]

theorem noteInflight_keeps (h : Keeps r s) {off up} : Keeps r (noteInflight s off up) := by
  grind [noteInflight, setExtent_keeps]
theorem completeHome_keeps (h : Keeps r s) {r₁ off data} : Keeps r (completeHome s r₁ off data) := by
  grind [completeHome, hubAdd_keeps, deliver_keeps, noteInflight_keeps]
theorem failHome_keeps (h : Keeps r s) {r₁ off st} : Keeps r (failHome s r₁ off st) := by
  grind [failHome, noteFault_keeps, noteInflight_keeps, deliver_keeps]
theorem completeGroup_keeps (h : Keeps r s) {rs off} : Keeps r (completeGroup s rs off) := by
  unfold completeGroup
  grind (gen := 20) [foldlState_keeps, logEvt_keeps, completeHome_keeps, setStore_keeps, bump_keeps, sendNew_keeps]
theorem twinDone_keeps (h : Keeps r s) {id p st} : Keeps r (twinDone s id p st) := by
  grind [twinDone, foldlState_keeps, setStore_keeps, logErr_keeps, completeHome_keeps, failHome_keeps]

end Sys2Proof.Proofs.Keeping
end

section
/-! SUPPORT. What the directory keeps (13 R366 to R381). -/
namespace Sys2Proof.Proofs.Keeping
open Sys2Proof Machine Safety Laws
-- One proof at a time: they all cite one another, and proofs that wait would each hold a thread.
set_option Elab.async false

variable {r s t : State}

theorem setEntry_keeps (h : Keeps r s) {l f} : Keeps r (setEntry s l f) := by
  grind [setEntry, setDir_keeps]
theorem putEntry_keeps (h : Keeps r s) {l e} : Keeps r (putEntry s l e) := by
  grind [putEntry, setDir_keeps]
theorem forfeitLine_keeps (h : Keeps r s) {l agent} : Keeps r (forfeitLine s l agent) := by
  grind [forfeitLine, logErr_keeps, setDir_keeps, logEvt_keeps, blockSet_keeps]
theorem twinLines_keeps (h : Keeps r s) {p l} : Keeps r (twinLines s p l) := by
  grind [twinLines, foldlState_keeps, setStore_keeps, bump_keeps, sendNew_keeps]
theorem dirtyWrite_keeps (h : Keeps r s) {l v} : Keeps r (dirtyWrite s l v) := by
  have hp : Keeps r ((promoteNow s (l / 1024)).getD s) := getD_keeps h fun _ => promoteNow_keeps h
  grind [dirtyWrite, logRecord_keeps, countAccess_keeps, lineWrite_keeps, staleShadow_keeps, twinLines_keeps]
theorem hostSnoop_keeps (h : Keeps r s) {p} : Keeps r (hostSnoop s p) := by
  grind [hostSnoop, setDir_keeps, logRecord_keeps, answer_keeps, setHost_keeps, emit_keeps]
theorem sendSnoop_keeps (h : Keeps r s) {l agent inv part} : Keeps r (sendSnoop s l agent inv part) := by
  grind [sendSnoop, bump_keeps, hostSnoop_keeps, sendNew_keeps]
theorem addTxn_keeps (h : Keeps r s) {t₁} : Keeps r (addTxn s t₁) := by
  grind [addTxn, setDir_keeps]
theorem markBusy_keeps (h : Keeps r s) {l b} : Keeps r (markBusy s l b) := by
  grind [markBusy, setEntry_keeps]
theorem takeWay_keeps (h : Keeps r s) {a} : Keeps r (takeWay s a).2 := by
  grind [takeWay, foldlState_keeps, putEntry_keeps, markBusy_keeps, setDir_keeps, bump_keeps, sendSnoop_keeps]

theorem depositHint_keeps (h : Keeps r s) {p l} : Keeps r (depositHint s p l) := by
  unfold depositHint
  grind (gen := 40) (splits := 40) (ematch := 20) (instances := 5000) [bump_keeps, takeWay_keeps, addTxn_keeps,
    setDir_keeps, sendNew_keeps, setEntry_keeps]

theorem sweepEntry_keeps (h : Keeps r s) {a remove l} : Keeps r (sweepEntry s a remove l) := by
  grind [sweepEntry, addTxn_keeps, setDir_keeps, sendSnoop_keeps, markBusy_keeps, forfeitLine_keeps, putEntry_keeps]
theorem sweepAfter_keeps (h : Keeps r s) {ls own} : Keeps r (sweepAfter s ls own) := by
  grind [sweepAfter, foldlState_keeps, sweepEntry_keeps]

theorem finishReq_keeps (h : Keeps r s) {t₁ r₁ off} : Keeps r (finishReq s t₁ r₁ off) := by
  unfold finishReq
  grind (gen := 20) [getD_keeps, foldlState_keeps, setDir_keeps, dirtyWrite_keeps, putEntry_keeps, failHome_keeps,
    logStage_keeps, countAccess_keeps, applyData_keeps, staleShadow_keeps, completeGroup_keeps, depositHint_keeps]

theorem finishTxn_keeps (h : Keeps r s) {t₁} : Keeps r (finishTxn s t₁) := by
  unfold finishTxn
  grind (gen := 20) [foldlState_keeps, setDir_keeps, dirtyWrite_keeps, putEntry_keeps, finishReq_keeps, bump_keeps,
    sweepAfter_keeps]

theorem waitDir_keeps (h : Keeps r s) {r₁ off} : Keeps r (waitDir s r₁ off) := by
  grind [waitDir, setDir_keeps]
theorem cohStart_keeps (h : Keeps r s) {r₁ off} : Keeps r (cohStart s r₁ off) := by
  grind [cohStart, foldlState_keeps, failHome_keeps, logErr_keeps, logStage_keeps, waitDir_keeps, setDir_keeps,
    takeWay_keeps, markBusy_keeps, bump_keeps, sendSnoop_keeps, finishTxn_keeps, addTxn_keeps, foldlPair_keeps]
theorem dirAnswer_keeps (h : Keeps r s) {l a st data recorded} : Keeps r (dirAnswer s l a st data recorded) := by
  grind [dirAnswer, setErrOnly_keeps, logErr_keeps, forfeitLine_keeps, setDir_keeps, finishTxn_keeps]
theorem retryDir_keeps (h : Keeps r s) : Keeps r (retryDir s) := by
  grind [retryDir, foldlState_keeps, cohStart_keeps, setDir_keeps]

theorem settleDirN_keeps (h : Keeps r s) {n} : Keeps r (settleDirN n s) := by
  induction n generalizing s with
  | zero => exact h
  | succ n ih => unfold settleDirN; grind [dirAnswer_keeps, setDir_keeps, retryDir_keeps]

theorem settleDir_keeps (h : Keeps r s) : Keeps r (settleDir s) := by
  grind [settleDir, settleDirN_keeps]
theorem writeBack_keeps (h : Keeps r s) {l} : Keeps r (writeBack s l) := by
  grind [writeBack, dirtyWrite_keeps, setDir_keeps, settleDir_keeps, setEntry_keeps]
theorem startSweep_keeps (h : Keeps r s) {a remove hostDead} : Keeps r (startSweep s a remove hostDead) := by
  grind [startSweep, foldlState_keeps, setDir_keeps, settleDir_keeps, sweepEntry_keeps]
theorem hostDies_keeps (h : Keeps r s) : Keeps r (hostDies s) := by
  grind [hostDies, foldlState_keeps, logEvt_keeps, setHost_keeps, hostSnoop_keeps, settleDir_keeps, setDir_keeps,
    startSweep_keeps]

end Sys2Proof.Proofs.Keeping
end

section
/-! SUPPORT. What a request at its home keeps (05 R149 to R155). -/
namespace Sys2Proof.Proofs.Keeping
open Sys2Proof Machine Safety Laws
-- One proof at a time: they all cite one another, and proofs that wait would each hold a thread.
set_option Elab.async false

variable {r s t : State}

theorem endCommand_keeps (h : Keeps r s) {q idx st result} : Keeps r (endCommand s q idx st result) := by
  grind [endCommand, setQueue_keeps, setWork_keeps]
theorem fenceReleased_keeps (h : Keeps r s) {q idx st} : Keeps r (fenceReleased s q idx st) := by
  grind [fenceReleased, endCommand_keeps]
theorem postDone_keeps (h : Keeps r s) {h₁ st} : Keeps r (postDone s h₁ st) := by
  grind [postDone, setPlan_keeps]
theorem stopRunning_keeps (h : Keeps r s) {w st} : Keeps r (stopRunning s w st) := by
  grind [stopRunning, haltWick_keeps]
theorem semDone_keeps (h : Keeps r s) {w d st val taken} : Keeps r (semDone s w d st val taken) := by
  grind [semDone, haltWick_keeps, advance_keeps, setWick_keeps]
theorem rebuildTwin_keeps (h : Keeps r s) {id p st} : Keeps r (rebuildTwin s id p st) := by
  grind [rebuildTwin, setStore_keeps]

theorem complete_keeps (h : Keeps r s) {o p st data recorded} : Keeps r (complete s o p st data recorded) := by
  unfold complete
  grind (gen := 20) [twinDone_keeps, rebuildTwin_keeps, settleDir_keeps, dirAnswer_keeps, stopRunning_keeps,
    noteFence_keeps, postDone_keeps, fenceReleased_keeps, deliver_keeps]

theorem setWindow_keeps (h : Keeps r s) {t₁ gs} : Keeps r (setWindow s t₁ gs) := by
  grind [setWindow, setXbar_keeps]
theorem enqueue_keeps (h : Keeps r s) {t₁ r₁} : Keeps r (enqueue s t₁ r₁) := by
  grind [enqueue, setWindow_keeps, bump_keeps]
theorem failGroup_keeps (h : Keeps r s) {g off t₁ st} : Keeps r (failGroup s g off t₁ st) := by
  grind [failGroup, foldlState_keeps, failHome_keeps, logStage_keeps]
theorem demand_keeps (h : Keeps r s) {bs} : Keeps r (demand s bs).2 := by
  grind [demand, foldlState_keeps, requestMove_keeps, foldlPair_keeps]

theorem applyGroup_keeps (h : Keeps r s) {t₁ g} : Keeps r (applyGroup s t₁ g) := by
  unfold applyGroup
  grind (gen := 20) [foldlState_keeps, countAccess_keeps, failGroup_keeps, demand_keeps, setStore_keeps,
    applyData_keeps, staleShadow_keeps, completeGroup_keeps]

theorem drainTarget_keeps (h : Keeps r s) {t₁} : Keeps r (drainTarget s t₁) := by
  grind [drainTarget, foldlState_keeps, applyGroup_keeps, setWindow_keeps]
theorem acceptOne_keeps (h : Keeps r s) {t₁} : Keeps r (acceptOne s t₁) := by
  grind [acceptOne, applyGroup_keeps, setWindow_keeps]
theorem retryDeferred_keeps (h : Keeps r s) : Keeps r (retryDeferred s) := by
  grind [retryDeferred, foldlState_keeps, setStore_keeps, settleDir_keeps, cohStart_keeps, failHome_keeps,
    logStage_keeps, applyData_keeps, completeGroup_keeps, staleShadow_keeps]
theorem failEarly_keeps (h : Keeps r s) {r₁ st} : Keeps r (failEarly s r₁ st) := by
  grind [failEarly, complete_keeps, noteFault_keeps]
theorem admitWith_keeps (h : Keeps r s) {p f} {y} (e : admitWith s p f = .error (y, t)) : Keeps r t := by
  grind [admitWith, logRecord_keeps, logErr_keeps, ownerFault_keeps]
theorem admitted_keeps (h : Keeps r s) {p} {y} (e : admitted s p = .error (y, t)) : Keeps r t := by
  grind [admitted, admitWith_keeps]
theorem arriveHome_keeps (h : Keeps r s) {r₁ hold} : Keeps r (arriveHome s r₁ hold) := by
  grind [arriveHome, admitted_keeps, failEarly_keeps, noteInflight_keeps, demand_keeps, failHome_keeps,
    logStage_keeps, setStore_keeps, settleDir_keeps, cohStart_keeps, enqueue_keeps, drainTarget_keeps]
theorem submit_keeps (h : Keeps r s) {r₁ hold} : Keeps r (submit s r₁ hold) := by
  grind [submit, arriveHome_keeps, sendNew_keeps]
theorem finishSource_keeps (h : Keeps r s) {u st data recorded} : Keeps r (finishSource s u st data recorded) := by
  grind [finishSource, noteFault_keeps, complete_keeps]

end Sys2Proof.Proofs.Keeping
end

section
/-! SUPPORT. What an engine's work keeps (03 R68 to R79). -/
namespace Sys2Proof.Proofs.Keeping
open Sys2Proof Machine Safety Laws
-- One proof at a time: they all cite one another, and proofs that wait would each hold a thread.
set_option Elab.async false

variable {r s t : State}

theorem modifyS_keeps {f : State → State} (hf : ∀ s, Keeps r s → Keeps r (f s)) : EngKeeps r (modifyS f) := hf
theorem failAt_keeps {α : Type} {w st kind a} : EngKeeps r (failAt (α := α) w st kind a) :=
  failLog_keeps fun _ h => logRecord_keeps h
theorem promoteAll_keeps (h : Keeps r s) {bs : List Nat}
    (e : bs.foldl (fun (o : Option State) b => o.bind (fun s => promoteNow s b)) (some s) = some t) : Keeps r t :=
  foldlOption_keeps h (fun _ _ _ hu => promoteNow_keeps hu) e

theorem homeNow_keeps {w p} : EngKeeps r (homeNow w p) := by
  unfold homeNow
  refine get_keeps fun s hs => ?_
  split
  · next heq => exact bind_keeps (set_keeps (noteFault_keeps (admitWith_keeps hs heq))) fun _ => failNow_keeps
  · next off _ =>
    extract_lets n tgts drained fail st counted q goOn
    have hcounted : Keeps r counted := by
      grind [foldlState_keeps, drainTarget_keeps, countAccess_keeps]
    have hfail {u} (hu : Keeps r u) (st) : Keeps r (fail u st) := noteFault_keeps (logStageWith_keeps hu)
    refine check_keeps waitNow_keeps fun _ => ite_keeps (failLog_keeps fun _ _ => hfail hcounted st) ?_
    split
    · exact failLog_keeps fun _ _ => hfail hcounted _
    · next promoted heq =>
      have hp : Keeps r promoted := promoteAll_keeps hcounted heq
      extract_lets st data finish goOn
      refine check_keeps waitNow_keeps fun _ => check_keeps waitNow_keeps fun _ => ite_keeps (failLog_keeps fun _ _ =>
        hfail hp _)
        (ite_keeps (bind_keeps (set_keeps (settleDir_keeps (cohStart_keeps (noteInflight_keeps hp)))) fun _ =>
          pure_keeps) ?_)
      split
      next data applied heq =>
      have happlied : applied = _ := (congrArg Prod.snd heq).symm
      have ha : Keeps r applied := happlied ▸ applyData_keeps hp
      refine bind_keeps (set_keeps (completeGroup_keeps (noteInflight_keeps ?_))) fun _ => pure_keeps
      split
      · exact foldlState_keeps ha fun _ _ h => staleShadow_keeps h
      · exact ha

theorem remoteNow_keeps {w p a} : EngKeeps r (remoteNow w p a) := by
  unfold remoteNow
  grind (gen := 20) [bind_keeps, pure_keeps, get_keeps, set_keeps, mk_keeps, logErr_keeps, failLog_keeps,
    noteFault_keeps, draw_keeps, wf_cellWrite, wf_cellZero, wf_cellSet]

theorem accessNow_keeps {w p} : EngKeeps r (accessNow w p) := by
  grind [accessNow, bind_keeps, get_keeps, homeNow_keeps, remoteNow_keeps]
theorem tlbFill_keeps (h : Keeps r s) {t₁ c base leaf} : Keeps r (tlbFill s t₁ c base leaf) := by
  grind [tlbFill, setXlt_keeps]
theorem badEntry_keeps {α : Type} {w a} : EngKeeps r (badEntry (α := α) w a) := failLog_keeps fun _ h => logErr_keeps
    h

theorem walkFrom_keeps {w cx dva n node} : EngKeeps r (walkFrom w cx dva n node) := by
  have hcaught (ea : Nat) (x : EFail) : EngKeeps r (match x with
      | .stat st => failLog st (fun s => logErr s pXLT 2 (w.fail st 2 ea))
      | .wait => waitNow : Eng (List Byte)) := by
    cases x with
    | stat st => exact failLog_keeps fun _ h => logErr_keeps h
    | wait => exact waitNow_keeps
  have hrefused :
      EngKeeps r (failLog stXlate (fun s => logRecord s pXLT (w.fail stXlate 1 dva)) : Eng (Nat × Leaf)) :=
    failLog_keeps fun _ h => logRecord_keeps h
  induction n generalizing node with
  | zero =>
    exact get_keeps fun _ _ => bind_keeps (tryCatch_keeps accessNow_keeps (hcaught _)) fun _ => get_keeps fun _ _ =>
      ite_keeps hrefused (ite_keeps (ite_keeps badEntry_keeps badEntry_keeps) (ite_keeps badEntry_keeps pure_keeps))
  | succ n ih =>
    exact get_keeps fun _ _ => bind_keeps (tryCatch_keeps accessNow_keeps (hcaught _)) fun _ => get_keeps fun _ _ =>
      ite_keeps hrefused (ite_keeps (ite_keeps badEntry_keeps ih) (ite_keeps badEntry_keeps pure_keeps))

theorem walkNow_keeps {w cx dva} : EngKeeps r (walkNow w cx dva) := by
  grind [walkNow, bind_keeps, pure_keeps, modify_keeps, bump_keeps, walkFrom_keeps, tlbFill_keeps]

theorem translate_keeps {w t₁ use dva} : EngKeeps r (Machine.translate w t₁ use dva) := by
  unfold Machine.translate
  grind (gen := 40) (splits := 40) (ematch := 20) (instances := 5000) [bind_keeps, pure_keeps, get_keeps,
    modify_keeps, failLog_keeps, logRecord_keeps, tlbFill_keeps, walkNow_keeps]

theorem translateAll_keeps {w t₁ use dva n} : EngKeeps r (translateAll w t₁ use dva n) := by
  grind [translateAll, mapM_keeps, translate_keeps]
theorem readPages_keeps {w ps dva n} : EngKeeps r (readPages w ps dva n) := by
  grind [readPages, bind_keeps, pure_keeps, get_keeps, mapM_keeps, accessNow_keeps]
theorem writePages_keeps {w ps dva d} : EngKeeps r (writePages w ps dva d) := by
  grind [writePages, bind_keeps, pure_keeps, get_keeps, forM_keeps, accessNow_keeps]
theorem readDva_keeps {w t₁ dva n} : EngKeeps r (readDva w t₁ dva n) := by
  grind [readDva, bind_keeps, translateAll_keeps, readPages_keeps]
theorem writeDva_keeps {w t₁ dva d} : EngKeeps r (writeDva w t₁ dva d) := by
  grind [writeDva, bind_keeps, translateAll_keeps, writePages_keeps]
theorem atomicDva_keeps {w t₁ dva arg x swap} : EngKeeps r (atomicDva w t₁ dva arg x swap) := by
  grind [atomicDva, bind_keeps, pure_keeps, get_keeps, translate_keeps, accessNow_keeps]
theorem readRsv_keeps {w a n} : EngKeeps r (readRsv w a n) :=
  get_keeps fun _ _ => ite_keeps pure_keeps (ite_keeps failAt_keeps
    (ite_keeps (failLog_keeps fun _ h => logErr_keeps h) pure_keeps))
theorem writeRsv_keeps {w a d} : EngKeeps r (writeRsv w a d) := by
  grind [writeRsv, bind_keeps, pure_keeps, get_keeps, set_keeps, failAt_keeps, reservoirWrite_keeps]
theorem hostAnswer_keeps {w hc a} : EngKeeps r (hostAnswer w hc a) := by
  unfold hostAnswer
  grind (gen := 20) [pure_keeps, failLog_keeps, logRecord_keeps]
theorem atcFill_keeps (h : Keeps r s) {c a n} : Keeps r (atcFill s c a n) := by
  grind [atcFill, foldlState_keeps, setXlt_keeps]
theorem hostCheck_keeps {w a n} : EngKeeps r (hostCheck w a n) := by
  grind [hostCheck, bind_keeps, pure_keeps, get_keeps, failLog_keeps, logRecord_keeps]
theorem readHost_keeps {w hc a n} : EngKeeps r (readHost w hc a n) := by
  grind [readHost, bind_keeps, pure_keeps, get_keeps, modify_keeps, hostCheck_keeps, hostAnswer_keeps, atcFill_keeps]

theorem hostMem_keeps {u : State} (h : Keeps r s) (hu : Keeps r u) {a d} :
    Keeps r { u with host := { s.host with mem := cellWrite s.host.mem a d } } := by
  obtain ⟨_, _, hs⟩ := h
  obtain ⟨hp, hf, hc⟩ := hu
  refine ⟨hp, hf, fun c => ?_⟩
  have hs := (canonical_iff s).mp (hs c)
  have hc := (canonical_iff u).mp (hc c)
  exact (canonical_iff _).mpr ⟨hc.1, wf_cellWrite _ _ _ hs.2.1, hc.2.2⟩

theorem writeHost_keeps {w hc a d} : EngKeeps r (writeHost w hc a d) :=
  bind_keeps hostCheck_keeps fun _ => bind_keeps hostAnswer_keeps fun _ => modify_keeps fun _ h =>
    emit_keeps (hostMem_keeps h (atcFill_keeps h))

end Sys2Proof.Proofs.Keeping
end

section
/-! SUPPORT. What packets and messages keep (05 R127 to R155). -/
namespace Sys2Proof.Proofs.Keeping
open Sys2Proof Machine Safety Laws
-- One proof at a time: they all cite one another, and proofs that wait would each hold a thread.
set_option Elab.async false

variable {r s t : State}

theorem freeCells_keeps (h : Keeps r s) {n i k} : Keeps r (freeCells s n i k) := by
  grind [freeCells, setPort_keeps]
theorem takeIn_keeps (h : Keeps r s) {n p} : Keeps r (takeIn s n p) := by
  grind [takeIn, heardFrom_keeps, freeCells_keeps]
theorem carryOn_keeps {t₁ p agent intent orig hold} : EngKeeps r (carryOn t₁ p agent intent orig hold) := by
  grind [carryOn, bind_keeps, get_keeps, modify_keeps, forM_keeps, translateAll_keeps, submit_keeps, setXbar_keeps]
theorem ingress_keeps (h : Keeps r s) {port p hold} (e : ingress s port p hold = some t) : Keeps r t := by
  grind [ingress, finishPeer_keeps, logRecord_keeps, runEng_keeps, carryOn_keeps]

theorem applyTwin_keeps (h : Keeps r s) {p} (e : applyTwin s p = some t) : Keeps r t := by
  unfold applyTwin at e
  grind (gen := 20) [failPeer_keeps, promoteAll_keeps, foldlState_keeps, staleShadow_keeps, countAccess_keeps,
    clearBad_keeps,
    lineStore_keeps, finishPeer_keeps, bump_keeps]

theorem answerStale_keeps (h : Keeps r s) {p} : Keeps r (answerStale s p) := by
  grind [answerStale, answer_keeps]

theorem arrive_keeps (h : Keeps r s) {n p hold} : Keeps r (arrive s n p hold) := by
  unfold arrive
  split
  · exact h
  · have ht : Keeps r (takeIn s n p) := takeIn_keeps h
    dsimp only
    split
    · exact answerStale_keeps ht
    · exact bump_keeps ht
    · split
      · exact answer_keeps ht
      · exact bump_keeps ht
      · exact answer_keeps (bump_keeps ht)
      · have hm : Keeps r (markSeq (takeIn s n p) p .inProgress) := markSeq_keeps ht
        have hi : Keeps r ((ingress (markSeq (takeIn s n p) p .inProgress) n p hold).getD s) :=
          getD_keeps h fun _ => ingress_keeps hm
        have hw : Keeps r ((applyTwin (markSeq (takeIn s n p) p .inProgress) p).getD s) :=
          getD_keeps h fun _ => applyTwin_keeps hm
        grind [failPeer_keeps, arriveHome_keeps]

theorem requestRow_keeps (h : Keeps r s) {port p hold is} : Answers r (portOk port && p.ok) (requestRow port p hold is
    s) := by
  refine onOk_keeps ?_
  grind [arrive_keeps]

theorem execRead_keeps (h : Keeps r s) {port p hold} : Answers r (portOk port && p.ok) (execRead port p hold s) := by
  grind [execRead, requestRow_keeps]
theorem execWrite_keeps (h : Keeps r s) {port p hold} : Answers r (portOk port && p.ok) (execWrite port p hold s) :=
    by
  grind [execWrite, requestRow_keeps]
theorem execWriteMasked_keeps (h : Keeps r s) {port p hold} : Answers r (portOk port && p.ok) (execWriteMasked port p
    hold s) := by
  grind [execWriteMasked, requestRow_keeps]
theorem execAccumulate_keeps (h : Keeps r s) {port p hold} : Answers r (portOk port && p.ok) (execAccumulate port p
    hold s) := by
  grind [execAccumulate, requestRow_keeps]
theorem execAtomicAdd_keeps (h : Keeps r s) {port p hold} : Answers r (portOk port && p.ok) (execAtomicAdd port p hold
    s) := by
  grind [execAtomicAdd, requestRow_keeps]
theorem execAtomicMin_keeps (h : Keeps r s) {port p hold} : Answers r (portOk port && p.ok) (execAtomicMin port p hold
    s) := by
  grind [execAtomicMin, requestRow_keeps]
theorem execAtomicMax_keeps (h : Keeps r s) {port p hold} : Answers r (portOk port && p.ok) (execAtomicMax port p hold
    s) := by
  grind [execAtomicMax, requestRow_keeps]
theorem execAtomicCas_keeps (h : Keeps r s) {port p hold} : Answers r (portOk port && p.ok) (execAtomicCas port p hold
    s) := by
  grind [execAtomicCas, requestRow_keeps]
theorem execTwinWrite_keeps (h : Keeps r s) {port p} : Answers r (portOk port && p.ok) (execTwinWrite port p s) := by
  grind [execTwinWrite, requestRow_keeps]
theorem execTierApply_keeps (h : Keeps r s) {t₁} : Answers r (t₁.ok) (execTierApply t₁ s) := by
  grind [execTierApply, onOk_keeps, acceptOne_keeps]
theorem execLineBufferWriteback_keeps (h : Keeps r s) {line} : Answers r (true) (execLineBufferWriteback line s) := by
  grind [execLineBufferWriteback, next_keeps, writeBack_keeps]
theorem arriveSnoop_keeps (h : Keeps r s) {n p} : Keeps r (arriveSnoop s n p) := by
  grind [arriveSnoop, takeIn_keeps, answerStale_keeps, bump_keeps, answer_keeps, markSeq_keeps, failPeer_keeps,
    finishPeer_keeps, logRecord_keeps, hostSnoop_keeps]
theorem execInvalidate_keeps (h : Keeps r s) {port p} : Answers r (portOk port && p.ok) (execInvalidate port p s) :=
    by
  grind [execInvalidate, onOk_keeps, arriveSnoop_keeps]
theorem execRecallShared_keeps (h : Keeps r s) {port p} : Answers r (portOk port && p.ok) (execRecallShared port p s)
    := by
  grind [execRecallShared, onOk_keeps, arriveSnoop_keeps]
theorem commitEpoch_keeps (h : Keeps r s) : Keeps r (commitEpoch s) := by
  grind [commitEpoch, logEvt_keeps, setXbar_keeps]
theorem noteDrained_keeps (h : Keeps r s) : Keeps r (noteDrained s) := by
  grind [noteDrained, logEvt_keeps, setXbar_keeps]
theorem resend_keeps (h : Keeps r s) {a u} : Keeps r (resend s a u) := by
  grind [resend, setTx_keeps, transmit_keeps]
theorem passEpoch_keeps (h : Keeps r s) {step e} : Keeps r (passEpoch s step e) := by
  grind [passEpoch, foldlState_keeps, sendCtl_keeps]
theorem commitStale_keeps (h : Keeps r s) : Keeps r (commitStale s) := by
  grind [commitStale, passEpoch_keeps, commitEpoch_keeps]
theorem staleAnswer_keeps (h : Keeps r s) {a u} : Keeps r (staleAnswer s a u) := by
  grind [staleAnswer, commitStale_keeps, noteDrained_keeps, resend_keeps, bump_keeps]
theorem orphan_keeps (h : Keeps r s) : Keeps r (orphan s) := by
  grind [orphan, bump_keeps]
theorem answered_keeps (h : Keeps r s) {a u st data} : Keeps r (answered s a u st data) := by
  grind [answered, takeUnfinished_keeps, logErr_keeps, noteDrained_keeps, finishSource_keeps]
theorem arriveResponse_keeps (h : Keeps r s) {n p req} : Keeps r (arriveResponse s n p req) := by
  grind [arriveResponse, takeIn_keeps, orphan_keeps, staleAnswer_keeps, answered_keeps]
theorem execReadRsp_keeps (h : Keeps r s) {port p} : Answers r (portOk port && p.ok) (execReadRsp port p s) := by
  grind [execReadRsp, onOk_keeps, arriveResponse_keeps]
theorem execAtomicRsp_keeps (h : Keeps r s) {port p} : Answers r (portOk port && p.ok) (execAtomicRsp port p s) := by
  grind [execAtomicRsp, onOk_keeps, arriveResponse_keeps]
theorem execErrRsp_keeps (h : Keeps r s) {port p} : Answers r (portOk port && p.ok) (execErrRsp port p s) := by
  grind [execErrRsp, onOk_keeps, arriveResponse_keeps]
theorem execSnoopRsp_keeps (h : Keeps r s) {port p} : Answers r (portOk port && p.ok) (execSnoopRsp port p s) := by
  grind [execSnoopRsp, onOk_keeps, arriveResponse_keeps]
theorem noRouteTo_keeps (h : Keeps r s) {src dst part} : Keeps r (noRouteTo s src dst part) := by
  grind [noRouteTo, logEvt_keeps, sendCtlBy_keeps]
theorem forward_keeps (h : Keeps r s) {n p} : Keeps r (forward s n p) := by
  grind [forward, freeCells_keeps, portSend_keeps, noRouteTo_keeps, answer_keeps, logRecord_keeps, answerStale_keeps,
    bump_keeps]
theorem execPacketForward_keeps (h : Keeps r s) {port p} : Answers r (portOk port && p.ok) (execPacketForward port p
    s) := by
  grind [execPacketForward, onOk_keeps, forward_keeps]
theorem takeCtl_keeps (h : Keeps r s) {n m} : Keeps r (takeCtl s n m) := by
  grind [takeCtl, heardFrom_keeps, freeCells_keeps]
theorem ackOne_keeps (h : Keeps r s) {a st seq} : Keeps r (ackOne s a st seq) := by
  grind [ackOne, orphan_keeps, staleAnswer_keeps, answered_keeps]
theorem execAck_keeps (h : Keeps r s) {port m} : Answers r (portOk port) (execAck port m s) := by
  grind [execAck, foldlState_keeps, onOk_keeps, ackOne_keeps, takeCtl_keeps]
theorem sendTeardown_keeps (h : Keeps r s) {c} : Keeps r (sendTeardown s c) := by
  grind [sendTeardown, foldlState_keeps, emit_keeps]
theorem raiseTeardown_keeps (h : Keeps r s) {p c} : Keeps r (raiseTeardown s p c) := by
  unfold raiseTeardown
  grind (gen := 20) [logRecord_keeps, logEvt_keeps, setComp_keeps, sendTeardown_keeps, setXbar_keeps]
theorem execReplayTimeout_keeps (h : Keeps r s) {dst ctl seq} : Answers r (true) (execReplayTimeout dst ctl seq s) :=
    by
  grind [execReplayTimeout, next_keeps, setTx_keeps, sendCtl_keeps, bump_keeps, noteDrained_keeps, resend_keeps]

theorem execDeadTargetBound_keeps (h : Keeps r s) {dst ctl seq} : Answers r (true) (execDeadTargetBound dst ctl seq s)
    := by
  unfold execDeadTargetBound
  grind (gen := 20) [next_keeps, takeUnfinishedCtl_keeps, logErr_keeps, noteFault_keeps, semDone_keeps,
    complete_keeps, raiseTeardown_keeps, setTx_keeps, takeUnfinished_keeps, noteDrained_keeps, finishSource_keeps]

theorem execCredit_keeps (h : Keeps r s) {port counts} : Answers r (portOk port && countsOk counts) (execCredit port
    counts s) := by
  grind [execCredit, onOk_keeps, portDrain_keeps, setPort_keeps]
theorem execCreditSend_keeps (h : Keeps r s) {port} : Answers r (portOk port) (execCreditSend port s) := by
  grind [execCreditSend, onOk_keeps, emit_keeps, setPort_keeps]
theorem execMark_keeps (h : Keeps r s) {port tag counts} : Answers r (portOk port && countsOk counts) (execMark port
    tag counts s) := by
  grind [execMark, onOk_keeps, setPort_keeps, bump_keeps]
theorem execMarkSend_keeps (h : Keeps r s) {port} : Answers r (portOk port) (execMarkSend port s) := by
  grind [execMarkSend, onOk_keeps, emit_keeps, setPort_keeps]

end Sys2Proof.Proofs.Keeping
end

section
/-! SUPPORT. What operations on counters and semaphores keep (06 R171 to R176). -/
namespace Sys2Proof.Proofs.Keeping
open Sys2Proof Machine Safety Laws
-- One proof at a time: they all cite one another, and proofs that wait would each hold a thread.
set_option Elab.async false

variable {r s t : State}

theorem answerSem_keeps (h : Keeps r s) {m st val taken} : Keeps r (answerSem s m st val taken) := by
  grind [answerSem, sendCtl_keeps, markCseq_keeps]
theorem answerHeld_keeps (h : Keeps r s) {h₁ val taken} : Keeps r (answerHeld s h₁ val taken) := by
  grind [answerHeld, answerSem_keeps, semDone_keeps]

theorem serveSem_keeps (h : Keeps r s) {n k} : Keeps r (serveSem n s k) := by
  induction n generalizing s with
  | zero => exact h
  | succ n ih => unfold serveSem; grind [semSet_keeps, setSync_keeps, answerHeld_keeps]

theorem serve_keeps (h : Keeps r s) {k} : Keeps r (serve s k) := by
  grind [serve, serveSem_keeps]
theorem semOp_keeps (h : Keeps r s) {k op x hold} : Keeps r (semOp s k op x hold).2 := by
  unfold semOp
  grind (gen := 20) [serve_keeps, semSet_keeps, bump_keeps, setSync_keeps]
theorem answerCtl_keeps (h : Keeps r s) {m st} : Keeps r (answerCtl s m st) := by
  grind [answerCtl, sendCtl_keeps]
theorem finishCtl_keeps (h : Keeps r s) {m st} : Keeps r (finishCtl s m st) := by
  grind [finishCtl, answerCtl_keeps, markCseq_keeps]

theorem arriveCtl_keeps (h : Keeps r s) {n m owner id bad} {act : State → State} (ha : ∀ s, Keeps r s → Keeps r (act
    s)) :
    Keeps r (arriveCtl s n m owner id bad act) := by
  unfold arriveCtl
  grind (gen := 20) [takeCtl_keeps, answerCtl_keeps, bump_keeps, sendCtl_keeps, markCseq_keeps, finishCtl_keeps,
    logRecord_keeps,
    ownerFault_keeps, logErr_keeps]

theorem execCntAdd_keeps (h : Keeps r s) {port m} : Answers r (portOk port) (execCntAdd port m s) := by
  grind [execCntAdd, onOk_keeps, arriveCtl_keeps, finishCtl_keeps, hubAdd_keeps]

theorem semRow_keeps (h : Keeps r s) {port m op} : Answers r (portOk port) (semRow port m op s) := by
  refine onOk_keeps ?_
  split
  · refine arriveCtl_keeps h fun s hs => ?_
    dsimp only
    split
    · next heq => exact answerSem_keeps (snd_keeps heq (semOp_keeps hs))
    · next heq => exact snd_keeps heq (semOp_keeps hs)
  · exact h

theorem execSemRead_keeps (h : Keeps r s) {port m} : Answers r (portOk port) (execSemRead port m s) := by
  grind [execSemRead, semRow_keeps]
theorem execSignal_keeps (h : Keeps r s) {port m} : Answers r (portOk port) (execSignal port m s) := by
  grind [execSignal, semRow_keeps]
theorem execWaitDec_keeps (h : Keeps r s) {port m} : Answers r (portOk port) (execWaitDec port m s) := by
  grind [execWaitDec, semRow_keeps]
theorem execTryDec_keeps (h : Keeps r s) {port m} : Answers r (portOk port) (execTryDec port m s) := by
  grind [execTryDec, semRow_keeps]
theorem execSet_keeps (h : Keeps r s) {port m} : Answers r (portOk port) (execSet port m s) := by
  grind [execSet, onOk_keeps, arriveCtl_keeps, semRow_keeps]

theorem execWaitDecTimeout_keeps (h : Keeps r s) {sem} : Answers r (semaphoreOk sem) (execWaitDecTimeout sem s) := by
  unfold execWaitDecTimeout
  grind (gen := 40) (splits := 40) (ematch := 20) (instances := 5000) [onOk_keeps, bump_keeps, setSync_keeps,
    serve_keeps, answerSem_keeps, semOp_keeps, answerHeld_keeps]

theorem execSemRsp_keeps (h : Keeps r s) {port m} : Answers r (portOk port) (execSemRsp port m s) := by
  unfold execSemRsp
  grind (gen := 20) [onOk_keeps, takeCtl_keeps, orphan_keeps, bump_keeps, commitStale_keeps, sendCtl_keeps,
    setTx_keeps, takeUnfinishedCtl_keeps, logErr_keeps, launchCtl_keeps, semDone_keeps]

theorem csackOne_keeps (h : Keeps r s) {a st seq} : Keeps r (csackOne s a st seq) := by
  grind [csackOne, orphan_keeps, bump_keeps, commitStale_keeps, sendCtl_keeps, setTx_keeps, takeUnfinishedCtl_keeps,
    logErr_keeps, noteFault_keeps, complete_keeps]
theorem execCsack_keeps (h : Keeps r s) {port m} : Answers r (portOk port) (execCsack port m s) := by
  grind [execCsack, foldlState_keeps, onOk_keeps, csackOne_keeps, takeCtl_keeps]
theorem execNoRoute_keeps (h : Keeps r s) {port m} : Answers r (portOk port) (execNoRoute port m s) := by
  grind [execNoRoute, onOk_keeps, setTx_keeps, freeCells_keeps]
theorem sendCntAdd_keeps (h : Keeps r s) {agent part k v o} : Keeps r (sendCntAdd s agent part k v o) := by
  grind [sendCntAdd, bump_keeps, complete_keeps, noteFault_keeps, ownerFault_keeps, hubAdd_keeps, launchCtl_keeps]
theorem execHubCounterWrite_keeps (h : Keeps r s) {src k size v} : Answers r (src.ok && counterOk k)
    (execHubCounterWrite src k size v s) := by
  grind [execHubCounterWrite, onOk_keeps, dropWrite_keeps, ownerFault_keeps, hubAdd_keeps]
theorem execLocalCounterWrite_keeps (h : Keeps r s) {src sc n size v} : Answers r (src.ok && sconceOk sc && localOk n)
    (execLocalCounterWrite src sc n size v s) := by
  grind [execLocalCounterWrite, onOk_keeps, dropWrite_keeps, ownerFault_keeps, localAdd_keeps]
theorem execSemaphoreRead_keeps (h : Keeps r s) {src k} : Answers r (src.ok && semaphoreOk k) (execSemaphoreRead src k
    s) := by
  grind [execSemaphoreRead, onOk_keeps, emit_keeps]
theorem execSemaphoreWrite_keeps (h : Keeps r s) {src k size v} : Answers r (src.ok && semaphoreOk k)
    (execSemaphoreWrite src k size v s) := by
  grind [execSemaphoreWrite, onOk_keeps, dropWrite_keeps, ownerFault_keeps, serve_keeps, semSet_keeps]

theorem pfOnly_keeps (h : Keeps r s) {src off} {f : State → State} (hf : ∀ s, Keeps r s → Keeps r (f s)) :
    Keeps r (pfOnly s src off f) := by
  unfold pfOnly
  split
  · exact dropWrite_keeps h
  · split_ifs
    exacts [h, dropWrite_keeps h, hf s h]

theorem refuseEpoch_keeps (h : Keeps r s) : Keeps r (refuseEpoch s) := by
  grind [refuseEpoch, refuse_keeps]
theorem notePrepared_keeps (h : Keeps r s) : Keeps r (notePrepared s) := by
  grind [notePrepared, logEvt_keeps, setXbar_keeps]
theorem execPrepare_keeps (h : Keeps r s) {src epoch} : Answers r (src.ok) (execPrepare src epoch s) := by
  grind [execPrepare, onOk_keeps, pfOnly_keeps, refuseEpoch_keeps, setXbar_keeps, notePrepared_keeps, passEpoch_keeps]
theorem execPrepared_keeps (h : Keeps r s) {port m} : Answers r (portOk port) (execPrepared port m s) := by
  grind [execPrepared, onOk_keeps, freeCells_keeps, notePrepared_keeps, setXbar_keeps]
theorem restartStreams_keeps (h : Keeps r s) {added} : Keeps r (restartStreams s added) := by
  grind [restartStreams, foldlState_keeps, setRx_keeps, setTx_keeps]
theorem execCommit_keeps (h : Keeps r s) {src epoch added} : Answers r (src.ok) (execCommit src epoch added s) := by
  grind [execCommit, onOk_keeps, pfOnly_keeps, refuseEpoch_keeps, noteDrained_keeps, passEpoch_keeps,
    restartStreams_keeps, commitEpoch_keeps]
theorem execRetire_keeps (h : Keeps r s) {src epoch} : Answers r (src.ok) (execRetire src epoch s) := by
  grind [execRetire, onOk_keeps, pfOnly_keeps, refuseEpoch_keeps, passEpoch_keeps, setXbar_keeps]
theorem execRouteData_keeps (h : Keeps r s) {src v} : Answers r (src.ok) (execRouteData src v s) := by
  grind [execRouteData, onOk_keeps, pfOnly_keeps, refuse_keeps, setXbar_keeps]

end Sys2Proof.Proofs.Keeping
end

section
/-! SUPPORT. What mirrors keep (15 R434 to R436). -/
namespace Sys2Proof.Proofs.Keeping
open Sys2Proof Machine Safety Laws
-- One proof at a time: they all cite one another, and proofs that wait would each hold a thread.
set_option Elab.async false

variable {r s t : State}

theorem closeRebuild_keeps (h : Keeps r s) {r₁ st} : Keeps r (closeRebuild s r₁ st) := by
  grind [closeRebuild, setStore_keeps, logEvt_keeps, logErr_keeps]
theorem finishRebuild_keeps (h : Keeps r s) {r₁ st} : Keeps r (finishRebuild s r₁ st) := by
  grind [finishRebuild, endCommand_keeps, closeRebuild_keeps]
theorem storedLine_keeps (h : Keeps r s) {l} : Keeps r (storedLine s l).2 := by
  grind [storedLine, foldlState_keeps, draw_keeps, foldlPair_keeps]
theorem storedLines_keeps (h : Keeps r s) {l} : Keeps r (storedLines s l).2 := by
  grind [storedLines, foldlState_keeps, storedLine_keeps, foldlPair_keeps]
theorem sendBlock_keeps (h : Keeps r s) {r₁} : Keeps r (sendBlock s r₁) := by
  grind [sendBlock, foldlState_keeps, finishRebuild_keeps, setStore_keeps, storedLines_keeps, bump_keeps,
    sendNew_keeps]
theorem stepSend_keeps (h : Keeps r s) {r₁} : Keeps r (stepSend s r₁) := by
  grind [stepSend, finishRebuild_keeps, sendCntAdd_keeps, setStore_keeps, sendBlock_keeps]
theorem stepReceive_keeps (h : Keeps r s) {r₁} : Keeps r (stepReceive s r₁) := by
  grind [stepReceive, foldlState_keeps, blockSet_keeps, setStore_keeps, finishRebuild_keeps]
theorem stepRebuild_keeps (h : Keeps r s) : Keeps r (stepRebuild s) := by
  grind [stepRebuild, stepSend_keeps, stepReceive_keeps]

end Sys2Proof.Proofs.Keeping
end

section
/-! SUPPORT. What vector instructions keep (08 R238 to R244). -/
namespace Sys2Proof.Proofs.Keeping
open Sys2Proof Machine Safety Laws
-- One proof at a time: they all cite one another, and proofs that wait would each hold a thread.
set_option Elab.async false

variable {r s t : State}

theorem valu2_keeps (h : Keeps r s) {w i f} : Keeps r (valu2 w i f s) := by
  grind [valu2, wickDo_keeps]
theorem valu3_keeps (h : Keeps r s) {w i f} : Keeps r (valu3 w i f s) := by
  grind [valu3, wickDo_keeps]
theorem valu1_keeps (h : Keeps r s) {w i f} : Keeps r (valu1 w i f s) := by
  grind [valu1, wickDo_keeps]
theorem execFadd_keeps (h : Keeps r s) {w word} : Answers r (wickOk w) (execFadd w word s) := by
  grind [execFadd, wickRun_keeps, valu2_keeps]
theorem execFsub_keeps (h : Keeps r s) {w word} : Answers r (wickOk w) (execFsub w word s) := by
  grind [execFsub, wickRun_keeps, valu2_keeps]
theorem execFmul_keeps (h : Keeps r s) {w word} : Answers r (wickOk w) (execFmul w word s) := by
  grind [execFmul, wickRun_keeps, valu2_keeps]
theorem execFma_keeps (h : Keeps r s) {w word} : Answers r (wickOk w) (execFma w word s) := by
  grind [execFma, wickRun_keeps, valu3_keeps]
theorem execFnma_keeps (h : Keeps r s) {w word} : Answers r (wickOk w) (execFnma w word s) := by
  grind [execFnma, wickRun_keeps, valu3_keeps]
theorem execFmin_keeps (h : Keeps r s) {w word} : Answers r (wickOk w) (execFmin w word s) := by
  grind [execFmin, wickRun_keeps, valu2_keeps]
theorem execFmax_keeps (h : Keeps r s) {w word} : Answers r (wickOk w) (execFmax w word s) := by
  grind [execFmax, wickRun_keeps, valu2_keeps]
theorem execFabs_keeps (h : Keeps r s) {w word} : Answers r (wickOk w) (execFabs w word s) := by
  grind [execFabs, wickRun_keeps, valu1_keeps]
theorem execFneg_keeps (h : Keeps r s) {w word} : Answers r (wickOk w) (execFneg w word s) := by
  grind [execFneg, wickRun_keeps, valu1_keeps]
theorem execIadd_keeps (h : Keeps r s) {w word} : Answers r (wickOk w) (execIadd w word s) := by
  grind [execIadd, wickRun_keeps, valu2_keeps]
theorem execIsub_keeps (h : Keeps r s) {w word} : Answers r (wickOk w) (execIsub w word s) := by
  grind [execIsub, wickRun_keeps, valu2_keeps]
theorem execImul_keeps (h : Keeps r s) {w word} : Answers r (wickOk w) (execImul w word s) := by
  grind [execImul, wickRun_keeps, valu2_keeps]
theorem execValuAnd_keeps (h : Keeps r s) {w word} : Answers r (wickOk w) (execValuAnd w word s) := by
  grind [execValuAnd, wickRun_keeps, valu2_keeps]
theorem execValuOr_keeps (h : Keeps r s) {w word} : Answers r (wickOk w) (execValuOr w word s) := by
  grind [execValuOr, wickRun_keeps, valu2_keeps]
theorem execValuXor_keeps (h : Keeps r s) {w word} : Answers r (wickOk w) (execValuXor w word s) := by
  grind [execValuXor, wickRun_keeps, valu2_keeps]
theorem execValuShl_keeps (h : Keeps r s) {w word} : Answers r (wickOk w) (execValuShl w word s) := by
  grind [execValuShl, wickRun_keeps, valu2_keeps]
theorem execValuShr_keeps (h : Keeps r s) {w word} : Answers r (wickOk w) (execValuShr w word s) := by
  grind [execValuShr, wickRun_keeps, valu2_keeps]
theorem execValuSar_keeps (h : Keeps r s) {w word} : Answers r (wickOk w) (execValuSar w word s) := by
  grind [execValuSar, wickRun_keeps, valu2_keeps]
theorem execImin_keeps (h : Keeps r s) {w word} : Answers r (wickOk w) (execImin w word s) := by
  grind [execImin, wickRun_keeps, valu2_keeps]
theorem execImax_keeps (h : Keeps r s) {w word} : Answers r (wickOk w) (execImax w word s) := by
  grind [execImax, wickRun_keeps, valu2_keeps]
theorem execMov_keeps (h : Keeps r s) {w word} : Answers r (wickOk w) (execMov w word s) := by
  grind [execMov, wickRun_keeps, valu1_keeps]
theorem execCvtif_keeps (h : Keeps r s) {w word} : Answers r (wickOk w) (execCvtif w word s) := by
  grind [execCvtif, wickRun_keeps, valu1_keeps]
theorem execCvtfi_keeps (h : Keeps r s) {w word} : Answers r (wickOk w) (execCvtfi w word s) := by
  grind [execCvtfi, wickRun_keeps, valu1_keeps]
theorem vcmp_keeps (h : Keeps r s) {w i f} : Keeps r (vcmp w i f s) := by
  grind [vcmp, wickDo_keeps]
theorem kop_keeps (h : Keeps r s) {w i f} : Keeps r (kop w i f s) := by
  grind [kop, wickDo_keeps]
theorem execFeq_keeps (h : Keeps r s) {w word} : Answers r (wickOk w) (execFeq w word s) := by
  grind [execFeq, wickRun_keeps, vcmp_keeps]
theorem execFlt_keeps (h : Keeps r s) {w word} : Answers r (wickOk w) (execFlt w word s) := by
  grind [execFlt, wickRun_keeps, vcmp_keeps]
theorem execFle_keeps (h : Keeps r s) {w word} : Answers r (wickOk w) (execFle w word s) := by
  grind [execFle, wickRun_keeps, vcmp_keeps]
theorem execFunord_keeps (h : Keeps r s) {w word} : Answers r (wickOk w) (execFunord w word s) := by
  grind [execFunord, wickRun_keeps, vcmp_keeps]
theorem execIeq_keeps (h : Keeps r s) {w word} : Answers r (wickOk w) (execIeq w word s) := by
  grind [execIeq, wickRun_keeps, vcmp_keeps]
theorem execIlt_keeps (h : Keeps r s) {w word} : Answers r (wickOk w) (execIlt w word s) := by
  grind [execIlt, wickRun_keeps, vcmp_keeps]
theorem execIltu_keeps (h : Keeps r s) {w word} : Answers r (wickOk w) (execIltu w word s) := by
  grind [execIltu, wickRun_keeps, vcmp_keeps]
theorem execKand_keeps (h : Keeps r s) {w word} : Answers r (wickOk w) (execKand w word s) := by
  grind [execKand, wickRun_keeps, kop_keeps]
theorem execKor_keeps (h : Keeps r s) {w word} : Answers r (wickOk w) (execKor w word s) := by
  grind [execKor, wickRun_keeps, kop_keeps]
theorem execKxor_keeps (h : Keeps r s) {w word} : Answers r (wickOk w) (execKxor w word s) := by
  grind [execKxor, wickRun_keeps, kop_keeps]
theorem execKandn_keeps (h : Keeps r s) {w word} : Answers r (wickOk w) (execKandn w word s) := by
  grind [execKandn, wickRun_keeps, kop_keeps]
theorem execKfroms_keeps (h : Keeps r s) {w word} : Answers r (wickOk w) (execKfroms w word s) := by
  grind [execKfroms, wickRun_keeps, wickDo_keeps]
theorem execKtos_keeps (h : Keeps r s) {w word} : Answers r (wickOk w) (execKtos w word s) := by
  grind [execKtos, wickRun_keeps, wickDo_keeps]
theorem execKpop_keeps (h : Keeps r s) {w word} : Answers r (wickOk w) (execKpop w word s) := by
  grind [execKpop, wickRun_keeps, wickDo_keeps]
theorem reduce_keeps (h : Keeps r s) {w i f} : Keeps r (reduce w i f s) := by
  grind [reduce, wickDo_keeps]
theorem execBcst_keeps (h : Keeps r s) {w word} : Answers r (wickOk w) (execBcst w word s) := by
  grind [execBcst, wickRun_keeps, wickDo_keeps]
theorem execExt_keeps (h : Keeps r s) {w word} : Answers r (wickOk w) (execExt w word s) := by
  grind [execExt, wickRun_keeps, wickDo_keeps]
theorem execIns_keeps (h : Keeps r s) {w word} : Answers r (wickOk w) (execIns w word s) := by
  grind [execIns, wickRun_keeps, wickDo_keeps]
theorem execLane_keeps (h : Keeps r s) {w word} : Answers r (wickOk w) (execLane w word s) := by
  grind [execLane, wickRun_keeps, wickDo_keeps]
theorem execRedsum_keeps (h : Keeps r s) {w word} : Answers r (wickOk w) (execRedsum w word s) := by
  grind [execRedsum, wickRun_keeps, reduce_keeps]
theorem execRedmax_keeps (h : Keeps r s) {w word} : Answers r (wickOk w) (execRedmax w word s) := by
  grind [execRedmax, wickRun_keeps, reduce_keeps]
theorem execRediadd_keeps (h : Keeps r s) {w word} : Answers r (wickOk w) (execRediadd w word s) := by
  grind [execRediadd, wickRun_keeps, reduce_keeps]
theorem execExp_keeps (h : Keeps r s) {w word} : Answers r (wickOk w) (execExp w word s) := by
  grind [execExp, wickRun_keeps, valu1_keeps]
theorem execRcp_keeps (h : Keeps r s) {w word} : Answers r (wickOk w) (execRcp w word s) := by
  grind [execRcp, wickRun_keeps, valu1_keeps]
theorem execRsq_keeps (h : Keeps r s) {w word} : Answers r (wickOk w) (execRsq w word s) := by
  grind [execRsq, wickRun_keeps, valu1_keeps]
theorem execVcvtWiden_keeps (h : Keeps r s) {w word} : Answers r (wickOk w) (execVcvtWiden w word s) := by
  grind [execVcvtWiden, wickRun_keeps, wickDo_keeps]
theorem execVcvtNarrow_keeps (h : Keeps r s) {w word} : Answers r (wickOk w) (execVcvtNarrow w word s) := by
  grind [execVcvtNarrow, wickRun_keeps, wickDo_keeps]
theorem execVsbToSb_keeps (h : Keeps r s) {w word} : Answers r (wickOk w) (execVsbToSb w word s) := by
  grind [execVsbToSb, wickRun_keeps, wickDo_keeps]
theorem execVsbFromSb_keeps (h : Keeps r s) {w word} : Answers r (wickOk w) (execVsbFromSb w word s) := by
  grind [execVsbFromSb, wickRun_keeps, wickDo_keeps]
theorem execDot_keeps (h : Keeps r s) {w word} : Answers r (wickOk w) (execDot w word s) := by
  grind [execDot, wickRun_keeps, wickDo_keeps]
theorem execDotsb_keeps (h : Keeps r s) {w word} : Answers r (wickOk w) (execDotsb w word s) := by
  grind [execDotsb, wickRun_keeps, wickDo_keeps]
theorem execAzero_keeps (h : Keeps r s) {w word} : Answers r (wickOk w) (execAzero w word s) := by
  grind [execAzero, wickRun_keeps, wickDo_keeps]
theorem execAread_keeps (h : Keeps r s) {w word} : Answers r (wickOk w) (execAread w word s) := by
  grind [execAread, wickRun_keeps, wickDo_keeps]
theorem execAwrite_keeps (h : Keeps r s) {w word} : Answers r (wickOk w) (execAwrite w word s) := by
  grind [execAwrite, wickRun_keeps, wickDo_keeps]

end Sys2Proof.Proofs.Keeping
end

section
/-! SUPPORT. What tiles keep (02 R62). -/
namespace Sys2Proof.Proofs.Keeping
open Sys2Proof Machine Safety Laws
-- One proof at a time: they all cite one another, and proofs that wait would each hold a thread.
set_option Elab.async false

variable {r s t : State}

theorem translateRows_keeps {w tl use rows} : EngKeeps r (translateRows w tl use rows) := by
  grind [translateRows, bind_keeps, pure_keeps, mapM_keeps, translateAll_keeps]
theorem tileCounterOk_keeps {w t₁} : EngKeeps r (tileCounterOk w t₁) := by
  grind [tileCounterOk, bind_keeps, pure_keeps, get_keeps, failLog_keeps, logErr_keeps]
theorem acceptTile_keeps {w tl d t₁} : EngKeeps r (acceptTile w tl d t₁) := by
  unfold acceptTile
  grind (gen := 20) [bind_keeps, pure_keeps, get_keeps, tileCounterOk_keeps, translateRows_keeps, failAt_keeps]
theorem readRow_keeps {w ps late a n} : EngKeeps r (readRow w ps late a n) := by
  grind [readRow, bind_keeps, pure_keeps, get_keeps, mapM_keeps, getD_keeps, readPages_keeps]
theorem keepLogs_keeps (h : Keeps r s) : Keeps r (keepLogs s t) := mk_keeps h id id id id
theorem allOrNone_keeps {α : Type} {e : Eng α} (he : EngKeeps r e) : EngKeeps r (allOrNone e) :=
  get_keeps fun _ hs => tryCatch_keeps he fun _ => bind_keeps (modify_keeps fun _ _ => keepLogs_keeps hs) fun _ =>
    throw_keeps
theorem countTile_keeps (h : Keeps r s) {ps rows} : Keeps r (countTile ps rows s) := by
  grind [countTile, foldlState_keeps, countAccess_keeps]

theorem moveTile_keeps {w t sp dp late g} : EngKeeps r (moveTile w t sp dp late g) := by
  unfold moveTile
  refine bind_keeps (modify_keeps fun _ h => countTile_keeps h) fun _ => bind_keeps (mapM_keeps fun _ =>
    readRow_keeps) fun _ =>
    get_keeps fun s hs => ?_
  extract_lets
  generalize (if t.sf = 8 then _ else _ : List (List Byte) × W32) = converted
  obtain ⟨rows, g⟩ := converted
  dsimp only
  split
  · refine check_keeps failAt_keeps fun _ => bind_keeps (modify_keeps fun _ _ => ?_) fun _ => pure_keeps
    grind [foldlState_keeps, scratchWrite_keeps, localAdd_keeps]
  · refine bind_keeps (modify_keeps fun _ _ => ?_) fun _ => pure_keeps
    grind [foldlState_keeps, reservoirWrite_keeps, hubAdd_keeps]
  · refine bind_keeps (modify_keeps fun _ h => countTile_keeps h) fun _ => bind_keeps (forM_keeps fun _ =>
      writePages_keeps) fun _ =>
      bind_keeps (modify_keeps fun _ _ => ?_) fun _ => pure_keeps
    grind [hubAdd_keeps]
  · refine get_keeps fun _ _ => ite_keeps (bind_keeps (failLog_keeps fun _ _ => ?_) fun _ => pure_keeps)
      (bind_keeps (modify_keeps fun _ h => mk_keeps h wf_writes id id id) fun _ => pure_keeps)
    grind [noteFault_keeps, logErr_keeps]

theorem runTile_keeps {w tl d g} : EngKeeps r (runTile w tl d g) := by
  grind [runTile, bind_keeps, acceptTile_keeps, allOrNone_keeps, moveTile_keeps]
theorem setEngGen_keeps (h : Keeps r s) {e g} : Keeps r (setEngGen s e g) := by
  unfold setEngGen
  grind (gen := 20) [genSet_keeps, setSconce_keeps]

theorem putRows_keeps {w tl dst foot rows cid cen} : EngKeeps r (putRows w tl dst foot rows cid cen) := by
  unfold putRows
  refine bind_keeps tileCounterOk_keeps fun _ => check_keeps failAt_keeps fun _ => get_keeps fun s hs => ?_
  split
  · refine check_keeps failAt_keeps fun _ => check_keeps failAt_keeps fun _ => check_keeps failAt_keeps fun _ => 
      modify_keeps fun _ _ => ?_
    grind [foldlState_keeps, scratchWrite_keeps, localAdd_keeps]
  · refine check_keeps failAt_keeps fun _ => check_keeps failAt_keeps fun _ => modify_keeps fun _ _ => ?_
    grind [foldlState_keeps, reservoirWrite_keeps, hubAdd_keeps]
  · refine bind_keeps translateRows_keeps fun _ => bind_keeps (modify_keeps fun _ h => countTile_keeps h) fun _ =>
      bind_keeps (forM_keeps fun _ => writePages_keeps) fun _ => modify_keeps fun _ _ => ?_
    grind [hubAdd_keeps]
  · refine ite_keeps (failLog_keeps fun _ _ => ?_) (modify_keeps fun _ h => mk_keeps h wf_writes id id id)
    grind [noteFault_keeps, logErr_keeps]

theorem putTile_keeps {w tl dst d cid cen} : EngKeeps r (putTile w tl dst d cid cen) := by
  grind [putTile, putRows_keeps]
theorem putBytes_keeps {w tl dst d cid cen} : EngKeeps r (putBytes w tl dst d cid cen) := by
  grind [putBytes, forM_keeps, allOrNone_keeps, putTile_keeps]

theorem attempt_keeps {α : Type} {e : Eng α} (he : EngKeeps r e) : EngKeeps r (attempt e) := by
  refine tryCatch_keeps (bind_keeps he fun _ => pure_keeps) fun x => ?_
  cases x with
  | stat st => exact pure_keeps
  | wait => exact waitNow_keeps

end Sys2Proof.Proofs.Keeping
end

section
/-! SUPPORT. What a wick's loads and stores keep (08 R230 to R236). -/
namespace Sys2Proof.Proofs.Keeping
open Sys2Proof Machine Safety Laws
-- One proof at a time: they all cite one another, and proofs that wait would each hold a thread.
set_option Elab.async false

variable {r s t : State}

theorem scratchAccess_keeps (h : Keeps r s) {w a n align writes} {go : State → State} (hg : ∀ s, Keeps r s → Keeps r
    (go s)) :
    Keeps r (scratchAccess w a n align writes go s) := by
  grind [scratchAccess, stopWick_keeps, stopUncorr_keeps]

theorem scratchLoad_keeps (h : Keeps r s) {w a n align f} : Keeps r (scratchLoad w a n align f s) := by
  unfold scratchLoad
  grind (gen := 20) [scratchAccess_keeps, wickDo_keeps]

theorem scratchStore_keeps (h : Keeps r s) {w a n align pieces f} : Keeps r (scratchStore w a n align pieces f s) :=
    by
  unfold scratchStore
  grind (gen := 20) [foldlState_keeps, scratchAccess_keeps, scratchWrite_keeps, wickDo_keeps, spotOutput_keeps]

theorem execLds_keeps (h : Keeps r s) {w word} : Answers r (wickOk w) (execLds w word s) := by
  grind [execLds, wickRun_keeps, scratchLoad_keeps]
theorem execSts_keeps (h : Keeps r s) {w word} : Answers r (wickOk w) (execSts w word s) := by
  grind [execSts, wickRun_keeps, scratchStore_keeps]
theorem execLdv_keeps (h : Keeps r s) {w word} : Answers r (wickOk w) (execLdv w word s) := by
  grind [execLdv, wickRun_keeps, scratchLoad_keeps]
theorem execStv_keeps (h : Keeps r s) {w word} : Answers r (wickOk w) (execStv w word s) := by
  grind [execStv, wickRun_keeps, scratchStore_keeps]
theorem execLdsb_keeps (h : Keeps r s) {w word} : Answers r (wickOk w) (execLdsb w word s) := by
  grind [execLdsb, wickRun_keeps, scratchLoad_keeps]
theorem execStsb_keeps (h : Keeps r s) {w word} : Answers r (wickOk w) (execStsb w word s) := by
  grind [execStsb, wickRun_keeps, scratchStore_keeps]

theorem storeAccess_keeps (h : Keeps r s) {w a n align use writes} {failed : Status → State → State}
    {go : Nat → Leaf → State → State} (hf : ∀ st s, Keeps r s → Keeps r (failed st s))
    (hg : ∀ a l s, Keeps r s → Keeps r (go a l s)) : Keeps r (storeAccess w a n align use writes failed go s) := by
  grind [storeAccess, stopWick_keeps, runEng_keeps, translate_keeps]

theorem sliverAccess_error_keeps (h : Keeps r s) {q off w st} (e : sliverAccess s q off w = .error (st, t)) : Keeps r
    t := by
  grind [sliverAccess, ownerFault_keeps, setStore_keeps, noteFault_keeps, logStage_keeps]
theorem sliverAccess_ok_keeps (h : Keeps r s) {q off w d} (e : sliverAccess s q off w = .ok (d, t)) : Keeps r t := by
  grind [sliverAccess, setStore_keeps, applyData_keeps, staleShadow_keeps, completeGroup_keeps, noteInflight_keeps]

theorem sendWait_keeps (h : Keeps r s) {w p o own} : Keeps r (sendWait s w p o own) := by
  have hw : Keeps r (s.setWick w (fun k => { k with wait := .response })) := setWick_keeps h
  unfold sendWait
  extract_lets
  split
  · split
    · next heq => exact haltWick_keeps (sliverAccess_error_keeps hw heq)
    · next heq => exact wickGot_keeps (sliverAccess_ok_keeps hw heq)
  · exact submit_keeps hw

theorem sendPosted_keeps (h : Keeps r s) {w p stop} : Keeps r (sendPosted s w p stop) := by
  have hx : Keeps r (s.setXbar (fun x => { x with issued := x.issued + 1 })) := setXbar_keeps h
  unfold sendPosted
  extract_lets o u
  split
  · split
    · next heq => exact complete_keeps (sliverAccess_error_keeps hx heq)
    · next heq => exact sliverAccess_ok_keeps hx heq
  · exact submit_keeps hx

theorem postedFailed_keeps (h : Keeps r s) {w st} : Keeps r (postedFailed w st s) := by
  grind [postedFailed, noteFence_keeps, setXbar_keeps, advance_keeps, setWick_keeps]
theorem mayServe_keeps (h : Keeps r s) : Keeps r (mayServe s).2 := by
  grind [mayServe, draw_keeps]
theorem loadStore_keeps (h : Keeps r s) {w a n acquire o set} : Keeps r (loadStore w a n acquire o set s) := by
  unfold loadStore
  grind (gen := 20) [storeAccess_keeps, haltWick_keeps, mayServe_keeps, wickDo_keeps, sendWait_keeps]
theorem execLdm_keeps (h : Keeps r s) {w word} : Answers r (wickOk w) (execLdm w word s) := by
  grind [execLdm, wickRun_keeps, loadStore_keeps]
theorem execLda_keeps (h : Keeps r s) {w word} : Answers r (wickOk w) (execLda w word s) := by
  grind [execLda, wickRun_keeps, loadStore_keeps]
theorem execLdmv_keeps (h : Keeps r s) {w word} : Answers r (wickOk w) (execLdmv w word s) := by
  grind [execLdmv, wickRun_keeps, loadStore_keeps]

theorem postMasked_keeps (h : Keeps r s) {w a n pieces} : Keeps r (postMasked w a n pieces s) := by
  unfold postMasked
  grind (gen := 20) [storeAccess_keeps, postedFailed_keeps, setWick_keeps, advance_keeps, sendPosted_keeps,
    spotOutput_keeps]

theorem execStm_keeps (h : Keeps r s) {w word} : Answers r (wickOk w) (execStm w word s) := by
  grind [execStm, wickRun_keeps, postMasked_keeps]
theorem execStmv_keeps (h : Keeps r s) {w word} : Answers r (wickOk w) (execStmv w word s) := by
  grind [execStmv, wickRun_keeps, postMasked_keeps, storeAccess_keeps, postedFailed_keeps, setWick_keeps,
    advance_keeps, sendPosted_keeps, spotOutput_keeps]
theorem execStn_keeps (h : Keeps r s) {w word} : Answers r (wickOk w) (execStn w word s) := by
  grind [execStn, wickRun_keeps, storeAccess_keeps, postedFailed_keeps, setWick_keeps, advance_keeps,
    sendPosted_keeps, spotOutput_keeps, scratchStore_keeps]
theorem execVacc_keeps (h : Keeps r s) {w word} : Answers r (wickOk w) (execVacc w word s) := by
  grind [execVacc, wickRun_keeps, storeAccess_keeps, postedFailed_keeps, setWick_keeps, advance_keeps,
    sendPosted_keeps, spotOutput_keeps]
theorem execAmo_keeps (h : Keeps r s) {w word} : Answers r (wickOk w) (execAmo w word s) := by
  grind [execAmo, wickRun_keeps, storeAccess_keeps, haltWick_keeps, sendWait_keeps, spotOutput_keeps]
theorem takeFence_keeps (h : Keeps r s) {w} : Keeps r (takeFence s w).2 := by
  grind [takeFence, getD_keeps, setXbar_keeps]
theorem releaseNow_keeps (h : Keeps r s) {w} {go : State → State} (hg : ∀ s, Keeps r s → Keeps r (go s)) :
    Keeps r (releaseNow s w go) := by
  grind [releaseNow, takeFence_keeps, haltWick_keeps, bump_keeps]
theorem release_keeps (h : Keeps r s) {w wait} {go : State → State} (hg : ∀ s, Keeps r s → Keeps r (go s)) :
    Keeps r (release s w wait go) := by
  grind [release, releaseNow_keeps, setWick_keeps]
theorem performStr_keeps (h : Keeps r s) {w p} : Keeps r (performStr w p s) := by
  grind [performStr, sendPosted_keeps, advance_keeps, spotOutput_keeps, setWick_keeps]
theorem execStr_keeps (h : Keeps r s) {w word} : Answers r (wickOk w) (execStr w word s) := by
  grind [execStr, wickRun_keeps, storeAccess_keeps, haltWick_keeps, release_keeps, performStr_keeps]

end Sys2Proof.Proofs.Keeping
end

section
/-! SUPPORT. What a wick's waits, fences and releases keep (08 R250 to R252). -/
namespace Sys2Proof.Proofs.Keeping
open Sys2Proof Machine Safety Laws
-- One proof at a time: they all cite one another, and proofs that wait would each hold a thread.
set_option Elab.async false

variable {r s t : State}

theorem addWait_keeps (h : Keeps r s) {e} : Keeps r (addWait s e) := by
  grind [addWait, setSync_keeps]
theorem dropWait_keeps (h : Keeps r s) {e} : Keeps r (dropWait s e) := by
  grind [dropWait, setSync_keeps]
theorem cwaitDone_keeps (h : Keeps r s) {w d reached} : Keeps r (cwaitDone s w d reached) := by
  grind [cwaitDone, dropWait_keeps, advance_keeps, setWick_keeps]
theorem execCwait_keeps (h : Keeps r s) {w word} : Answers r (wickOk w) (execCwait w word s) := by
  grind [execCwait, wickRun_keeps, haltWick_keeps, cwaitDone_keeps, addWait_keeps, setWick_keeps]
theorem wickTarget_keeps (h : Keeps r s) {w} : Keeps r (wickTarget s w) := by
  grind [wickTarget, haltWick_keeps, dropWait_keeps, cwaitDone_keeps]
theorem execCwaitBound_keeps (h : Keeps r s) {w} : Answers r (wickOk w) (execCwaitBound w s) := by
  grind [execCwaitBound, onOk_keeps, cwaitDone_keeps]
theorem execCread_keeps (h : Keeps r s) {w word} : Answers r (wickOk w) (execCread w word s) := by
  grind [execCread, wickRun_keeps, wickDo_keeps]

theorem performCadd_keeps (h : Keeps r s) {w m} : Keeps r (performCadd s w m) := by
  have hs : Keeps r (advance (spotOutput (s.setWick w (fun k => { k with wait := .none })) w) w) :=
    advance_keeps (spotOutput_keeps (setWick_keeps h))
  unfold performCadd
  extract_lets k id v s o
  split_ifs
  exacts [haltWick_keeps (logErr_keeps hs), haltWick_keeps (ownerFault_keeps hs), localAdd_keeps hs,
    sendCntAdd_keeps (setXbar_keeps hs)]

theorem performSem_keeps (h : Keeps r s) {w d m} : Keeps r (performSem s w d m) := by
  grind [performSem, setWick_keeps, spotOutput_keeps, bump_keeps, haltWick_keeps, ownerFault_keeps, semOp_keeps,
    semDone_keeps, launchCtl_keeps]
theorem performCtl_keeps (h : Keeps r s) {w d m} : Keeps r (performCtl s w d m) := by
  grind [performCtl, performCadd_keeps, performSem_keeps]
theorem issueCtl_keeps (h : Keeps r s) {w d m isRelease} : Keeps r (issueCtl s w d m isRelease) := by
  grind [issueCtl, release_keeps, performCtl_keeps]
theorem execCadd_keeps (h : Keeps r s) {w word} : Answers r (wickOk w) (execCadd w word s) := by
  grind [execCadd, wickRun_keeps, issueCtl_keeps]
theorem execSemop_keeps (h : Keeps r s) {w word} : Answers r (wickOk w) (execSemop w word s) := by
  grind [execSemop, wickRun_keeps, issueCtl_keeps]
theorem fenceDone_keeps (h : Keeps r s) {w d} : Keeps r (fenceDone s w d) := by
  grind [fenceDone, takeFence_keeps, wickDo_keeps]
theorem execWickFence_keeps (h : Keeps r s) {w word} : Answers r (wickOk w) (execWickFence w word s) := by
  grind [execWickFence, wickRun_keeps, setWick_keeps, fenceDone_keeps]
theorem execFenceComplete_keeps (h : Keeps r s) {eng} : Answers r (eng.ok) (execFenceComplete eng s) := by
  unfold execFenceComplete
  grind (gen := 20) [onOk_keeps, fenceDone_keeps, releaseNow_keeps, performStr_keeps, performCtl_keeps]
theorem execAcquire_keeps (h : Keeps r s) {w word} : Answers r (wickOk w) (execAcquire w word s) := by
  grind [execAcquire, wickRun_keeps, wickDo_keeps]
theorem mwaitDone_keeps (h : Keeps r s) {w d} : Keeps r (mwaitDone s w d) := by
  grind [mwaitDone, wickDo_keeps]
theorem execMwait_keeps (h : Keeps r s) {w word} : Answers r (wickOk w) (execMwait w word s) := by
  grind [execMwait, wickRun_keeps, mwaitDone_keeps, setWick_keeps]

end Sys2Proof.Proofs.Keeping
end

section
/-! SUPPORT. What transfers keep (08 R247 to R249). -/
namespace Sys2Proof.Proofs.Keeping
open Sys2Proof Machine Safety Laws
-- One proof at a time: they all cite one another, and proofs that wait would each hold a thread.
set_option Elab.async false

variable {r s t : State}

theorem setXfer_keeps (h : Keeps r s) {id f} : Keeps r (setXfer s id f) := by
  grind [setXfer, setWork_keeps]
theorem dropXfer_keeps (h : Keeps r s) {id} : Keeps r (dropXfer s id) := by
  grind [dropXfer, setWork_keeps]
theorem addXfer_keeps (h : Keeps r s) {x} : Keeps r (addXfer s x) := by
  grind [addXfer, setWork_keeps]
theorem finishXfer_keeps (h : Keeps r s) {id st} : Keeps r (finishXfer s id st) := by
  unfold finishXfer
  grind (gen := 20) [dropXfer_keeps, setWick_keeps, mwaitDone_keeps, setPlan_keeps, setWork_keeps]
theorem issueTile_keeps (h : Keeps r s) {x} (e : issueTile s x = some t) : Keeps r t := by
  grind [issueTile, addXfer_keeps, runEng_keeps, acceptTile_keeps, finishXfer_keeps, setXfer_keeps]

theorem refillPlan_keeps (h : Keeps r s) {n k j} : Keeps r (refillPlan n s k j) := by
  induction n generalizing s with
  | zero => exact h
  | succ n ih =>
    unfold refillPlan
    split
    · exact h
    · split
      · exact h
      · extract_lets
        split
        · exact h
        · split
          · exact h
          · next issued => exact ih (issueTile_keeps (setPlan_keeps h) issued)

theorem readTile_keeps (h : Keeps r s) {x eng part ctx y} (e : readTile s x eng part ctx = some (y, t)) : Keeps r t :=
  runEng_keeps e (bind_keeps readDva_keeps fun _ => pure_keeps) h

theorem refillQueue_keeps (h : Keeps r s) {n q i part ctx} : Keeps r (refillQueue n s q i part ctx) := by
  induction n generalizing s with
  | zero => exact h
  | succ n ih =>
    unfold refillQueue
    split
    · exact h
    · split
      · exact h
      · extract_lets
        split
        · exact h
        · next read => exact setWork_keeps (readTile_keeps h read)
        · next read =>
          extract_lets
          split
          · exact h
          · next issued => exact ih (issueTile_keeps (setWork_keeps (readTile_keeps h read)) issued)

theorem refillAfter_keeps (h : Keeps r s) {x} : Keeps r (refillAfter s x) := by
  grind [refillAfter, refillPlan_keeps, refillQueue_keeps]
theorem endTstreams_keeps (h : Keeps r s) : Keeps r (endTstreams s) := by
  grind [endTstreams, foldlState_keeps, setWork_keeps, endCommand_keeps]
theorem moverUncorr_keeps (h : Keeps r s) {x sc a} : Keeps r (moverUncorr s x sc a) := by
  grind [moverUncorr, logErr_keeps]
theorem mvxStore_keeps (h : Keeps r s) {x w sc} : Keeps r (mvxStore s x w sc) := by
  grind [mvxStore, foldlState_keeps, finishXfer_keeps, moverUncorr_keeps, setXfer_keeps, submit_keeps]
theorem mvxScratch_keeps (h : Keeps r s) {x w sc} : Keeps r (mvxScratch s x w sc) := by
  grind [mvxScratch, finishXfer_keeps, logErr_keeps, ownerFault_keeps, logRecord_keeps, moverUncorr_keeps,
    scratchWrite_keeps, localAdd_keeps]
theorem performRaw_keeps (h : Keeps r s) {x} : Keeps r (performRaw s x) := by
  grind [performRaw, mvxScratch_keeps, mvxStore_keeps, finishXfer_keeps]
theorem performTile_keeps (h : Keeps r s) {x} : Keeps r (performTile s x) := by
  unfold performTile
  grind (gen := 20) [runEng_keeps, allOrNone_keeps, moveTile_keeps, finishXfer_keeps, setEngGen_keeps, bump_keeps]
theorem performXfer_keeps (h : Keeps r s) {x} : Keeps r (performXfer s x) := by
  grind [performXfer, endTstreams_keeps, refillAfter_keeps, performRaw_keeps, performTile_keeps]
theorem execTileComplete_keeps (h : Keeps r s) {id} : Answers r (true) (execTileComplete id s) := by
  grind [execTileComplete, next_keeps, performXfer_keeps]
theorem execMoverTransferDone_keeps (h : Keeps r s) {w id} : Answers r (wickOk w) (execMoverTransferDone w id s) := by
  grind [execMoverTransferDone, onOk_keeps, performXfer_keeps]
theorem deadline_keeps (h : Keeps r s) {x late} : Keeps r (deadline s x late) := by
  grind [deadline, bump_keeps, setXfer_keeps, endTstreams_keeps, refillAfter_keeps, finishXfer_keeps, logRecord_keeps]

theorem execDeadlineExpiry_keeps (h : Keeps r s) {id late} : Answers r true (execDeadlineExpiry id late s) := by
  refine next_keeps ?_
  split
  · split
    exacts [deadline_keeps h, h]
  · exact h

theorem issueMove_keeps (h : Keeps r s) {w src dst x} {start : State → Xfer → Option State}
    (hs : ∀ s x t, Keeps r s → start s x = some t → Keeps r t) : Keeps r (issueMove s w src dst x start) := by
  grind [issueMove, setWick_keeps, advance_keeps, spotOutput_keeps]
theorem execMvt_keeps (h : Keeps r s) {w word} : Answers r (wickOk w) (execMvt w word s) := by
  grind [execMvt, wickRun_keeps, scratchAccess_keeps, stopAtPc_keeps, stopWick_keeps, issueMove_keeps,
    issueTile_keeps]
theorem startRaw_keeps (h : Keeps r s) {x} (e : startRaw s x = some t) : Keeps r t := by
  grind [startRaw, addXfer_keeps, runEng_keeps, translateAll_keeps, finishXfer_keeps, setXfer_keeps]
theorem execMvx_keeps (h : Keeps r s) {w word} : Answers r (wickOk w) (execMvx w word s) := by
  grind [execMvx, wickRun_keeps, stopAtPc_keeps, stopWick_keeps, issueMove_keeps, startRaw_keeps]

end Sys2Proof.Proofs.Keeping
end

section
/-! SUPPORT. What the runs of plans keep (09 R276 to R280). -/
namespace Sys2Proof.Proofs.Keeping
open Sys2Proof Machine Safety Laws
-- One proof at a time: they all cite one another, and proofs that wait would each hold a thread.
set_option Elab.async false

variable {r s t : State}

theorem detectPlan_keeps (h : Keeps r s) {p st} : Keeps r (detectPlan s p st) := by
  grind [detectPlan, setSync_keeps]
theorem freePlan_keeps (h : Keeps r s) {h₁ retire} : Keeps r (freePlan s h₁ retire) := by
  unfold freePlan
  grind (gen := 20) [mk_keeps, dropWait_keeps, endCommand_keeps]
theorem startHead_keeps (h : Keeps r s) {q i} : Keeps r (startHead s q i) := by
  grind [startHead, setQueue_keeps]

theorem endRun_keeps (h : Keeps r s) {h₁ st} : Keeps r (endRun s h₁ st) := by
  unfold endRun
  grind (gen := 20) [setPlan_keeps, dropWait_keeps, bump_keeps, detectPlan_keeps, logEvt_keeps, endCommand_keeps,
    startHead_keeps, freePlan_keeps]

theorem haltPlan_keeps (h : Keeps r s) {p st} : Keeps r (haltPlan s p st) := by
  grind [haltPlan, foldlState_keeps, stopRunning_keeps]
theorem skipSpot_keeps (h : Keeps r s) {sc w} : Keeps r (skipSpot s sc w) := by
  grind [skipSpot, setSconce_keeps, logErr_keeps, bump_keeps]
theorem skipSpots_keeps (h : Keeps r s) {p} : Keeps r (skipSpots s p) := by
  grind [skipSpots, foldlState_keeps, skipSpot_keeps]
theorem stopRun_keeps (h : Keeps r s) {h₁ st} : Keeps r (stopRun s h₁ st) := by
  unfold stopRun
  grind (gen := 20) [foldlState_keeps, skipSpots_keeps, haltPlan_keeps, setWick_keeps, setWork_keeps, endRun_keeps]
theorem sendAborts_keeps (h : Keeps r s) {g} : Keeps r (sendAborts s g) := by
  grind [sendAborts, foldlState_keeps, sendCtl_keeps]
theorem setGroup_keeps (h : Keeps r s) {part gid f} : Keeps r (setGroup s part gid f) := by
  grind [setGroup, setSync_keeps]
theorem endWait_keeps (h : Keeps r s) {e} : Keeps r (endWait s e) := by
  unfold endWait
  grind (gen := 20) [dropWait_keeps, stopRunning_keeps, stopRun_keeps, endCommand_keeps]

theorem enterAborted_keeps (h : Keeps r s) {part gid cause} : Keeps r (enterAborted s part gid cause) := by
  unfold enterAborted
  grind (gen := 20) [foldlState_keeps, sendAborts_keeps, setGroup_keeps, setReg_keeps, bump_keeps, logRecord_keeps,
    logEvt_keeps, endWait_keeps]

theorem settleGroupsN_keeps (h : Keeps r s) {n} : Keeps r (settleGroupsN n s) := by
  induction n generalizing s with
  | zero => exact h
  | succ n ih =>
    unfold settleGroupsN
    split
    · exact h
    · exact ih (enterAborted_keeps (setSync_keeps h))

theorem settleGroups_keeps (h : Keeps r s) : Keeps r (settleGroups s) := by
  grind [settleGroups, settleGroupsN_keeps]

end Sys2Proof.Proofs.Keeping
end

section
/-! SUPPORT. What queues and their commands keep (14 R391 to R397). -/
namespace Sys2Proof.Proofs.Keeping
open Sys2Proof Machine Safety Laws
-- One proof at a time: they all cite one another, and proofs that wait would each hold a thread.
set_option Elab.async false

variable {r s t : State}

theorem stopQueue_keeps (h : Keeps r s) {q st} : Keeps r (stopQueue s q st) := by
  grind [stopQueue, setQueue_keeps]
theorem setTail_keeps (h : Keeps r s) {q t₁} : Keeps r (setTail s q t₁) := by
  grind [setTail, stopQueue_keeps, logErr_keeps, setQueue_keeps]

theorem readEntry_keeps (h : Keeps r s) {q hc y} (e : readEntry s q hc = some (y, t)) : Keeps r t := by
  refine runEng_keeps e ?_ h
  dsimp only
  split
  · exact bind_keeps readHost_keeps fun _ => pure_keeps
  · exact bind_keeps readDva_keeps fun _ => pure_keeps

theorem fetchN_keeps (h : Keeps r s) {n q hc} : Keeps r (fetchN n s q hc) := by
  induction n generalizing s with
  | zero => exact h
  | succ n ih =>
    unfold fetchN
    split
    · exact h
    · next read => exact stopQueue_keeps (readEntry_keeps h read)
    · next read => exact ih (setQueue_keeps (readEntry_keeps h read))

theorem fetchQueue_keeps (h : Keeps r s) {q hc} : Keeps r (fetchQueue s q hc) := by
  grind [fetchQueue, fetchN_keeps]
theorem startEntry_keeps (h : Keeps r s) {q e eng} : Keeps r (startEntry s q e eng).2 := by
  unfold startEntry
  grind (gen := 20) [setQueue_keeps]
theorem endCmd_keeps (h : Keeps r s) {c st result} : Keeps r (endCmd s c st result) := by
  grind [endCmd, endCommand_keeps]
theorem failCmd_keeps (h : Keeps r s) {c st} : Keeps r (failCmd s c st) := by
  grind [failCmd, endCmd_keeps, logRecord_keeps]
theorem alignCmd_keeps (h : Keeps r s) {c dva} : Keeps r (alignCmd s c dva) := by
  grind [alignCmd, endCmd_keeps, logRecord_keeps]
theorem engCmd_keeps (h : Keeps r s) {c} {m : Eng W64} (hm : EngKeeps r m) (e : engCmd c m s = some t) : Keeps r t :=
    by
  grind [engCmd, runEng_keeps, endCmd_keeps]
theorem failCmdE_keeps {α : Type} {c st} : EngKeeps r (failCmdE (α := α) c st) := failAt_keeps
theorem stepFence_keeps (h : Keeps r s) {q a} : Keeps r (stepFence s q a) := by
  grind [stepFence, setQueue_keeps, endCommand_keeps, bump_keeps, sendCntAdd_keeps]
theorem stepFences_keeps (h : Keeps r s) : Keeps r (stepFences s) := by
  grind [stepFences, foldlState_keeps, stepFence_keeps]
theorem logAdvice_keeps (h : Keeps r s) {a} : Keeps r (logAdvice s a) := by
  grind [logAdvice, logRecord_keeps]
theorem stepAdvice_keeps (h : Keeps r s) : Keeps r (stepAdvice s) := by
  grind [stepAdvice, foldlState_keeps, setStore_keeps, endCommand_keeps, logAdvice_keeps]
theorem stepStreams_keeps (h : Keeps r s) : Keeps r (stepStreams s) := by
  grind [stepStreams, foldlState_keeps, refillPlan_keeps, endTstreams_keeps, refillQueue_keeps]

theorem refuseHeads_keeps (h : Keeps r s) {n q} : Keeps r (refuseHeads n s q) := by
  induction n generalizing s with
  | zero => exact h
  | succ n ih =>
    unfold refuseHeads
    split
    · exact h
    · split
      · exact h
      · split
        next c u started => exact ih (failCmd_keeps (snd_keeps started (startEntry_keeps h)))

theorem refuseAll_keeps (h : Keeps r s) : Keeps r (refuseAll s) := by
  grind [refuseAll, foldlState_keeps, refuseHeads_keeps]
theorem writeCompletion_keeps (h : Keeps r s) {e} (e : writeCompletion s e = some t) : Keeps r t := by
  grind [writeCompletion, runEng_keeps, writeHost_keeps, writeDva_keeps, emit_keeps]
theorem stepEnded_keeps (h : Keeps r s) : Keeps r (stepEnded s) := by
  grind [stepEnded, foldlState_keeps, writeCompletion_keeps, setWork_keeps]
theorem stepTails_keeps (h : Keeps r s) : Keeps r (stepTails s) := by
  grind [stepTails, foldlState_keeps, setTail_keeps, fetchQueue_keeps]

theorem settleOnce_keeps (h : Keeps r s) : Keeps r (settleOnce s) := by
  unfold settleOnce
  grind (gen := 40) (splits := 40) (ematch := 20) (instances := 5000) [stepTails_keeps, stepEnded_keeps,
    refuseAll_keeps, stepFences_keeps, stepAdvice_keeps, stepRebuild_keeps, stepStreams_keeps, settleGroups_keeps]

theorem settle_keeps (h : Keeps r s) : Keeps r (settle s) := by
  grind [settle, settleOnce_keeps]

theorem cmdRow_keeps (h : Keeps r s) {q e isRow fields eng} {body : Cmd → State → Option State}
    (hb : ∀ c s t, Keeps r s → body c s = some t → Keeps r t) : Answers r (queueOk q) (cmdRow q e isRow fields eng
      body s) := by
  refine onOk_keeps ?_
  split
  · exact h
  · split
    · exact h
    · split
      next c u started =>
      have hu : Keeps r u := snd_keeps started (startEntry_keeps h)
      extract_lets st
      split
      · exact settle_keeps (failCmd_keeps hu)
      · split
        · next ran => exact settle_keeps (hb _ _ _ hu ran)
        · exact h

theorem dropDoorbell_keeps (h : Keeps r s) : Keeps r (dropDoorbell s) := by
  grind [dropDoorbell, bump_keeps]
theorem execDoorbell_keeps (h : Keeps r s) {src q size v hc} : Answers r (src.ok && queueOk q) (execDoorbell src q
    size v hc s) := by
  grind [execDoorbell, onOk_keeps, dropDoorbell_keeps, settle_keeps, fetchQueue_keeps, setTail_keeps]
theorem execQEnable_keeps (h : Keeps r s) {src v} : Answers r (src.ok) (execQEnable src v s) := by
  unfold execQEnable
  grind (gen := 20) [onOk_keeps, dropWrite_keeps, refuse_keeps, settle_keeps, setQueue_keeps]
theorem execFence_keeps (h : Keeps r s) {q e} : Answers r (queueOk q) (execFence q e s) := by
  grind [execFence, cmdRow_keeps]
theorem counterWaitDone_keeps (h : Keeps r s) {q idx tag st reached} : Keeps r (counterWaitDone s q idx tag st
    reached) := by
  grind [counterWaitDone, endCommand_keeps, dropWait_keeps]
theorem execCounterWait_keeps (h : Keeps r s) {q e} : Answers r (queueOk q) (execCounterWait q e s) := by
  grind [execCounterWait, cmdRow_keeps, failCmd_keeps, endCmd_keeps, logErr_keeps, counterWaitDone_keeps,
    addWait_keeps]
theorem execCounterWaitBound_keeps (h : Keeps r s) {q tag} : Answers r (queueOk q) (execCounterWaitBound q tag s) :=
    by
  grind [execCounterWaitBound, onOk_keeps, settle_keeps, counterWaitDone_keeps]

end Sys2Proof.Proofs.Keeping
end

section
/-! SUPPORT. What advice commands and RECLAIM keep (02 R50 to R55). -/
namespace Sys2Proof.Proofs.Keeping
open Sys2Proof Machine Safety Laws
-- One proof at a time: they all cite one another, and proofs that wait would each hold a thread.
set_option Elab.async false

variable {r s t : State}

theorem rangeBlocks_keeps {c use dva n} : EngKeeps r (rangeBlocks c use dva n) := by
  grind [rangeBlocks, bind_keeps, pure_keeps, get_keeps, mapM_keeps, translate_keeps, failAt_keeps]
theorem blockDone_keeps (h : Keeps r s) {c b st} : Keeps r (blockDone s c b st) := by
  grind [blockDone, adviceDone_keeps]
theorem adviseMove_keeps (h : Keeps r s) {c b tier wick rank} : Keeps r (adviseMove s c b tier wick rank) := by
  grind [adviseMove, requestMove_keeps, tellAdvice_keeps]
theorem unpinBlock_keeps (h : Keeps r s) {c b} : Keeps r (unpinBlock s c b) := by
  grind [unpinBlock, blockDone_keeps, blockSet_keeps]

theorem markBlock_keeps (h : Keeps r s) {c b key srcFmt sb4} : Keeps r (markBlock s c b key srcFmt sb4) := by
  unfold markBlock
  extract_lets
  split
  · exact blockDone_keeps h
  · exact blockDone_keeps (blockSet_keeps (setStore_keeps h id id))

theorem unmarkBlock_keeps (h : Keeps r s) {c b} : Keeps r (unmarkBlock s c b) :=
  blockDone_keeps (blockSet_keeps (setStore_keeps h id (wf_cellZero _ _ _)))

theorem adviseBlock_keeps (h : Keeps r s) {c op tier wick fmt e} : Keeps r (adviseBlock s c op tier wick fmt e) := by
  unfold adviseBlock
  grind (gen := 20) [blockDone_keeps, logRecord_keeps, logErr_keeps, adviseMove_keeps, unpinBlock_keeps,
    bumpBusy_keeps, markBlock_keeps, unmarkBlock_keeps]

theorem startAdvice_keeps (h : Keeps r s) {c op tier wick fmt bs} : Keeps r (startAdvice s c op tier wick fmt bs) :=
    by
  grind [startAdvice, foldlState_keeps, setStore_keeps, adviseBlock_keeps]
theorem adviseRow_keeps (h : Keeps r s) {q e op} : Answers r (queueOk q) (adviseRow q e op s) := by
  refine cmdRow_keeps h fun c s t hs e => ?_
  grind [failCmd_keeps, alignCmd_keeps, runEng_keeps, rangeBlocks_keeps, endCmd_keeps, startAdvice_keeps]
theorem execPrefetch_keeps (h : Keeps r s) {q e} : Answers r (queueOk q) (execPrefetch q e s) := by
  grind [execPrefetch, adviseRow_keeps]
theorem execPin_keeps (h : Keeps r s) {q e} : Answers r (queueOk q) (execPin q e s) := by
  grind [execPin, adviseRow_keeps]
theorem execUnpin_keeps (h : Keeps r s) {q e} : Answers r (queueOk q) (execUnpin q e s) := by
  grind [execUnpin, adviseRow_keeps]
theorem execCold_keeps (h : Keeps r s) {q e} : Answers r (queueOk q) (execCold q e s) := by
  grind [execCold, adviseRow_keeps]
theorem execMarkShadow_keeps (h : Keeps r s) {q e} : Answers r (queueOk q) (execMarkShadow q e s) := by
  grind [execMarkShadow, adviseRow_keeps]
theorem execUnmarkShadow_keeps (h : Keeps r s) {q e} : Answers r (queueOk q) (execUnmarkShadow q e s) := by
  grind [execUnmarkShadow, adviseRow_keeps]
theorem zeroLine_keeps (h : Keeps r s) {c key l} : Keeps r (zeroLine s c key l) := by
  grind [zeroLine, twinLines_keeps, staleShadow_keeps, lineWrite_keeps]

theorem reclaimBlock_keeps {c zero lo hi acc e} (h : Keeps r acc.2.2) : Keeps r (reclaimBlock c zero lo hi acc e).2.2
    := by
  obtain ⟨n, left, s⟩ := acc
  have hclear (ls) : Keeps r (clearForfeits (if zero then ls.foldl (fun s l => zeroLine s c e.2 l) s else s) ls) := by
    refine clearForfeits_keeps ?_
    split
    · exact foldlState_keeps h fun _ _ hu => zeroLine_keeps hu
    · exact h
  unfold reclaimBlock
  dsimp only
  split
  · split
    · exact blockSet_keeps (hclear _)
    · exact h
  · split
    · split
      · exact blockSet_keeps (hclear _)
      · exact h
    · exact hclear _

theorem reclaimBlocks_keeps {c dva n zero} : EngKeeps r (reclaimBlocks c dva n zero) := by
  grind [reclaimBlocks, bind_keeps, pure_keeps, get_keeps, rangeBlocks_keeps, failLog_keeps, logErr_keeps,
    failCmdE_keeps]
theorem reclaimAll_keeps (h : Keeps r s) {c dva n zero bs} : Keeps r (reclaimAll s c dva n zero bs).2.2 :=
  foldl_preserves (P := fun acc : Nat × Nat × State => Keeps r acc.2.2) h fun _ _ => reclaimBlock_keeps
theorem execReclaim_keeps (h : Keeps r s) {q e} : Answers r (queueOk q) (execReclaim q e s) := by
  grind [execReclaim, cmdRow_keeps, failCmd_keeps, alignCmd_keeps, runEng_keeps, reclaimBlocks_keeps, endCmd_keeps,
    reclaimAll_keeps]

end Sys2Proof.Proofs.Keeping
end

section
/-! SUPPORT. What copy commands keep (14 R398). -/
namespace Sys2Proof.Proofs.Keeping
open Sys2Proof Machine Safety Laws
-- One proof at a time: they all cite one another, and proofs that wait would each hold a thread.
set_option Elab.async false

variable {r s t : State}

theorem copyRow_keeps (h : Keeps r s) {q e isRow fields} {body : Cmd → State → Option State}
    (hb : ∀ c s t, Keeps r s → body c s = some t → Keeps r t) : Answers r (queueOk q) (copyRow q e isRow fields body
      s) := by
  refine cmdRow_keeps h fun c s t hs e => ?_
  split at e
  · cases e
  · exact hb c s t hs e

theorem rsvTile_keeps {c src dst n cid cen} : EngKeeps r (rsvTile c src dst n cid cen) := by
  grind [rsvTile, bind_keeps, readRsv_keeps, putTile_keeps]
theorem copyTiles_keeps {c src dst n cid cen} : EngKeeps r (copyTiles c src dst n cid cen) := by
  grind [copyTiles, bind_keeps, pure_keeps, get_keeps, forM_keeps, allOrNone_keeps, rsvTile_keeps, runTile_keeps]

theorem execCopy_keeps (h : Keeps r s) {q e} : Answers r (queueOk q) (execCopy q e s) := by
  refine copyRow_keeps h fun c s t hs e => ?_
  dsimp only at e
  split at e
  · exact Option.some.inj e ▸ failCmd_keeps hs
  · exact engCmd_keeps hs copyTiles_keeps e

theorem execTileStream_keeps (h : Keeps r s) {q e} : Answers r (queueOk q) (execTileStream q e s) := by
  grind [execTileStream, copyRow_keeps, failCmd_keeps, alignCmd_keeps, endTstreams_keeps, refillQueue_keeps,
    setWork_keeps]

theorem accumPackets_keeps {c src dst n sf df scale stoch ctr sp dp} :
    EngKeeps r (accumPackets c src dst n sf df scale stoch ctr sp dp) := by
  have hcaught (st : Status) (x : EFail) : EngKeeps r (match x with
      | .stat st' => return (if st = 0 then st' else st)
      | .wait => waitNow : Eng Status) := by
    cases x with
    | stat st => exact pure_keeps
    | wait => exact waitNow_keeps
  refine foldlM_keeps fun st e => ?_
  extract_lets o k rest
  have hrest (d) : EngKeeps r (rest d) := get_keeps fun s hs =>
    check_keeps (modify_keeps fun _ h => setEngGen_keeps h) fun _ => get_keeps fun s hs =>
      tryCatch_keeps (bind_keeps accessNow_keeps fun _ => pure_keeps) (hcaught st)
  exact ite_keeps (bind_keeps readRsv_keeps hrest) (bind_keeps readPages_keeps hrest)

theorem execAccumStream_keeps (h : Keeps r s) {q e} : Answers r (queueOk q) (execAccumStream q e s) := by
  refine copyRow_keeps h fun c s t hs e => ?_
  dsimp only at e
  split at e
  · exact Option.some.inj e ▸ failCmd_keeps hs
  · split at e
    · exact Option.some.inj e ▸ alignCmd_keeps hs
    · refine engCmd_keeps hs ?_ e
      have hpackets {n k v a b d f g st w i j} : EngKeeps r (do
          let dp ← translateAll c.who (tlbOf c.eng) .accum n k
          let st ← accumPackets v a b d f g st w i j dp
          if st ≠ 0 then failNow st
          return (0 : W64)) :=
        bind_keeps translateAll_keeps fun _ => bind_keeps accumPackets_keeps fun _ => check_keeps failNow_keeps fun _
          => pure_keeps
      exact ite_keeps (bind_keeps pure_keeps fun _ => hpackets) (bind_keeps translateAll_keeps fun _ => hpackets)

theorem execPrefetchFromHost_keeps (h : Keeps r s) {q e hc} : Answers r (queueOk q) (execPrefetchFromHost q e hc s) :=
    by
  refine copyRow_keeps h fun c s t hs e => ?_
  dsimp only at e
  split at e
  · exact Option.some.inj e ▸ failCmd_keeps hs
  · exact engCmd_keeps hs (bind_keeps hostCheck_keeps fun _ => bind_keeps translateAll_keeps fun _ =>
      bind_keeps readHost_keeps fun _ => bind_keeps writePages_keeps fun _ => pure_keeps) e

theorem execEvictToHost_keeps (h : Keeps r s) {q e hc} : Answers r (queueOk q) (execEvictToHost q e hc s) := by
  refine copyRow_keeps h fun c s t hs e => ?_
  have hwork {a n dva d i j} {b : Bool} : EngKeeps r (do
      hostCheck c.who a n
      let d ← readDva c.who (tlbOf c.eng) dva d
      writeHost c.who hc a d
      if b then rangeBlocks c .read i j else return []) :=
    bind_keeps hostCheck_keeps fun _ => bind_keeps readDva_keeps fun _ => bind_keeps writeHost_keeps fun _ =>
      ite_keeps rangeBlocks_keeps pure_keeps
  dsimp only at e
  split at e
  · exact Option.some.inj e ▸ failCmd_keeps hs
  · split at e
    · cases e
    · next ran => exact Option.some.inj e ▸ endCmd_keeps (runEng_keeps ran hwork hs)
    · next ran =>
      have ht := runEng_keeps ran hwork hs
      rw [← Option.some.inj e]
      split
      exacts [startAdvice_keeps ht, endCmd_keeps ht]

end Sys2Proof.Proofs.Keeping
end

section
/-! SUPPORT. What translation keeps (03 R68 to R86). -/
namespace Sys2Proof.Proofs.Keeping
open Sys2Proof Machine Safety Laws
-- One proof at a time: they all cite one another, and proofs that wait would each hold a thread.
set_option Elab.async false

variable {r s t : State}

theorem setLastCmd_keeps (h : Keeps r s) {kind bank v} : Keeps r (setLastCmd s kind bank v) := by
  grind [setLastCmd, mk_keeps]
theorem lastDone_keeps (h : Keeps r s) {kind bank st} : Keeps r (lastDone s kind bank st) := by
  grind [lastDone, setLastCmd_keeps]
theorem startShoot_keeps (h : Keeps r s) {ctx all base blocks queue bank withdraw} : Keeps r (startShoot s ctx all
    base blocks queue bank withdraw) := by
  grind [startShoot, setXlt_keeps]
theorem endShoot_keeps (h : Keeps r s) {sh st} : Keeps r (endShoot s sh st) := by
  grind [endShoot, setXlt_keeps, endCommand_keeps, lastDone_keeps]
theorem execShootdown_keeps (h : Keeps r s) {q e} : Answers r (queueOk q) (execShootdown q e s) := by
  grind [execShootdown, getD_keeps, cmdRow_keeps, failCmd_keeps, alignCmd_keeps, startShoot_keeps]
theorem shootCmd_keeps (h : Keeps r s) {src v} : Keeps r (shootCmd s src v) := by
  grind [shootCmd, pfOnly_keeps, startShoot_keeps, setLastCmd_keeps]
theorem execShootCmdGo_keeps (h : Keeps r s) {src v} : Answers r (src.ok) (execShootCmdGo src v s) := by
  grind [execShootCmdGo, onOk_keeps, shootCmd_keeps]
theorem execShootdownAck_keeps (h : Keeps r s) {id eng} : Answers r (eng.ok) (execShootdownAck id eng s) := by
  grind [execShootdownAck, onOk_keeps, setXlt_keeps]
theorem execShootdownComplete_keeps (h : Keeps r s) {id} : Answers r (true) (execShootdownComplete id s) := by
  grind [execShootdownComplete, next_keeps, settle_keeps, endShoot_keeps]
theorem execWalk_keeps (h : Keeps r s) {ctx dva} : Answers r (true) (execWalk ctx dva s) := by
  grind [execWalk, next_keeps, runEng_keeps, walkNow_keeps]
theorem execAtsInvalidation_keeps (h : Keeps r s) {base len} : Answers r (true) (execAtsInvalidation base len s) := by
  grind [execAtsInvalidation, next_keeps, emit_keeps, setXlt_keeps]

theorem execCtxInstall_keeps (h : Keeps r s) {q e} : Answers r (queueOk q) (execCtxInstall q e s) := by
  refine cmdRow_keeps h fun c s t hs e => ?_
  dsimp only at e
  split at e
  · exact Option.some.inj e ▸ endCmd_keeps (logRecord_keeps hs)
  · split at e
    · exact Option.some.inj e ▸ failCmd_keeps hs
    · exact engCmd_keeps hs (bind_keeps readRsv_keeps fun _ => check_keeps failCmdE_keeps fun _ => get_keeps fun _ _
        =>
        check_keeps failCmdE_keeps fun _ => check_keeps failCmdE_keeps fun _ =>
        bind_keeps (modify_keeps fun _ h => setXlt_keeps h) fun _ => pure_keeps) e

theorem dropCtx_keeps (h : Keeps r s) {c} : Keeps r (dropCtx s c) := by
  grind [dropCtx, setXlt_keeps]
theorem execCtxWithdraw_keeps (h : Keeps r s) {q e} : Answers r (queueOk q) (execCtxWithdraw q e s) := by
  grind [execCtxWithdraw, cmdRow_keeps, failCmd_keeps, endCmd_keeps, startShoot_keeps, dropCtx_keeps]
theorem clearWrap_keeps (h : Keeps r s) {b} : Keeps r (clearWrap s b) := by
  grind [clearWrap, foldlState_keeps, setReg_keeps]
theorem slotCmd_keeps (h : Keeps r s) {src op owner} : Keeps r (slotCmd s src op owner) := by
  grind [slotCmd, pfOnly_keeps, lastDone_keeps, clearWrap_keeps, refuse_keeps, setKeySlot_keeps]
theorem execLoad_keeps (h : Keeps r s) {src owner} : Answers r (src.ok) (execLoad src owner s) := by
  grind [execLoad, onOk_keeps, slotCmd_keeps]
theorem execClear_keeps (h : Keeps r s) {src} : Answers r (src.ok) (execClear src s) := by
  grind [execClear, onOk_keeps, slotCmd_keeps]
theorem execSetOwner_keeps (h : Keeps r s) {src owner} : Answers r (src.ok) (execSetOwner src owner s) := by
  grind [execSetOwner, onOk_keeps, slotCmd_keeps]
theorem execKeyDrainDone_keeps (h : Keeps r s) {slot} : Answers r (true) (execKeyDrainDone slot s) := by
  grind [execKeyDrainDone, next_keeps, setKeySlot_keeps]

end Sys2Proof.Proofs.Keeping
end

section
/-! SUPPORT. What clusters' and dies' calibration keeps (16 R454 to R459). -/
namespace Sys2Proof.Proofs.Keeping
open Sys2Proof Machine Safety Laws
-- One proof at a time: they all cite one another, and proofs that wait would each hold a thread.
set_option Elab.async false

variable {r s t : State}

theorem applyOffsets_keeps (h : Keeps r s) : Keeps r (applyOffsets s) := by
  grind [applyOffsets, foldlState_keeps, setPower_keeps]
theorem applyBoosters_keeps (h : Keeps r s) : Keeps r (applyBoosters s) := by
  grind [applyBoosters, mk_keeps, logErr_keeps]
theorem readUserArea_keeps (h : Keeps r s) : Keeps r (readUserArea s) := by
  grind [readUserArea, setLamp_keeps, logErr_keeps]
theorem selectClass_keeps (h : Keeps r s) : Keeps r (selectClass s) := by
  grind [selectClass, getD_keeps, setLamp_keeps, logErr_keeps]
theorem startCopy_keeps (h : Keeps r s) {es} : Keeps r (startCopy s es) := by
  grind [startCopy, setLamp_keeps]
theorem changeEntry_keeps (h : Keeps r s) {item idx value} (e : changeEntry s item idx value = some t) : Keeps r t :=
    by
  grind [changeEntry, startCopy_keeps]
theorem calWrite_keeps (h : Keeps r s) {src v} : Keeps r (calWrite s src v) := by
  grind [calWrite, lastDone_keeps, startCopy_keeps]
theorem holdWrite_keeps (h : Keeps r s) {src off v} {f : State → State} (hf : ∀ s, Keeps r s → Keeps r (f s)) :
    Keeps r (holdWrite s src off v f) := by
  grind [holdWrite, dropWrite_keeps, setLamp_keeps]
theorem calCmd_keeps (h : Keeps r s) {src v} : Keeps r (calCmd s src v) := by
  grind [calCmd, pfOnly_keeps, holdWrite_keeps, calWrite_keeps]
theorem execCalCmd_keeps (h : Keeps r s) {src v} : Answers r (src.ok) (execCalCmd src v s) := by
  grind [execCalCmd, onOk_keeps, calCmd_keeps]
theorem execCalWritten_keeps (h : Keeps r s) : Answers r (true) (execCalWritten s) := by
  grind [execCalWritten, next_keeps, logEvt_keeps, setLamp_keeps]
theorem classWrite_keeps (h : Keeps r s) {src v} : Keeps r (classWrite s src v) := by
  grind [classWrite, getD_keeps, pfOnly_keeps, changeEntry_keeps]
theorem execClassReq_keeps (h : Keeps r s) {src v} : Answers r (src.ok) (execClassReq src v s) := by
  grind [execClassReq, onOk_keeps, classWrite_keeps]
theorem poolWrite_keeps (h : Keeps r s) {src v} : Keeps r (poolWrite s src v) := by
  grind [poolWrite, pfOnly_keeps, changeEntry_keeps, setReg_keeps]
theorem execPoolCfg_keeps (h : Keeps r s) {src v} : Answers r (src.ok) (execPoolCfg src v s) := by
  grind [execPoolCfg, onOk_keeps, poolWrite_keeps]

end Sys2Proof.Proofs.Keeping
end

section
/-! SUPPORT. What compositions and extents keep (14 R400 to R406). -/
namespace Sys2Proof.Proofs.Keeping
open Sys2Proof Machine Safety Laws
-- One proof at a time: they all cite one another, and proofs that wait would each hold a thread.
set_option Elab.async false

variable {r s t : State}

theorem composeRow_keeps (h : Keeps r s) {q e op fields} {body : Cmd → Nat → Comp → State → State}
    (hb : ∀ c n k s, Keeps r s → Keeps r (body c n k s)) : Answers r (queueOk q) (composeRow q e op fields body s) :=
  cmdRow_keeps h fun _ _ _ hs e => Option.some.inj e ▸ hb _ _ _ _ hs
theorem execCreate_keeps (h : Keeps r s) {q e} : Answers r (queueOk q) (execCreate q e s) := by
  grind [execCreate, composeRow_keeps, failCmd_keeps, endCmd_keeps, setComp_keeps]
theorem execAddAgent_keeps (h : Keeps r s) {q e} : Answers r (queueOk q) (execAddAgent q e s) := by
  grind [execAddAgent, composeRow_keeps, failCmd_keeps, endCmd_keeps, setComp_keeps]
theorem execRemoveAgent_keeps (h : Keeps r s) {q e} : Answers r (queueOk q) (execRemoveAgent q e s) := by
  grind [execRemoveAgent, composeRow_keeps, failCmd_keeps, endCmd_keeps, setComp_keeps]
theorem execComposeEnd_keeps (h : Keeps r s) {q e} : Answers r (queueOk q) (execComposeEnd q e s) := by
  grind [execComposeEnd, composeRow_keeps, failCmd_keeps, endCmd_keeps, setComp_keeps]

theorem extentRow_keeps (h : Keeps r s) {q e op keys comp} {body : Cmd → List Nat → BitVec 12 → State → State}
    (hb : ∀ c l k s, Keeps r s → Keeps r (body c l k s)) : Answers r (queueOk q) (extentRow q e op keys comp body s)
      := by
  refine cmdRow_keeps h fun c s t hs e => ?_
  dsimp only at e
  split at e
  · exact Option.some.inj e ▸ failCmd_keeps hs
  · exact Option.some.inj e ▸ hb _ _ _ _ hs

theorem execGrant_keeps (h : Keeps r s) {q e} : Answers r (queueOk q) (execGrant q e s) := by
  grind [execGrant, foldlState_keeps, extentRow_keeps, failCmd_keeps, setExtent_keeps, endCmd_keeps, logEvt_keeps]
theorem revokeLine_keeps (h : Keeps r s) {l} : Keeps r (revokeLine s l) := by
  grind [revokeLine, foldlState_keeps, writeBack_keeps, putEntry_keeps, addTxn_keeps, setDir_keeps, sendSnoop_keeps,
    markBusy_keeps]
theorem beginRevoke_keeps (h : Keeps r s) {x} : Keeps r (beginRevoke s x) := by
  grind [beginRevoke, foldlState_keeps, setExtent_keeps, settleDir_keeps, revokeLine_keeps]
theorem revokeBody_keeps (h : Keeps r s) {hand c xs k} : Keeps r (revokeBody hand c xs k s) := by
  grind [revokeBody, foldlState_keeps, failCmd_keeps, setWork_keeps, beginRevoke_keeps]
theorem execRevoke_keeps (h : Keeps r s) {q e} : Answers r (queueOk q) (execRevoke q e s) := by
  grind [execRevoke, extentRow_keeps, revokeBody_keeps]
theorem execHandover_keeps (h : Keeps r s) {q e} : Answers r (queueOk q) (execHandover q e s) := by
  grind [execHandover, extentRow_keeps, revokeBody_keeps]
theorem clearLost_keeps (h : Keeps r s) {x} : Keeps r (clearLost s x) := by
  grind [clearLost, foldlState_keeps, blockSet_keeps]
theorem handKeys_keeps (h : Keeps r s) {keys p} : Keeps r (handKeys s keys p).2 := by
  grind [handKeys, foldlState_keeps, setKeySlot_keeps, foldlPair_keeps]

theorem finishExtent_keeps (h : Keeps r s) {x k} : Keeps r (finishExtent s x k) := by
  unfold finishExtent
  grind (gen := 20) [setExtent_keeps, clearLost_keeps, setWork_keeps, handKeys_keeps, logErr_keeps, settle_keeps,
    endCommand_keeps, logEvt_keeps]

theorem execExtentDrain_keeps (h : Keeps r s) {ext} : Answers r (true) (execExtentDrain ext s) := by
  grind [execExtentDrain, foldlState_keeps, next_keeps, settleDir_keeps, revokeLine_keeps, finishExtent_keeps]
theorem zeroSconce_keeps (h : Keeps r s) {sc} : Keeps r (zeroSconce s sc) := by
  unfold zeroSconce
  grind (gen := 20) [mk_keeps, wf_cellWrite, wf_cellZero, wf_cellSet]
theorem zeroGranted_keeps (h : Keeps r s) {kind idx} : Keeps r (zeroGranted s kind idx) := by
  unfold zeroGranted
  grind (gen := 20) [mk_keeps, zeroSconce_keeps, setSync_keeps, wf_cellWrite, wf_cellZero, wf_cellSet]
theorem setGrantOwner_keeps (h : Keeps r s) {kind idx p} : Keeps r (setGrantOwner s kind idx p) := by
  grind [setGrantOwner, setWork_keeps]
theorem ownCmd_keeps (h : Keeps r s) {src kind idx p} : Keeps r (ownCmd s src kind idx p) := by
  grind [ownCmd, pfOnly_keeps, lastDone_keeps, refuse_keeps, setWork_keeps, setGrantOwner_keeps, zeroGranted_keeps]
theorem execGrantSconce_keeps (h : Keeps r s) {src idx part} : Answers r (src.ok) (execGrantSconce src idx part s) :=
    by
  grind [execGrantSconce, onOk_keeps, ownCmd_keeps]
theorem execGrantHubCounters_keeps (h : Keeps r s) {src idx part} : Answers r (src.ok) (execGrantHubCounters src idx
    part s) := by
  grind [execGrantHubCounters, onOk_keeps, ownCmd_keeps]
theorem execGrantSemaphores_keeps (h : Keeps r s) {src idx part} : Answers r (src.ok) (execGrantSemaphores src idx
    part s) := by
  grind [execGrantSemaphores, onOk_keeps, ownCmd_keeps]
theorem execGrantReservoir_keeps (h : Keeps r s) {src idx part} : Answers r (src.ok) (execGrantReservoir src idx part
    s) := by
  grind [execGrantReservoir, onOk_keeps, ownCmd_keeps]
theorem execGrantZeroingDone_keeps (h : Keeps r s) : Answers r (true) (execGrantZeroingDone s) := by
  grind [execGrantZeroingDone, next_keeps, lastDone_keeps, setWork_keeps]
theorem cancelCommand_keeps (h : Keeps r s) {q a st} : Keeps r (cancelCommand s q a st) := by
  grind [cancelCommand, getD_keeps, mk_keeps, setWork_keeps, setStore_keeps, closeRebuild_keeps, setXlt_keeps,
    endCommand_keeps, dropWait_keeps]
theorem cancelQueue_keeps (h : Keeps r s) {q st} : Keeps r (cancelQueue s q st) := by
  grind [cancelQueue, foldlState_keeps, cancelCommand_keeps, startEntry_keeps, endCmd_keeps]
theorem disableQueue_keeps (h : Keeps r s) {q} : Keeps r (disableQueue s q) := by
  grind [disableQueue, setQueue_keeps]
theorem tearHeld_keeps (h : Keeps r s) {k} : Keeps r (tearHeld s k) := by
  grind [tearHeld, foldlState_keeps, takeUnfinished_keeps, noteDrained_keeps, finishSource_keeps, logRecord_keeps]

theorem snuffComp_keeps (h : Keeps r s) {k} : Keeps r (snuffComp s k) := by
  unfold snuffComp
  grind (gen := 20) [foldlState_keeps, stopRun_keeps, cancelQueue_keeps, tearHeld_keeps, enterAborted_keeps,
    settle_keeps, disableQueue_keeps, setXbar_keeps, setComp_keeps, logEvt_keeps]

theorem snuffWrite_keeps (h : Keeps r s) {src v} : Keeps r (snuffWrite s src v) := by
  grind [snuffWrite, pfOnly_keeps, snuffComp_keeps]
theorem execSnuff_keeps (h : Keeps r s) {src v} : Answers r (src.ok) (execSnuff src v s) := by
  grind [execSnuff, onOk_keeps, snuffWrite_keeps]
theorem execTeardownRepeat_keeps (h : Keeps r s) {comp} : Answers r (true) (execTeardownRepeat comp s) := by
  grind [execTeardownRepeat, next_keeps, sendTeardown_keeps]
theorem snapWrite_keeps (h : Keeps r s) {src v} : Keeps r (snapWrite s src v) := by
  unfold snapWrite
  grind (gen := 20) [dropWrite_keeps, setReg_keeps]
theorem execSnap_keeps (h : Keeps r s) {src v} : Answers r (src.ok) (execSnap src v s) := by
  grind [execSnap, onOk_keeps, snapWrite_keeps]
theorem meterUs_keeps (h : Keeps r s) : Keeps r (meterUs s) := by
  grind [meterUs, foldlState_keeps, setComp_keeps]

end Sys2Proof.Proofs.Keeping
end

section
/-! SUPPORT. What collective groups keep (12 R347 to R351). -/
namespace Sys2Proof.Proofs.Keeping
open Sys2Proof Machine Safety Laws
-- One proof at a time: they all cite one another, and proofs that wait would each hold a thread.
set_option Elab.async false

variable {r s t : State}

theorem openGroup_keeps {c dva} : EngKeeps r (openGroup c dva) := by
  unfold openGroup
  grind (gen := 20) [bind_keeps, pure_keeps, get_keeps, modify_keeps, readDva_keeps, failCmdE_keeps, failLog_keeps,
    logErr_keeps, setSync_keeps, failAt_keeps]

theorem execCollOpen_keeps (h : Keeps r s) {q e} : Answers r (queueOk q) (execCollOpen q e s) :=
  cmdRow_keeps h fun _ _ _ hs e => engCmd_keeps hs openGroup_keeps e

theorem groupCmd_keeps (h : Keeps r s) {c} {f : Group → State} (hf : ∀ g, Keeps r (f g)) (e : groupCmd c s f = some t)
    :
    Keeps r t := by
  unfold groupCmd at e
  split at e
  · exact Option.some.inj e ▸ failCmd_keeps h
  · exact Option.some.inj e ▸ hf _

theorem execCollAbort_keeps (h : Keeps r s) {q e} : Answers r (queueOk q) (execCollAbort q e s) := by
  grind [execCollAbort, cmdRow_keeps, groupCmd_keeps, endCmd_keeps, enterAborted_keeps]
theorem execCollReset_keeps (h : Keeps r s) {q e} : Answers r (queueOk q) (execCollReset q e s) := by
  grind [execCollReset, cmdRow_keeps, groupCmd_keeps, failCmd_keeps, setSync_keeps, endCmd_keeps, setGroup_keeps]
theorem execCollClose_keeps (h : Keeps r s) {q e} : Answers r (queueOk q) (execCollClose q e s) := by
  grind [execCollClose, cmdRow_keeps, groupCmd_keeps, endCmd_keeps, setSync_keeps]
theorem execAbort_keeps (h : Keeps r s) {port m} : Answers r (portOk port) (execAbort port m s) := by
  grind [execAbort, onOk_keeps, takeCtl_keeps, bump_keeps, settle_keeps, enterAborted_keeps]
theorem execAbortRepeat_keeps (h : Keeps r s) {part gid} : Answers r (true) (execAbortRepeat part gid s) := by
  grind [execAbortRepeat, next_keeps, sendAborts_keeps, setGroup_keeps]

end Sys2Proof.Proofs.Keeping
end

section
/-! SUPPORT. What plans keep (09 R271 to R283; 07 R214 to R217). -/
namespace Sys2Proof.Proofs.Keeping
open Sys2Proof Machine Safety Laws
-- One proof at a time: they all cite one another, and proofs that wait would each hold a thread.
set_option Elab.async false

variable {r s t : State}

theorem denyPlan_keeps (h : Keeps r s) {c reason} : Keeps r (denyPlan s c reason) := by
  grind [denyPlan, endCmd_keeps, logRecord_keeps]
theorem denyAdmit_keeps (h : Keeps r s) {c dva ctx reason} : Keeps r (denyAdmit s c dva ctx reason) := by
  grind [denyAdmit, logErr_keeps, setReg_keeps, bump_keeps, endCmd_keeps]
theorem zeroCounters_keeps (h : Keeps r s) {cs hub} : Keeps r (zeroCounters s cs hub) := by
  grind [zeroCounters, foldlState_keeps, setSync_keeps]

theorem grantPlan_keeps (h : Keeps r s) {c p} : Keeps r (grantPlan s c p) := by
  unfold grantPlan
  grind (gen := 20) [getD_keeps, foldlState_keeps, mk_keeps, zeroCounters_keeps, setSconce_keeps, endCmd_keeps,
    bump_keeps]

theorem readImage_keeps {w dva} : EngKeeps r (readImage w dva) := by
  grind [readImage, bind_keeps, pure_keeps, readDva_keeps]
theorem codePages_keeps {w dva img} : EngKeeps r (codePages w dva img) := by
  grind [codePages, bind_keeps, pure_keeps, translateAll_keeps]
theorem execPlanAdmit_keeps (h : Keeps r s) {q e} : Answers r (queueOk q) (execPlanAdmit q e s) := by
  unfold execPlanAdmit
  grind (gen := 20) [cmdRow_keeps, denyAdmit_keeps, runEng_keeps, readImage_keeps, codePages_keeps, grantPlan_keeps]

theorem planCmd_keeps (h : Keeps r s) {c} {f : Nat → Plan → Option State} (hf : ∀ n p u, f n p = some u → Keeps r u)
    (e : planCmd c s f = some t) : Keeps r t := by
  unfold planCmd at e
  dsimp only at e
  split at e
  · exact Option.some.inj e ▸ denyPlan_keeps h
  · split_ifs at e
    · exact Option.some.inj e ▸ failCmd_keeps h
    · exact Option.some.inj e ▸ denyPlan_keeps h
    · exact hf _ _ _ e

theorem execPlanArm_keeps (h : Keeps r s) {q e} : Answers r (queueOk q) (execPlanArm q e s) := by
  grind [execPlanArm, cmdRow_keeps, planCmd_keeps, endCmd_keeps, setPlan_keeps, denyPlan_keeps]
theorem enterStep_keeps (h : Keeps r s) {h₁} : Keeps r (enterStep s h₁) := by
  grind [enterStep, endRun_keeps, setPlan_keeps, stopRun_keeps, addWait_keeps]
theorem execPlanRun_keeps (h : Keeps r s) {q e} : Answers r (queueOk q) (execPlanRun q e s) := by
  grind [execPlanRun, cmdRow_keeps, planCmd_keeps, denyPlan_keeps, zeroCounters_keeps, setPlan_keeps, enterStep_keeps]
theorem execPlanRetire_keeps (h : Keeps r s) {q e} : Answers r (queueOk q) (execPlanRetire q e s) := by
  grind [execPlanRetire, cmdRow_keeps, planCmd_keeps, freePlan_keeps, setPlan_keeps, stopRun_keeps]
theorem openGate_keeps (h : Keeps r s) {h₁} : Keeps r (openGate s h₁) := by
  grind [openGate, stopRun_keeps, setPlan_keeps, dropWait_keeps]
theorem execGateOpen_keeps (h : Keeps r s) {h₁} : Answers r (handleOk h₁) (execGateOpen h₁ s) := by
  grind [execGateOpen, onOk_keeps, settle_keeps, openGate_keeps]
theorem queueTarget_keeps (h : Keeps r s) {q tag} : Keeps r (queueTarget s q tag) := by
  grind [queueTarget, counterWaitDone_keeps]
theorem execCounterTargetReached_keeps (h : Keeps r s) {e} : Answers r (e.ok) (execCounterTargetReached e s) := by
  unfold execCounterTargetReached
  grind (gen := 20) [onOk_keeps, settle_keeps, wickTarget_keeps, openGate_keeps, queueTarget_keeps]
theorem setupWick_keeps (h : Keeps r s) {p h₁ ls w} : Keeps r (setupWick p h₁ ls s w) := by
  grind [setupWick, setWick_keeps, imemWrite_keeps]
theorem seedChannel_keeps (h : Keeps r s) {p c} : Keeps r (seedChannel p s c) := by
  grind [seedChannel, setSconce_keeps]
theorem spotDraw_keeps (h : Keeps r s) {p ls sc} : Keeps r (spotDraw p ls s sc) := by
  grind [spotDraw, draw_keeps, setSconce_keeps, setWick_keeps, logErr_keeps, bump_keeps]

theorem startStep_keeps (h : Keeps r s) {n} : Keeps r (startStep s n) := by
  unfold startStep
  split
  · exact h
  · split
    · exact h
    · split
      · exact h
      · extract_lets ls set freed seeded drawn js ran
        have hseeded : Keeps r seeded := foldlState_keeps (setXbar_keeps (foldlState_keeps h fun _ _ hu =>
          setupWick_keeps hu))
          fun _ _ hu => seedChannel_keeps hu
        have hdrawn : Keeps r drawn := by
          dsimp only [drawn]
          split
          · exact foldlState_keeps hseeded fun _ _ hu => spotDraw_keeps hu
          · exact hseeded
        exact foldlState_keeps (setPlan_keeps hdrawn) fun _ _ hu => refillPlan_keeps hu

theorem execStepStart_keeps (h : Keeps r s) {h₁} : Answers r (handleOk h₁) (execStepStart h₁ s) := by
  grind [execStepStart, onOk_keeps, settle_keeps, startStep_keeps]
theorem execSpotCopyDone_keeps (h : Keeps r s) {sc} : Answers r (sconceOk sc) (execSpotCopyDone sc s) := by
  grind [execSpotCopyDone, onOk_keeps, setWick_keeps, setSconce_keeps]
theorem spotMismatch_keeps (h : Keeps r s) {sc sp ord} : Keeps r (spotMismatch s sc sp ord) := by
  grind [spotMismatch, bump_keeps, setReg_keeps, logErr_keeps]
theorem compareSpot_keeps (h : Keeps r s) {sc sp} : Keeps r (compareSpot s sc sp) := by
  grind [compareSpot, draw_keeps, setSconce_keeps, spotMismatch_keeps, bump_keeps]
theorem execSpotCompare_keeps (h : Keeps r s) {sc} : Answers r (sconceOk sc) (execSpotCompare sc s) := by
  grind [execSpotCompare, onOk_keeps, settle_keeps, skipSpot_keeps, compareSpot_keeps]
theorem finishStep_keeps (h : Keeps r s) {h₁ p st} : Keeps r (finishStep s h₁ p st) := by
  grind [finishStep, getD_keeps, setXbar_keeps, endRun_keeps, setPlan_keeps, sendCntAdd_keeps, enterStep_keeps]
theorem execStepEnd_keeps (h : Keeps r s) {h₁} : Answers r (handleOk h₁) (execStepEnd h₁ s) := by
  grind [execStepEnd, onOk_keeps, settle_keeps, finishStep_keeps]
theorem noteOverrun_keeps (h : Keeps r s) {h₁ p wick} : Keeps r (noteOverrun s h₁ p wick) := by
  grind [noteOverrun, logErr_keeps, bump_keeps, setReg_keeps]
theorem overrunStep_keeps (h : Keeps r s) {h₁ p wick} : Keeps r (overrunStep s h₁ p wick) := by
  grind [overrunStep, noteOverrun_keeps, skipSpots_keeps, haltPlan_keeps, setPlan_keeps]
theorem execStepOverrun_keeps (h : Keeps r s) {h₁ wick} : Answers r (handleOk h₁) (execStepOverrun h₁ wick s) := by
  grind [execStepOverrun, onOk_keeps, settle_keeps, overrunStep_keeps]
theorem execGateBoundExpiry_keeps (h : Keeps r s) {h₁} : Answers r (handleOk h₁) (execGateBoundExpiry h₁ s) := by
  grind [execGateBoundExpiry, onOk_keeps, settle_keeps, endRun_keeps, noteOverrun_keeps]

end Sys2Proof.Proofs.Keeping
end

section
/-! SUPPORT. What the KV store keeps (10). -/
namespace Sys2Proof.Proofs.Keeping
open Sys2Proof Machine Safety Laws
-- One proof at a time: they all cite one another, and proofs that wait would each hold a thread.
set_option Elab.async false

variable {r s t : State}

theorem serviceSpot_keeps (h : Keeps r s) {p sc} : Keeps r (serviceSpot p s sc) := by
  grind [serviceSpot, draw_keeps, setSconce_keeps, compareSpot_keeps, logErr_keeps, bump_keeps]
theorem serviceStart_keeps (h : Keeps r s) {h₁ p} : Keeps r (serviceStart s h₁ p) := by
  grind [serviceStart, foldlState_keeps, setupWick_keeps, zeroCounters_keeps, serviceSpot_keeps]
theorem serviceFree_keeps (h : Keeps r s) {h₁} : Keeps r (serviceFree s h₁) := by
  grind [serviceFree, freePlan_keeps]
theorem serviceWait_keeps (h : Keeps r s) {c h₁ p} : Keeps r (serviceWait s c h₁ p) := by
  grind [serviceWait, setQueue_keeps, addWait_keeps, setPlan_keeps]
theorem serviceEnd_keeps (h : Keeps r s) {h₁ p st} : Keeps r (serviceEnd s h₁ p st) := by
  grind [serviceEnd, setPlan_keeps, dropWait_keeps, serviceFree_keeps, bump_keeps, detectPlan_keeps, logEvt_keeps,
    sendCntAdd_keeps]

theorem runService_keeps (h : Keeps r s) {c n p} {work : Eng (Status × W64)} (hw : EngKeeps r work)
    (e : runService c n p work s = some t) : Keeps r t := by
  unfold runService at e
  split at e
  · exact Option.some.inj e ▸ serviceWait_keeps h
  · split at e
    · exact Option.some.inj e ▸ endCmd_keeps (serviceEnd_keeps h)
    · split at e
      · cases e
      · next run => exact Option.some.inj e ▸ endCmd_keeps (serviceEnd_keeps (runEng_keeps run hw (serviceStart_keeps
          h)))
      · next run => exact Option.some.inj e ▸ endCmd_keeps (serviceEnd_keeps (runEng_keeps run hw (serviceStart_keeps
          h)))

theorem kvGet_keeps {w cx sa n} : EngKeeps r (kvGet w cx sa n) := by
  grind [kvGet, bind_keeps, pure_keeps, readPages_keeps]
theorem kvPut_keeps {w cx sa d} : EngKeeps r (kvPut w cx sa d) := by
  grind [kvPut, writePages_keeps]
theorem kvFail_keeps {α : Type} {w st a} : EngKeeps r (kvFail (α := α) w st a) := failLog_keeps fun _ h =>
    logRecord_keeps h
theorem failLost_keeps {α : Type} {c ctx u} : EngKeeps r (openSession.failLost (α := α) c ctx u) :=
  failLog_keeps fun _ h => logRecord_keeps (bump_keeps h)

theorem openSession_keeps {c ctx layer} : EngKeeps r (openSession c ctx layer) := by
  unfold openSession
  grind (gen := 20) [bind_keeps, pure_keeps, get_keeps, failLost_keeps, kvGet_keeps, kvFail_keeps, failLog_keeps,
    logRecord_keeps]

theorem streamLen_keeps {c z layer h₁} : EngKeeps r (streamLen c z layer h₁) := by
  grind [streamLen, bind_keeps, pure_keeps, kvGet_keeps]
theorem kvNode_keeps {w cx ea} : EngKeeps r (kvNode w cx ea) := by
  grind [kvNode, bind_keeps, pure_keeps, kvGet_keeps, kvFail_keeps]

theorem kvWalk_keeps {w cx p k node} : EngKeeps r (kvWalk w cx p k node) := by
  induction k generalizing node with
  | zero => exact pure_keeps
  | succ k ih => exact bind_keeps kvNode_keeps fun _ => ih

theorem pageEntryAt_keeps {c z layer h₁ p} : EngKeeps r (pageEntryAt c z layer h₁ p) := by
  grind [pageEntryAt, bind_keeps, kvNode_keeps, kvWalk_keeps]
theorem spreadMove_keeps (h : Keeps r s) {c off n wick} : Keeps r (spreadMove s c off n wick) := by
  grind [spreadMove, foldlState_keeps, requestMove_keeps]

theorem takeSpare_keeps {c z pl layer h₁ pg ea ks vs} : EngKeeps r (takeSpare c z pl layer h₁ pg ea ks vs) := by
  unfold takeSpare
  grind (gen := 20) [bind_keeps, pure_keeps, modify_keeps, kvGet_keeps, kvPut_keeps, bump_keeps, translate_keeps,
    spreadMove_keeps, kvFail_keeps]

theorem copyOnWrite_keeps {c z pl layer h₁ pg ea v start} : EngKeeps r (copyOnWrite c z pl layer h₁ pg ea v start) :=
    by
  unfold copyOnWrite
  grind (gen := 20) [bind_keeps, get_keeps, modify_keeps, kvGet_keeps, accessNow_keeps, kvFail_keeps, kvPut_keeps,
    takeSpare_keeps, readDva_keeps, writeDva_keeps, bump_keeps]

theorem readSpace_keeps {w v n} : EngKeeps r (readSpace w v n) := by
  grind [readSpace, readRsv_keeps, readDva_keeps]

theorem appendEntry_keeps {c pl bf16 stoch layer e} : EngKeeps r (appendEntry c pl bf16 stoch layer e) := by
  refine bind_keeps openSession_keeps fun z => check_keeps failAt_keeps fun _ => bind_keeps (forM_keeps fun _ => ?_)
    fun _ =>
    bind_keeps (forM_keeps fun _ => forM_keeps fun _ => ?_) fun _ =>
    bind_keeps (forM_keeps fun _ => ?_) fun _ => bind_keeps (forM_keeps fun _ => kvPut_keeps) fun _ =>
    modify_keeps fun _ h => bump_keeps h
  · exact bind_keeps streamLen_keeps fun _ => ite_keeps kvFail_keeps pure_keeps
  · exact bind_keeps pageEntryAt_keeps fun _ => bind_keeps kvGet_keeps fun _ =>
      ite_keeps (bind_keeps takeSpare_keeps fun _ => pure_keeps) (ite_keeps copyOnWrite_keeps pure_keeps)
  · exact bind_keeps readSpace_keeps fun _ => bind_keeps readSpace_keeps fun _ => forM_keeps fun _ =>
      bind_keeps pageEntryAt_keeps fun _ => bind_keeps kvGet_keeps fun _ => get_keeps fun _ _ =>
      bind_keeps (modify_keeps fun _ h => setEngGen_keeps h) fun _ => bind_keeps writeDva_keeps fun _ =>
        writeDva_keeps

theorem batchDo_keeps {c dva n} {entry : Nat → Nat → Eng Unit} (he : ∀ i e, EngKeeps r (entry i e)) :
    EngKeeps r (batchDo c dva n entry) :=
  foldlM_keeps fun _ _ => bind_keeps readDva_keeps fun _ => bind_keeps (attempt_keeps (he _ _)) fun _ =>
    bind_keeps writeDva_keeps fun _ => pure_keeps

theorem execAppend_keeps (h : Keeps r s) {q e} : Answers r (queueOk q) (execAppend q e s) := by
  grind [execAppend, cmdRow_keeps, failCmd_keeps, runEng_keeps, batchDo_keeps, appendEntry_keeps, endCmd_keeps]

theorem attendPage_keeps {c p z a qs h₁ pg lo hi} : EngKeeps r (attendPage c p z a qs h₁ pg lo hi) := by
  unfold attendPage
  grind (gen := 20) [bind_keeps, pure_keeps, get_keeps, modify_keeps, pageEntryAt_keeps, kvGet_keeps,
    translateAll_keeps, kvFail_keeps, countTile_keeps, bump_keeps, readPages_keeps]

theorem attendEntry_keeps {c p a ref seed e} : EngKeeps r (attendEntry c p a ref seed e) := by
  unfold attendEntry
  grind (gen := 40) (splits := 40) (ematch := 20) (instances := 5000) [bind_keeps, pure_keeps, get_keeps,
    modify_keeps, set_keeps, mapM_keeps, foldlState_keeps, openSession_keeps, readSpace_keeps, draw_keeps,
    streamLen_keeps, attendPage_keeps, kvFail_keeps, putBytes_keeps, bump_keeps, readDva_keeps, failAt_keeps]

theorem execAttend_keeps (h : Keeps r s) {q e seed} : Answers r (queueOk q) (execAttend q e seed s) := by
  refine cmdRow_keeps h fun c s t hs e => ?_
  dsimp only at e
  split at e
  · exact Option.some.inj e ▸ failCmd_keeps hs
  · split at e
    · exact Option.some.inj e ▸ failCmd_keeps hs
    · exact runService_keeps hs (bind_keeps (batchDo_keeps fun _ _ => attendEntry_keeps) fun _ => pure_keeps) e

end Sys2Proof.Proofs.Keeping
end

section
/-! SUPPORT. What embedding tables' rows keep (11). -/
namespace Sys2Proof.Proofs.Keeping
open Sys2Proof Machine Safety Laws
-- One proof at a time: they all cite one another, and proofs that wait would each hold a thread.
set_option Elab.async false

variable {r s t : State}

theorem poolPut_keeps (h : Keeps r s) {t₁ off d} : Keeps r (poolPut s t₁ off d) := by
  grind [poolPut, homeWrite_keeps]
theorem tagSet_keeps (h : Keeps r s) {t₁ set way v} : Keeps r (tagSet s t₁ set way v) := by
  grind [tagSet, poolPut_keeps]
theorem lookup_keeps (h : Keeps r s) {t₁ u} : Keeps r (lookup s t₁ u) := by
  grind [lookup, foldlState_keeps, setEmb_keeps, bump_keeps]
theorem abortRowMove_keeps (h : Keeps r s) {m} : Keeps r (abortRowMove s m) := by
  grind [abortRowMove, tagSet_keeps, setEmb_keeps, bump_keeps]
theorem abortFor_keeps (h : Keeps r s) {t₁ u} : Keeps r (abortFor s t₁ u) := by
  grind [abortFor, foldlState_keeps, abortRowMove_keeps]
theorem candidate_keeps (h : Keeps r s) {id t₁ u e0 data} : Keeps r (candidate s id t₁ u e0 data) := by
  grind [candidate, foldlState_keeps, setEmb_keeps, tagSet_keeps]
theorem rowFail_keeps {α : Type} {w st a} : EngKeeps r (rowFail (α := α) w st a) := kvFail_keeps
theorem rowEntry_keeps {w t₁ u} : EngKeeps r (rowEntry w t₁ u) := by
  grind [rowEntry, bind_keeps, pure_keeps, get_keeps, readDva_keeps, failLog_keeps, logRecord_keeps]
theorem slotOk_keeps {w t₁ off n} : EngKeeps r (slotOk w t₁ off n) := by
  grind [slotOk, bind_keeps, pure_keeps, get_keeps, failLog_keeps, logRecord_keeps, logErr_keeps]
theorem rowRead_keeps {w t₁ comp hc wh cls loc u} : EngKeeps r (rowRead w t₁ comp hc wh cls loc u) := by
  grind [rowRead, bind_keeps, pure_keeps, get_keeps, readPages_keeps, slotOk_keeps, readHost_keeps, failLog_keeps,
    logRecord_keeps]

theorem rowWrite_keeps {w t₁ comp hc wh loc u d} : EngKeeps r (rowWrite w t₁ comp hc wh loc u d) := by
  unfold rowWrite
  grind (gen := 20) [bind_keeps, pure_keeps, get_keeps, set_keeps, writePages_keeps, slotOk_keeps, tagSet_keeps,
    poolPut_keeps, writeHost_keeps, failLog_keeps, logRecord_keeps]

theorem flipEntry_keeps {w t₁ u e0 e1} : EngKeeps r (flipEntry w t₁ u e0 e1) := by
  grind [flipEntry, bind_keeps, pure_keeps, atomicDva_keeps]

theorem evictWay_keeps {w t₁ comp hc set way} : EngKeeps r (evictWay w t₁ comp hc set way) := by
  unfold evictWay
  grind (gen := 20) [bind_keeps, pure_keeps, get_keeps, modify_keeps, slotOk_keeps, flipEntry_keeps, bump_keeps,
    tagSet_keeps, rowRead_keeps, rowWrite_keeps]

theorem fillWay_keeps {w t₁ comp hc m} : EngKeeps r (fillWay w t₁ comp hc m) := by
  unfold fillWay
  grind (gen := 20) [bind_keeps, pure_keeps, modify_keeps, slotOk_keeps, poolPut_keeps, flipEntry_keeps, bump_keeps,
    tagSet_keeps, evictWay_keeps]

theorem runRowMove_keeps (h : Keeps r s) {id t₁ m hc} : Keeps r (runRowMove s id t₁ m hc) := by
  grind [runRowMove, getD_keeps, setEmb_keeps, runEng_keeps, fillWay_keeps, bump_keeps, abortRowMove_keeps,
    keepLogs_keeps]
theorem execRowMove_keeps (h : Keeps r s) {t₁ u hc} : Answers r (true) (execRowMove t₁ u hc s) := by
  grind [execRowMove, next_keeps, runRowMove_keeps]

end Sys2Proof.Proofs.Keeping
end

section
/-! SUPPORT. What embedding operators keep (11). -/
namespace Sys2Proof.Proofs.Keeping
open Sys2Proof Machine Safety Laws
-- One proof at a time: they all cite one another, and proofs that wait would each hold a thread.
set_option Elab.async false

variable {r s t : State}

theorem read4_keeps {w dva n} : EngKeeps r (read4 w dva n) := by
  grind [read4, bind_keeps, pure_keeps, readDva_keeps]
theorem localRows_keeps {w t₁ is addr} : EngKeeps r (localRows w t₁ is addr) := by
  grind [localRows, pure_keeps, mapM_keeps, failAt_keeps]

theorem fetchRow_keeps {c id t₁ comp hc late u} : EngKeeps r (fetchRow c id t₁ comp hc late u) := by
  unfold fetchRow
  grind (gen := 40) (splits := 40) (ematch := 20) (instances := 5000) [bind_keeps, pure_keeps, get_keeps,
    modify_keeps, lookup_keeps, rowEntry_keeps, bump_keeps, rowFail_keeps, rowRead_keeps, candidate_keeps]

theorem fetchRows_keeps {c id t₁ p a late hc us} : EngKeeps r (fetchRows c id t₁ p a late hc us) := by
  grind [fetchRows, bind_keeps, pure_keeps, get_keeps, mapM_keeps, attempt_keeps, fetchRow_keeps, lookup_keeps]
theorem putOutput_keeps {w a rows} : EngKeeps r (putOutput w a rows) := by
  grind [putOutput, bind_keeps, pure_keeps, mapM_keeps, getD_keeps, attempt_keeps, allOrNone_keeps, putRows_keeps]
theorem putMiss_keeps {w a bad} : EngKeeps r (putMiss w a bad) := by
  grind [putMiss, pure_keeps, writeDva_keeps]
theorem finishRows_keeps {w a dim rows} : EngKeeps r (finishRows w a dim rows) := by
  grind [finishRows, bind_keeps, pure_keeps, putOutput_keeps, putMiss_keeps]

theorem embedRow_keeps (h : Keeps r s) {q e op} {work : Cmd → Plan → Nat → Table → Nat → Eng (Status × W64)}
    (hw : ∀ c p i t v, EngKeeps r (work c p i t v)) : Answers r (queueOk q) (embedRow q e op work s) := by
  refine cmdRow_keeps h fun c s t hs e => ?_
  split at e
  · split_ifs at e
    · exact Option.some.inj e ▸ failCmd_keeps hs
    · exact Option.some.inj e ▸ failCmd_keeps hs
    · exact runService_keeps hs (hw _ _ _ _ _) e
    · exact runService_keeps hs (bind_keeps readDva_keeps fun _ => check_keeps failAt_keeps fun _ =>
        check_keeps failAt_keeps fun _ => hw _ _ _ _ _) e
  · exact Option.some.inj e ▸ failCmd_keeps hs

theorem readIndices_keeps {w t₁ a} : EngKeeps r (readIndices w t₁ a) := by
  grind [readIndices, bind_keeps, readDva_keeps, localRows_keeps]
theorem gatherWork_keeps {late hc c p id t₁ v} : EngKeeps r (gatherWork late hc c p id t₁ v) := by
  grind [gatherWork, bind_keeps, pure_keeps, readIndices_keeps, fetchRows_keeps, finishRows_keeps, writeDva_keeps]
theorem execGather_keeps (h : Keeps r s) {q e late hc} : Answers r (queueOk q) (execGather q e late hc s) := by
  grind [execGather, embedRow_keeps, gatherWork_keeps]
theorem poolWork_keeps {late hc c p id t₁ v} : EngKeeps r (poolWork late hc c p id t₁ v) := by
  grind [poolWork, bind_keeps, pure_keeps, read4_keeps, readIndices_keeps, fetchRows_keeps, finishRows_keeps,
    failAt_keeps]
theorem execPool_keeps (h : Keeps r s) {q e late hc} : Answers r (queueOk q) (execPool q e late hc s) := by
  grind [execPool, embedRow_keeps, poolWork_keeps]

theorem updateRow_keeps {c id t comp hc a u gs} : EngKeeps r (updateRow c id t comp hc a u gs) := by
  refine bind_keeps fetchRow_keeps fun f => ?_
  extract_lets w sa rest
  have hrest (g) : EngKeeps r (rest g) := get_keeps fun s hs =>
    bind_keeps (set_keeps (draw_keeps hs)) fun _ => bind_keeps (modify_keeps fun _ h => setEngGen_keeps h) fun _ =>
    bind_keeps (allOrNone_keeps (bind_keeps rowWrite_keeps fun _ => ite_keeps writeDva_keeps pure_keeps)) fun _ =>
    modify_keeps fun _ h => abortFor_keeps h
  exact ite_keeps (bind_keeps readDva_keeps fun _ => bind_keeps pure_keeps hrest) (bind_keeps pure_keeps hrest)

theorem scatterWork_keeps {hc c p id t₁ v} : EngKeeps r (scatterWork hc c p id t₁ v) := by
  unfold scatterWork
  grind (gen := 20) [bind_keeps, pure_keeps, mapM_keeps, getD_keeps, foldlState_keeps, readIndices_keeps,
    readSpace_keeps, attempt_keeps, updateRow_keeps, read4_keeps, failAt_keeps]

theorem execScatterAdd_keeps (h : Keeps r s) {q e hc} : Answers r (queueOk q) (execScatterAdd q e hc s) := by
  grind [execScatterAdd, embedRow_keeps, scatterWork_keeps]
theorem dropCached_keeps (h : Keeps r s) {t₁ u loc} : Keeps r (dropCached s t₁ u loc) := by
  grind [dropCached, tagSet_keeps]

theorem replaceRow_keeps {c id t comp hc u v} : EngKeeps r (replaceRow c id t comp hc u v) := by
  refine get_keeps fun s hs => check_keeps failAt_keeps fun _ => check_keeps failAt_keeps fun _ =>
    bind_keeps rowEntry_keeps fun _ => ite_keeps ?_ ?_
  · exact bind_keeps readSpace_keeps fun _ => bind_keeps (allOrNone_keeps rowWrite_keeps) fun _ =>
      modify_keeps fun _ h => abortFor_keeps h
  · refine bind_keeps readSpace_keeps fun _ => bind_keeps (allOrNone_keeps (bind_keeps rowWrite_keeps fun _ =>
      bind_keeps flipEntry_keeps fun _ => ite_keeps rowFail_keeps pure_keeps)) fun _ => modify_keeps fun _ h => ?_
    grind [abortFor_keeps, dropCached_keeps]

theorem updateWork_keeps {hc c p id t₁ v} : EngKeeps r (updateWork hc c p id t₁ v) := by
  unfold updateWork
  grind (gen := 20) [bind_keeps, pure_keeps, modify_keeps, mapM_keeps, forM_keeps, readSpace_keeps, localRows_keeps,
    lookup_keeps, attempt_keeps, replaceRow_keeps, writeRsv_keeps, writeDva_keeps]

theorem execUpdateRow_keeps (h : Keeps r s) {q e hc} : Answers r (queueOk q) (execUpdateRow q e hc s) := by
  grind [execUpdateRow, embedRow_keeps, updateWork_keeps]
theorem clearRegion_keeps (h : Keeps r s) {base n} : Keeps r (clearRegion s base n) := by
  unfold clearRegion
  grind (gen := 20) [setStore_keeps, wf_cellWrite, wf_cellZero, wf_cellSet]

theorem openWork_keeps {c} : EngKeeps r (openWork c) := by
  refine bind_keeps readDva_keeps fun _ => get_keeps fun s hs => ?_
  refine check_keeps failAt_keeps fun _ => check_keeps failAt_keeps fun _ => ?_
  dsimp only
  split
  · exact check_keeps failAt_keeps fun _ => bind_keeps (set_keeps (setEmb_keeps (clearRegion_keeps (draw_keeps hs))))
      fun _ =>
      pure_keeps
  · exact failAt_keeps

theorem execTableOpen_keeps (h : Keeps r s) {q e} : Answers r (queueOk q) (execTableOpen q e s) := by
  refine cmdRow_keeps h fun c s t hs e => ?_
  split at e
  · exact Option.some.inj e ▸ failCmd_keeps hs
  · split_ifs at e
    · exact Option.some.inj e ▸ failCmd_keeps hs
    · exact Option.some.inj e ▸ failCmd_keeps hs
    · exact runService_keeps hs openWork_keeps e

theorem closeWork_keeps {hc c p id t₁ x} : EngKeeps r (closeWork hc c p id t₁ x) := by
  unfold closeWork
  grind (gen := 20) [bind_keeps, pure_keeps, get_keeps, modify_keeps, forM_keeps, foldlState_keeps,
    abortRowMove_keeps, evictWay_keeps, slotOk_keeps, setEmb_keeps]

theorem execTableClose_keeps (h : Keeps r s) {q e hc} : Answers r (queueOk q) (execTableClose q e hc s) := by
  grind [execTableClose, embedRow_keeps, closeWork_keeps]

end Sys2Proof.Proofs.Keeping
end

section
/-! SUPPORT. What resets keep (15 R426 to R429; 16 R452). -/
namespace Sys2Proof.Proofs.Keeping
open Sys2Proof Machine Safety Laws
-- One proof at a time: they all cite one another, and proofs that wait would each hold a thread.
set_option Elab.async false

variable {r s t : State}

theorem raiseAlert_keeps (h : Keeps r s) {b} : Keeps r (raiseAlert s b) := by
  grind [raiseAlert, emit_keeps, setPower_keeps]
theorem requestCycle_keeps (h : Keeps r s) : Keeps r (requestCycle s) := by
  grind [requestCycle, raiseAlert_keeps, setPower_keeps]
theorem releasePackets_keeps (h : Keeps r s) {f} : Keeps r (releasePackets s f) := by
  grind [releasePackets, foldlState_keeps, takeUnfinished_keeps, noteDrained_keeps, finishSource_keeps,
    logRecord_keeps]
theorem dropHeld_keeps (h : Keeps r s) {f} : Keeps r (dropHeld s f) := by
  grind [dropHeld, getD_keeps, setSync_keeps, setXbar_keeps]
theorem cancelActive_keeps (h : Keeps r s) {f st} : Keeps r (cancelActive s f st) := by
  grind [cancelActive, foldlState_keeps, cancelCommand_keeps]

theorem clearCtx_keeps (h : Keeps r s) {c} : Keeps r (clearCtx s c) := by
  unfold clearCtx
  grind (gen := 40) (splits := 40) (ematch := 20) (instances := 5000) [foldlState_keeps, stopRun_keeps,
    dropHeld_keeps, cancelActive_keeps, setWork_keeps, setXlt_keeps, settle_keeps, releasePackets_keeps]

theorem markCtx_keeps (h : Keeps r s) {c b} : Keeps r (markCtx s c b) := by
  grind [markCtx, setXlt_keeps]

theorem clearSconce_keeps (h : Keeps r s) {sc} : Keeps r (clearSconce s sc) := by
  unfold clearSconce
  grind (gen := 40) (splits := 40) (ematch := 20) (instances := 5000) [getD_keeps, foldlState_keeps, mk_keeps,
    stopRun_keeps, dropHeld_keeps, releasePackets_keeps, setWork_keeps, setSync_keeps, setXbar_keeps, setXlt_keeps,
    settle_keeps, setSconce_keeps]

theorem clearCopy_keeps (h : Keeps r s) {n f} : Keeps r (clearCopy s n f) := by
  grind [clearCopy, releasePackets_keeps, cancelActive_keeps, setWork_keeps, setXlt_keeps]
theorem markSconce_keeps (h : Keeps r s) {sc} : Keeps r (markSconce s sc) := by
  grind [markSconce, setSconce_keeps]
theorem markCopy_keeps (h : Keeps r s) {n} : Keeps r (markCopy s n) := by
  grind [markCopy, setWork_keeps]
theorem closeTable_keeps (h : Keeps r s) {id t₁} : Keeps r (closeTable s id t₁) := by
  grind [closeTable, foldlState_keeps, abortRowMove_keeps, runEng_keeps, evictWay_keeps, setEmb_keeps]

theorem clearPart_keeps (h : Keeps r s) {p} : Keeps r (clearPart s p) := by
  unfold clearPart
  grind (gen := 40) (splits := 40) (ematch := 20) (instances := 5000) [foldlState_keeps, closeTable_keeps,
    cancelQueue_keeps, clearCtx_keeps, clearSconce_keeps, freePlan_keeps, stopRun_keeps, enterAborted_keeps,
    settle_keeps, setSync_keeps, disableQueue_keeps, dropCtx_keeps]

theorem markPart_keeps (h : Keeps r s) {p} : Keeps r (markPart s p) := by
  grind [markPart, foldlState_keeps, markSconce_keeps, setWork_keeps]
theorem applySpares_keeps (h : Keeps r s) {extra} : Keeps r (applySpares s extra) := by
  grind [applySpares, foldlState_keeps, setSconce_keeps]
theorem marginScreen_keeps (h : Keeps r s) {n} : Keeps r (marginScreen s n) :=
  setReg_keeps (mk_keeps (foldlState_keeps h fun _ _ hu => logErr_keeps hu) id (fun _ => wf_nil) (fun _ => wf_nil) id)
theorem trainAll_keeps (h : Keeps r s) {retrain} : Keeps r (trainAll s retrain) := by
  grind [trainAll, foldlState_keeps, setPower_keeps]
theorem nextSweep_keeps (h : Keeps r s) : Keeps r (nextSweep s) := by
  grind [nextSweep, startSweep_keeps, setDir_keeps]

theorem clearCompute_keeps (h : Keeps r s) {retrain margin} : Keeps r (clearCompute s retrain margin) := by
  unfold clearCompute
  grind (gen := 20) [foldlState_keeps, mk_keeps, clearPart_keeps, clearSconce_keeps, clearCopy_keeps, endShoot_keeps,
    setXlt_keeps, applyOffsets_keeps, selectClass_keeps, readUserArea_keeps, nextSweep_keeps, setDir_keeps,
    trainAll_keeps, marginScreen_keeps, applySpares_keeps]

theorem beginDump_keeps (h : Keeps r s) {cause st sensor temp} : Keeps r (beginDump s cause st sensor temp) := by
  grind [beginDump, mk_keeps, setLamp_keeps, setHost_keeps]
theorem setResetStat_keeps (h : Keeps r s) {busy level st target} : Keeps r (setResetStat s busy level st target) :=
    by
  grind [setResetStat, setReg_keeps]

theorem resetActs_keeps (h : Keeps r s) {level target retrain margin} : Keeps r (resetActs s level target retrain
    margin) := by
  grind [resetActs, foldlState_keeps, markCtx_keeps, clearCtx_keeps, markSconce_keeps, clearSconce_keeps,
    markCopy_keeps, clearCopy_keeps, markPart_keeps, clearPart_keeps, clearCompute_keeps]

theorem startReset_keeps (h : Keeps r s) {level target retrain margin} {acts : State → State}
    (ha : ∀ s, Keeps r s → Keeps r (acts s)) : Keeps r (startReset s level target retrain margin acts) := by
  grind [startReset, setLamp_keeps, setResetStat_keeps, settle_keeps]
theorem beginReset_keeps (h : Keeps r s) {level target retrain margin} : Keeps r (beginReset s level target retrain
    margin) := by
  grind [beginReset, startReset_keeps, resetActs_keeps]
theorem autoReset_keeps (h : Keeps r s) {level target retrain} : Keeps r (autoReset s level target retrain) := by
  grind [autoReset, requestCycle_keeps, setResetStat_keeps, logRecord_keeps, beginReset_keeps]
theorem endTraining_keeps (h : Keeps r s) : Keeps r (endTraining s) := by
  grind [endTraining, foldlState_keeps, logEvt_keeps, setPower_keeps]

theorem endResets_keeps (h : Keeps r s) : Keeps r (endResets s) := by
  unfold endResets
  extract_lets stays done left reported s1 s2 s3 s4 s5 v s6
  have h1 : Keeps r s1 := setLamp_keeps h rfl rfl rfl id id id
  have h2 : Keeps r s2 := by
    dsimp only [s2]
    split
    exacts [endTraining_keeps h1, h1]
  have h3 : Keeps r s3 := foldlState_keeps h2 fun _ _ hu => by
    split
    exacts [markCtx_keeps hu, hu]
  have h4 : Keeps r s4 := foldlState_keeps h3 fun _ _ hu => by
    split
    exacts [setSconce_keeps hu, hu]
  have h6 : Keeps r s6 := by
    dsimp only [s6]
    split
    exacts [setReg_keeps (setWork_keeps h4), setWork_keeps h4]
  split
  exacts [h, settle_keeps (logEvt_keeps h6)]

theorem resetWrite_keeps (h : Keeps r s) {src v} : Keeps r (resetWrite s src v) := by
  grind [resetWrite, refuse_keeps, requestCycle_keeps, setResetStat_keeps, beginReset_keeps]
theorem resetRow_keeps (h : Keeps r s) {src v level} : Answers r src.ok (resetRow src v level s) := by
  refine onOk_keeps ?_
  grind [resetWrite_keeps]
theorem execContextReset_keeps (h : Keeps r s) {src v} : Answers r (src.ok) (execContextReset src v s) := by
  grind [execContextReset, resetRow_keeps]
theorem execEngineReset_keeps (h : Keeps r s) {src v} : Answers r (src.ok) (execEngineReset src v s) := by
  grind [execEngineReset, resetRow_keeps]
theorem execPartitionReset_keeps (h : Keeps r s) {src v} : Answers r (src.ok) (execPartitionReset src v s) := by
  grind [execPartitionReset, resetRow_keeps]
theorem execComputeReset_keeps (h : Keeps r s) {src v} : Answers r (src.ok) (execComputeReset src v s) := by
  grind [execComputeReset, resetRow_keeps]
theorem execPowerCycleRequest_keeps (h : Keeps r s) {src v} : Answers r (src.ok) (execPowerCycleRequest src v s) := by
  grind [execPowerCycleRequest, resetRow_keeps]

theorem overrun_keeps (h : Keeps r s) {x} : Keeps r (Machine.overrun s x) := by
  unfold Machine.overrun
  extract_lets logged escalated sconces
  have he : Keeps r escalated := setLamp_keeps (logErr_keeps h) rfl rfl rfl id id id
  split_ifs
  exacts [foldlState_keeps he fun _ _ hu => autoReset_keeps hu, autoReset_keeps he, autoReset_keeps he,
    autoReset_keeps he,
    autoReset_keeps he, beginDump_keeps (setResetStat_keeps he)]

theorem execResetOverrun_keeps (h : Keeps r s) {level target} : Answers r (true) (execResetOverrun level target s) :=
    by
  grind [execResetOverrun, next_keeps, settle_keeps, overrun_keeps]
theorem quiesceWrite_keeps (h : Keeps r s) {src sc on} : Keeps r (quiesceWrite s src sc on) := by
  grind [quiesceWrite, pfOnly_keeps, setSconce_keeps]
theorem execQuiesce_keeps (h : Keeps r s) {src sc on} : Answers r (src.ok && sconceOk sc) (execQuiesce src sc on s) :=
    by
  grind [execQuiesce, onOk_keeps, settle_keeps, quiesceWrite_keeps]
theorem sconceResetWrite_keeps (h : Keeps r s) {src sc} : Keeps r (sconceResetWrite s src sc) := by
  grind [sconceResetWrite, pfOnly_keeps, beginReset_keeps]
theorem execSconceReset_keeps (h : Keeps r s) {src sc} : Answers r (src.ok && sconceOk sc) (execSconceReset src sc s)
    := by
  grind [execSconceReset, onOk_keeps, sconceResetWrite_keeps]
theorem execShootdownOverrun_keeps (h : Keeps r s) {id eng} : Answers r (eng.ok) (execShootdownOverrun id eng s) := by
  grind [execShootdownOverrun, onOk_keeps, logErr_keeps, setXlt_keeps, autoReset_keeps]
theorem replayStream_keeps (h : Keeps r s) {q a} : Keeps r (replayStream s q a) := by
  grind [replayStream, setWork_keeps]

theorem suspectReplay_keeps (h : Keeps r s) {n st guilty} : Keeps r (suspectReplay s n st guilty) := by
  unfold suspectReplay
  grind (gen := 20) [foldlState_keeps, logRecord_keeps, startReset_keeps, replayStream_keeps, markCopy_keeps,
    clearCopy_keeps, logErr_keeps, setReg_keeps, cancelCommand_keeps, settle_keeps, logEvt_keeps, bump_keeps]

theorem execCopyEngineHang_keeps (h : Keeps r s) {eng internal guilty} : Answers r (copyOk eng) (execCopyEngineHang
    eng internal guilty s) := by
  grind [execCopyEngineHang, onOk_keeps, suspectReplay_keeps]
theorem fatalStop_keeps (h : Keeps r s) {cause sensor temp} : Keeps r (fatalStop s cause sensor temp) := by
  grind [fatalStop, logRecord_keeps, raiseAlert_keeps, setLamp_keeps, beginDump_keeps]
theorem execFatalStop_keeps (h : Keeps r s) {cause} : Answers r (true) (execFatalStop cause s) := by
  grind [execFatalStop, next_keeps, fatalStop_keeps]

end Sys2Proof.Proofs.Keeping
end

section
/-! SUPPORT. What retraining keeps (16 R454 to R456). -/
namespace Sys2Proof.Proofs.Keeping
open Sys2Proof Machine Safety Laws
-- One proof at a time: they all cite one another, and proofs that wait would each hold a thread.
set_option Elab.async false

variable {r s t : State}

theorem setStack_keeps (h : Keeps r s) {d f} : Keeps r (setStack s d f) := by
  grind [setStack, setPower_keeps]
theorem setCap_keeps (h : Keeps r s) {c f} : Keeps r (setCap s c f) := by
  grind [setCap, setPower_keeps]
theorem countSymbols_keeps (h : Keeps r s) {pg a__internal_hyg0} : Keeps r (countSymbols s pg a__internal_hyg0) := by
  unfold countSymbols
  grind (gen := 20) [bump_keeps]
theorem dueDie_keeps (h : Keeps r s) {d} : Keeps r (dueDie s d) := by
  grind [dueDie, setStack_keeps]
theorem dueChannel_keeps (h : Keeps r s) {c} : Keeps r (dueChannel s c) := by
  grind [dueChannel, setCap_keeps]
theorem execDieRetrainDue_keeps (h : Keeps r s) {die why} : Answers r (dieOk die) (execDieRetrainDue die why s) := by
  grind [execDieRetrainDue, onOk_keeps, countSymbols_keeps, dueDie_keeps]
theorem execChannelRetrainDue_keeps (h : Keeps r s) {ch why} : Answers r (channelOk ch) (execChannelRetrainDue ch why
    s) := by
  grind [execChannelRetrainDue, onOk_keeps, countSymbols_keeps, dueChannel_keeps]
theorem execDieTrainingStart_keeps (h : Keeps r s) {die} : Answers r (dieOk die) (execDieTrainingStart die s) := by
  grind [execDieTrainingStart, onOk_keeps, setStack_keeps]
theorem trainFail_keeps (h : Keeps r s) {pg n} {set : State → (Training → Training) → State}
    (hs : ∀ s f, Keeps r s → Keeps r (set s f)) : Keeps r (trainFail s pg n set) := by
  grind [trainFail, logErr_keeps, autoReset_keeps]
theorem execDieReady_keeps (h : Keeps r s) {die ok temp} : Answers r (dieOk die) (execDieReady die ok temp s) := by
  grind [execDieReady, onOk_keeps, settle_keeps, logEvt_keeps, setStack_keeps, trainFail_keeps]
theorem nextChannel_keeps (h : Keeps r s) {g} : Keeps r (nextChannel s g) := by
  grind [nextChannel, setCap_keeps]
theorem execChannelReady_keeps (h : Keeps r s) {ch ok} : Answers r (channelOk ch) (execChannelReady ch ok s) := by
  grind [execChannelReady, onOk_keeps, settle_keeps, nextChannel_keeps, logEvt_keeps, setCap_keeps, trainFail_keeps]
theorem retrainWrite_keeps (h : Keeps r s) {src page v} : Keeps r (retrainWrite s src page v) := by
  grind [retrainWrite, pfOnly_keeps, dueDie_keeps, dueChannel_keeps]
theorem execRetrainCmd_keeps (h : Keeps r s) {src page v} : Answers r (src.ok && pageOk page) (execRetrainCmd src page
    v s) := by
  grind [execRetrainCmd, onOk_keeps, retrainWrite_keeps]

end Sys2Proof.Proofs.Keeping
end

section
/-! SUPPORT. What rebuilds keep (15 R432 to R437). -/
namespace Sys2Proof.Proofs.Keeping
open Sys2Proof Machine Safety Laws
-- One proof at a time: they all cite one another, and proofs that wait would each hold a thread.
set_option Elab.async false

variable {r s t : State}

theorem startRebuild_keeps (h : Keeps r s) {r₁} : Keeps r (startRebuild s r₁) := by
  grind [startRebuild, setStore_keeps]
theorem execRebuildSend_keeps (h : Keeps r s) {q e} : Answers r (queueOk q) (execRebuildSend q e s) := by
  grind [execRebuildSend, cmdRow_keeps, failCmd_keeps, startRebuild_keeps]
theorem markLost_keeps (h : Keeps r s) {xs} : Keeps r (markLost s xs) := by
  grind [markLost, foldlState_keeps, blockSet_keeps]
theorem execRebuildReceive_keeps (h : Keeps r s) {q e} : Answers r (queueOk q) (execRebuildReceive q e s) := by
  grind [execRebuildReceive, getD_keeps, cmdRow_keeps, failCmd_keeps, startRebuild_keeps, markLost_keeps,
    hubSet_keeps]
theorem mirrorAfter_keeps (h : Keeps r s) {r₁ x} : Keeps r (mirrorAfter s r₁ x) := by
  grind [mirrorAfter, getD_keeps, setStore_keeps]
theorem execRebuildSendDone_keeps (h : Keeps r s) : Answers r (true) (execRebuildSendDone s) := by
  grind [execRebuildSendDone, foldlState_keeps, next_keeps, settle_keeps, finishRebuild_keeps, mirrorAfter_keeps]
theorem execRebuildStall_keeps (h : Keeps r s) : Answers r (true) (execRebuildStall s) := by
  grind [execRebuildStall, next_keeps, settle_keeps, finishRebuild_keeps]
theorem lostWrite_keeps (h : Keeps r s) {src v} : Keeps r (lostWrite s src v) := by
  grind [lostWrite, pfOnly_keeps, markLost_keeps]
theorem execLostCmd_keeps (h : Keeps r s) {src v} : Answers r (src.ok) (execLostCmd src v s) := by
  grind [execLostCmd, onOk_keeps, lostWrite_keeps]

end Sys2Proof.Proofs.Keeping
end

section
/-! SUPPORT. What lanes, ports and light keep (04 R101 to R116). -/
namespace Sys2Proof.Proofs.Keeping
open Sys2Proof Machine Safety Laws
-- One proof at a time: they all cite one another, and proofs that wait would each hold a thread.
set_option Elab.async false

variable {r s t : State}

theorem setLane_keeps (h : Keeps r s) {n k f} : Keeps r (setLane s n k f) := by
  grind [setLane, setPort_keeps]
theorem portFail_keeps (h : Keeps r s) {n b k} : Keeps r (portFail s n b k) := by
  grind [portFail, logErr_keeps]
theorem refreshPort_keeps (h : Keeps r s) {n} : Keeps r (refreshPort s n) := by
  grind [refreshPort, setPort_keeps, emit_keeps, portFail_keeps]
theorem lanesChanged_keeps (h : Keeps r s) {n} : Keeps r (lanesChanged s n) := by
  grind [lanesChanged, refreshPort_keeps, setPort_keeps]
theorem tuneLane_keeps (h : Keeps r s) {n k} : Keeps r (tuneLane s n k) := by
  grind [tuneLane, setLane_keeps, logErr_keeps]
theorem tunePort_keeps (h : Keeps r s) {n} : Keeps r (tunePort s n) := by
  grind [tunePort, foldlState_keeps, setPort_keeps, lanesChanged_keeps, tuneLane_keeps]
theorem nextWaiting_keeps (h : Keeps r s) {n} : Keeps r (nextWaiting s n) := by
  grind [nextWaiting, setLane_keeps]
theorem failLane_keeps (h : Keeps r s) {n k} : Keeps r (failLane s n k) := by
  grind [failLane, setLane_keeps, lanesChanged_keeps, nextWaiting_keeps, portFail_keeps]
theorem startRetrain_keeps (h : Keeps r s) {n k command mine} : Keeps r (startRetrain s n k command mine) := by
  grind [startRetrain, failLane_keeps, setLane_keeps, logEvt_keeps, setPort_keeps, lanesChanged_keeps]
theorem retrainIf_keeps (h : Keeps r s) {n k c} : Keeps r (retrainIf s n k c) := by
  grind [retrainIf, startRetrain_keeps]

theorem execTrainingAttempt_keeps (h : Keeps r s) {port lane tx rx} : Answers r (portOk port && laneOk lane)
    (execTrainingAttempt port lane tx rx s) := by
  grind [execTrainingAttempt, onOk_keeps, setLane_keeps, setPort_keeps, lanesChanged_keeps, nextWaiting_keeps,
    logEvt_keeps]

theorem execTrainingBoundMiss_keeps (h : Keeps r s) {port lane} : Answers r (portOk port && laneOk lane)
    (execTrainingBoundMiss port lane s) := by
  grind [execTrainingBoundMiss, onOk_keeps, failLane_keeps, setLane_keeps]
theorem execNoPeerTimeout_keeps (h : Keeps r s) {port} : Answers r (portOk port) (execNoPeerTimeout port s) := by
  grind [execNoPeerTimeout, onOk_keeps, portFail_keeps, setPort_keeps]
theorem execUncorrWindow_keeps (h : Keeps r s) {port lane n} : Answers r (portOk port && laneOk lane)
    (execUncorrWindow port lane n s) := by
  grind [execUncorrWindow, onOk_keeps, retrainIf_keeps]
theorem execSerWindow_keeps (h : Keeps r s) {port lane corrected symbols} : Answers r (portOk port && laneOk lane)
    (execSerWindow port lane corrected symbols s) := by
  grind [execSerWindow, onOk_keeps, retrainIf_keeps]
theorem execRingLockLoss_keeps (h : Keeps r s) {port lane rx top} : Answers r (portOk port && laneOk lane)
    (execRingLockLoss port lane rx top s) := by
  grind [execRingLockLoss, onOk_keeps, setLane_keeps, retrainIf_keeps, portFail_keeps]
theorem execLossOfSignal_keeps (h : Keeps r s) {port lane} : Answers r (portOk port && laneOk lane) (execLossOfSignal
    port lane s) := by
  grind [execLossOfSignal, onOk_keeps, setLane_keeps]
theorem execSignalReturn_keeps (h : Keeps r s) {port lane} : Answers r (portOk port && laneOk lane) (execSignalReturn
    port lane s) := by
  grind [execSignalReturn, onOk_keeps, setLane_keeps]
theorem execSignalLossTimeout_keeps (h : Keeps r s) {port lane} : Answers r (portOk port && laneOk lane)
    (execSignalLossTimeout port lane s) := by
  grind [execSignalLossTimeout, onOk_keeps, retrainIf_keeps]
theorem execActiveMapChange_keeps (h : Keeps r s) {port tx map} : Answers r (portOk port) (execActiveMapChange port tx
    map s) := by
  grind [execActiveMapChange, onOk_keeps, setPort_keeps, refreshPort_keeps, logEvt_keeps]
theorem moveControl_keeps (h : Keeps r s) {n k} : Keeps r (moveControl s n k) := by
  grind [moveControl, setPort_keeps, refreshPort_keeps, logEvt_keeps]
theorem execControlFailover_keeps (h : Keeps r s) {port} : Answers r (portOk port) (execControlFailover port s) := by
  grind [execControlFailover, onOk_keeps, moveControl_keeps]
theorem execControlReturn_keeps (h : Keeps r s) {port} : Answers r (portOk port) (execControlReturn port s) := by
  grind [execControlReturn, onOk_keeps, moveControl_keeps]
theorem portWrite_keeps (h : Keeps r s) {src n on} : Keeps r (portWrite s src n on) := by
  grind [portWrite, pfOnly_keeps, setReg_keeps, setPort_keeps, tunePort_keeps, lanesChanged_keeps]
theorem execPortEnable_keeps (h : Keeps r s) {src port} : Answers r (src.ok && portOk port) (execPortEnable src port
    s) := by
  grind [execPortEnable, onOk_keeps, portWrite_keeps]
theorem execPortDisable_keeps (h : Keeps r s) {src port} : Answers r (src.ok && portOk port) (execPortDisable src port
    s) := by
  grind [execPortDisable, onOk_keeps, portWrite_keeps]
theorem laneCommand_keeps (h : Keeps r s) {src n k cmd} : Keeps r (laneCommand s src n k cmd) := by
  grind [laneCommand, pfOnly_keeps, startRetrain_keeps, setLane_keeps, lanesChanged_keeps, nextWaiting_keeps,
    tuneLane_keeps]
theorem execLaneRetrain_keeps (h : Keeps r s) {src port lane} : Answers r (src.ok && portOk port) (execLaneRetrain src
    port lane s) := by
  grind [execLaneRetrain, onOk_keeps, laneCommand_keeps]
theorem execLaneDisable_keeps (h : Keeps r s) {src port lane} : Answers r (src.ok && portOk port) (execLaneDisable src
    port lane s) := by
  grind [execLaneDisable, onOk_keeps, laneCommand_keeps]
theorem execLaneEnable_keeps (h : Keeps r s) {src port lane} : Answers r (src.ok && portOk port) (execLaneEnable src
    port lane s) := by
  grind [execLaneEnable, onOk_keeps, laneCommand_keeps]
theorem countCells_keeps (h : Keeps r s) {n cells} : Keeps r (countCells s n cells) := by
  grind [countCells, setPort_keeps]
theorem takeHeader_keeps (h : Keeps r s) {n k h₁} : Keeps r (takeHeader s n k h₁) := by
  grind [takeHeader, setPort_keeps, setLane_keeps, startRetrain_keeps]
theorem execCodewordReceive_keeps (h : Keeps r s) {port lane cw} : Answers r (portOk port && laneOk lane)
    (execCodewordReceive port lane cw s) := by
  grind [execCodewordReceive, getD_keeps, onOk_keeps, bump_keeps, setPort_keeps, countCells_keeps, takeHeader_keeps]
theorem setLit_keeps (h : Keeps r s) {a b} : Keeps r (setLit s a b) := by
  grind [setLit, mk_keeps]
theorem switchInput_keeps (h : Keeps r s) : Keeps r (switchInput s) := by
  grind [switchInput, mk_keeps, draw_keeps, applyBoosters_keeps, logEvt_keeps]
theorem loseLight_keeps (h : Keeps r s) : Keeps r (loseLight s) := by
  grind [loseLight, foldlState_keeps, mk_keeps, logErr_keeps, setPort_keeps, lanesChanged_keeps]
theorem regainLight_keeps (h : Keeps r s) : Keeps r (regainLight s) := by
  grind [regainLight, foldlState_keeps, mk_keeps, tunePort_keeps]
theorem autoSwitchover_keeps (h : Keeps r s) {within1s} : Keeps r (autoSwitchover s within1s) := by
  grind [autoSwitchover, mk_keeps, switchInput_keeps, logErr_keeps, setReg_keeps]
theorem execLossOfLight_keeps (h : Keeps r s) {litA litB within1s} : Answers r (true) (execLossOfLight litA litB
    within1s s) := by
  grind [execLossOfLight, next_keeps, setLit_keeps, autoSwitchover_keeps, loseLight_keeps]
theorem execLasersLost_keeps (h : Keeps r s) {litA litB} : Answers r (true) (execLasersLost litA litB s) := by
  grind [execLasersLost, next_keeps, setLit_keeps, loseLight_keeps]
theorem execLightRestored_keeps (h : Keeps r s) {litA litB} : Answers r (true) (execLightRestored litA litB s) := by
  grind [execLightRestored, next_keeps, setLit_keeps, regainLight_keeps, switchInput_keeps]
theorem laserWrite_keeps (h : Keeps r s) {src v} : Keeps r (laserWrite s src v) := by
  grind [laserWrite, pfOnly_keeps, refuse_keeps, regainLight_keeps, switchInput_keeps]
theorem execSwitch_keeps (h : Keeps r s) {src v} : Answers r (src.ok) (execSwitch src v s) := by
  grind [execSwitch, onOk_keeps, laserWrite_keeps]

end Sys2Proof.Proofs.Keeping
end

section
/-! SUPPORT. What the host link keeps (13 R359 to R386). -/
namespace Sys2Proof.Proofs.Keeping
open Sys2Proof Machine Safety Laws
-- One proof at a time: they all cite one another, and proofs that wait would each hold a thread.
set_option Elab.async false

variable {r s t : State}

theorem setLink_keeps (h : Keeps r s) {v} : Keeps r (setLink s v) := by
  grind [setLink, logEvt_keeps, setHost_keeps]
theorem execLinkChange_keeps (h : Keeps r s) {stat} : Answers r (true) (execLinkChange stat s) := by
  grind [execLinkChange, next_keeps, setLink_keeps]
theorem execDlInactiveTimeout_keeps (h : Keeps r s) : Answers r (true) (execDlInactiveTimeout s) := by
  grind [execDlInactiveTimeout, next_keeps, hostDies_keeps]
theorem hostFails_keeps (h : Keeps r s) {a write recorded f} : Keeps r (hostFails s a write recorded f) := by
  grind [hostFails, emit_keeps, hostWriteFails_keeps, bump_keeps, logRecord_keeps]
theorem memRequest_keeps (h : Keeps r s) {addr opc intent payload poison o} : Keeps r (memRequest s addr opc intent
    payload poison o) := by
  grind [memRequest, getD_keeps, hostFails_keeps, runEng_keeps, translate_keeps, submit_keeps]
theorem execMemrd_keeps (h : Keeps r s) {addr metaVal} : Answers r (true) (execMemrd addr metaVal s) := by
  grind [execMemrd, next_keeps, memRequest_keeps]
theorem execMemwr_keeps (h : Keeps r s) {addr metaVal mask data poison} : Answers r (true) (execMemwr addr metaVal
    mask data poison s) := by
  grind [execMemwr, next_keeps, memRequest_keeps]
theorem dropBisnp_keeps (h : Keeps r s) {line} : Keeps r (dropBisnp s line) := by
  grind [dropBisnp, setHost_keeps, emit_keeps]
theorem execBirsp_keeps (h : Keeps r s) {line dirty} : Answers r (true) (execBirsp line dirty s) := by
  grind [execBirsp, getD_keeps, next_keeps, orphan_keeps, dropBisnp_keeps, settleDir_keeps, dirAnswer_keeps,
    answer_keeps]
theorem execBisnpTimeout_keeps (h : Keeps r s) {line} : Answers r (true) (execBisnpTimeout line s) := by
  grind [execBisnpTimeout, next_keeps, hostDies_keeps, logErr_keeps]
theorem hostCommand_keeps (h : Keeps r s) {src die revive} : Keeps r (hostCommand s src die revive) := by
  grind [hostCommand, getD_keeps, pfOnly_keeps, hostDies_keeps, setHost_keeps]
theorem execDeclareDead_keeps (h : Keeps r s) {src} : Answers r (src.ok) (execDeclareDead src s) := by
  grind [execDeclareDead, onOk_keeps, hostCommand_keeps]
theorem execRevive_keeps (h : Keeps r s) {src} : Answers r (src.ok) (execRevive src s) := by
  grind [execRevive, onOk_keeps, hostCommand_keeps]
theorem sweepWrite_keeps (h : Keeps r s) {src agent remove} : Keeps r (sweepWrite s src agent remove) := by
  grind [sweepWrite, pfOnly_keeps, startSweep_keeps]
theorem execDeadSweep_keeps (h : Keeps r s) {src agent} : Answers r (src.ok) (execDeadSweep src agent s) := by
  grind [execDeadSweep, onOk_keeps, sweepWrite_keeps]
theorem execRemoveSweep_keeps (h : Keeps r s) {src agent} : Answers r (src.ok) (execRemoveSweep src agent s) := by
  grind [execRemoveSweep, onOk_keeps, sweepWrite_keeps]
theorem execSweepEnd_keeps (h : Keeps r s) : Answers r (true) (execSweepEnd s) := by
  grind [execSweepEnd, next_keeps, nextSweep_keeps, logEvt_keeps, setDir_keeps]
theorem cacheWrite_keeps (h : Keeps r s) {src v} : Keeps r (cacheWrite s src v) := by
  grind [cacheWrite, pfOnly_keeps, setDir_keeps, refuse_keeps, nextSweep_keeps]
theorem execCwinCacheClear_keeps (h : Keeps r s) {src v} : Answers r (src.ok) (execCwinCacheClear src v s) := by
  grind [execCwinCacheClear, onOk_keeps, cacheWrite_keeps]
theorem execHdmCommit_keeps (h : Keeps r s) {n base size coherent ways} : Answers r (true) (execHdmCommit n base size
    coherent ways s) := by
  grind [execHdmCommit, next_keeps, setHost_keeps, logErr_keeps]
theorem execFunctionLevelReset_keeps (h : Keeps r s) {n} : Answers r (true) (execFunctionLevelReset n s) := by
  grind [execFunctionLevelReset, next_keeps, autoReset_keeps, setHost_keeps]
theorem resetHostLink_keeps (h : Keeps r s) : Keeps r (resetHostLink s) := by
  unfold resetHostLink
  grind (gen := 20) [foldlState_keeps, setHost_keeps, setXlt_keeps, stopQueue_keeps, hostDies_keeps, setLink_keeps]
theorem execHostLinkReset_keeps (h : Keeps r s) {perst} : Answers r (true) (execHostLinkReset perst s) := by
  grind [execHostLinkReset, next_keeps, resetHostLink_keeps, setHost_keeps, setPower_keeps]
theorem execPerstRelease_keeps (h : Keeps r s) : Answers r (true) (execPerstRelease s) := by
  grind [execPerstRelease, next_keeps, setHost_keeps, setPower_keeps]
theorem execConfigRequest_keeps (h : Keeps r s) {fn write off v} : Answers r (true) (execConfigRequest fn write off v
    s) := by
  grind [execConfigRequest, next_keeps, emit_keeps, setHost_keeps, draw_keeps]

theorem execReservoirBarAccess_keeps (h : Keeps r s) {src off len write} : Answers r (src.ok) (execReservoirBarAccess
    src off len write s) := by
  grind [execReservoirBarAccess, getD_keeps, onOk_keeps, emit_keeps, logRecord_keeps, reservoirWrite_keeps,
    logErr_keeps]

theorem execForwardWrite_keeps (h : Keeps r s) {src slot off data} : Answers r (src.ok) (execForwardWrite src slot off
    data s) := by
  grind [execForwardWrite, foldlState_keeps, onOk_keeps, sendNew_keeps]
theorem execForwardRead_keeps (h : Keeps r s) {src slot off len} : Answers r (src.ok) (execForwardRead src slot off
    len s) := by
  grind [execForwardRead, onOk_keeps, emit_keeps, sendNew_keeps]
theorem freeAnswer_keeps (h : Keeps r s) {op known} : Keeps r (freeAnswer s op known) := by
  grind [freeAnswer, draw_keeps, emit_keeps]
theorem execIdentifyMemoryDevice_keeps (h : Keeps r s) : Answers r (true) (execIdentifyMemoryDevice s) := by
  grind [execIdentifyMemoryDevice, next_keeps, freeAnswer_keeps]
theorem execGetSupportedLogs_keeps (h : Keeps r s) : Answers r (true) (execGetSupportedLogs s) := by
  grind [execGetSupportedLogs, next_keeps, freeAnswer_keeps]
theorem execGetLog_keeps (h : Keeps r s) {id off len} : Answers r (true) (execGetLog id off len s) := by
  grind [execGetLog, next_keeps, freeAnswer_keeps]
theorem execGetEventRecords_keeps (h : Keeps r s) {log} : Answers r (true) (execGetEventRecords log s) := by
  grind [execGetEventRecords, next_keeps, emit_keeps]
theorem execClearEventRecords_keeps (h : Keeps r s) {log n} : Answers r (true) (execClearEventRecords log n s) := by
  grind [execClearEventRecords, next_keeps, emit_keeps, setHost_keeps]
theorem execGetHealthInfo_keeps (h : Keeps r s) : Answers r (true) (execGetHealthInfo s) := by
  grind [execGetHealthInfo, next_keeps, freeAnswer_keeps]
theorem execMailboxUnsupported_keeps (h : Keeps r s) {opcode} : Answers r (true) (execMailboxUnsupported opcode s) :=
    by
  grind [execMailboxUnsupported, next_keeps, emit_keeps]
theorem refreshIde_keeps (h : Keeps r s) : Keeps r (refreshIde s) := by
  grind [refreshIde, setLink_keeps]
theorem execDoeRequest_keeps (h : Keeps r s) {req} : Answers r (true) (execDoeRequest req s) := by
  unfold execDoeRequest
  grind (gen := 20) [next_keeps, emit_keeps, setHost_keeps, refreshIde_keeps]

end Sys2Proof.Proofs.Keeping
end

section
/-! SUPPORT. What error records and the ring writer keep (15 R413 to R418). -/
namespace Sys2Proof.Proofs.Keeping
open Sys2Proof Machine Safety Laws
-- One proof at a time: they all cite one another, and proofs that wait would each hold a thread.
set_option Elab.async false

variable {r s t : State}

theorem writeRecord_keeps (h : Keeps r s) {island} : Keeps r (writeRecord s island) := by
  grind [writeRecord, setErrs_keeps, setReg_keeps]
theorem execErrorRecordWrite_keeps (h : Keeps r s) {island} : Answers r (true) (execErrorRecordWrite island s) := by
  grind [execErrorRecordWrite, next_keeps, writeRecord_keeps]
theorem setExport_keeps (h : Keeps r s) {p f} : Keeps r (setExport s p f) := by
  grind [setExport, setErrs_keeps]
theorem dropExport_keeps (h : Keeps r s) {p n} : Keeps r (dropExport s p n) := by
  grind [dropExport, bump_keeps]
theorem skipLost_keeps (h : Keeps r s) {p} : Keeps r (skipLost s p) := by
  grind [skipLost, setExport_keeps, dropExport_keeps]

theorem exportRecord_keeps (h : Keeps r s) {p hc} : Keeps r (exportRecord s p hc) := by
  unfold exportRecord
  grind (gen := 20) [skipLost_keeps, setExport_keeps, logEvt_keeps, dropExport_keeps, runEng_keeps, writeHost_keeps,
    writeDva_keeps, sendCntAdd_keeps, emit_keeps]

theorem execRecordExport_keeps (h : Keeps r s) {part hc} : Answers r (true) (execRecordExport part hc s) := by
  grind [execRecordExport, next_keeps, exportRecord_keeps]

theorem sendBeacon_keeps (h : Keeps r s) : Keeps r (sendBeacon s) := by
  have hb : Keeps r (s.setLamp (fun l => { l with beacon := l.beacon + 1 })) := setLamp_keeps h rfl rfl rfl id id id
  unfold sendBeacon
  dsimp only
  refine foldlState_keeps (foldlState_keeps ?_ fun _ _ hu => ?_) fun _ _ hu => emit_keeps hu
  · split
    exacts [emit_keeps (hostMem_keeps hb hb), hb]
  · split
    exacts [emit_keeps hu, hu]

theorem execBeacon_keeps (h : Keeps r s) : Answers r (true) (execBeacon s) := by
  unfold execBeacon
  split <;> grind (gen := 20) [next_keeps, sendBeacon_keeps]

end Sys2Proof.Proofs.Keeping
end

section
/-! SUPPORT. What accesses to registers keep (17 R471 to R485). -/
namespace Sys2Proof.Proofs.Keeping
open Sys2Proof Machine Safety Laws
-- One proof at a time: they all cite one another, and proofs that wait would each hold a thread.
set_option Elab.async false

variable {r s t : State}

theorem stateOf_keeps (h : Keeps r s) {ok o} (ho : Answers r ok o) : Keeps r (stateOf o s) := by
  obtain ⟨t, ht, rfl⟩ := ho
  cases ok
  · exact h
  · exact ht

theorem setSession_keeps (h : Keeps r s) {k f} : Keeps r (setSession s k f) := by
  grind [setSession, setMon_keeps]
theorem lockWrite_keeps (h : Keeps r s) {src v} : Keeps r (lockWrite s src v) := by
  grind [lockWrite, pfOnly_keeps, holdWrite_keeps, setSession_keeps]
theorem execMonCmdLock_keeps (h : Keeps r s) {src v} : Answers r (src.ok) (execMonCmdLock src v s) := by
  grind [execMonCmdLock, onOk_keeps, lockWrite_keeps]
theorem opkeyWrite_keeps (h : Keeps r s) {src v} : Keeps r (opkeyWrite s src v) := by
  grind [opkeyWrite, pfOnly_keeps, holdWrite_keeps, lastDone_keeps, setMon_keeps]
theorem execOpkeyCmd_keeps (h : Keeps r s) {src v} : Answers r (src.ok) (execOpkeyCmd src v s) := by
  grind [execOpkeyCmd, onOk_keeps, opkeyWrite_keeps]
theorem execOpkeyStored_keeps (h : Keeps r s) : Answers r (true) (execOpkeyStored s) := by
  grind [execOpkeyStored, next_keeps, setMon_keeps]
theorem unmaskWrite_keeps (h : Keeps r s) {src v} : Keeps r (unmaskWrite s src v) := by
  grind [unmaskWrite, pfOnly_keeps, setPower_keeps]
theorem execPinUnmask_keeps (h : Keeps r s) {src v} : Answers r (src.ok) (execPinUnmask src v s) := by
  grind [execPinUnmask, onOk_keeps, unmaskWrite_keeps]

theorem commandWrite_keeps (h : Keeps r s) {src p rel v} : Keeps r (commandWrite s src p rel v) := by
  unfold commandWrite
  extract_lets f
  split
  · exact resetWrite_keeps h
  · exact calCmd_keeps h
  · exact classWrite_keeps h
  · exact unmaskWrite_keeps h
  · exact hostCommand_keeps h
  · split
    exacts [sweepWrite_keeps h, h]
  · split
    · exact stateOf_keeps h (execPrepare_keeps h)
    · exact stateOf_keeps h (execCommit_keeps h)
    · exact stateOf_keeps h (execRetire_keeps h)
    · exact h
  · exact ownCmd_keeps h
  · exact snuffWrite_keeps h
  · exact shootCmd_keeps h
  · exact slotCmd_keeps h
  · exact lostWrite_keeps h
  · exact snapWrite_keeps h
  · exact lockWrite_keeps h
  · exact opkeyWrite_keeps h
  · split_ifs
    exacts [setReg_keeps h, laneCommand_keeps h, laserWrite_keeps h, retrainWrite_keeps h, h]

theorem put_keeps (h : Keeps r s) {p rel v} : Keeps r (put s p rel v) := by
  grind [put, setReg_keeps]
theorem exportWrite_keeps (h : Keeps r s) {src rel v} : Keeps r (exportWrite s src rel v) := by
  unfold exportWrite
  grind (gen := 20) [setExport_keeps]
theorem rangeWrite_keeps (h : Keeps r s) {src v} : Keeps r (rangeWrite s src v) := by
  grind [rangeWrite, refuse_keeps, setDir_keeps]
theorem dirWrite_keeps (h : Keeps r s) {src rel v} : Keeps r (dirWrite s src rel v) := by
  grind [dirWrite, rangeWrite_keeps, cacheWrite_keeps, setDir_keeps]
theorem timerWrite_keeps (h : Keeps r s) {p rel v} : Keeps r (timerWrite s p rel v) := by
  grind [timerWrite, refuse_keeps, put_keeps]
theorem winCtxWrite_keeps (h : Keeps r s) {src v} : Keeps r (winCtxWrite s src v) := by
  grind [winCtxWrite, refuse_keeps, setHost_keeps]

theorem workWrite_keeps (h : Keeps r s) {src rel v} : Keeps r (workWrite s src rel v) := by
  unfold workWrite
  extract_lets p q
  split
  · split
    exacts [refuse_keeps h, setWork_keeps h]
  · split
    exacts [refuse_keeps h, setWork_keeps h]
  · exact setWork_keeps h
  · exact setWork_keeps h
  · exact setWork_keeps h
  · exact setWork_keeps h
  · exact setQueue_keeps h
  · exact setQueue_keeps h
  · exact stateOf_keeps h (execQEnable_keeps h)
  · exact setQueue_keeps h

theorem shareWrite_keeps (h : Keeps r s) {rel v} : Keeps r (shareWrite s rel v) := by
  grind [shareWrite, put_keeps, refuse_keeps]
theorem mirrorWrite_keeps (h : Keeps r s) {src rel v} : Keeps r (mirrorWrite s src rel v) := by
  grind [mirrorWrite, setStore_keeps]
theorem plcWrite_keeps (h : Keeps r s) {src rel v} : Keeps r (plcWrite s src rel v) := by
  unfold plcWrite
  grind (gen := 20) [poolWrite_keeps, refuse_keeps, put_keeps, mirrorWrite_keeps]
theorem cellsWrite_keeps (h : Keeps r s) {n rel v} : Keeps r (cellsWrite s n rel v) := by
  grind [cellsWrite, logErr_keeps, put_keeps]
theorem lntWrite_keeps (h : Keeps r s) {src n rel v} : Keeps r (lntWrite s src n rel v) := by
  unfold lntWrite
  grind (gen := 20) [portWrite_keeps, put_keeps, cellsWrite_keeps]
theorem scnWrite_keeps (h : Keeps r s) {src sc rel v} : Keeps r (scnWrite s src sc rel v) := by
  unfold scnWrite
  grind (gen := 20) [quiesceWrite_keeps, sconceResetWrite_keeps, put_keeps]

theorem rwWrite_keeps (h : Keeps r s) {src p rel v} : Keeps r (rwWrite s src p rel v) := by
  have hput : Keeps r (put s p rel v) := put_keeps h
  unfold rwWrite
  split
  · exact withVectors_keeps hput
  · split
    · exact h
    · split
      · exact setReg_keeps h
      · split
        · split
          exacts [refuse_keeps h, hput]
        · split
          exacts [hput, exportWrite_keeps h]
        · split_ifs
          exacts [timerWrite_keeps h, winCtxWrite_keeps h, hput]
        · exact dirWrite_keeps h
        · split
          exacts [stateOf_keeps h (execRouteData_keeps h), timerWrite_keeps h]
        · exact workWrite_keeps h
        · exact shareWrite_keeps h
        · exact plcWrite_keeps h
        · split
          exacts [h, hput]
        · split_ifs
          exacts [lntWrite_keeps h, scnWrite_keeps h, hput]

theorem w1cWrite_keeps (h : Keeps r s) {p rel v} : Keeps r (w1cWrite s p rel v) := by
  grind [w1cWrite, clearErrStat_keeps, put_keeps]
theorem applyWrite_keeps (h : Keeps r s) {src p rel v} : Keeps r (applyWrite s src p rel v) := by
  grind [applyWrite, commandWrite_keeps, w1cWrite_keeps, rwWrite_keeps]
theorem pageWrite_keeps (h : Keeps r s) {src p rel size v} : Keeps r (pageWrite s src p rel size v) := by
  grind [pageWrite, dropWrite_keeps, holdWrite_keeps, applyWrite_keeps]
theorem windowWrite_keeps (h : Keeps r s) {src off size v} : Keeps r (windowWrite s src off size v) := by
  grind [windowWrite, dropWrite_keeps, setReg_keeps]

theorem barWrite_keeps (h : Keeps r s) {src off size v} : Keeps r (barWrite s src off size v) := by
  unfold barWrite
  split
  · exact dropWrite_keeps h
  · split
    · exact pageWrite_keeps h
    · split_ifs
      exacts [windowWrite_keeps h, stateOf_keeps h (execHubCounterWrite_keeps h),
        stateOf_keeps h (execSemaphoreWrite_keeps h), stateOf_keeps h (execLocalCounterWrite_keeps h), h,
        stateOf_keeps h (execForwardWrite_keeps h), dropWrite_keeps h]

theorem execRegisterWrite_keeps (h : Keeps r s) {src off size v} : Answers r (src.ok && barOk off) (execRegisterWrite
    src off size v s) := by
  grind [execRegisterWrite, onOk_keeps, settle_keeps, barWrite_keeps]
theorem execErrStatClear_keeps (h : Keeps r s) {src page v} : Answers r (src.ok && pageOk page) (execErrStatClear src
    page v s) := by
  grind [execErrStatClear, onOk_keeps, pageWrite_keeps]
theorem readClear_keeps (h : Keeps r s) {src off} : Keeps r (readClear s src off).2 := by
  grind [readClear, setReg_keeps]
theorem execRcRead_keeps (h : Keeps r s) {src off} : Answers r (src.ok && barOk off) (execRcRead src off s) := by
  grind [execRcRead, onOk_keeps, emit_keeps, readClear_keeps]

end Sys2Proof.Proofs.Keeping
end

section
/-! SUPPORT. What the Lamplighter's restarts keep (15 R423). -/
namespace Sys2Proof.Proofs.Keeping
open Sys2Proof Machine Safety Laws
-- One proof at a time: they all cite one another, and proofs that wait would each hold a thread.
set_option Elab.async false

variable {r s t : State}

theorem dropHeldWrites_keeps (h : Keeps r s) : Keeps r (dropHeldWrites s) := by
  grind [dropHeldWrites, foldlState_keeps, dropWrite_keeps, setLamp_keeps]
theorem declareHang_keeps (h : Keeps r s) {within10s} : Keeps r (declareHang s within10s) := by
  grind [declareHang, setLamp_keeps, dropHeldWrites_keeps, raiseAlert_keeps, logErr_keeps, draw_keeps]
theorem execWatchdogHang_keeps (h : Keeps r s) {within10s} : Answers r (true) (execWatchdogHang within10s s) := by
  grind [execWatchdogHang, next_keeps, declareHang_keeps]
theorem applyHeldWrites_keeps (h : Keeps r s) : Keeps r (applyHeldWrites s) := by
  grind [applyHeldWrites, foldlState_keeps, applyWrite_keeps, setLamp_keeps]
theorem execLamplighterResume_keeps (h : Keeps r s) : Answers r (true) (execLamplighterResume s) := by
  grind [execLamplighterResume, next_keeps, setLamp_keeps, setMon_keeps, settle_keeps, emit_keeps,
    applyHeldWrites_keeps]

end Sys2Proof.Proofs.Keeping
end

section
/-! SUPPORT. What ember dumps keep (18 R510 to R514). -/
namespace Sys2Proof.Proofs.Keeping
open Sys2Proof Machine Safety Laws
-- One proof at a time: they all cite one another, and proofs that wait would each hold a thread.
set_option Elab.async false

variable {r s t : State}

theorem emberWrite_keeps {c hc dst d} : EngKeeps r (emberWrite c hc dst d) := by
  grind [emberWrite, writeHost_keeps, putBytes_keeps]

theorem execEmberRead_keeps (h : Keeps r s) {q e hc} : Answers r (queueOk q) (execEmberRead q e hc s) := by
  refine cmdRow_keeps h fun c s t hs e => ?_
  dsimp only at e
  split_ifs at e
  · exact Option.some.inj e ▸ failCmd_keeps hs
  · exact Option.some.inj e ▸ failCmd_keeps hs
  · exact Option.some.inj e ▸ failCmd_keeps hs
  · exact engCmd_keeps hs (bind_keeps emberWrite_keeps fun _ => pure_keeps) e

theorem eraseEmber_keeps (h : Keeps r s) {b} : Keeps r (eraseEmber s b) := by
  refine setLamp_keeps h rfl rfl rfl id (fun ha => ?_) fun hb => ?_
  · dsimp only
    split <;> exact ha
  · dsimp only
    split <;> exact hb

end Sys2Proof.Proofs.Keeping
end

section
/-! SUPPORT. What the cold boot keeps (16 R444 to R447). -/
namespace Sys2Proof.Proofs.Keeping
open Sys2Proof Machine Safety Laws
-- One proof at a time: they all cite one another, and proofs that wait would each hold a thread.
set_option Elab.async false

variable {r s t : State}

theorem wipeMain_keeps (h : Keeps r s) : Keeps r (wipeMain s) := by
  refine h.trans ⟨rfl, rfl, fun c => ?_⟩
  rw [canonical_iff] at c ⊢
  obtain ⟨-, hhost, hremote, hspi, ha, hb⟩ := c
  exact ⟨⟨wf_nil, wf_nil, wf_nil, wf_nil, wf_nil⟩, hhost, hremote, hspi, ha, hb⟩

theorem setBootStat_keeps (h : Keeps r s) {image code ms} : Keeps r (setBootStat s image code ms) := by
  unfold setBootStat
  grind (gen := 20) [setReg_keeps]
theorem haltBoot_keeps (h : Keeps r s) {image code step} : Keeps r (haltBoot s image code step) := by
  grind [haltBoot, setBootStat_keeps, raiseAlert_keeps, setLamp_keeps]
theorem seedKeys_keeps (h : Keeps r s) {ks} : Keeps r (seedKeys s ks) := by
  grind [seedKeys, foldlState_keeps, draw_keeps, genSet_keeps]
theorem seedBoot_keeps (h : Keeps r s) : Keeps r (seedBoot s) := by
  grind [seedBoot, foldlState_keeps, seedKeys_keeps, draw_keeps, setEmb_keeps]

theorem bootConfig_keeps (h : Keeps r s) : Keeps r (bootConfig s) := by
  unfold bootConfig
  grind (gen := 20) [getD_keeps, mk_keeps, applyOffsets_keeps, selectClass_keeps, readUserArea_keeps, setReg_keeps,
    setStore_keeps, setKeySlot_keeps, seedBoot_keeps]

theorem bootTraining_keeps (h : Keeps r s) {scan} : Keeps r (bootTraining s scan) := by
  grind [bootTraining, foldlState_keeps, draw_keeps, setPower_keeps]
theorem bootLight_keeps (h : Keeps r s) : Keeps r (bootLight s) := by
  grind [bootLight, switchInput_keeps, loseLight_keeps]
theorem heldRecords_keeps (h : Keeps r s) : Keeps r (heldRecords s) := by
  grind [heldRecords, foldlState_keeps, setPower_keeps, logErr_keeps]

theorem bootBuild_keeps (h : Keeps r s) {scan} : Keeps r (bootBuild s scan) := by
  unfold bootBuild
  grind (gen := 20) [foldlState_keeps, setSconce_keeps, bootTraining_keeps, setStore_keeps, applySpares_keeps,
    bootLight_keeps, applyBoosters_keeps, portWrite_keeps]

theorem coldBoot_keeps (h : Keeps r s) {scan} : Keeps r (coldBoot s scan) := by
  unfold coldBoot
  grind (gen := 40) (splits := 40) (ematch := 20) (instances := 5000) [heldRecords_keeps, wipeMain_keeps,
    haltBoot_keeps, bootConfig_keeps, setStore_keeps, setBootStat_keeps, bootBuild_keeps, setLamp_keeps]

theorem execColdBoot_keeps (h : Keeps r s) {scan} : Answers r (true) (execColdBoot scan s) := by
  grind [execColdBoot, next_keeps, coldBoot_keeps]
theorem execColdBootReady_keeps (h : Keeps r s) : Answers r (true) (execColdBootReady s) := by
  grind [execColdBootReady, next_keeps, settle_keeps, sendBeacon_keeps, setLamp_keeps]

end Sys2Proof.Proofs.Keeping
end

section
/-! SUPPORT. What power and pins keep (19 R519 to R531). -/
namespace Sys2Proof.Proofs.Keeping
open Sys2Proof Machine Safety Laws
-- One proof at a time: they all cite one another, and proofs that wait would each hold a thread.
set_option Elab.async false

variable {r s t : State}

theorem cutDump_keeps (h : Keeps r s) : Keeps r (cutDump s) := by
  grind [cutDump, setLamp_keeps]
theorem powerDown_keeps (h : Keeps r s) {cause} : Keeps r (powerDown s cause) := by
  grind [powerDown, setPower_keeps, wipeMain_keeps, cutDump_keeps]
theorem moduleReset_keeps (h : Keeps r s) {cause} : Keeps r (moduleReset s cause) := by
  grind [moduleReset, setPower_keeps, wipeMain_keeps]
theorem whenDumped_keeps (h : Keeps r s) {cmd} {f : State → State} (hf : ∀ s, Keeps r s → Keeps r (f s)) :
    Keeps r (whenDumped s cmd f) := by
  grind [whenDumped, setPower_keeps]
theorem turnOff_keeps (h : Keeps r s) : Keeps r (turnOff s) := by
  grind [turnOff, setPower_keeps, powerDown_keeps]
theorem turnCycle_keeps (h : Keeps r s) : Keeps r (turnCycle s) := by
  grind [turnCycle, setPower_keeps, powerDown_keeps]
theorem turnReset_keeps (h : Keeps r s) {cause} : Keeps r (turnReset s cause) := by
  grind [turnReset, moduleReset_keeps]
theorem execPowerOn_keeps (h : Keeps r s) : Answers r (true) (execPowerOn s) := by
  grind [execPowerOn, next_keeps, setPower_keeps]
theorem execPowerOff_keeps (h : Keeps r s) : Answers r (true) (execPowerOff s) := by
  grind [execPowerOff, next_keeps, whenDumped_keeps, turnOff_keeps]
theorem execCycle_keeps (h : Keeps r s) : Answers r (true) (execCycle s) := by
  grind [execCycle, next_keeps, whenDumped_keeps, turnCycle_keeps]
theorem execColdReset_keeps (h : Keeps r s) : Answers r (true) (execColdReset s) := by
  grind [execColdReset, next_keeps, whenDumped_keeps, turnReset_keeps]
theorem execI3cComputeReset_keeps (h : Keeps r s) : Answers r (true) (execI3cComputeReset s) := by
  grind [execI3cComputeReset, next_keeps, autoReset_keeps]
theorem execAlertClear_keeps (h : Keeps r s) {v} : Answers r (true) (execAlertClear v s) := by
  grind [execAlertClear, next_keeps, setPower_keeps]
theorem execAlertRepeat_keeps (h : Keeps r s) : Answers r (true) (execAlertRepeat s) := by
  grind [execAlertRepeat, next_keeps, emit_keeps]
theorem execDynamicAddress_keeps (h : Keeps r s) {addr} : Answers r (true) (execDynamicAddress addr s) := by
  grind [execDynamicAddress, next_keeps, setPower_keeps]
theorem execPwrEnHigh_keeps (h : Keeps r s) : Answers r (true) (execPwrEnHigh s) := by
  grind [execPwrEnHigh, next_keeps, setPower_keeps]
theorem execPwrEnLow_keeps (h : Keeps r s) : Answers r (true) (execPwrEnLow s) := by
  grind [execPwrEnLow, next_keeps, setPower_keeps, powerDown_keeps]
theorem execPowerUp_keeps (h : Keeps r s) : Answers r (true) (execPowerUp s) := by
  grind [execPowerUp, next_keeps, setPower_keeps]
theorem execMinOffTimeEnd_keeps (h : Keeps r s) : Answers r (true) (execMinOffTimeEnd s) := by
  grind [execMinOffTimeEnd, next_keeps, setPower_keeps]
theorem execSysResetAssert_keeps (h : Keeps r s) : Answers r (true) (execSysResetAssert s) := by
  grind [execSysResetAssert, next_keeps, whenDumped_keeps, setPower_keeps, turnReset_keeps]
theorem execSysResetRelease_keeps (h : Keeps r s) : Answers r (true) (execSysResetRelease s) := by
  grind [execSysResetRelease, next_keeps, setPower_keeps]
theorem execResetHeld_keeps (h : Keeps r s) {perst} : Answers r (true) (execResetHeld perst s) := by
  grind [execResetHeld, next_keeps, setPower_keeps, raiseAlert_keeps, logErr_keeps]
theorem execCoolantFault_keeps (h : Keeps r s) : Answers r (true) (execCoolantFault s) := by
  grind [execCoolantFault, next_keeps, setPower_keeps, raiseAlert_keeps, logEvt_keeps]
theorem execInputMasked_keeps (h : Keeps r s) {edges} : Answers r (true) (execInputMasked edges s) := by
  grind [execInputMasked, next_keeps, setPower_keeps, logRecord_keeps, logEvt_keeps, raiseAlert_keeps]
theorem execFeedConnect_keeps (h : Keeps r s) : Answers r (true) (execFeedConnect s) := by
  grind [execFeedConnect, next_keeps, setPower_keeps, wipeMain_keeps]
theorem trip_keeps (h : Keeps r s) {cause} : Keeps r (trip s cause) := by
  grind [trip, setPower_keeps, powerDown_keeps]
theorem execInputRangeTrip_keeps (h : Keeps r s) : Answers r (true) (execInputRangeTrip s) := by
  grind [execInputRangeTrip, next_keeps, trip_keeps]
theorem execOvercurrentTrip_keeps (h : Keeps r s) : Answers r (true) (execOvercurrentTrip s) := by
  grind [execOvercurrentTrip, next_keeps, raiseAlert_keeps, trip_keeps]
theorem calibrated_keeps (h : Keeps r s) {n raw} : Keeps r (calibrated s n raw).2 := by
  grind [calibrated, draw_keeps]
theorem sample_keeps (h : Keeps r s) {n raw} : Keeps r (sample s n raw) := by
  grind [sample, getD_keeps, calibrated_keeps, setPower_keeps, raiseAlert_keeps, logEvt_keeps, fatalStop_keeps]
theorem execSensorSample_keeps (h : Keeps r s) {sensor raw} : Answers r (sensorOk sensor) (execSensorSample sensor raw
    s) := by
  grind [execSensorSample, onOk_keeps, sample_keeps]
theorem execSensorFail_keeps (h : Keeps r s) {sensor} : Answers r (sensorOk sensor) (execSensorFail sensor s) := by
  grind [execSensorFail, onOk_keeps, setPower_keeps, logErr_keeps]

theorem writeEmber_keeps (h : Keeps r s) {d ok} : Keeps r (writeEmber s d ok) := by
  have hbytes : Memory.wf (emberOf s d).bytes = true := wf_writes wf_nil
  unfold writeEmber
  extract_lets toB e
  split
  · exact h
  · split
    · exact cutDump_keeps h
    · refine setLamp_keeps h rfl rfl rfl id (fun ha => ?_) fun hb => ?_
      · dsimp only
        split
        exacts [ha, hbytes]
      · dsimp only
        split
        exacts [hbytes, hb]

theorem heldAct_keeps (h : Keeps r s) {c} : Keeps r (heldAct s c) := by
  grind [heldAct, turnOff_keeps, turnCycle_keeps, turnReset_keeps]
theorem releaseHeld_keeps (h : Keeps r s) : Keeps r (releaseHeld s) := by
  grind [releaseHeld, foldlState_keeps, heldAct_keeps, setPower_keeps]
theorem execEmberDump_keeps (h : Keeps r s) {flashOk} : Answers r (true) (execEmberDump flashOk s) := by
  grind [execEmberDump, next_keeps, writeEmber_keeps, releaseHeld_keeps, requestCycle_keeps, setLamp_keeps]

end Sys2Proof.Proofs.Keeping
end

section
/-! SUPPORT. What the monitor keeps (18 R501 to R509). -/
namespace Sys2Proof.Proofs.Keeping
open Sys2Proof Machine Safety Laws
-- One proof at a time: they all cite one another, and proofs that wait would each hold a thread.
set_option Elab.async false

variable {r s t : State}

theorem good_keeps (h : Keeps r s) {body} : Keeps r (good s body).after := by
  grind [good]
theorem bad_keeps (h : Keeps r s) {st} : Keeps r (bad s st).after := by
  grind [bad]
theorem readAll_keeps (h : Keeps r s) {src off n} : Keeps r (readAll s src off n).2 := by
  grind [readAll, foldlState_keeps, readClear_keeps, foldlPair_keeps]
theorem rdCmd_keeps (h : Keeps r s) {k off n} : Keeps r (rdCmd s k off n).after := by
  grind [rdCmd, bad_keeps, readAll_keeps, good_keeps]
theorem wrCmd_keeps (h : Keeps r s) {k off v} : Keeps r (wrCmd s k off v).after := by
  grind [wrCmd, bad_keeps, good_keeps, settle_keeps, barWrite_keeps]
theorem statCmd_keeps (h : Keeps r s) {k} : Keeps r (statCmd s k).after := by
  grind [statCmd, good_keeps]
theorem resetMon_keeps (h : Keeps r s) {k level target} : Keeps r (resetMon s k level target).after := by
  grind [resetMon, bad_keeps, good_keeps, settle_keeps, resetWrite_keeps]
theorem eringCmd_keeps (h : Keeps r s) {seq n} : Keeps r (eringCmd s seq n).after := by
  grind [eringCmd, bad_keeps, good_keeps]
theorem fblobCmd_keeps (h : Keeps r s) : Keeps r (fblobCmd s).after := by
  grind [fblobCmd, good_keeps]
theorem emberListCmd_keeps (h : Keeps r s) : Keeps r (emberListCmd s).after := by
  grind [emberListCmd, good_keeps]
theorem emberReadCmd_keeps (h : Keeps r s) {slot off n} : Keeps r (emberReadCmd s slot off n).after := by
  grind [emberReadCmd, bad_keeps, good_keeps]
theorem emberEraseCmd_keeps (h : Keeps r s) {slot} : Keeps r (emberEraseCmd s slot).after := by
  grind [emberEraseCmd, bad_keeps, good_keeps, eraseEmber_keeps]
theorem spirdCmd_keeps (h : Keeps r s) {off n} : Keeps r (spirdCmd s off n).after := by
  grind [spirdCmd, bad_keeps, good_keeps]
theorem cipherLine_keeps (h : Keeps r s) {l} : Keeps r (cipherLine s l).2 := by
  grind [cipherLine, foldlState_keeps, draw_keeps, foldlPair_keeps]
theorem sardCmd_keeps (h : Keeps r s) {sa n} : Keeps r (sardCmd s sa n).after := by
  grind [sardCmd, foldlState_keeps, bad_keeps, cipherLine_keeps, good_keeps, foldlPair_keeps]
theorem chalCmd_keeps (h : Keeps r s) {k level} : Keeps r (chalCmd s k level).after := by
  grind [chalCmd, mk_keeps, bad_keeps, good_keeps, setSession_keeps]
theorem unlockFailed_keeps (h : Keeps r s) {k} : Keeps r (unlockFailed s k) := by
  grind [unlockFailed, setSession_keeps, logErr_keeps]
theorem ansCmd_keeps (h : Keeps r s) {k i h₁} : Keeps r (ansCmd s k i h₁).after := by
  grind [ansCmd, bad_keeps, setSession_keeps, good_keeps, unlockFailed_keeps]

theorem runMon_keeps (h : Keeps r s) {k a__internal_hyg0} : Keeps r (runMon s k a__internal_hyg0).after := by
  unfold runMon
  grind (gen := 20) [good_keeps, statCmd_keeps, rdCmd_keeps, wrCmd_keeps, eringCmd_keeps, fblobCmd_keeps,
    resetMon_keeps, emberListCmd_keeps, emberReadCmd_keeps, emberEraseCmd_keeps, spirdCmd_keeps, sardCmd_keeps,
    chalCmd_keeps, ansCmd_keeps, setSession_keeps]

theorem monCommand_keeps (h : Keeps r s) {k c} : Keeps r (monCommand s k c).after := by
  grind [monCommand, setSession_keeps, bad_keeps, runMon_keeps, setMon_keeps]
theorem answerTo_keeps (h : Keeps r s) {ss body final} : Keeps r (answerTo s ss body final) := by
  unfold answerTo
  grind (gen := 20) [getD_keeps, emit_keeps, setSession_keeps]

theorem monLine_keeps (h : Keeps r s) {ss} {f : State → Reply} (hf : ∀ s, Keeps r s → Keeps r (f s).after) :
    Answers r ss.ok (monLine ss f s) := by
  refine onOk_keeps ?_
  dsimp only
  split
  · exact h
  · refine answerTo_keeps (hf _ ?_)
    split
    exacts [setMon_keeps h, h]

theorem monRow_keeps (h : Keeps r s) {ss c} : Answers r ss.ok (monRow ss c s) :=
  monLine_keeps h fun _ hs => monCommand_keeps hs
theorem execHelp_keeps (h : Keeps r s) {ss len lost} : Answers r (ss.ok) (execHelp ss len lost s) := by
  grind [execHelp, monLine_keeps, bad_keeps, monCommand_keeps]
theorem execStat_keeps (h : Keeps r s) {ss} : Answers r (ss.ok) (execStat ss s) := by
  grind [execStat, monRow_keeps]
theorem execRd_keeps (h : Keeps r s) {ss off n} : Answers r (ss.ok) (execRd ss off n s) := by
  grind [execRd, monRow_keeps]
theorem execWr_keeps (h : Keeps r s) {ss off v} : Answers r (ss.ok) (execWr ss off v s) := by
  grind [execWr, monRow_keeps]
theorem execEring_keeps (h : Keeps r s) {ss seq n} : Answers r (ss.ok) (execEring ss seq n s) := by
  grind [execEring, monRow_keeps]
theorem execFblob_keeps (h : Keeps r s) {ss} : Answers r (ss.ok) (execFblob ss s) := by
  grind [execFblob, monRow_keeps]
theorem execReset_keeps (h : Keeps r s) {ss level target} : Answers r (ss.ok) (execReset ss level target s) := by
  grind [execReset, monRow_keeps]
theorem execEmberList_keeps (h : Keeps r s) {ss} : Answers r (ss.ok) (execEmberList ss s) := by
  grind [execEmberList, monRow_keeps]
theorem execMonEmberRead_keeps (h : Keeps r s) {ss slot off n} : Answers r (ss.ok) (execMonEmberRead ss slot off n s)
    := by
  grind [execMonEmberRead, monRow_keeps]
theorem execEmberErase_keeps (h : Keeps r s) {ss slot} : Answers r (ss.ok) (execEmberErase ss slot s) := by
  grind [execEmberErase, monRow_keeps]
theorem execSpird_keeps (h : Keeps r s) {ss off n} : Answers r (ss.ok) (execSpird ss off n s) := by
  grind [execSpird, monRow_keeps]
theorem execSard_keeps (h : Keeps r s) {ss sa n} : Answers r (ss.ok) (execSard ss sa n s) := by
  grind [execSard, monRow_keeps]
theorem execChal_keeps (h : Keeps r s) {ss level} : Answers r (ss.ok) (execChal ss level s) := by
  grind [execChal, monRow_keeps]
theorem execAns_keeps (h : Keeps r s) {ss i h₁} : Answers r (ss.ok) (execAns ss i h₁ s) := by
  grind [execAns, monRow_keeps]
theorem execLock_keeps (h : Keeps r s) {ss} : Answers r (ss.ok) (execLock ss s) := by
  grind [execLock, monRow_keeps]
theorem openSlot_keeps (h : Keeps r s) {port i mac} : Keeps r (openSlot s port i mac) := by
  grind [openSlot, setSession_keeps]
theorem monRequest_keeps (h : Keeps r s) {port i seq c} : Keeps r (monRequest s port i seq c) := by
  grind [monRequest, answerTo_keeps, setSession_keeps, monCommand_keeps]
theorem execMonReq_keeps (h : Keeps r s) {port mac seq cmd} : Answers r (decide (port < 2)) (execMonReq port mac seq
    cmd s) := by
  grind [execMonReq, onOk_keeps, monRequest_keeps, openSlot_keeps, emit_keeps]
theorem execBreakReset_keeps (h : Keeps r s) : Answers r (true) (execBreakReset s) := by
  grind [execBreakReset, next_keeps, setSession_keeps, setMon_keeps, logEvt_keeps, bump_keeps]
theorem execFramingError_keeps (h : Keeps r s) : Answers r (true) (execFramingError s) := by
  grind [execFramingError, next_keeps, bump_keeps, setMon_keeps]
theorem execNonceExpiry_keeps (h : Keeps r s) {ss} : Answers r (ss.ok) (execNonceExpiry ss s) := by
  grind [execNonceExpiry, onOk_keeps, setSession_keeps]
theorem execSessionTimeout_keeps (h : Keeps r s) {ss} : Answers r (ss.ok) (execSessionTimeout ss s) := by
  grind [execSessionTimeout, onOk_keeps, setSession_keeps]

end Sys2Proof.Proofs.Keeping
end

section
/-! SUPPORT. What optimizer operators keep (12 R339 to R342). -/
namespace Sys2Proof.Proofs.Keeping
open Sys2Proof Machine Safety Laws
-- One proof at a time: they all cite one another, and proofs that wait would each hold a thread.
set_option Elab.async false

variable {r s t : State}

theorem optRead_keeps {r₁ w dva n} : EngKeeps r (optRead r₁ w dva n) := by
  grind [optRead, readDva_keeps]
theorem optWrite_keeps {r₁ w dva d} : EngKeeps r (optWrite r₁ w dva d) := by
  grind [optWrite, writeDva_keeps]
theorem optElems_keeps {r₁ w base fmt i n} : EngKeeps r (optElems r₁ w base fmt i n) := by
  grind [optElems, bind_keeps, pure_keeps, optRead_keeps]
theorem optGrads_keeps {r₁ w i n} : EngKeeps r (optGrads r₁ w i n) := by
  grind [optGrads, bind_keeps, pure_keeps, optRead_keeps]
theorem optStore_keeps {w fmt stoch xs} : EngKeeps r (optStore w fmt stoch xs) := by
  grind [optStore, bind_keeps, pure_keeps, get_keeps, set_keeps, setWick_keeps]
theorem optFinal_keeps {r₁ w i ws sv} : EngKeeps r (optFinal r₁ w i ws sv) := by
  grind [optFinal, bind_keeps, pure_keeps, optWrite_keeps]
theorem chunkWrites_keeps {a} {m : Eng Unit} (hm : EngKeeps r m) : EngKeeps r (chunkWrites a m) :=
  bind_keeps (attempt_keeps hm) fun _ => pure_keeps

theorem wholeChunk_keeps {r₁ w i n a} : EngKeeps r (wholeChunk r₁ w i n a) := by
  unfold wholeChunk
  grind (gen := 40) (splits := 40) (ematch := 20) (instances := 5000) [bind_keeps, pure_keeps, attempt_keeps,
    optGrads_keeps, optElems_keeps, optStore_keeps, chunkWrites_keeps, optFinal_keeps, optWrite_keeps]

theorem longPieces_keeps {run w s1 pieces a} : EngKeeps r (longPieces run w s1 pieces a) := by
  induction pieces generalizing a with
  | nil => exact pure_keeps
  | cons p rest ih =>
    refine bind_keeps (attempt_keeps (bind_keeps optGrads_keeps fun _ => bind_keeps optElems_keeps fun _ =>
      pure_keeps)) fun rd => ?_
    cases rd with
    | error st => exact pure_keeps
    | ok x =>
      have hrest (sv) : EngKeeps r (do
          let e ← chunkWrites (a.count run (List.zipWith (rowElem run.o run.k s1) x.1 x.2))
            (optFinal run w p.1 (List.zipWith (rowElem run.o run.k s1) x.1 x.2) sv)
          if e.status ≠ 0 then return e
          longPieces run w s1 rest e.sum) :=
        bind_keeps (chunkWrites_keeps optFinal_keeps) fun _ => ite_keeps pure_keeps ih
      exact ite_keeps (bind_keeps pure_keeps hrest) (bind_keeps optStore_keeps hrest)

theorem longChunk_keeps {r₁ w i n a} : EngKeeps r (longChunk r₁ w i n a) := by
  grind [longChunk, bind_keeps, pure_keeps, mapM_keeps, attempt_keeps, optGrads_keeps, optElems_keeps,
    chunkWrites_keeps, optWrite_keeps, longPieces_keeps]
theorem optChunk_keeps {r₁ a c} : EngKeeps r (optChunk r₁ a c) := by
  grind [optChunk, bind_keeps, pure_keeps, attempt_keeps, writeDva_keeps, longChunk_keeps, wholeChunk_keeps]
theorem seedOptim_keeps (h : Keeps r s) {p step} : Keeps r (seedOptim p step s) := by
  grind [seedOptim, foldlState_keeps, setWick_keeps]
theorem optInstance_keeps {c p op} : EngKeeps r (optInstance c p op) := by
  grind [optInstance, bind_keeps, pure_keeps, modify_keeps, foldlM_keeps, readDva_keeps, seedOptim_keeps,
    optChunk_keeps, attempt_keeps, writeDva_keeps, failAt_keeps]

theorem optimRow_keeps (h : Keeps r s) {q e op} : Answers r (queueOk q) (optimRow q e op s) := by
  refine cmdRow_keeps h fun c s t hs e => ?_
  split at e
  · exact Option.some.inj e ▸ failCmd_keeps hs
  · split at e
    · exact Option.some.inj e ▸ failCmd_keeps hs
    · exact runService_keeps hs optInstance_keeps e

theorem execAdamw_keeps (h : Keeps r s) {q e} : Answers r (queueOk q) (execAdamw q e s) := by
  grind [execAdamw, optimRow_keeps]
theorem execSgdM_keeps (h : Keeps r s) {q e} : Answers r (queueOk q) (execSgdM q e s) := by
  grind [execSgdM, optimRow_keeps]
theorem execSignM_keeps (h : Keeps r s) {q e} : Answers r (queueOk q) (execSignM q e s) := by
  grind [execSignM, optimRow_keeps]
theorem execRowAdagrad_keeps (h : Keeps r s) {q e} : Answers r (queueOk q) (execRowAdagrad q e s) := by
  grind [execRowAdagrad, optimRow_keeps]
theorem execNorm2_keeps (h : Keeps r s) {q e} : Answers r (queueOk q) (execNorm2 q e s) := by
  grind [execNorm2, optimRow_keeps]

end Sys2Proof.Proofs.Keeping
end

section
/-! SUPPORT. What the rows of the places keep (14). -/
namespace Sys2Proof.Proofs.Keeping
open Sys2Proof Machine Safety Laws
-- One proof at a time: they all cite one another, and proofs that wait would each hold a thread.
set_option Elab.async false

variable {r s t : State}

theorem execPolicyMove_keeps (h : Keeps r s) {b} : Answers r (true) (execPolicyMove b s) := by
  grind [execPolicyMove, next_keeps, requestMove_keeps]
theorem rehome_keeps (h : Keeps r s) {m} : Keeps r (rehome s m) := by
  grind [rehome, foldlState_keeps, requestMove_keeps, dropMove_keeps, tellMove_keeps]
theorem execMoveFlip_keeps (h : Keeps r s) {b} : Answers r (true) (execMoveFlip b s) := by
  unfold execMoveFlip
  grind (gen := 20) [next_keeps, settle_keeps, retryDeferred_keeps, flipMove_keeps, rehome_keeps, stopMove_keeps]
theorem execMoveComplete_keeps (h : Keeps r s) {b} : Answers r (true) (execMoveComplete b s) := by
  grind [execMoveComplete, next_keeps, settle_keeps, retryDeferred_keeps, finishMove_keeps]
theorem execShadowRewrite_keeps (h : Keeps r s) {b} : Answers r (true) (execShadowRewrite b s) := by
  grind [execShadowRewrite, next_keeps, writeShadow_keeps]
theorem execGarbageCollection_keeps (h : Keeps r s) {channel pages freed retired} : Answers r (flashOk channel)
    (execGarbageCollection channel pages freed retired s) := by
  grind [execGarbageCollection, onOk_keeps, bump_keeps, logEvt_keeps, bumpSat_keeps, settle_keeps, setFlashFree_keeps]
theorem flashPageRead_keeps (h : Keeps r s) {b page corrected ldpcOk rebuildOk pos} : Keeps r (flashPageRead s b page
    corrected ldpcOk rebuildOk pos) := by
  grind [flashPageRead, foldlState_keeps, bump_keeps, setStore_keeps, logErr_keeps]
theorem execFlashReadComplete_keeps (h : Keeps r s) {block page corrected ldpcOk rebuildOk} : Answers r (decide (page
    < 4)) (execFlashReadComplete block page corrected ldpcOk rebuildOk s) := by
  grind [execFlashReadComplete, onOk_keeps, flashPageRead_keeps]

end Sys2Proof.Proofs.Keeping
end

section
/-! SUPPORT. What scalar instructions keep (08 R226 to R229). -/
namespace Sys2Proof.Proofs.Keeping
open Sys2Proof Machine Safety Laws
-- One proof at a time: they all cite one another, and proofs that wait would each hold a thread.
set_option Elab.async false

variable {r s t : State}

theorem salu_keeps (h : Keeps r s) {w i f} : Keeps r (salu w i f s) := by
  grind [salu, wickDo_keeps]
theorem saluDiv_keeps (h : Keeps r s) {w i f} : Keeps r (saluDiv w i f s) := by
  grind [saluDiv, wickDo_keeps]
theorem salui_keeps (h : Keeps r s) {w i f} : Keeps r (salui w i f s) := by
  grind [salui, wickDo_keeps]
theorem execSaluAdd_keeps (h : Keeps r s) {w word} : Answers r (wickOk w) (execSaluAdd w word s) := by
  grind [execSaluAdd, wickRun_keeps, salu_keeps]
theorem execSaluSub_keeps (h : Keeps r s) {w word} : Answers r (wickOk w) (execSaluSub w word s) := by
  grind [execSaluSub, wickRun_keeps, salu_keeps]
theorem execSaluAnd_keeps (h : Keeps r s) {w word} : Answers r (wickOk w) (execSaluAnd w word s) := by
  grind [execSaluAnd, wickRun_keeps, salu_keeps]
theorem execSaluOr_keeps (h : Keeps r s) {w word} : Answers r (wickOk w) (execSaluOr w word s) := by
  grind [execSaluOr, wickRun_keeps, salu_keeps]
theorem execSaluXor_keeps (h : Keeps r s) {w word} : Answers r (wickOk w) (execSaluXor w word s) := by
  grind [execSaluXor, wickRun_keeps, salu_keeps]
theorem execAndn_keeps (h : Keeps r s) {w word} : Answers r (wickOk w) (execAndn w word s) := by
  grind [execAndn, wickRun_keeps, salu_keeps]
theorem execSaluShl_keeps (h : Keeps r s) {w word} : Answers r (wickOk w) (execSaluShl w word s) := by
  grind [execSaluShl, wickRun_keeps, salu_keeps]
theorem execSaluShr_keeps (h : Keeps r s) {w word} : Answers r (wickOk w) (execSaluShr w word s) := by
  grind [execSaluShr, wickRun_keeps, salu_keeps]
theorem execSaluSar_keeps (h : Keeps r s) {w word} : Answers r (wickOk w) (execSaluSar w word s) := by
  grind [execSaluSar, wickRun_keeps, salu_keeps]
theorem execRor_keeps (h : Keeps r s) {w word} : Answers r (wickOk w) (execRor w word s) := by
  grind [execRor, wickRun_keeps, salu_keeps]
theorem execClt_keeps (h : Keeps r s) {w word} : Answers r (wickOk w) (execClt w word s) := by
  grind [execClt, wickRun_keeps, salu_keeps]
theorem execCltu_keeps (h : Keeps r s) {w word} : Answers r (wickOk w) (execCltu w word s) := by
  grind [execCltu, wickRun_keeps, salu_keeps]
theorem execCeq_keeps (h : Keeps r s) {w word} : Answers r (wickOk w) (execCeq w word s) := by
  grind [execCeq, wickRun_keeps, salu_keeps]
theorem execSaluMin_keeps (h : Keeps r s) {w word} : Answers r (wickOk w) (execSaluMin w word s) := by
  grind [execSaluMin, wickRun_keeps, salu_keeps]
theorem execSaluMax_keeps (h : Keeps r s) {w word} : Answers r (wickOk w) (execSaluMax w word s) := by
  grind [execSaluMax, wickRun_keeps, salu_keeps]
theorem execMinu_keeps (h : Keeps r s) {w word} : Answers r (wickOk w) (execMinu w word s) := by
  grind [execMinu, wickRun_keeps, salu_keeps]
theorem execMaxu_keeps (h : Keeps r s) {w word} : Answers r (wickOk w) (execMaxu w word s) := by
  grind [execMaxu, wickRun_keeps, salu_keeps]
theorem execMullo_keeps (h : Keeps r s) {w word} : Answers r (wickOk w) (execMullo w word s) := by
  grind [execMullo, wickRun_keeps, salu_keeps]
theorem execMulhi_keeps (h : Keeps r s) {w word} : Answers r (wickOk w) (execMulhi w word s) := by
  grind [execMulhi, wickRun_keeps, salu_keeps]
theorem execMulhiu_keeps (h : Keeps r s) {w word} : Answers r (wickOk w) (execMulhiu w word s) := by
  grind [execMulhiu, wickRun_keeps, salu_keeps]
theorem execQuo_keeps (h : Keeps r s) {w word} : Answers r (wickOk w) (execQuo w word s) := by
  grind [execQuo, wickRun_keeps, saluDiv_keeps]
theorem execMod_keeps (h : Keeps r s) {w word} : Answers r (wickOk w) (execMod w word s) := by
  grind [execMod, wickRun_keeps, saluDiv_keeps]
theorem execPopc_keeps (h : Keeps r s) {w word} : Answers r (wickOk w) (execPopc w word s) := by
  grind [execPopc, wickRun_keeps, salu_keeps]
theorem execClz_keeps (h : Keeps r s) {w word} : Answers r (wickOk w) (execClz w word s) := by
  grind [execClz, wickRun_keeps, salu_keeps]
theorem execAddi_keeps (h : Keeps r s) {w word} : Answers r (wickOk w) (execAddi w word s) := by
  grind [execAddi, wickRun_keeps, salui_keeps]
theorem execAndi_keeps (h : Keeps r s) {w word} : Answers r (wickOk w) (execAndi w word s) := by
  grind [execAndi, wickRun_keeps, salui_keeps]
theorem execOri_keeps (h : Keeps r s) {w word} : Answers r (wickOk w) (execOri w word s) := by
  grind [execOri, wickRun_keeps, salui_keeps]
theorem execXori_keeps (h : Keeps r s) {w word} : Answers r (wickOk w) (execXori w word s) := by
  grind [execXori, wickRun_keeps, salui_keeps]
theorem execShli_keeps (h : Keeps r s) {w word} : Answers r (wickOk w) (execShli w word s) := by
  grind [execShli, wickRun_keeps, salui_keeps]
theorem execShri_keeps (h : Keeps r s) {w word} : Answers r (wickOk w) (execShri w word s) := by
  grind [execShri, wickRun_keeps, salui_keeps]
theorem execSari_keeps (h : Keeps r s) {w word} : Answers r (wickOk w) (execSari w word s) := by
  grind [execSari, wickRun_keeps, salui_keeps]
theorem execMuli_keeps (h : Keeps r s) {w word} : Answers r (wickOk w) (execMuli w word s) := by
  grind [execMuli, wickRun_keeps, salui_keeps]
theorem execSetq_keeps (h : Keeps r s) {w word} : Answers r (wickOk w) (execSetq w word s) := by
  grind [execSetq, wickRun_keeps, wickDo_keeps]
theorem execPutq_keeps (h : Keeps r s) {w word} : Answers r (wickOk w) (execPutq w word s) := by
  grind [execPutq, wickRun_keeps, wickDo_keeps]
theorem branch_keeps (h : Keeps r s) {w i} : Keeps r (branch w i s) := by
  grind [branch, setWick_keeps, goTo_keeps, advance_keeps]
theorem jump_keeps (h : Keeps r s) {w i target} : Keeps r (jump w i target s) := by
  grind [jump, goTo_keeps, setWick_keeps]
theorem execBr_keeps (h : Keeps r s) {w word} : Answers r (wickOk w) (execBr w word s) := by
  grind [execBr, wickRun_keeps, branch_keeps]
theorem execCall_keeps (h : Keeps r s) {w word} : Answers r (wickOk w) (execCall w word s) := by
  grind [execCall, wickRun_keeps, jump_keeps]
theorem execJind_keeps (h : Keeps r s) {w word} : Answers r (wickOk w) (execJind w word s) := by
  grind [execJind, wickRun_keeps, jump_keeps]
theorem execNop_keeps (h : Keeps r s) {w word} : Answers r (wickOk w) (execNop w word s) := by
  grind [execNop, wickRun_keeps, wickDo_keeps]
theorem execEndProgram_keeps (h : Keeps r s) {w word} : Answers r (wickOk w) (execEndProgram w word s) := by
  grind [execEndProgram, wickRun_keeps, setWick_keeps]
theorem execMfs_keeps (h : Keeps r s) {w word} : Answers r (wickOk w) (execMfs w word s) := by
  grind [execMfs, wickRun_keeps, wickDo_keeps]
theorem execMts_keeps (h : Keeps r s) {w word} : Answers r (wickOk w) (execMts w word s) := by
  grind [execMts, wickRun_keeps, wickDo_keeps]

end Sys2Proof.Proofs.Keeping
end

section
/-! SUPPORT. What a tick keeps (01 R28, R29). -/
namespace Sys2Proof.Proofs.Keeping
open Sys2Proof Machine Safety Laws
-- One proof at a time: they all cite one another, and proofs that wait would each hold a thread.
set_option Elab.async false

variable {r s t : State}

theorem tickIslands_keeps (h : Keeps r s) : Keeps r (tickIslands s) := by
  grind [tickIslands, foldlState_keeps, setErrs_keeps]
theorem tickMain_keeps (h : Keeps r s) : Keeps r (tickMain s) := by
  grind [tickMain, tickIslands_keeps, meterUs_keeps, settle_keeps, stepRebuild_keeps, endResets_keeps,
    nextSweep_keeps]
theorem tick_keeps (h : Keeps r s) : Keeps r (tick s) := by
  grind [tick, setLamp_keeps, tickMain_keeps]

end Sys2Proof.Proofs.Keeping
end

section
/-! PROOFS. Every well-formed command answers a next state, an ill-formed one the model's own fault, and every step keeps
the factory's data and canonical memories (95; 16 R458; log entries 2, 3 and 6). -/
namespace Sys2Proof.Proofs
open Sys2Proof Machine Safety Laws

/-- Settles O1: a step with a command in front is that command, by definition. -/
theorem stepRunsFront : Obligations.StepRunsFront := fun _ _ _ => rfl

open Keeping

/-- Every command moves to a state that keeps what no operation takes away, when its operands are as they must be. -/
theorem exec_answers (i : Instr) (s : State) : Answers s i.wellFormed (exec i s) := by
  cases i with
  | registerWrite _ _ _ _ => exact execRegisterWrite_keeps (Keeps.refl s)
  | rcRead _ _ => exact execRcRead_keeps (Keeps.refl s)
  | errStatClear _ _ _ => exact execErrStatClear_keeps (Keeps.refl s)
  | hubCounterWrite _ _ _ _ => exact execHubCounterWrite_keeps (Keeps.refl s)
  | localCounterWrite _ _ _ _ _ => exact execLocalCounterWrite_keeps (Keeps.refl s)
  | semaphoreRead _ _ => exact execSemaphoreRead_keeps (Keeps.refl s)
  | semaphoreWrite _ _ _ _ => exact execSemaphoreWrite_keeps (Keeps.refl s)
  | doorbell _ _ _ _ _ => exact execDoorbell_keeps (Keeps.refl s)
  | qEnable _ _ => exact execQEnable_keeps (Keeps.refl s)
  | copy _ _ => exact execCopy_keeps (Keeps.refl s)
  | tileStream _ _ => exact execTileStream_keeps (Keeps.refl s)
  | fence _ _ => exact execFence_keeps (Keeps.refl s)
  | counterWait _ _ => exact execCounterWait_keeps (Keeps.refl s)
  | counterWaitBound _ _ => exact execCounterWaitBound_keeps (Keeps.refl s)
  | counterTargetReached _ => exact execCounterTargetReached_keeps (Keeps.refl s)
  | prefetch _ _ => exact execPrefetch_keeps (Keeps.refl s)
  | pin _ _ => exact execPin_keeps (Keeps.refl s)
  | unpin _ _ => exact execUnpin_keeps (Keeps.refl s)
  | cold _ _ => exact execCold_keeps (Keeps.refl s)
  | markShadow _ _ => exact execMarkShadow_keeps (Keeps.refl s)
  | unmarkShadow _ _ => exact execUnmarkShadow_keeps (Keeps.refl s)
  | prefetchFromHost _ _ _ => exact execPrefetchFromHost_keeps (Keeps.refl s)
  | evictToHost _ _ _ => exact execEvictToHost_keeps (Keeps.refl s)
  | shootdown _ _ => exact execShootdown_keeps (Keeps.refl s)
  | shootCmdGo _ _ => exact execShootCmdGo_keeps (Keeps.refl s)
  | shootdownAck _ _ => exact execShootdownAck_keeps (Keeps.refl s)
  | shootdownComplete _ => exact execShootdownComplete_keeps (Keeps.refl s)
  | shootdownOverrun _ _ => exact execShootdownOverrun_keeps (Keeps.refl s)
  | reclaim _ _ => exact execReclaim_keeps (Keeps.refl s)
  | rebuildSend _ _ => exact execRebuildSend_keeps (Keeps.refl s)
  | rebuildReceive _ _ => exact execRebuildReceive_keeps (Keeps.refl s)
  | rebuildSendDone => exact execRebuildSendDone_keeps (Keeps.refl s)
  | rebuildStall => exact execRebuildStall_keeps (Keeps.refl s)
  | emberRead _ _ _ => exact execEmberRead_keeps (Keeps.refl s)
  | planAdmit _ _ => exact execPlanAdmit_keeps (Keeps.refl s)
  | planArm _ _ => exact execPlanArm_keeps (Keeps.refl s)
  | planRun _ _ => exact execPlanRun_keeps (Keeps.refl s)
  | planRetire _ _ => exact execPlanRetire_keeps (Keeps.refl s)
  | gateOpen _ => exact execGateOpen_keeps (Keeps.refl s)
  | stepStart _ => exact execStepStart_keeps (Keeps.refl s)
  | spotCopyDone _ => exact execSpotCopyDone_keeps (Keeps.refl s)
  | spotCompare _ => exact execSpotCompare_keeps (Keeps.refl s)
  | stepEnd _ => exact execStepEnd_keeps (Keeps.refl s)
  | stepOverrun _ _ => exact execStepOverrun_keeps (Keeps.refl s)
  | gateBoundExpiry _ => exact execGateBoundExpiry_keeps (Keeps.refl s)
  | append _ _ => exact execAppend_keeps (Keeps.refl s)
  | attend _ _ _ => exact execAttend_keeps (Keeps.refl s)
  | gather _ _ _ _ => exact execGather_keeps (Keeps.refl s)
  | pool _ _ _ _ => exact execPool_keeps (Keeps.refl s)
  | scatterAdd _ _ _ => exact execScatterAdd_keeps (Keeps.refl s)
  | updateRow _ _ _ => exact execUpdateRow_keeps (Keeps.refl s)
  | tableOpen _ _ => exact execTableOpen_keeps (Keeps.refl s)
  | tableClose _ _ _ => exact execTableClose_keeps (Keeps.refl s)
  | rowMove _ _ _ => exact execRowMove_keeps (Keeps.refl s)
  | adamw _ _ => exact execAdamw_keeps (Keeps.refl s)
  | sgdM _ _ => exact execSgdM_keeps (Keeps.refl s)
  | signM _ _ => exact execSignM_keeps (Keeps.refl s)
  | rowAdagrad _ _ => exact execRowAdagrad_keeps (Keeps.refl s)
  | norm2 _ _ => exact execNorm2_keeps (Keeps.refl s)
  | accumStream _ _ => exact execAccumStream_keeps (Keeps.refl s)
  | collOpen _ _ => exact execCollOpen_keeps (Keeps.refl s)
  | collAbort _ _ => exact execCollAbort_keeps (Keeps.refl s)
  | collReset _ _ => exact execCollReset_keeps (Keeps.refl s)
  | collClose _ _ => exact execCollClose_keeps (Keeps.refl s)
  | abortRepeat _ _ => exact execAbortRepeat_keeps (Keeps.refl s)
  | ctxInstall _ _ => exact execCtxInstall_keeps (Keeps.refl s)
  | ctxWithdraw _ _ => exact execCtxWithdraw_keeps (Keeps.refl s)
  | grant _ _ => exact execGrant_keeps (Keeps.refl s)
  | revoke _ _ => exact execRevoke_keeps (Keeps.refl s)
  | handover _ _ => exact execHandover_keeps (Keeps.refl s)
  | extentDrain _ => exact execExtentDrain_keeps (Keeps.refl s)
  | create _ _ => exact execCreate_keeps (Keeps.refl s)
  | addAgent _ _ => exact execAddAgent_keeps (Keeps.refl s)
  | removeAgent _ _ => exact execRemoveAgent_keeps (Keeps.refl s)
  | composeEnd _ _ => exact execComposeEnd_keeps (Keeps.refl s)
  | grantSconce _ _ _ => exact execGrantSconce_keeps (Keeps.refl s)
  | grantHubCounters _ _ _ => exact execGrantHubCounters_keeps (Keeps.refl s)
  | grantSemaphores _ _ _ => exact execGrantSemaphores_keeps (Keeps.refl s)
  | grantReservoir _ _ _ => exact execGrantReservoir_keeps (Keeps.refl s)
  | grantZeroingDone => exact execGrantZeroingDone_keeps (Keeps.refl s)
  | snuff _ _ => exact execSnuff_keeps (Keeps.refl s)
  | teardownRepeat _ => exact execTeardownRepeat_keeps (Keeps.refl s)
  | snap _ _ => exact execSnap_keeps (Keeps.refl s)
  | walk _ _ => exact execWalk_keeps (Keeps.refl s)
  | read _ _ _ => exact execRead_keeps (Keeps.refl s)
  | write _ _ _ => exact execWrite_keeps (Keeps.refl s)
  | writeMasked _ _ _ => exact execWriteMasked_keeps (Keeps.refl s)
  | accumulate _ _ _ => exact execAccumulate_keeps (Keeps.refl s)
  | atomicAdd _ _ _ => exact execAtomicAdd_keeps (Keeps.refl s)
  | atomicMin _ _ _ => exact execAtomicMin_keeps (Keeps.refl s)
  | atomicMax _ _ _ => exact execAtomicMax_keeps (Keeps.refl s)
  | atomicCas _ _ _ => exact execAtomicCas_keeps (Keeps.refl s)
  | readRsp _ _ => exact execReadRsp_keeps (Keeps.refl s)
  | atomicRsp _ _ => exact execAtomicRsp_keeps (Keeps.refl s)
  | errRsp _ _ => exact execErrRsp_keeps (Keeps.refl s)
  | invalidate _ _ => exact execInvalidate_keeps (Keeps.refl s)
  | recallShared _ _ => exact execRecallShared_keeps (Keeps.refl s)
  | snoopRsp _ _ => exact execSnoopRsp_keeps (Keeps.refl s)
  | lineBufferWriteback _ => exact execLineBufferWriteback_keeps (Keeps.refl s)
  | twinWrite _ _ => exact execTwinWrite_keeps (Keeps.refl s)
  | tierApply _ => exact execTierApply_keeps (Keeps.refl s)
  | packetForward _ _ => exact execPacketForward_keeps (Keeps.refl s)
  | replayTimeout _ _ _ => exact execReplayTimeout_keeps (Keeps.refl s)
  | deadTargetBound _ _ _ => exact execDeadTargetBound_keeps (Keeps.refl s)
  | credit _ _ => exact execCredit_keeps (Keeps.refl s)
  | creditSend _ => exact execCreditSend_keeps (Keeps.refl s)
  | mark _ _ _ => exact execMark_keeps (Keeps.refl s)
  | markSend _ => exact execMarkSend_keeps (Keeps.refl s)
  | ack _ _ => exact execAck_keeps (Keeps.refl s)
  | csack _ _ => exact execCsack_keeps (Keeps.refl s)
  | cntAdd _ _ => exact execCntAdd_keeps (Keeps.refl s)
  | semRead _ _ => exact execSemRead_keeps (Keeps.refl s)
  | signal _ _ => exact execSignal_keeps (Keeps.refl s)
  | waitDec _ _ => exact execWaitDec_keeps (Keeps.refl s)
  | waitDecTimeout _ => exact execWaitDecTimeout_keeps (Keeps.refl s)
  | tryDec _ _ => exact execTryDec_keeps (Keeps.refl s)
  | set _ _ => exact execSet_keeps (Keeps.refl s)
  | semRsp _ _ => exact execSemRsp_keeps (Keeps.refl s)
  | abort _ _ => exact execAbort_keeps (Keeps.refl s)
  | noRoute _ _ => exact execNoRoute_keeps (Keeps.refl s)
  | prepared _ _ => exact execPrepared_keeps (Keeps.refl s)
  | prepare _ _ => exact execPrepare_keeps (Keeps.refl s)
  | commit _ _ _ => exact execCommit_keeps (Keeps.refl s)
  | retire _ _ => exact execRetire_keeps (Keeps.refl s)
  | routeData _ _ => exact execRouteData_keeps (Keeps.refl s)
  | codewordReceive _ _ _ => exact execCodewordReceive_keeps (Keeps.refl s)
  | portEnable _ _ => exact execPortEnable_keeps (Keeps.refl s)
  | portDisable _ _ => exact execPortDisable_keeps (Keeps.refl s)
  | trainingAttempt _ _ _ _ => exact execTrainingAttempt_keeps (Keeps.refl s)
  | trainingBoundMiss _ _ => exact execTrainingBoundMiss_keeps (Keeps.refl s)
  | noPeerTimeout _ => exact execNoPeerTimeout_keeps (Keeps.refl s)
  | uncorrWindow _ _ _ => exact execUncorrWindow_keeps (Keeps.refl s)
  | serWindow _ _ _ _ => exact execSerWindow_keeps (Keeps.refl s)
  | ringLockLoss _ _ _ _ => exact execRingLockLoss_keeps (Keeps.refl s)
  | signalLossTimeout _ _ => exact execSignalLossTimeout_keeps (Keeps.refl s)
  | signalReturn _ _ => exact execSignalReturn_keeps (Keeps.refl s)
  | activeMapChange _ _ _ => exact execActiveMapChange_keeps (Keeps.refl s)
  | controlFailover _ => exact execControlFailover_keeps (Keeps.refl s)
  | controlReturn _ => exact execControlReturn_keeps (Keeps.refl s)
  | laneRetrain _ _ _ => exact execLaneRetrain_keeps (Keeps.refl s)
  | laneDisable _ _ _ => exact execLaneDisable_keeps (Keeps.refl s)
  | laneEnable _ _ _ => exact execLaneEnable_keeps (Keeps.refl s)
  | lossOfLight _ _ _ => exact execLossOfLight_keeps (Keeps.refl s)
  | lasersLost _ _ => exact execLasersLost_keeps (Keeps.refl s)
  | lightRestored _ _ => exact execLightRestored_keeps (Keeps.refl s)
  | switch _ _ => exact execSwitch_keeps (Keeps.refl s)
  | policyMove _ => exact execPolicyMove_keeps (Keeps.refl s)
  | moveFlip _ => exact execMoveFlip_keeps (Keeps.refl s)
  | moveComplete _ => exact execMoveComplete_keeps (Keeps.refl s)
  | shadowRewrite _ => exact execShadowRewrite_keeps (Keeps.refl s)
  | garbageCollection _ _ _ _ => exact execGarbageCollection_keeps (Keeps.refl s)
  | flashReadComplete _ _ _ _ _ => exact execFlashReadComplete_keeps (Keeps.refl s)
  | tileComplete _ => exact execTileComplete_keeps (Keeps.refl s)
  | deadlineExpiry _ _ => exact execDeadlineExpiry_keeps (Keeps.refl s)
  | channelRetrainDue _ _ => exact execChannelRetrainDue_keeps (Keeps.refl s)
  | channelReady _ _ => exact execChannelReady_keeps (Keeps.refl s)
  | dieRetrainDue _ _ => exact execDieRetrainDue_keeps (Keeps.refl s)
  | dieTrainingStart _ => exact execDieTrainingStart_keeps (Keeps.refl s)
  | dieReady _ _ _ => exact execDieReady_keeps (Keeps.refl s)
  | retrainCmd _ _ _ => exact execRetrainCmd_keeps (Keeps.refl s)
  | load _ _ => exact execLoad_keeps (Keeps.refl s)
  | clear _ => exact execClear_keeps (Keeps.refl s)
  | setOwner _ _ => exact execSetOwner_keeps (Keeps.refl s)
  | keyDrainDone _ => exact execKeyDrainDone_keeps (Keeps.refl s)
  | memrd _ _ => exact execMemrd_keeps (Keeps.refl s)
  | memwr _ _ _ _ _ => exact execMemwr_keeps (Keeps.refl s)
  | birsp _ _ => exact execBirsp_keeps (Keeps.refl s)
  | bisnpTimeout _ => exact execBisnpTimeout_keeps (Keeps.refl s)
  | dlInactiveTimeout => exact execDlInactiveTimeout_keeps (Keeps.refl s)
  | declareDead _ => exact execDeclareDead_keeps (Keeps.refl s)
  | revive _ => exact execRevive_keeps (Keeps.refl s)
  | deadSweep _ _ => exact execDeadSweep_keeps (Keeps.refl s)
  | removeSweep _ _ => exact execRemoveSweep_keeps (Keeps.refl s)
  | sweepEnd => exact execSweepEnd_keeps (Keeps.refl s)
  | cwinCacheClear _ _ => exact Keeping.execCwinCacheClear_keeps (Keeps.refl s)
  | hdmCommit _ _ _ _ _ => exact execHdmCommit_keeps (Keeps.refl s)
  | functionLevelReset _ => exact execFunctionLevelReset_keeps (Keeps.refl s)
  | hostLinkReset _ => exact execHostLinkReset_keeps (Keeps.refl s)
  | atsInvalidation _ _ => exact execAtsInvalidation_keeps (Keeps.refl s)
  | configRequest _ _ _ _ => exact execConfigRequest_keeps (Keeps.refl s)
  | reservoirBarAccess _ _ _ _ => exact execReservoirBarAccess_keeps (Keeps.refl s)
  | forwardWrite _ _ _ _ => exact execForwardWrite_keeps (Keeps.refl s)
  | forwardRead _ _ _ _ => exact execForwardRead_keeps (Keeps.refl s)
  | identifyMemoryDevice => exact execIdentifyMemoryDevice_keeps (Keeps.refl s)
  | getSupportedLogs => exact execGetSupportedLogs_keeps (Keeps.refl s)
  | getLog _ _ _ => exact execGetLog_keeps (Keeps.refl s)
  | getEventRecords _ => exact execGetEventRecords_keeps (Keeps.refl s)
  | clearEventRecords _ _ => exact execClearEventRecords_keeps (Keeps.refl s)
  | getHealthInfo => exact execGetHealthInfo_keeps (Keeps.refl s)
  | mailboxUnsupported _ => exact execMailboxUnsupported_keeps (Keeps.refl s)
  | errorRecordWrite _ => exact execErrorRecordWrite_keeps (Keeps.refl s)
  | recordExport _ _ => exact execRecordExport_keeps (Keeps.refl s)
  | beacon => exact execBeacon_keeps (Keeps.refl s)
  | watchdogHang _ => exact execWatchdogHang_keeps (Keeps.refl s)
  | lamplighterResume => exact execLamplighterResume_keeps (Keeps.refl s)
  | copyEngineHang _ _ _ => exact execCopyEngineHang_keeps (Keeps.refl s)
  | contextReset _ _ => exact execContextReset_keeps (Keeps.refl s)
  | engineReset _ _ => exact execEngineReset_keeps (Keeps.refl s)
  | partitionReset _ _ => exact execPartitionReset_keeps (Keeps.refl s)
  | computeReset _ _ => exact execComputeReset_keeps (Keeps.refl s)
  | powerCycleRequest _ _ => exact execPowerCycleRequest_keeps (Keeps.refl s)
  | resetOverrun _ _ => exact execResetOverrun_keeps (Keeps.refl s)
  | quiesce _ _ _ => exact execQuiesce_keeps (Keeps.refl s)
  | sconceReset _ _ => exact execSconceReset_keeps (Keeps.refl s)
  | fatalStop _ => exact execFatalStop_keeps (Keeps.refl s)
  | emberDump _ => exact execEmberDump_keeps (Keeps.refl s)
  | lostCmd _ _ => exact execLostCmd_keeps (Keeps.refl s)
  | coldBoot _ => exact execColdBoot_keeps (Keeps.refl s)
  | coldBootReady => exact execColdBootReady_keeps (Keeps.refl s)
  | calCmd _ _ => exact execCalCmd_keeps (Keeps.refl s)
  | calWritten => exact execCalWritten_keeps (Keeps.refl s)
  | classReq _ _ => exact execClassReq_keeps (Keeps.refl s)
  | poolCfg _ _ => exact execPoolCfg_keeps (Keeps.refl s)
  | opkeyCmd _ _ => exact execOpkeyCmd_keeps (Keeps.refl s)
  | monCmdLock _ _ => exact execMonCmdLock_keeps (Keeps.refl s)
  | pinUnmask _ _ => exact execPinUnmask_keeps (Keeps.refl s)
  | sensorSample _ _ => exact execSensorSample_keeps (Keeps.refl s)
  | sensorFail _ => exact execSensorFail_keeps (Keeps.refl s)
  | help _ _ _ => exact execHelp_keeps (Keeps.refl s)
  | stat _ => exact execStat_keeps (Keeps.refl s)
  | rd _ _ _ => exact execRd_keeps (Keeps.refl s)
  | wr _ _ _ => exact execWr_keeps (Keeps.refl s)
  | ering _ _ _ => exact execEring_keeps (Keeps.refl s)
  | fblob _ => exact execFblob_keeps (Keeps.refl s)
  | reset _ _ _ => exact execReset_keeps (Keeps.refl s)
  | emberList _ => exact execEmberList_keeps (Keeps.refl s)
  | monEmberRead _ _ _ _ => exact execMonEmberRead_keeps (Keeps.refl s)
  | emberErase _ _ => exact execEmberErase_keeps (Keeps.refl s)
  | spird _ _ _ => exact execSpird_keeps (Keeps.refl s)
  | sard _ _ _ => exact execSard_keeps (Keeps.refl s)
  | chal _ _ => exact execChal_keeps (Keeps.refl s)
  | ans _ _ _ => exact execAns_keeps (Keeps.refl s)
  | lock _ => exact execLock_keeps (Keeps.refl s)
  | breakReset => exact execBreakReset_keeps (Keeps.refl s)
  | nonceExpiry _ => exact execNonceExpiry_keeps (Keeps.refl s)
  | sessionTimeout _ => exact execSessionTimeout_keeps (Keeps.refl s)
  | monReq _ _ _ _ => exact execMonReq_keeps (Keeps.refl s)
  | powerOn => exact execPowerOn_keeps (Keeps.refl s)
  | powerOff => exact execPowerOff_keeps (Keeps.refl s)
  | cycle => exact execCycle_keeps (Keeps.refl s)
  | coldReset => exact execColdReset_keeps (Keeps.refl s)
  | i3cComputeReset => exact execI3cComputeReset_keeps (Keeps.refl s)
  | alertClear _ => exact execAlertClear_keeps (Keeps.refl s)
  | alertRepeat => exact execAlertRepeat_keeps (Keeps.refl s)
  | dynamicAddress _ => exact execDynamicAddress_keeps (Keeps.refl s)
  | pwrEnHigh => exact execPwrEnHigh_keeps (Keeps.refl s)
  | pwrEnLow => exact execPwrEnLow_keeps (Keeps.refl s)
  | powerUp => exact execPowerUp_keeps (Keeps.refl s)
  | minOffTimeEnd => exact execMinOffTimeEnd_keeps (Keeps.refl s)
  | sysResetAssert => exact execSysResetAssert_keeps (Keeps.refl s)
  | sysResetRelease => exact execSysResetRelease_keeps (Keeps.refl s)
  | resetHeld _ => exact execResetHeld_keeps (Keeps.refl s)
  | coolantFault => exact execCoolantFault_keeps (Keeps.refl s)
  | inputMasked _ => exact execInputMasked_keeps (Keeps.refl s)
  | feedConnect => exact execFeedConnect_keeps (Keeps.refl s)
  | inputRangeTrip => exact execInputRangeTrip_keeps (Keeps.refl s)
  | overcurrentTrip => exact execOvercurrentTrip_keeps (Keeps.refl s)
  | saluAdd _ _ => exact execSaluAdd_keeps (Keeps.refl s)
  | saluSub _ _ => exact execSaluSub_keeps (Keeps.refl s)
  | saluAnd _ _ => exact execSaluAnd_keeps (Keeps.refl s)
  | saluOr _ _ => exact execSaluOr_keeps (Keeps.refl s)
  | saluXor _ _ => exact execSaluXor_keeps (Keeps.refl s)
  | andn _ _ => exact execAndn_keeps (Keeps.refl s)
  | saluShl _ _ => exact execSaluShl_keeps (Keeps.refl s)
  | saluShr _ _ => exact execSaluShr_keeps (Keeps.refl s)
  | saluSar _ _ => exact execSaluSar_keeps (Keeps.refl s)
  | ror _ _ => exact execRor_keeps (Keeps.refl s)
  | clt _ _ => exact execClt_keeps (Keeps.refl s)
  | cltu _ _ => exact execCltu_keeps (Keeps.refl s)
  | ceq _ _ => exact execCeq_keeps (Keeps.refl s)
  | saluMin _ _ => exact execSaluMin_keeps (Keeps.refl s)
  | saluMax _ _ => exact execSaluMax_keeps (Keeps.refl s)
  | minu _ _ => exact execMinu_keeps (Keeps.refl s)
  | maxu _ _ => exact execMaxu_keeps (Keeps.refl s)
  | mullo _ _ => exact execMullo_keeps (Keeps.refl s)
  | mulhi _ _ => exact execMulhi_keeps (Keeps.refl s)
  | mulhiu _ _ => exact execMulhiu_keeps (Keeps.refl s)
  | quo _ _ => exact execQuo_keeps (Keeps.refl s)
  | mod _ _ => exact execMod_keeps (Keeps.refl s)
  | popc _ _ => exact execPopc_keeps (Keeps.refl s)
  | clz _ _ => exact execClz_keeps (Keeps.refl s)
  | addi _ _ => exact execAddi_keeps (Keeps.refl s)
  | andi _ _ => exact execAndi_keeps (Keeps.refl s)
  | ori _ _ => exact execOri_keeps (Keeps.refl s)
  | xori _ _ => exact execXori_keeps (Keeps.refl s)
  | shli _ _ => exact execShli_keeps (Keeps.refl s)
  | shri _ _ => exact execShri_keeps (Keeps.refl s)
  | sari _ _ => exact execSari_keeps (Keeps.refl s)
  | muli _ _ => exact execMuli_keeps (Keeps.refl s)
  | setq _ _ => exact execSetq_keeps (Keeps.refl s)
  | putq _ _ => exact execPutq_keeps (Keeps.refl s)
  | br _ _ => exact execBr_keeps (Keeps.refl s)
  | call _ _ => exact execCall_keeps (Keeps.refl s)
  | jind _ _ => exact execJind_keeps (Keeps.refl s)
  | nop _ _ => exact execNop_keeps (Keeps.refl s)
  | endProgram _ _ => exact execEndProgram_keeps (Keeps.refl s)
  | mfs _ _ => exact execMfs_keeps (Keeps.refl s)
  | mts _ _ => exact execMts_keeps (Keeps.refl s)
  | lds _ _ => exact execLds_keeps (Keeps.refl s)
  | sts _ _ => exact execSts_keeps (Keeps.refl s)
  | ldv _ _ => exact execLdv_keeps (Keeps.refl s)
  | stv _ _ => exact execStv_keeps (Keeps.refl s)
  | ldm _ _ => exact execLdm_keeps (Keeps.refl s)
  | stm _ _ => exact execStm_keeps (Keeps.refl s)
  | ldmv _ _ => exact execLdmv_keeps (Keeps.refl s)
  | stmv _ _ => exact execStmv_keeps (Keeps.refl s)
  | lda _ _ => exact execLda_keeps (Keeps.refl s)
  | str _ _ => exact execStr_keeps (Keeps.refl s)
  | stn _ _ => exact execStn_keeps (Keeps.refl s)
  | amo _ _ => exact execAmo_keeps (Keeps.refl s)
  | vacc _ _ => exact execVacc_keeps (Keeps.refl s)
  | ldsb _ _ => exact execLdsb_keeps (Keeps.refl s)
  | stsb _ _ => exact execStsb_keeps (Keeps.refl s)
  | fadd _ _ => exact execFadd_keeps (Keeps.refl s)
  | fsub _ _ => exact execFsub_keeps (Keeps.refl s)
  | fmul _ _ => exact execFmul_keeps (Keeps.refl s)
  | fma _ _ => exact execFma_keeps (Keeps.refl s)
  | fnma _ _ => exact execFnma_keeps (Keeps.refl s)
  | fmin _ _ => exact execFmin_keeps (Keeps.refl s)
  | fmax _ _ => exact execFmax_keeps (Keeps.refl s)
  | fabs _ _ => exact execFabs_keeps (Keeps.refl s)
  | fneg _ _ => exact execFneg_keeps (Keeps.refl s)
  | iadd _ _ => exact execIadd_keeps (Keeps.refl s)
  | isub _ _ => exact execIsub_keeps (Keeps.refl s)
  | imul _ _ => exact execImul_keeps (Keeps.refl s)
  | valuAnd _ _ => exact execValuAnd_keeps (Keeps.refl s)
  | valuOr _ _ => exact execValuOr_keeps (Keeps.refl s)
  | valuXor _ _ => exact execValuXor_keeps (Keeps.refl s)
  | valuShl _ _ => exact execValuShl_keeps (Keeps.refl s)
  | valuShr _ _ => exact execValuShr_keeps (Keeps.refl s)
  | valuSar _ _ => exact execValuSar_keeps (Keeps.refl s)
  | imin _ _ => exact execImin_keeps (Keeps.refl s)
  | imax _ _ => exact execImax_keeps (Keeps.refl s)
  | mov _ _ => exact execMov_keeps (Keeps.refl s)
  | cvtif _ _ => exact execCvtif_keeps (Keeps.refl s)
  | cvtfi _ _ => exact execCvtfi_keeps (Keeps.refl s)
  | feq _ _ => exact execFeq_keeps (Keeps.refl s)
  | flt _ _ => exact execFlt_keeps (Keeps.refl s)
  | fle _ _ => exact execFle_keeps (Keeps.refl s)
  | funord _ _ => exact execFunord_keeps (Keeps.refl s)
  | ieq _ _ => exact execIeq_keeps (Keeps.refl s)
  | ilt _ _ => exact execIlt_keeps (Keeps.refl s)
  | iltu _ _ => exact execIltu_keeps (Keeps.refl s)
  | kand _ _ => exact execKand_keeps (Keeps.refl s)
  | kor _ _ => exact execKor_keeps (Keeps.refl s)
  | kxor _ _ => exact execKxor_keeps (Keeps.refl s)
  | kandn _ _ => exact execKandn_keeps (Keeps.refl s)
  | kfroms _ _ => exact execKfroms_keeps (Keeps.refl s)
  | ktos _ _ => exact execKtos_keeps (Keeps.refl s)
  | kpop _ _ => exact execKpop_keeps (Keeps.refl s)
  | bcst _ _ => exact execBcst_keeps (Keeps.refl s)
  | ext _ _ => exact execExt_keeps (Keeps.refl s)
  | ins _ _ => exact execIns_keeps (Keeps.refl s)
  | lane _ _ => exact execLane_keeps (Keeps.refl s)
  | redsum _ _ => exact execRedsum_keeps (Keeps.refl s)
  | redmax _ _ => exact execRedmax_keeps (Keeps.refl s)
  | rediadd _ _ => exact execRediadd_keeps (Keeps.refl s)
  | exp _ _ => exact execExp_keeps (Keeps.refl s)
  | rcp _ _ => exact execRcp_keeps (Keeps.refl s)
  | rsq _ _ => exact execRsq_keeps (Keeps.refl s)
  | vcvtWiden _ _ => exact execVcvtWiden_keeps (Keeps.refl s)
  | vcvtNarrow _ _ => exact execVcvtNarrow_keeps (Keeps.refl s)
  | vsbToSb _ _ => exact execVsbToSb_keeps (Keeps.refl s)
  | vsbFromSb _ _ => exact execVsbFromSb_keeps (Keeps.refl s)
  | dot _ _ => exact execDot_keeps (Keeps.refl s)
  | dotsb _ _ => exact execDotsb_keeps (Keeps.refl s)
  | azero _ _ => exact execAzero_keeps (Keeps.refl s)
  | aread _ _ => exact execAread_keeps (Keeps.refl s)
  | awrite _ _ => exact execAwrite_keeps (Keeps.refl s)
  | mvt _ _ => exact execMvt_keeps (Keeps.refl s)
  | mvx _ _ => exact execMvx_keeps (Keeps.refl s)
  | moverTransferDone _ _ => exact execMoverTransferDone_keeps (Keeps.refl s)
  | cwait _ _ => exact execCwait_keeps (Keeps.refl s)
  | cwaitBound _ => exact execCwaitBound_keeps (Keeps.refl s)
  | cread _ _ => exact execCread_keeps (Keeps.refl s)
  | cadd _ _ => exact execCadd_keeps (Keeps.refl s)
  | semop _ _ => exact execSemop_keeps (Keeps.refl s)
  | wickFence _ _ => exact execWickFence_keeps (Keeps.refl s)
  | fenceComplete _ => exact execFenceComplete_keeps (Keeps.refl s)
  | acquire _ _ => exact execAcquire_keeps (Keeps.refl s)
  | mwait _ _ => exact execMwait_keeps (Keeps.refl s)
  | lossOfSignal _ _ => exact execLossOfSignal_keeps (Keeps.refl s)
  | linkChange _ => exact execLinkChange_keeps (Keeps.refl s)
  | perstRelease => exact execPerstRelease_keeps (Keeps.refl s)
  | framingError => exact execFramingError_keeps (Keeps.refl s)
  | opkeyStored => exact execOpkeyStored_keeps (Keeps.refl s)
  | doeRequest _ => exact execDoeRequest_keeps (Keeps.refl s)

/-- Settles O58: what a command answers depends on its operands alone, and the fault is the model's choice for one that is
ill-formed (log entry 2). -/
theorem commandsComplete : Obligations.CommandsComplete := by
  intro i s
  obtain ⟨t, -, h⟩ := exec_answers i s
  rw [h]
  exact ⟨fun hw => ⟨t, by rw [hw]; rfl⟩, fun hw => by rw [hw]; rfl⟩

/-- A command that answers a next state keeps what no operation takes away. -/
theorem keeps_of_exec {i : Instr} {s t : State} (h : exec i s = .next t) : Keeps s t := by
  obtain ⟨u, hu, he⟩ := exec_answers i s
  rw [he] at h
  unfold onOk at h
  split at h
  · exact Host.Outcome.next.inj h ▸ hu
  · cases h

/-- Settles O59: a step is the command in front on the rest of the queue, or a tick, and each of both keeps the commands in
wait, the factory's data and canonical memories (the canonical form is the model's own, log entry 6). -/
theorem stepKeeps : Obligations.StepKeeps := by
  intro s t hstep
  unfold step at hstep
  split at hstep
  next hempty =>
    obtain ⟨hp, hf, hc⟩ : Keeps s t := Host.Outcome.next.inj hstep ▸ tick_keeps (Keeps.refl s)
    exact ⟨hf, hc, by rw [hp, hempty]; rfl⟩
  next c rest hfront =>
    obtain ⟨hp, hf, hc⟩ := keeps_of_exec hstep
    exact ⟨hf, hc, by rw [hp, hfront]; rfl⟩

end Sys2Proof.Proofs
end

section
/-! PROOFS. Register writes and reads (17 R471 to R477). -/
namespace Sys2Proof.Proofs
open Sys2Proof Machine Safety Laws

/-! ### Writes of a page (R471, R472) -/

section
variable {s : State} {src : RegSrc} {p rel size : Nat} {v : W64} {d : RegDesc}

theorem rk_mod_eight (hr : rel % 8 = 0) : rk p rel % 8 = 0 := by
  unfold rk pageBase
  split_ifs <;> omega

/-- A write that reaches a page's register, of either size. -/
theorem exec_registerWrite_rk (hok : src.ok = true) (hreach : reaches s src = true) (hp : p < 154) (hrel : rel < 4096)
    (hr : rel % 8 = 0) (hsize : size = 8 ∨ size = 4) :
    exec (.registerWrite src (rk p rel) size v) s = .next (settle (pageWrite s src p rel size v)) := by
  have hbar : barOk (rk p rel) = true := decide_eq_true (rk_lt hp hrel)
  have hmod := rk_mod_eight (p := p) hr
  have hform : ¬ ((size ≠ 4 ∧ size ≠ 8) ∨ rk p rel % size ≠ 0) := by rcases hsize with rfl | rfl <;> omega
  have hpage : barWrite s src (rk p rel) size v = pageWrite s src p rel size v := by
    simp only [barWrite, if_neg hform, pageOf_rk hp hrel, rk_sub_pageBase]
  rw [exec_registerWrite, execRegisterWrite, hok, hbar, if_pos hreach, hpage]
  rfl

theorem pageWrite_dropped (hr : rel % 8 = 0) (h : regDesc p rel = none ∨ writes s src p rel = false) :
    pageWrite s src p rel size v = dropWrite s src (rk p rel) := by
  have hrel : rel / 8 * 8 = rel := by omega
  simp only [pageWrite, hrel]
  rcases h with h | h
  · simp only [h]
  · split
    · rfl
    · simp [h]

/-- A write of half a write-only register is dropped. -/
theorem pageWrite_wo_half (hr : rel % 8 = 0) (hd : regDesc p rel = some d) (hwo : d.acc = .wo) :
    pageWrite s src p rel 4 v = dropWrite s src (rk p rel) := by
  have hrel : rel / 8 * 8 = rel := by omega
  simp [pageWrite, hrel, hd, hwo]

/-- What a write of a register that does not clear its ones takes effect with: the value, or its low half. -/
theorem pageWrite_accepted (hr : rel % 8 = 0) (hd : regDesc p rel = some d) (hw : writes s src p rel = true)
    (hreset : inReset s p = false) (hheld : isHeld p rel = false) (hone : d.acc ≠ .w1c)
    (hhalf : d.acc ≠ .wo ∨ size ≠ 4) :
    pageWrite s src p rel size v =
      applyWrite s src p rel (if size = 4 then mergeHalf (pageReg s src p rel) v false else v) := by
  have hrel : rel / 8 * 8 = rel := by omega
  have hcode : (d.acc == .wo && size == 4) = false := by simpa [imp_iff_not_or] using hhalf
  simp [pageWrite, hrel, hd, hw, hreset, hheld, hcode, hr]

theorem applyWrite_unchanged (hd : regDesc p rel = some d) (h : d.acc = .ro ∨ ∃ k, d.acc = .rc k) :
    applyWrite s src p rel v = s := by
  rcases h with h | ⟨k, h⟩ <;> simp only [applyWrite, hd, h]

theorem applyWrite_rw {m : Nat} (hd : regDesc p rel = some d) (h : d.acc = .rw m) :
    applyWrite s src p rel v = rwWrite s src p rel (v &&& BitVec.ofNat 64 m) := by simp only [applyWrite, hd, h]

/-- No header register is banked. -/
theorem le_of_isBanked (h : isBanked p rel = true) : 0x100 ≤ rel := by
  unfold isBanked at h
  split at h <;> simp at h <;> omega

theorem rwWrite_banked (h : isBanked p rel = true) : rwWrite s src p rel v = s.setReg (rkBank p rel (srcBank src)) v := by
  have hrel := le_of_isBanked h
  unfold rwWrite
  rw [if_neg (by omega), if_neg (by omega), if_pos h]

/-- A plain register of the page of temperatures or of a die's or channel's. -/
theorem rwWrite_plain (h : p = pTHM ∨ 26 ≤ p ∧ p < 58) (hrel : 0x100 ≤ rel) :
    rwWrite s src p rel v = s.setReg (rk p rel) v := by
  have hplain : p = 3 ∨ 26 ≤ p ∧ p < 58 := h
  have hbank : isBanked p rel = false := by
    unfold isBanked
    split <;> simp_all
  unfold rwWrite
  rw [if_neg (by omega), if_neg (by omega), hbank, if_neg (by decide)]
  split
  case h_10 => rw [if_neg (by omega), if_neg (by omega), put]
  all_goals omega

end

/-- The count of dropped writes, with the source and the offset of this one (R473). -/
theorem dropWrite_count {s : State} {src : RegSrc} {off : Nat} (h : bits (regGet s (rk pTOP 0x138)).toNat 0 32 + 1 < 2 ^ 32) :
    (regGet (dropWrite s src off) (rk pTOP 0x138)).toNat = bits (regGet s (rk pTOP 0x138)).toNat 0 32 + 1 +
      2 ^ 32 * (srcDrop src % 256) + 2 ^ 40 * (off / 4 % 2 ^ 24) := by
  rw [dropWrite, if_pos h, regGet_setReg, if_pos rfl, BitVec.toNat_ofNat]
  omega

/-- Settles O21: a write reaches its page's register, which drops it, ignores it, or takes the bits that it holds. -/
theorem registerWrites : Obligations.RegisterWrites := by
  intro s src p rel v hok hreach hp hrel hr
  have hexec (size : Nat) (hsize : size = 8 ∨ size = 4) :=
    exec_registerWrite_rk (v := v) hok hreach hp hrel hr hsize
  have h8 {t : State} (h : pageWrite s src p rel 8 v = t) :
      exec (.registerWrite src (rk p rel) 8 v) s = .next (settle t) := h ▸ hexec 8 (.inl rfl)
  have h4 {t : State} (h : pageWrite s src p rel 4 v = t) :
      exec (.registerWrite src (rk p rel) 4 v) s = .next (settle t) := h ▸ hexec 4 (.inr rfl)
  refine ⟨dropWrite_count, fun h => ⟨h8 (pageWrite_dropped hr h), h4 (pageWrite_dropped hr h)⟩, ?_⟩
  intro d hd hw hreset hheld
  have hwhole (hone : d.acc ≠ .w1c) : pageWrite s src p rel 8 v = applyWrite s src p rel v :=
    pageWrite_accepted hr hd hw hreset hheld hone (.inr (by decide))
  refine ⟨fun h => h8 ?_, fun k h => h8 ?_, fun h => h4 (pageWrite_wo_half hr hd h), fun m h hbank => h8 ?_,
    fun m h hpage hplain => ⟨h8 ?_, h4 ?_⟩⟩
  · rw [hwhole (by simp [h]), applyWrite_unchanged hd (.inl h)]
  · rw [hwhole (by simp [h]), applyWrite_unchanged hd (.inr ⟨k, h⟩)]
  · rw [hwhole (by simp [h]), applyWrite_rw hd h, rwWrite_banked hbank]
  · rw [hwhole (by simp [h]), applyWrite_rw hd h, rwWrite_plain hpage hplain]
  · rw [pageWrite_accepted hr hd hw hreset hheld (by simp [h]) (.inl (by simp [h])), applyWrite_rw hd h,
      rwWrite_plain hpage hplain]
    rfl

/-! ### Reads (R471) -/

section
variable {s : State} {src : RegSrc} {off : Nat}

theorem exec_rcRead_refused (hok : src.ok = true) (hoff : barOk off = true) (h : off % 8 ≠ 0 ∨ reaches s src = false) :
    exec (.rcRead src off) s = .next (emit s .barUR) := by
  rw [exec_rcRead, execRcRead, hok, hoff, if_pos h]
  rfl

theorem exec_rcRead_answered (hok : src.ok = true) (hoff : barOk off = true) (hmod : off % 8 = 0)
    (hreach : reaches s src = true) :
    exec (.rcRead src off) s = .next (emit (readClear s src off).2 (.regRead src off (readReg s src off))) := by
  rw [exec_rcRead, execRcRead, hok, hoff, if_neg (by simp [hmod, hreach])]
  simp only [readClear]
  split <;> rfl

/-- A read changes registers alone. -/
theorem readClear_regs : (readClear s src off).2 = { s with regs := (readClear s src off).2.regs } := by
  have hclear (clears : Bool) (k : Nat) : (if clears then s.setReg k 0 else s) =
      { s with regs := (if clears then s.setReg k 0 else s).regs } := by cases clears <;> rfl
  simp only [readClear]
  split
  · rfl
  · exact hclear _ _

theorem readClear_kept (h : ∀ p, pageOf off = some p → ∀ d, regDesc p (off - pageBase p) = some d → ∀ k, d.acc ≠ .rc k) :
    (readClear s src off).2 = s := by
  simp only [readClear]
  split
  · rfl
  next p hp =>
    have h := h p hp
    dsimp only
    split <;> simp_all

theorem readClear_cleared {p k : Nat} {d : RegDesc} (hp : pageOf off = some p)
    (hd : regDesc p (off - pageBase p) = some d) (hk : d.acc = .rc k) (hsees : seesReg s src p (off - pageBase p) = true) :
    (readClear s src off).2 = s.setReg (rcKey s src p (off - pageBase p)) 0 := by
  obtain ⟨o, a, r⟩ := d
  subst hk
  simp [readClear, hp, hd, hsees]

end

/-! ### Writes of ERR_STAT (R477) -/

/-- ERR_STAT is the same header register of every page. -/
theorem regDesc_errStat (p : Nat) : regDesc p 0x20 = some ⟨0x20, .w1c, 0⟩ := by
  simp [regDesc, headerRegs]

theorem exec_errStatClear_of_writes {s : State} {src : RegSrc} {p : Nat} {v : W64} (hok : src.ok = true) (hp : p < 154)
    (hreach : reaches s src = true) (hw : writes s src p 0x20 = true) (hup : s.lamp.gaveUp = false)
    (hrun : s.lamp.restarting = false) : exec (.errStatClear src p v) s = .next (clearErrStat s p v) := by
  have hpage : pageOk p = true := decide_eq_true hp
  rw [exec_errStatClear, execErrStatClear, hok, hpage, if_pos hreach]
  simp [pageWrite, regDesc_errStat, hw, applyWrite, w1cWrite, holdWrite, hup, hrun, onOk]

theorem regGet_clearErrStat (s : State) (p : Nat) (v : W64) (j : Nat) : regGet (clearErrStat s p v) j =
    if j = rk p 0x20 then regGet s (rk p 0x20) &&& ~~~ v
    else if j = rk p 0x30 ∧ regGet s (rk p 0x20) &&& ~~~ v = 0 then regGet s j &&& ~~~ (0xC000 : W64) else regGet s j := by
  have hne : rk p 0x30 ≠ rk p 0x20 := by simp [rk]
  have herrs (t : State) (f : Errs → Errs) : regGet (t.setErrs f) j = regGet t j := rfl
  simp only [clearErrStat]
  generalize regGet s (rk p 0x20) &&& ~~~ v = left
  split
  next hz =>
    rw [herrs, regGet_setReg, regGet_setReg, regGet_setReg, if_neg hne]
    by_cases hj : j = rk p 0x30
    · subst hj
      rw [if_pos rfl, if_neg hne, if_pos ⟨rfl, hz⟩]
    · rw [if_neg hj, if_neg (c := j = rk p 0x30 ∧ _) fun h => hj h.1]
  next hz => rw [regGet_setReg, if_neg (c := j = rk p 0x30 ∧ _) fun h => hz h.2]

/-- Settles O22: a read clears the register of its access RC under its own key, and a page's ERR_STAT clears by ones. -/
theorem registerReads : Obligations.RegisterReads := by
  intro s src hok
  refine ⟨fun off hoff => ⟨exec_rcRead_refused hok hoff, fun hmod hreach =>
    ⟨_, exec_rcRead_answered hok hoff hmod hreach, ?_, fun h => ?_, fun p d k hp hd hk hsees j => ?_⟩⟩, ?_⟩
  · exact congrArg (emit · (.regRead src off (readReg s src off))) readClear_regs
  · rw [readClear_kept h]
    rfl
  · rw [readClear_cleared hp hd hk hsees, ← regGet_setReg]
    rfl
  · intro p v hp hreach hw hup hrun
    refine ⟨_, exec_errStatClear_of_writes hok hp hreach hw hup hrun, regGet_clearErrStat s p v, ?_, fun hleft => ?_⟩
    · simp only [clearErrStat]
      split <;> rfl
    · rw [clearErrStat, if_neg hleft]
      rfl

end Sys2Proof.Proofs
end

section
/-! PROOFS. REBUILD on either side, and LOST_CMD (15 R432 to R437, R443). -/
namespace Sys2Proof.Proofs
open Sys2Proof Machine Safety Laws

/-! ### Blocks marked LOST -/

section
variable {s : State} {x : Nat}

/-- An operation on blocks that changes a block once however often it names it. -/
theorem blockGet_foldl_blockSet {f : Block → Block} (hf : ∀ k, f (f k) = f k) (bs : List Nat) (s : State) (x : Nat) :
    blockGet (bs.foldl (fun s b => blockSet s b f) s) x = if x ∈ bs then f (blockGet s x) else blockGet s x := by
  induction bs generalizing s with
  | nil => rfl
  | cons b bs ih =>
    rw [List.foldl_cons, ih, blockGet_blockSet]
    by_cases hx : x = b
    · simp [hx, hf]
    · simp [hx]

/-- The blocks of extents, one after another. -/
def blocksOf (xs : List Nat) : List Nat := xs.flatMap (fun x => (List.range extentBlocks).map (extentBlocks * x + ·))

theorem mem_blocksOf {xs : List Nat} {b : Nat} : b ∈ blocksOf xs ↔ b / 16384 ∈ xs := by
  simp only [blocksOf, List.mem_flatMap, List.mem_map, List.mem_range, show extentBlocks = 16384 from rfl]
  constructor
  · rintro ⟨x, hx, i, hi, rfl⟩
    rwa [show (16384 * x + i) / 16384 = x by omega]
  · exact fun h => ⟨_, h, b % 16384, by omega, by omega⟩

theorem markLost_eq (s : State) (xs : List Nat) :
    markLost s xs = (blocksOf xs).foldl (fun s b => blockSet s b (fun k => { k with lost := true })) s := by
  rw [markLost, blocksOf, List.foldl_flatMap]
  simp only [List.foldl_map]

theorem blockGet_markLost (s : State) (xs : List Nat) (b : Nat) : blockGet (markLost s xs) b =
    if b / 16384 ∈ xs then { blockGet s b with lost := true } else blockGet s b := by
  rw [markLost_eq, blockGet_foldl_blockSet (f := fun k => { k with lost := true }) (fun _ => rfl)]
  simp only [mem_blocksOf]

theorem markLost_sync (s : State) (xs : List Nat) : (markLost s xs).sync = s.sync := by
  rw [markLost_eq]
  exact List.foldlRecOn (motive := fun (t : State) => t.sync = s.sync) _ _ rfl fun _ h _ _ => h

theorem hubGet_markLost (s : State) (xs : List Nat) (k : Nat) : hubGet (markLost s xs) k = hubGet s k := by
  rw [hubGet, markLost_sync, hubGet]

end

/-! ### The end of a rebuild (R437) -/

section
variable (s : State) (r : Rebuild) (st : Status)

theorem closeRebuild_logsOnly : LogsOnly
    (s.setStore (fun z => { z with rebuild := none, rebuildStat := rebuildWord r st })) (closeRebuild s r st) := by
  simp only [closeRebuild]
  split
  · exact logEvt_logsOnly ..
  · exact logErr_logsOnly ..

theorem closeRebuild_queue (q : Nat) : (closeRebuild s r st).queue q = s.queue q := by
  rw [State.queue, (closeRebuild_logsOnly s r st).work]
  rfl

theorem finishRebuild_store : (finishRebuild s r st).store = { s.store with rebuild := none, rebuildStat := rebuildWord r st } := by
  rw [finishRebuild, endCommand_queuesOnly]
  exact (closeRebuild_logsOnly s r st).store

end

/-- The command that a rebuild carries out is the one that ends with it. -/
theorem mem_finishRebuild_ended {s : State} {r : Rebuild} {st : Status} {a : Active}
    (h : (s.queue r.q).active.find? (fun b => b.idx = r.tag) = some a) :
    ⟨r.q, a, st, BitVec.ofNat 64 (r.done % 2 ^ 32 + 2 ^ 32 * (r.done / 16384))⟩ ∈ (finishRebuild s r st).work.ended := by
  simp only [finishRebuild, endCommand, closeRebuild_queue, h]
  exact List.mem_append_right _ (List.mem_singleton.mpr rfl)

/-- The mirror entry of an extent of the own home names the spare (R436). -/
theorem mirrorAfter_own {s : State} {r : Rebuild} {x i : Nat} {v : W64} (hown : r.srcHome = s.store.homeId)
    (hv : mirrorOf s x = some (i, v)) : tget 0 (mirrorAfter s r x).store.mirror i =
      BitVec.ofNat 64 (v.toNat % 2 ^ 16 + 2 ^ 16 * (r.peer.toNat % 64)) ||| (v &&& 0xC00000) := by
  have hx : (rebuildExtent s r.srcHome x true).getD 0 = x := by rw [rebuildExtent, if_pos hown]; rfl
  simp only [mirrorAfter, hx, hv, setStore_store, tget_tput, if_pos, bits_zero]

/-! ### The command -/

section
variable {s u : State} {q : Nat} {e : W512} {c : Cmd} (h : Starts s q e rebuildFields .work c u) (hop : fld e 0 1 = 0x0D)
include h hop

theorem exec_rebuildSend (hs : fld e 16 1 = 1) {st : Status}
    (hst : (if u.store.rebuild.isSome then stBusy else sendStatus u (rebuildOf u c true)) = st) :
    exec (.rebuildSend q e) s =
      .next (settle (if st ≠ 0 then failCmd u c st else startRebuild u (rebuildOf u c true))) := by
  rw [Laws.exec_rebuildSend, Machine.execRebuildSend]
  exact cmdRow_of_starts h (by simp [opcodeOf, hop, hs]) (by simp only [hst])

theorem exec_rebuildReceive (hs : fld e 16 1 = 2) {st : Status}
    (hst : (if u.store.rebuild.isSome then stBusy else receiveStatus u (rebuildOf u c false)) = st) :
    let r := rebuildOf u c false
    exec (.rebuildReceive q e) s = .next (settle (if st ≠ 0 then failCmd u c st
      else startRebuild (markLost (hubSet u r.counter 0)
        ((rebuildExtents r).map (fun x => (rebuildExtent u r.srcHome x false).getD 0))) r)) := by
  rw [Laws.exec_rebuildReceive, Machine.execRebuildReceive]
  exact cmdRow_of_starts h (by simp [opcodeOf, hop, hs]) (by simp only [hst])

end

theorem exec_rebuildSendDone_of_copied {s : State} {r : Rebuild} (h : s.store.rebuild = some r) (hsend : r.send = true)
    (hbad : r.bad = 0) (hopen : r.open_ = 0) (hcopied : r.copied = rebuildTotal r) (hdone : r.done = r.copied) :
    exec .rebuildSendDone s =
      .next (settle (finishRebuild ((rebuildExtents r).foldl (fun s x => mirrorAfter s r x) s) r 0)) := by
  rw [Laws.exec_rebuildSendDone, execRebuildSendDone]
  simp only [h]
  rw [if_pos ⟨hsend, hbad, hopen, hcopied, hdone⟩]

theorem exec_rebuildStall_of_stalled {s : State} {r : Rebuild} (h : s.store.rebuild = some r) (hsend : r.send = false)
    (hstill : (hubGet s r.counter).toNat ≤ r.done) :
    exec .rebuildStall s = .next (settle (finishRebuild s r stLost)) := by
  rw [Laws.exec_rebuildStall, execRebuildStall]
  simp only [h, hsend]
  rw [if_neg (by simpa using hstill)]

/-- LOST_CMD with GO within HOME_LEN (R443). -/
theorem exec_lostCmd_go {s : State} {src : RegSrc} {v : W64} (hok : src.ok = true) (hsrc : ∀ n, src ≠ .vf n)
    (hup : mainUp s = true) (hgo : v.getLsbD 32 = true)
    (hlen : (bits v.toNat 0 16 + bits v.toNat 16 13) * 2 ^ 30 ≤ s.store.homeLen) : exec (.lostCmd src v) s =
      .next (markLost s ((List.range (bits v.toNat 16 13)).map (· + bits v.toNat 0 16))) := by
  have hpf : ByPf s src pPLC → exec (.lostCmd src v) s =
      .next (markLost s ((List.range (bits v.toNat 16 13)).map (· + bits v.toNat 0 16))) := by
    intro h
    rw [Laws.exec_lostCmd, execLostCmd, hok, lostWrite, pfOnly_byPf _ (by decide) (by decide) h]
    simp only [hgo]
    rw [if_neg (by simp), if_neg (by omega)]
    rfl
  exact hpf ⟨hok, hsrc, hup, rfl⟩

theorem mem_map_add_range {n x b : Nat} : b ∈ (List.range n).map (· + x) ↔ x ≤ b ∧ b < x + n := by
  simp only [List.mem_map, List.mem_range]
  exact ⟨fun ⟨i, hi, hb⟩ => by omega, fun h => ⟨b - x, by omega, by omega⟩⟩

/-- Settles O32: what each of the three commands does, and how a rebuild ends on either side. -/
theorem rebuilding : Obligations.Rebuilding := by
  intro s u q e c
  refine ⟨fun h hop => ⟨fun hs hbusy => ?_, fun hs hnone hst => ?_, fun hs hnone hst => ?_, fun hs hbusy => ?_,
    fun hs hnone hst => ?_⟩, fun r hr hsend hbad hopen hcopied hdone => ?_, fun r hr hsend hstill => ?_,
    fun src v hok hsrc hup hgo hlen => ?_⟩
  · rw [exec_rebuildSend h hop hs (st := stBusy) (by simp [Option.isSome_iff_ne_none.mpr hbusy])]
    rfl
  · rw [hs] at hst ⊢
    rw [exec_rebuildSend h hop hs rfl, hnone]
    exact congrArg _ (congrArg _ (if_pos hst))
  · rw [hs] at hst ⊢
    exact exec_rebuildSend h hop hs (st := 0) (by rw [hnone]; exact hst)
  · rw [exec_rebuildReceive h hop hs (st := stBusy) (by simp [Option.isSome_iff_ne_none.mpr hbusy])]
    rfl
  · rw [hs] at hst ⊢
    refine ⟨_, exec_rebuildReceive h hop hs (st := 0) (by rw [hnone]; exact hst), rfl, fun k => ?_, ?_⟩
    · exact (hubGet_markLost ..).trans (tget_tput ..)
    · intro x l i hx hl hi
      refine congrArg Block.lost ((blockGet_markLost ..).trans (if_pos (List.mem_map.mpr ⟨x, hx, ?_⟩)))
      have hl : rebuildExtent u (rebuildOf u c false).srcHome x false = some l := hl
      rw [hl, Option.getD_some]
      omega
  · refine ⟨_, exec_rebuildSendDone_of_copied hr hsend hbad hopen hcopied hdone, by rw [finishRebuild_store], ?_⟩
    intro hown hcount i v hv
    have hexts : rebuildExtents r = [r.extent.toNat] := by simp [rebuildExtents, hcount]
    rw [finishRebuild_store, hexts]
    show tget 0 (mirrorAfter s r r.extent.toNat).store.mirror i = _
    exact mirrorAfter_own hown hv
  · exact ⟨_, exec_rebuildStall_of_stalled hr hsend hstill, by rw [finishRebuild_store], fun a ha =>
      mem_finishRebuild_ended ha⟩
  · refine ⟨_, exec_lostCmd_go hok hsrc hup hgo hlen, fun b => ?_⟩
    rw [blockGet_markLost]
    simp only [mem_map_add_range]
    refine if_congr ?_ rfl rfl
    omega

end Sys2Proof.Proofs
end

section
/-! SUPPORT. Alerts, error bits and ERR_FIRST, and writes that are dropped (15 R409 to R413; 17 R473, R477; 19 R524). -/
namespace Sys2Proof.Proofs
open Sys2Proof Machine Safety Laws

theorem getLsbD_ofNat_two_pow {w b : Nat} (h : b < w) : (BitVec.ofNat w (2 ^ b)).getLsbD b = true := by
  rw [BitVec.getLsbD_ofNat, Nat.testBit_two_pow_self, decide_eq_true h, Bool.and_true]

/-! ### Alerts (R524) -/

section
variable (s : State) (b : Nat)

/-- An alert changes the ALERT bits and the output alone. -/
theorem raiseAlert_eq : raiseAlert s b = { s with
    out := (raiseAlert s b).out, power := { s.power with alert := (raiseAlert s b).power.alert } } := by
  unfold raiseAlert
  split <;> rfl

@[simp] theorem raiseAlert_lamp : (raiseAlert s b).lamp = s.lamp := by rw [raiseAlert_eq]
@[simp] theorem raiseAlert_lantern : (raiseAlert s b).lantern = s.lantern := by rw [raiseAlert_eq]
@[simp] theorem raiseAlert_host : (raiseAlert s b).host = s.host := by rw [raiseAlert_eq]
@[simp] theorem raiseAlert_cycleReq : (raiseAlert s b).power.cycleReq = s.power.cycleReq := by rw [raiseAlert_eq]

theorem raiseAlert_bit {b : Nat} (h : b < 16) : (raiseAlert s b).power.alert.getLsbD b = true := by
  unfold raiseAlert
  split
  next hb => exact hb
  next => exact (BitVec.getLsbD_or ..).trans (by rw [getLsbD_ofNat_two_pow h, Bool.or_true])

end

/-! ### Error bits (R477) -/

theorem regGet_bumpSat (s : State) (k width n : Nat) {j : Nat} (h : j ≠ k) : regGet (bumpSat s k width n) j = regGet s j :=
  (regGet_setReg ..).trans (if_neg h)

/-- An error sets its bit in the page's ERR_STAT. -/
theorem logErr_errStat (s : State) (p : Nat) {b : Nat} (f : Fail) (hb : b < 64) :
    (regGet (logErr s p b f) (rk p 0x20)).getLsbD b = true := by
  have hbit (v : W64) : (v ||| BitVec.ofNat 64 (2 ^ b)).getLsbD b = true := by
    rw [BitVec.getLsbD_or, getLsbD_ofNat_two_pow hb, Bool.or_true]
  have h30 : rk p 0x20 ≠ rk p 0x30 := rk_ne (by decide) (by decide) (by decide)
  have h38 : rk p 0x20 ≠ rk p 0x38 := rk_ne (by decide) (by decide) (by decide)
  have h40 : rk p 0x20 ≠ rk p 0x40 := rk_ne (by decide) (by decide) (by decide)
  unfold logErr
  dsimp only
  rw [regGet_withVectors]
  split
  · rw [regGet_setReg, if_neg h38, regGet_setReg, if_neg h30, regGet_bumpSat _ _ _ _ h40, regGet_setReg, if_pos rfl]
    exact hbit _
  · rw [regGet_bumpSat _ _ _ _ h40, regGet_setReg, if_pos rfl]
    exact hbit _

/-- ERR_FIRST keeps the first error of those that ERR_STAT holds. -/
theorem logErr_errFirst {s : State} {p : Nat} (b : Nat) (f : Fail) (h : regGet s (rk p 0x20) ≠ 0) :
    regGet (logErr s p b f) (rk p 0x30) = regGet s (rk p 0x30) := by
  have h20 : rk p 0x30 ≠ rk p 0x20 := rk_ne (by decide) (by decide) (by decide)
  have h40 : rk p 0x30 ≠ rk p 0x40 := rk_ne (by decide) (by decide) (by decide)
  unfold logErr
  dsimp only
  rw [regGet_withVectors, if_neg (by simpa using h), regGet_bumpSat _ _ _ _ h40, regGet_setReg, if_neg h20]
  exact regGet_pushRecord _ _ (rk_ne (by decide) (by decide) (by decide))

/-! ### Dropped writes (R473) -/

theorem dropWrite_logsOnly (s : State) (src : RegSrc) (off : Nat) : LogsOnly s (dropWrite s src off) := by
  unfold dropWrite
  dsimp only
  split <;> rfl

end Sys2Proof.Proofs
end

section
/-! PROOFS. Error records, their exports, the beacon and the Lamplighter's restarts (15 R413 to R418, R441; log entries 75
and 93). -/
namespace Sys2Proof.Proofs
open Sys2Proof Machine Safety Laws

/-! ### The ring and its exports (R413, R414) -/

section
variable {s : State} {p : Nat} {x : Export}

theorem exec_errorRecordWrite_of_on {island : Byte} (hon : s.power.mainOn = true) :
    exec (.errorRecordWrite island) s = .next (writeRecord s island.toNat) := by
  rw [Laws.exec_errorRecordWrite, execErrorRecordWrite, if_pos hon]

/-- The oldest record of an island's queue, written with the next SEQ. -/
theorem writeRecord_oldest {island : Nat} {r : Record} {cap : Option Nat} {rest : List (Record × Option Nat)}
    (h : tget [] s.errs.queues island = (r, cap) :: rest) : let t := writeRecord s island
    tget [] t.errs.queues island = rest ∧
      tfind t.errs.ring (s.errs.seq.toNat % 262144) = some { r with seq := s.errs.seq } ∧ t.errs.seq = s.errs.seq + 1 := by
  simp only [writeRecord, h]
  cases cap <;> simp [tfind_tput]

/-- The upper half of a word whose upper half has been replaced. -/
theorem extract_upper_half (a : W64) (n : W32) :
    ((a &&& (0xFFFFFFFF : W64)) ||| (n.setWidth 64 <<< 32)).extractLsb' 32 32 = n := by
  ext i hi
  have hmask : (0xFFFFFFFF : W64).getLsbD (32 + i) = false := by
    rw [show (0xFFFFFFFF : W64) = BitVec.ofNat 64 (2 ^ 32 - 1) from rfl, BitVec.getLsbD_ofNat, Nat.testBit_two_pow_sub_one]
    simp
  rw [BitVec.getElem_extractLsb', BitVec.getLsbD_or, BitVec.getLsbD_and, hmask, Bool.and_false, Bool.false_or,
    BitVec.getLsbD_shiftLeft, Nat.add_sub_cancel_left, BitVec.getLsbD_setWidth, BitVec.getLsbD_eq_getElem hi]
  simp [show 32 + i < 64 by omega, show i < 64 by omega]

/-- The ERR_FIRST that waited for the record gets its SEQ. -/
theorem writeRecord_capture {island : Nat} {r : Record} {rest : List (Record × Option Nat)}
    (h : tget [] s.errs.queues island = (r, some p) :: rest) :
    (regGet (writeRecord s island) (rk p 0x30)).extractLsb' 32 32 = s.errs.seq := by
  simp only [writeRecord, h, regGet_setReg, if_pos]
  exact extract_upper_half _ _

theorem exportOf_setExport (f : Export → Export) (q : Nat) :
    exportOf (setExport s p f) q = if q = p then f (exportOf s p) else exportOf s q := tget_tmod ..

/-- Nothing is skipped where the ring still holds the next record. -/
theorem skipLost_of_held (h : (s.errs.seq - (exportOf s p).next).toNat ≤ 262144) : skipLost s p = s := if_pos h

theorem exec_recordExport_of_serves {part : BitVec 6} {hc : HostCpl} (hserves : lampServes s = true)
    (hon : (exportOf s part.toNat).enabled = true) (hrun : frozen s = false) :
    exec (.recordExport part hc) s = .next (exportRecord s part.toNat hc) := by
  rw [Laws.exec_recordExport, execRecordExport, hserves, hon, hrun]
  rfl

section
variable {r : Record} (hheld : (s.errs.seq - (exportOf s p).next).toNat ≤ 262144) (hnext : nextRecord s p = some r)
include hheld hnext

theorem exportRecord_full {hc : HostCpl} (hfull : (exportOf s p).full = true) : exportRecord s p hc =
    logEvt (dropExport (setExport s p (fun x => { x with next := r.seq + 1 })) p 1) pLMP 0 := by
  simp only [exportRecord, skipLost_of_held hheld, hnext, hfull, if_pos]

/-- A record copied to a ring in the part's own memory, with no counter and no vector to tell. -/
theorem exportRecord_copied {hc : HostCpl} {y : Unit} {t : State} (hx : exportOf s p = x) (hfull : x.full = false)
    (hring : x.ring.getLsbD 63 = false) (hcount : x.cfg.getLsbD 42 = false) (hvec : x.cfg.getLsbD 54 = false)
    (hrun : runEng (writeDva (exportWho p x) .l2 (bits x.ring.toNat 6 51 * 64 + 64 * (x.head.toNat % 2 ^ x.n))
      (recordBytes r)) s = some (.ok y, t)) : exportRecord s p hc =
    setExport (setExport t p (fun x => { x with next := r.seq + 1 })) p (fun x => { x with head := x.head + 1 }) := by
  simp only [exportRecord, skipLost_of_held hheld, hnext, hx, hfull, hring, hcount, hvec, hrun, if_neg, Bool.false_eq_true,
    not_false_eq_true]

end

end

/-! ### The beacon (R416) -/

section
variable {s : State}

theorem exec_beacon_of_serves (hserves : lampServes s = true) (hboot : s.lamp.booting = false) :
    exec .beacon s = .next (sendBeacon s) := by
  rw [Laws.exec_beacon, execBeacon, hserves, hboot]
  rfl

/-- Steps of an operation over a list that each leave the Lamplighter as it was. -/
theorem foldl_lamp {α : Type} {f : State → α → State} (h : ∀ u a, (f u a).lamp = u.lamp) (l : List α) (u : State) :
    (l.foldl f u).lamp = u.lamp := by
  induction l generalizing u with
  | nil => rfl
  | cons a l ih => exact (ih _).trans (h u a)

/-- A frame on each of the two management links. -/
theorem frames_spec (u : State) (b : List Byte) :
    let t := (List.range 2).foldl (fun s k => emit s (.frame 1 k none 0 [.bytes b])) u
    t.lamp = u.lamp ∧ ∀ k < 2, Out.frame 1 k none 0 [.bytes b] ∈ t.out := by
  refine ⟨rfl, fun k hk => ?_⟩
  show _ ∈ u.out ++ [.frame 1 0 none 0 [.bytes b]] ++ [.frame 1 1 none 0 [.bytes b]]
  interval_cases k <;> simp

/-- A beacon is counted, and each of the two management links carries its frame. -/
theorem sendBeacon_spec (s : State) : (sendBeacon s).lamp.beacon = s.lamp.beacon + 1 ∧ ∀ k < 2,
    ∃ rest, Out.frame 1 k none 0 [.bytes (leBytes 8 (s.lamp.beacon + 1).toNat ++ rest)] ∈ (sendBeacon s).out := by
  unfold sendBeacon
  extract_lets counted n a at_ link hosted sent id tail body
  have hsent : sent.lamp = hosted.lamp := foldl_lamp (fun u k => by split <;> rfl) _ _
  have hhosted : hosted.lamp = counted.lamp := by
    simp only [hosted]
    split <;> rfl
  obtain ⟨hlamp, hout⟩ := frames_spec sent body
  refine ⟨by rw [hlamp, hsent, hhosted]; rfl, fun k hk => ⟨leBytes 8 sent.lamp.moduleTime.toNat ++
    leBytes 8 (regGet sent (rk pTOP 0x108)).toNat ++ leBytes 8 tail, ?_⟩⟩
  have hbody : body = leBytes 8 (s.lamp.beacon + 1).toNat ++ (leBytes 8 sent.lamp.moduleTime.toNat ++
      leBytes 8 (regGet sent (rk pTOP 0x108)).toNat ++ leBytes 8 tail) := by
    simp only [body, List.append_assoc]
    rfl
  exact hbody ▸ hout k hk

end

/-! ### Hangs and restarts (R417, R418) -/

section
variable {s : State}

theorem exec_watchdogHang_of_up {within : Bool} (hon : s.power.mainOn = true) (hboot : s.lamp.booting = false)
    (hup : s.lamp.gaveUp = false) : exec (.watchdogHang within) s = .next (declareHang s within) := by
  rw [Laws.exec_watchdogHang, execWatchdogHang, hon, hboot, hup]
  rfl

theorem dropHeldWrites_lamp (s : State) : (dropHeldWrites s).lamp = { s.lamp with heldWrites := [] } :=
  foldl_lamp (fun _ _ => (dropWrite_logsOnly ..).lamp) _ _

/-- The third hang within 10 s of the first makes the watchdog give up. -/
theorem declareHang_givesUp {within : Bool} (h : 3 ≤ if within then s.lamp.hangs + 1 else 1) :
    (declareHang s within).lamp.gaveUp = true ∧ (declareHang s within).lamp.restarting = false ∧
      (declareHang s within).power.alert.getLsbD 2 = true := by
  simp only [declareHang, if_pos h, raiseAlert_lamp, (logErr_logsOnly ..).lamp, dropHeldWrites_lamp]
  exact ⟨rfl, rfl, raiseAlert_bit _ (by decide)⟩

/-- An earlier hang restarts the Lamplighter. -/
theorem declareHang_restarts {within : Bool} (hup : s.lamp.gaveUp = false)
    (h : (if within then s.lamp.hangs + 1 else 1) < 3) :
    (declareHang s within).lamp.gaveUp = false ∧ (declareHang s within).lamp.restarting = true ∧
      (declareHang s within).power.alert.getLsbD 1 = true ∧
      (s.lamp.restarts ≠ 255 → (declareHang s within).lamp.restarts = s.lamp.restarts + 1) := by
  have hbit (u : State) : (raiseAlert u 1).power.alert.getLsbD 1 = true := raiseAlert_bit u (by decide)
  unfold declareHang
  rw [if_neg (Nat.not_le.mpr h)]
  by_cases hwrap : s.lamp.restarts = 255#8
  · simp [hwrap, hbit, (logErr_logsOnly ..).lamp, draw, hup]
  · simp [hwrap, hbit, (logErr_logsOnly ..).lamp, hup]

theorem applyHeldWrites_nil (h : s.lamp.heldWrites = []) : applyHeldWrites s = s := by
  have hsame : s.setLamp (fun l => { l with heldWrites := [] }) = s := by
    rw [State.setLamp, ← h]
  rw [applyHeldWrites, hsame, h]
  rfl

theorem exec_lamplighterResume_of_none (h : s.lamp.restarting = true) (hheld : s.lamp.heldWrites = []) :
    exec .lamplighterResume s = .next (settle (emit
      ((s.setLamp (fun l => { l with restarting := false })).setMon (fun m => { m with sessions := [] }))
      (.serialBanner s.lamp.beacon))) := by
  rw [Laws.exec_lamplighterResume, execLamplighterResume, h]
  exact congrArg (fun u => Host.Outcome.next (settle (emit u _))) (applyHeldWrites_nil hheld)

theorem exec_copyEngineHang_of_holds {n : Nat} {int : Bool} {g : Option Nat} (hn : n < 32)
    (h : int = true ∨ copyHolds s n = true) :
    exec (.copyEngineHang n int g) s = .next (suspectReplay s n (if int then stUncorr else stReset) g) := by
  have hok : copyOk n = true := decide_eq_true hn
  rw [Laws.exec_copyEngineHang, execCopyEngineHang, hok, if_neg (by rcases h with h | h <;> simp [h])]
  rfl

end

end Sys2Proof.Proofs
end

section
/-! PROOFS. Resets, their escalation, and fatal stops (15 R423, R426, R427, R429; 17 R476; log entry 61). -/
namespace Sys2Proof.Proofs
open Sys2Proof Machine Safety Laws

/-! ### RESET_CMD (R423) -/

section
variable {s : State} {src : RegSrc} {v : W64}

theorem bits_level (v : W64) : bits v.toNat 0 3 = v.toNat % 8 := bits_zero ..

/-- A write of RESET_CMD that names a level, by the row of that level. -/
theorem resetRow_of_level {n : Nat} (hok : src.ok = true) (hn : v.toNat % 8 = n) :
    resetRow src v n s = .next (resetWrite s src v) := by
  rw [resetRow, hok, bits_level, if_pos hn]
  rfl

/-- A reset that its source may not ask for is refused. -/
theorem resetWrite_refused (h : mayReset s src (v.toNat % 8) (v.toNat / 2 ^ 32 % 2 ^ 20) = false) :
    resetWrite s src v = refuse s pTOP 1 0x100 := by
  have hbits : bits v.toNat 32 20 = v.toNat / 2 ^ 32 % 2 ^ 20 := rfl
  unfold resetWrite
  exact if_pos (.inr (.inr (.inr (.inl (by rw [bits_level, hbits, h]; rfl)))))

/-- A reset that may begin. -/
theorem resetWrite_begins (hlevel : v.toNat % 8 ∈ [1, 2, 3, 4])
    (htarget : targetOk (v.toNat % 8) (v.toNat / 2 ^ 32 % 2 ^ 20) = true)
    (hmay : mayReset s src (v.toNat % 8) (v.toNat / 2 ^ 32 % 2 ^ 20) = true) (hup : s.lamp.gaveUp = false) :
    resetWrite s src v = beginReset s (v.toNat % 8) (v.toNat / 2 ^ 32 % 2 ^ 20)
      (v.toNat % 8 == 4 && v.getLsbD 3) (v.toNat % 8 == 4 && v.getLsbD 4) := by
  have hrange : 1 ≤ v.toNat % 8 ∧ v.toNat % 8 ≤ 4 := by
    simp only [List.mem_cons, List.not_mem_nil, or_false] at hlevel
    omega
  unfold resetWrite
  rw [bits_level, show bits v.toNat 32 20 = v.toNat / 2 ^ 32 % 2 ^ 20 from rfl]
  dsimp only
  rw [htarget, hmay, hup, if_neg (by simp; omega), if_neg (by omega)]
  rfl

/-- Level 5 asks for a power cycle. -/
theorem resetWrite_cycle (hlevel : v.toNat % 8 = 5) (hmay : mayReset s src 5 (v.toNat / 2 ^ 32 % 2 ^ 20) = true)
    (hup : s.lamp.gaveUp = false) :
    resetWrite s src v = requestCycle (setResetStat s true 5 0 (v.toNat / 2 ^ 32 % 2 ^ 20)) := by
  unfold resetWrite
  rw [bits_level, hlevel, show bits v.toNat 32 20 = v.toNat / 2 ^ 32 % 2 ^ 20 from rfl]
  dsimp only
  rw [hmay, hup]
  rfl

/-- A power cycle is asked for by its request and an alert. -/
theorem requestCycle_spec (s : State) : (requestCycle s).power.cycleReq = true ∧
    (requestCycle s).power.alert.getLsbD 4 = true ∧ (requestCycle s).lamp = s.lamp :=
  ⟨raiseAlert_cycleReq .., raiseAlert_bit _ (by decide), raiseAlert_lamp ..⟩

/-- A reset inside a running one joins it. -/
theorem beginReset_joins {lv tg : Nat} {re ma : Bool} (h : s.lamp.running.any (fun y => scopeHolds s y lv tg) = true) :
    beginReset s lv tg re ma = setResetStat (s.setLamp (fun l =>
      { l with running := l.running ++ [⟨lv, tg, re, ma, true⟩] })) true lv 0 tg := by
  simp only [beginReset, startReset, h, if_pos]

theorem beginReset_first {lv tg : Nat} {re ma : Bool} (h : s.lamp.running = []) :
    beginReset s lv tg re ma = settle (resetActs (setResetStat (s.setLamp (fun l =>
      { l with running := [⟨lv, tg, re, ma, false⟩] })) true lv 0 tg) lv tg re ma) := by
  simp [beginReset, startReset, h]

end

/-! ### Marks of a reset's scope (R426, R427) -/

theorem resetActs_sconce (s : State) {sc : Nat} (h : sc < 64) (retrain margin : Bool) :
    ((resetActs s 2 sc retrain margin).sconce sc).resetting = true := by
  simp [resetActs, h, markSconce]

theorem resetActs_copy (s : State) (n : Nat) (retrain margin : Bool) :
    n ∈ (resetActs s 2 (64 + n) retrain margin).work.copyReset := by
  simp [resetActs, markCopy, mem_setInsert]

theorem markPart_partReset (s : State) (p : BitVec 6) : p ∈ (markPart s p).work.partReset := by
  have hfold (l : List Nat) (u : State) : (l.foldl markSconce u).work = u.work := by
    induction l generalizing u with
    | nil => rfl
    | cons a l ih => exact ih _
  rw [markPart, hfold, setWork_work]
  dsimp only
  split
  next h => simpa using h
  next => simp

theorem resetActs_part (s : State) (p : BitVec 6) (retrain margin : Bool) :
    p ∈ (resetActs s 3 p.toNat retrain margin).work.partReset := by
  simp only [resetActs, BitVec.ofNat_toNat, BitVec.setWidth_eq]
  exact markPart_partReset ..

/-! ### A sconce's CTRL (R476) -/

section
variable {s : State} {src : RegSrc} {sc : Nat} (hsc : sc < 64) (hpf : ByPf s src (pSCN sc))
include hsc hpf

theorem pfOnly_sconce (f : State → State) : pfOnly s src (rk (pSCN sc) 0x10) f = f s :=
  pfOnly_byPf f (by simp only [pSCN]; omega) (by decide) hpf

theorem exec_quiesce_byPf (on : Bool) : exec (.quiesce src sc on) s =
    .next (settle (s.setSconce sc (fun c => { c with quiesce := on }))) := by
  have hok : sconceOk sc = true := decide_eq_true hsc
  rw [Laws.exec_quiesce, execQuiesce, quiesceWrite, pfOnly_sconce hsc hpf, hpf.1, hok]
  rfl

theorem exec_sconceReset_byPf : exec (.sconceReset src sc) s = .next (beginReset s 2 sc false false) := by
  have hok : sconceOk sc = true := decide_eq_true hsc
  rw [Laws.exec_sconceReset, execSconceReset, sconceResetWrite, pfOnly_sconce hsc hpf, hpf.1, hok]
  rfl

end

/-! ### A missed bound (R423) -/

/-- The state in which the next level starts: the miss is recorded and counted. -/
def boundMissed (s : State) : State := (logErr s pTOP 0 { status := stReset }).setLamp (fun l =>
  { l with escalated := if l.escalated = 255 then 255 else l.escalated + 1 })

theorem boundMissed_sconceOwner (s : State) (sc : Nat) : sconceOwner (boundMissed s) sc = sconceOwner s sc :=
  congrArg (fun (w : Work) => tget 0 w.sconceOwner sc) (logErr_logsOnly ..).work

theorem exec_resetOverrun_of_running {s : State} {r : Running}
    (h : s.lamp.running.find? (fun y => y.level == r.level && y.target == r.target && !y.taken) = some r) :
    exec (.resetOverrun r.level r.target) s = .next (settle (Machine.overrun s r)) := by
  rw [Laws.exec_resetOverrun, execResetOverrun, h]

theorem overrun_sconce {s : State} {r : Running} (hlevel : r.level = 2) (h : r.target < 64) :
    Machine.overrun s r = autoReset (boundMissed s) 3 (sconceOwner s r.target).toNat false := by
  rw [← boundMissed_sconceOwner]
  simp [Machine.overrun, hlevel, h, boundMissed]

theorem overrun_copy {s : State} {r : Running} (hlevel : r.level = 2) (h : 64 ≤ r.target) :
    Machine.overrun s r = autoReset (boundMissed s) 4 0 false := by
  simp [Machine.overrun, hlevel, Nat.not_lt.mpr h, boundMissed]

theorem overrun_part {s : State} {r : Running} (hlevel : r.level = 3) :
    Machine.overrun s r = autoReset (boundMissed s) 4 0 false := by simp [Machine.overrun, hlevel, boundMissed]

/-! ### Fatal stops (R429) -/

theorem tget_map_of_default {α : Type} (g : α → α) (d : α) (hd : g d = d) (m : NatMap α) (k : Nat) :
    tget d (m.map (fun e => (e.1, g e.2))) k = g (tget d m k) := by
  induction m with
  | nil => exact hd.symm
  | cons e r ih =>
    simp only [List.map_cons, tget, ih]
    split <;> rfl

/-- A dump that begins stops the ports and the host link. -/
theorem beginDump_begins {s : State} (h : s.lamp.dump = none) (cause : Byte) (st : Status) (sensor : Byte) (temp : W16) :
    let t := beginDump s cause st sensor temp
    t.host.stopped = true ∧ t.lamp.fatal = s.lamp.fatal ∧ t.power = s.power ∧
      (∃ d, t.lamp.dump = some d ∧ d.cause = cause ∧ d.status = st) ∧
      ∀ k, (t.port k).state = if (s.port k).state = 0 then 0 else 5 := by
  simp only [beginDump, h]
  refine ⟨rfl, rfl, rfl, ⟨_, rfl, rfl, rfl⟩, fun k => ?_⟩
  refine (congrArg Port.state (tget_map_of_default (fun p : Port => if p.state = 0 then p else { p with state := 5 })
    Port.down rfl s.lantern.ports k)).trans ?_
  show (if (s.port k).state = 0 then s.port k else _).state = _
  split <;> simp_all

theorem beginDump_fatal (s : State) (cause : Byte) (st : Status) (sensor : Byte) (temp : W16) :
    (beginDump s cause st sensor temp).lamp.fatal = s.lamp.fatal := by
  unfold beginDump
  split <;> rfl

theorem fatalStop_fatal (s : State) (c sensor : Byte) (temp : W16) : (fatalStop s c sensor temp).lamp.fatal = true := by
  unfold fatalStop
  dsimp only
  rw [beginDump_fatal, raiseAlert_lamp]
  rfl

/-- A fatal stop that no dump precedes freezes the engines and the host link, and begins one. -/
theorem fatalStop_spec {s : State} (h : s.lamp.dump = none) (c sensor : Byte) (temp : W16) :
    ∃ d, let t := fatalStop s c sensor temp
    t.host.stopped = true ∧ frozen t = true ∧ t.power.alert.getLsbD 3 = true ∧ t.lamp.dump = some d ∧ d.cause = c ∧
      d.status = (if c = 1 then stReset else stUncorr) ∧ ∀ k, (t.port k).state = if (s.port k).state = 0 then 0 else 5 := by
  have hfatal := fatalStop_fatal s c sensor temp
  revert hfatal
  unfold fatalStop
  extract_lets st pg logged stopped
  intro hfatal
  have hlog : LogsOnly s logged := logRecord_logsOnly ..
  have hdump : stopped.lamp.dump = none := by
    rw [show stopped.lamp = { logged.lamp with fatal := true } from raiseAlert_lamp .., hlog.lamp, ← h]
  have hports (k : Nat) : stopped.port k = s.port k := by
    rw [State.port, raiseAlert_lantern]
    show logged.port k = s.port k
    rw [hlog]
    rfl
  obtain ⟨hhost, -, hpower, ⟨d, hd, hcause, hst⟩, hstates⟩ := beginDump_begins hdump c st sensor temp
  refine ⟨d, hhost, (congrArg (· || _) hfatal).trans (Bool.true_or _), ?_, hd, hcause, hst, fun k => ?_⟩
  · rw [hpower]
    exact raiseAlert_bit _ (by decide)
  · rw [hstates, hports]

/-! ### The statement -/

section
variable {s : State} {src : RegSrc} {v : W64} (hok : src.ok = true)
include hok

/-- The rows of RESET_CMD, each for its level. -/
theorem exec_reset_of_level {i : Instr} (h : (v.toNat % 8, i) ∈ [(1, (.contextReset src v : Instr)),
    (2, .engineReset src v), (3, .partitionReset src v), (4, .computeReset src v), (5, .powerCycleRequest src v)]) :
    exec i s = .next (resetWrite s src v) := by
  simp only [List.mem_cons, Prod.mk.injEq, List.not_mem_nil, or_false] at h
  rcases h with ⟨hn, rfl⟩ | ⟨hn, rfl⟩ | ⟨hn, rfl⟩ | ⟨hn, rfl⟩ | ⟨hn, rfl⟩ <;> exact resetRow_of_level hok hn

end

/-- Settles O54: what each command of this family does. A hang during a restart counts (log entry 75), the step that
starts a reset clears its scope (log entry 61, the model's choice), and a replay's outcome comes with the hang (log entry
93). -/
theorem errorsAndResets : Obligations.ErrorsAndResets := by
  intro s src v sc n island pt hc
  refine ⟨fun p b f _ hb => ⟨logErr_errStat s p f hb, logErr_errFirst b f⟩, ?record, ?copied, ?beacon, ?hang,
    fun hrestart hheld => exec_lamplighterResume_of_none hrestart hheld, fun hn int g h => exec_copyEngineHang_of_holds hn h,
    ?reset, ?refused, ?begins, fun hsc => resetActs_sconce s hsc _ _, fun _ => resetActs_copy s n _ _,
    resetActs_part s pt _ _,
    fun hsc hpf => ⟨exec_quiesce_byPf hsc hpf, exec_sconceReset_byPf hsc hpf⟩, ?overrun, ?fatal⟩
  case record =>
    intro r cap rest hon h
    obtain ⟨hqueue, hring, hseq⟩ := writeRecord_oldest h
    refine ⟨_, exec_errorRecordWrite_of_on hon, hqueue, hring, hseq, fun p hp => ?_⟩
    subst hp
    exact writeRecord_capture h
  case copied =>
    intro hserves hon hrun hheld r hnext
    rw [exec_recordExport_of_serves hserves hon hrun]
    refine ⟨fun hfull => by rw [exportRecord_full hheld hnext hfull], fun hfull hring hcount hvec y t ht hx => ?_⟩
    rw [exportRecord_copied hheld hnext rfl hfull hring hcount hvec ht]
    refine ⟨_, rfl, rfl, ?_⟩
    rw [exportOf_setExport, if_pos rfl, exportOf_setExport, if_pos rfl, hx]
  case beacon =>
    intro hserves hboot
    exact ⟨_, exec_beacon_of_serves hserves hboot, sendBeacon_spec s⟩
  case hang =>
    intro hon hboot hup within
    exact ⟨fun h => ⟨_, exec_watchdogHang_of_up hon hboot hup, declareHang_givesUp h⟩,
      fun h => ⟨_, exec_watchdogHang_of_up hon hboot hup, declareHang_restarts hup h⟩⟩
  case reset =>
    intro hok hmay hup
    have begins {i : Instr} {m : Nat} (hm : v.toNat % 8 = m) (hi : (m, i) ∈ [(1, (.contextReset src v : Instr)),
        (2, .engineReset src v), (3, .partitionReset src v), (4, .computeReset src v), (5, .powerCycleRequest src v)])
        (hlevel : m ∈ [1, 2, 3, 4]) (htarget : targetOk m (v.toNat / 2 ^ 32 % 2 ^ 20) = true) : exec i s =
          .next (beginReset s m (v.toNat / 2 ^ 32 % 2 ^ 20) (m == 4 && v.getLsbD 3) (m == 4 && v.getLsbD 4)) := by
      subst hm
      rw [exec_reset_of_level hok hi, resetWrite_begins hlevel htarget hmay hup]
    refine ⟨fun hm => begins hm (by simp) (by simp) rfl, fun hm ht => begins hm (by simp) (by simp) (decide_eq_true ht),
      fun hm ht => begins hm (by simp) (by simp) (decide_eq_true ht), fun hm => begins hm (by simp) (by simp) rfl,
      fun hm => ⟨_, exec_reset_of_level (v := v) hok (by simp [hm]), ?_⟩⟩
    rw [hm] at hmay
    obtain ⟨hreq, halert, hlamp⟩ := requestCycle_spec (setResetStat s true 5 0 (v.toNat / 2 ^ 32 % 2 ^ 20))
    rw [resetWrite_cycle hm hmay hup]
    exact ⟨hreq, halert, by rw [hlamp]; rfl⟩
  case refused =>
    intro hok hlevel hmay i hi
    have hrows : (v.toNat % 8, i) ∈ [(1, (.contextReset src v : Instr)), (2, .engineReset src v),
        (3, .partitionReset src v), (4, .computeReset src v), (5, .powerCycleRequest src v)] :=
      List.mem_append_left [_] hi
    rw [exec_reset_of_level hok hrows, resetWrite_refused hmay]
  case begins => exact fun lv tg re ma => ⟨beginReset_joins, beginReset_first⟩
  case overrun =>
    intro r hr
    rw [exec_resetOverrun_of_running hr]
    exact ⟨fun hlevel h => by rw [overrun_sconce hlevel h]; rfl, fun hlevel h => by rw [overrun_copy hlevel h]; rfl,
      fun hlevel => by rw [overrun_part hlevel]; rfl⟩
  case fatal =>
    intro c hlow hhigh hon hdump
    have hne : c ≠ 1 := by rintro rfl; exact absurd hlow (by decide)
    obtain ⟨d, hhost, hfrozen, halert, hd, hcause, hst, hports⟩ := fatalStop_spec hdump c 0 0
    refine ⟨_, d, ?_, fatalStop_fatal .., hhost, hfrozen, halert, hd, hcause, hst.trans (if_neg hne), hports⟩
    rw [Laws.exec_fatalStop, execFatalStop, if_pos ⟨hlow, hhigh, hon⟩]

end Sys2Proof.Proofs
end

section
/-! SUPPORT. What the cold boot's steps leave unchanged (16 R444 to R448; 02 R36). -/
namespace Sys2Proof.Proofs
open Sys2Proof Machine Safety Laws

/-! ### Steps that build the hardware's state -/

/-- Nothing but registers, error queues, output, free values, the optical layer, the sconces and the standby domain has
changed. -/
def BuildsOnly (s t : State) : Prop := t = { s with
  regs := t.regs, errs := t.errs, out := t.out, free := t.free, lantern := t.lantern, sconces := t.sconces,
  power := t.power }

namespace BuildsOnly
variable {s t u : State}

theorem refl (s : State) : BuildsOnly s s := rfl

theorem trans (h : BuildsOnly s t) (h' : BuildsOnly t u) : BuildsOnly s u := by
  unfold BuildsOnly at *; rw [h', h]

theorem store (h : BuildsOnly s t) : t.store = s.store := by rw [h]
theorem keys (h : BuildsOnly s t) : t.keys = s.keys := by rw [h]
theorem lamp (h : BuildsOnly s t) : t.lamp = s.lamp := by rw [h]

theorem of_logsOnly (h : LogsOnly s t) : BuildsOnly s t := by
  unfold BuildsOnly; rw [h]

theorem ite {c : Prop} [Decidable c] (ht : BuildsOnly s t) (hu : BuildsOnly s u) : BuildsOnly s (if c then t else u) := by
  split
  · exact ht
  · exact hu

theorem foldl {α : Type} {f : State → α → State} (hf : ∀ u a, BuildsOnly u (f u a)) (l : List α) :
    ∀ s, BuildsOnly s (l.foldl f s) := by
  induction l with
  | nil => exact refl
  | cons a l ih => exact fun s => (hf s a).trans (ih _)

end BuildsOnly

section
variable (s : State)

theorem setPort_buildsOnly (n : Nat) (f : Port → Port) : BuildsOnly s (s.setPort n f) := rfl
theorem setReg_buildsOnly (k : Nat) (v : W64) : BuildsOnly s (s.setReg k v) := rfl
theorem setSconce_buildsOnly (n : Nat) (f : Sconce → Sconce) : BuildsOnly s (s.setSconce n f) := rfl
theorem setPower_buildsOnly (f : Power → Power) : BuildsOnly s (s.setPower f) := rfl
theorem setLantern_buildsOnly (l : Lantern) : BuildsOnly s { s with lantern := l } := rfl

theorem refreshPort_buildsOnly (n : Nat) : BuildsOnly s (refreshPort s n) := by
  simp only [refreshPort, portFail]
  split
  · rfl
  · split
    · exact .ite (.trans (t := (s.setPort n _).setPort n _) rfl (.of_logsOnly (logErr_logsOnly ..))) rfl
    · rfl

theorem lanesChanged_buildsOnly (n : Nat) : BuildsOnly s (lanesChanged s n) :=
  (setPort_buildsOnly s n _).trans (refreshPort_buildsOnly ..)

theorem tuneLane_buildsOnly (n k : Nat) : BuildsOnly s (tuneLane s n k) := by
  simp only [tuneLane, setLane]
  exact .ite ((setPort_buildsOnly s n _).trans (.of_logsOnly (logErr_logsOnly ..))) (setPort_buildsOnly ..)

theorem tunePort_buildsOnly (n : Nat) : BuildsOnly s (tunePort s n) := by
  unfold tunePort
  refine .trans (.trans (setPort_buildsOnly s n _) (.foldl (fun u k => ?_) _ _)) (lanesChanged_buildsOnly ..)
  exact .ite (.refl u) (tuneLane_buildsOnly u n k)

theorem applyBoosters_buildsOnly : BuildsOnly s (applyBoosters s) := by
  unfold applyBoosters
  exact .ite ((setLantern_buildsOnly s _).trans (.of_logsOnly (logErr_logsOnly ..))) (setLantern_buildsOnly ..)

theorem switchInput_buildsOnly : BuildsOnly s (switchInput s) := by
  unfold switchInput
  extract_lets lantern counted
  have hcounted : BuildsOnly s counted := by
    unfold counted
    split <;> rfl
  exact hcounted.trans (.trans (.trans (setLantern_buildsOnly counted _) (.of_logsOnly (logEvt_logsOnly ..)))
    (applyBoosters_buildsOnly _))

theorem loseLight_buildsOnly : BuildsOnly s (loseLight s) := by
  unfold loseLight
  refine .ite (.refl s) (.trans (.trans (setLantern_buildsOnly s _) (.of_logsOnly (logErr_logsOnly ..)))
    (.foldl (fun u n => ?_) _ _))
  exact .ite ((setPort_buildsOnly u n _).trans (lanesChanged_buildsOnly ..)) (.refl u)

theorem bootLight_buildsOnly : BuildsOnly s (bootLight s) :=
  .ite (.refl s) (.ite (switchInput_buildsOnly s) (loseLight_buildsOnly s))

theorem portWrite_buildsOnly (b n : Nat) (on : Bool) : BuildsOnly s (portWrite s (.lmp b) n on) := by
  unfold portWrite pfOnly
  refine .ite (.refl s) (.ite (.of_logsOnly (dropWrite_logsOnly ..)) (.ite (.refl s) ?_))
  extract_lets enabled off cleared
  have hcleared : BuildsOnly s cleared := (setReg_buildsOnly s _ _).trans (setPort_buildsOnly enabled n _)
  exact .ite (hcleared.trans (tunePort_buildsOnly ..)) (hcleared.trans (lanesChanged_buildsOnly ..))

theorem applySpares_buildsOnly (extra : Nat → BitVec 68) : BuildsOnly s (applySpares s extra) :=
  BuildsOnly.foldl (fun u _ => setSconce_buildsOnly u ..) _ _

theorem bootTraining_buildsOnly (scan : BootScan) : BuildsOnly s (bootTraining s scan) := by
  unfold bootTraining
  refine .trans (.foldl (fun u d => ?_) (List.range 8) s) (setPower_buildsOnly ..)
  rfl

end

/-! ### Steps that configure -/

/-- Memories, wicks, plans and queues are as before, and the boot neither halts nor ends. -/
structure BootSame (s t : State) : Prop where
  scratch   : t.scratch = s.scratch
  imem      : t.imem = s.imem
  reservoir : t.reservoir = s.reservoir
  cells     : t.store.cells = s.store.cells
  written   : t.store.written = s.store.written
  wicks     : t.wicks = s.wicks
  plans     : t.plans = s.plans
  queues    : t.work.queues = s.work.queues
  halted    : t.lamp.halted = s.lamp.halted
  booting   : t.lamp.booting = s.lamp.booting

namespace BootSame
variable {s t u : State}

theorem refl (s : State) : BootSame s s := ⟨rfl, rfl, rfl, rfl, rfl, rfl, rfl, rfl, rfl, rfl⟩

theorem trans (h : BootSame s t) (h' : BootSame t u) : BootSame s u :=
  ⟨h'.scratch.trans h.scratch, h'.imem.trans h.imem, h'.reservoir.trans h.reservoir, h'.cells.trans h.cells,
    h'.written.trans h.written, h'.wicks.trans h.wicks, h'.plans.trans h.plans, h'.queues.trans h.queues,
    h'.halted.trans h.halted, h'.booting.trans h.booting⟩

theorem of_builds (h : BuildsOnly s t) : BootSame s t := by
  unfold BuildsOnly at h
  rw [h]
  exact ⟨rfl, rfl, rfl, rfl, rfl, rfl, rfl, rfl, rfl, rfl⟩

theorem of_logs (h : LogsOnly s t) : BootSame s t := .of_builds (.of_logsOnly h)

theorem ite {c : Prop} [Decidable c] (ht : BootSame s t) (hu : BootSame s u) : BootSame s (if c then t else u) := by
  split
  · exact ht
  · exact hu

theorem foldl {α : Type} {f : State → α → State} (hf : ∀ u a, BootSame u (f u a)) (l : List α) :
    ∀ s, BootSame s (l.foldl f s) := by
  induction l with
  | nil => exact refl
  | cons a l ih => exact fun s => (hf s a).trans (ih _)

end BootSame

section
variable (s : State)

theorem readUserArea_bootSame : BootSame s (readUserArea s) := by
  unfold readUserArea
  extract_lets a b useB chosen defaulted
  have hchosen : BootSame s chosen := ⟨rfl, rfl, rfl, rfl, rfl, rfl, rfl, rfl, rfl, rfl⟩
  have hdefaulted : BootSame s defaulted := hchosen.trans (.ite (.of_logs (logErr_logsOnly ..)) (.refl _))
  exact .ite (hdefaulted.trans (.of_logs (logErr_logsOnly ..))) hdefaulted

theorem selectClass_bootSame : BootSame s (selectClass s) := by
  unfold selectClass
  extract_lets stored l set
  have hset (now refused : Nat) : BootSame s (set s now refused) := ⟨rfl, rfl, rfl, rfl, rfl, rfl, rfl, rfl, rfl, rfl⟩
  exact .ite ((hset ..).trans (.of_logs (logErr_logsOnly ..))) (.ite ((hset ..).trans (.of_logs (logErr_logsOnly ..)))
    (hset ..))

theorem draw_bootSame : BootSame s (draw s).2 := ⟨rfl, rfl, rfl, rfl, rfl, rfl, rfl, rfl, rfl, rfl⟩

theorem genSet_bootSame (k : Nat) (g : W32) : BootSame s (genSet s k g) := ⟨rfl, rfl, rfl, rfl, rfl, rfl, rfl, rfl, rfl, rfl⟩

theorem setEmb_bootSame (f : Emb → Emb) : BootSame s (s.setEmb f) := ⟨rfl, rfl, rfl, rfl, rfl, rfl, rfl, rfl, rfl, rfl⟩

theorem seedBoot_bootSame : BootSame s (seedBoot s) := by
  unfold seedBoot seedKeys
  refine .trans (.foldl (fun u k => ?_) _ s) (.foldl (fun u k => ?_) _ _)
  · exact (draw_bootSame u).trans (genSet_bootSame _ _ _)
  · exact (draw_bootSame u).trans (setEmb_bootSame _ _)

theorem setStore_bootSame (f : Store → Store) (hc : (f s.store).cells = s.store.cells)
    (hw : (f s.store).written = s.store.written) : BootSame s (s.setStore f) :=
  ⟨rfl, rfl, rfl, hc, hw, rfl, rfl, rfl, rfl, rfl⟩

theorem setStore_free_bootSame (f : Store → Store) (n : Nat) (hc : (f s.store).cells = s.store.cells)
    (hw : (f s.store).written = s.store.written) : BootSame s { s.setStore f with free := n } :=
  ⟨rfl, rfl, rfl, hc, hw, rfl, rfl, rfl, rfl, rfl⟩

theorem setKeySlot_bootSame (k : BitVec 12) (f : KeySlot → KeySlot) : BootSame s (setKeySlot s k f) :=
  ⟨rfl, rfl, rfl, rfl, rfl, rfl, rfl, rfl, rfl, rfl⟩

theorem bootConfig_bootSame : BootSame s (bootConfig s) := by
  unfold bootConfig
  extract_lets chosen pools piped
  have hpiped : BootSame s piped := (readUserArea_bootSame s).trans ((selectClass_bootSame _).trans
    (.of_builds ((setPower_buildsOnly _ _).trans (setReg_buildsOnly chosen _ _))))
  exact hpiped.trans ((setStore_free_bootSame piped _ _ rfl rfl).trans ((seedBoot_bootSame _).trans
    (setKeySlot_bootSame ..)))

theorem bootConfig_key : (keySlot (bootConfig s) 0).valid = true := by
  simp only [bootConfig, keySlot, setKeySlot, tget_tmod, if_pos]

end

end Sys2Proof.Proofs
end

section
/-! PROOFS. The cold boot, calibration and power class, ember dumps (16 R444 to R447, R453, R459, R461; 02 R36, R66; 18 R510,
R514). -/
namespace Sys2Proof.Proofs
open Sys2Proof Machine Safety Laws

/-! ### The cold boot (R444 to R447) -/

section
variable {s w t : State} {scan : BootScan}

theorem heldRecords_buildsOnly (s : State) : BuildsOnly s (heldRecords s) := by
  unfold heldRecords
  exact (setPower_buildsOnly s _).trans (.foldl (fun u i => .ite (.of_logsOnly (logErr_logsOnly ..)) (.refl u)) _ _)

/-- What a boot finds clear. -/
theorem BootSame.clear (h : BootSame (wipeMain s) t) : t.scratch = [] ∧ t.imem = [] ∧ t.reservoir = [] ∧
    t.store.cells = [] ∧ t.store.written = [] ∧ t.wicks = [] ∧ t.plans = [] ∧ t.work.queues = [] :=
  ⟨h.scratch, h.imem, h.reservoir, h.cells, h.written, h.wicks, h.plans, h.queues⟩

/-- A boot that halts changes BOOT_STAT, the alerts and the mark of a halt. -/
theorem haltBoot_spec (h : BootSame w s) (image : Option Bool) (code : Nat) (n : BitVec 4) :
    let t := haltBoot s image code n
    BootSame w { t with lamp := { t.lamp with halted := s.lamp.halted } } ∧ t.lamp.halted = true ∧
      t.power.alert.getLsbD 0 = true := by
  intro t
  have ht : t = raiseAlert ((setBootStat s image code 0).setLamp (fun l =>
    { l with bootStep := n, halted := true })) alBootHalt := rfl
  have hlamp : t.lamp = { s.lamp with bootStep := n, halted := true } := ht ▸ raiseAlert_lamp ..
  refine ⟨h.trans ?_, congrArg Lamp.halted hlamp, ht ▸ raiseAlert_bit _ (by decide)⟩
  rw [ht, raiseAlert_eq]
  exact ⟨rfl, rfl, rfl, rfl, rfl, rfl, rfl, rfl, rfl, rfl⟩

/-- An image that the boot ROM may take. -/
def imageUsable (l : Lamp) (scan : BootScan) (b : Bool) : Prop :=
  if b then scan.slotBOk = true ∧ l.minVer ≤ l.slotBVer else scan.slotAOk = true ∧ l.minVer ≤ l.slotAVer

theorem pickImage_isSome (s : State) (scan : BootScan) :
    (pickImage s scan).isSome ↔ imageUsable s.lamp scan true ∨ imageUsable s.lamp scan false := by
  unfold pickImage imageUsable
  split <;> simp [List.find?_isSome, or_comm]

/-- What the boot has when it looks for an image. -/
theorem bootStart_spec (s : State) : BootSame (wipeMain s) (heldRecords (wipeMain s)) ∧
    (heldRecords (wipeMain s)).lamp = (wipeMain s).lamp :=
  ⟨.of_builds (heldRecords_buildsOnly _), (heldRecords_buildsOnly _).lamp⟩

theorem coldBoot_halts (h : (¬ imageUsable s.lamp scan true ∧ ¬ imageUsable s.lamp scan false) ∨ scan.blobOk = false ∨
    scan.capOk = false ∨ scan.flashBad ≠ 0) :
    ∃ u image code n, BootSame (wipeMain s) u ∧ coldBoot s scan = haltBoot u image code n := by
  obtain ⟨hstart, hlamp⟩ := bootStart_spec s
  have hconfig := hstart.trans (bootConfig_bootSame _)
  unfold coldBoot
  extract_lets w configured
  split
  next => exact ⟨w, _, _, _, hstart, rfl⟩
  next b himage =>
    have hsome := (pickImage_isSome w scan).mp (Option.isSome_of_mem himage)
    rw [hlamp] at hsome
    split
    · exact ⟨w, _, _, _, hstart, rfl⟩
    next hblob =>
      split
      · exact ⟨configured, _, _, _, hconfig, rfl⟩
      next hcap =>
        have hflash : scan.flashBad ≠ 0 := by
          rcases h with ⟨ht, hf⟩ | h | h | h
          · exact absurd hsome (not_or.mpr ⟨ht, hf⟩)
          · simp [h] at hblob
          · simp [h] at hcap
          · exact h
        rw [if_pos hflash]
        exact ⟨configured.setStore (fun z => { z with flashDown := scan.flashBad }), _, _, _,
          hconfig.trans (setStore_bootSame configured _ rfl rfl), rfl⟩

theorem coldBoot_builds (h : imageUsable s.lamp scan true ∨ imageUsable s.lamp scan false) (hblob : scan.blobOk = true)
    (hcap : scan.capOk = true) (hflash : scan.flashBad = 0) : ∃ image,
    coldBoot s scan = (setBootStat (bootBuild (bootConfig (heldRecords (wipeMain s))) scan) image 0
      scan.durationMs.toNat).setLamp (fun l => { l with bootStep := 9 }) := by
  obtain ⟨hstart, hlamp⟩ := bootStart_spec s
  have hsome := (pickImage_isSome (heldRecords (wipeMain s)) scan).mpr (by rw [hlamp]; exact h)
  obtain ⟨b, hb⟩ := Option.isSome_iff_exists.mp hsome
  refine ⟨some b, ?_⟩
  unfold coldBoot
  extract_lets w configured
  rw [show pickImage w scan = some b from hb]
  dsimp only
  rw [hblob, hcap, if_neg (by decide), if_neg (by decide), if_neg (not_not.mpr hflash)]

/-- Steps 5 to 9 build the hardware's state and the store's size. -/
theorem bootBuild_spec (s : State) (scan : BootScan) : let t := bootBuild s scan
    BootSame s t ∧ t.keys = s.keys ∧ t.store.homeLen = homeLength t.store := by
  unfold bootBuild
  extract_lets down screened trained flash sized spared lit m t
  have hscreened : BuildsOnly s screened := BuildsOnly.foldl (fun u sc => setSconce_buildsOnly u ..) _ _
  have htrained : BuildsOnly s trained := hscreened.trans (bootTraining_buildsOnly screened scan)
  have hspared : BuildsOnly sized spared := applySpares_buildsOnly sized _
  have hlit : BuildsOnly spared lit := (applyBoosters_buildsOnly spared).trans (bootLight_buildsOnly _)
  have hports : BuildsOnly lit t := BuildsOnly.foldl (fun u n => .ite (portWrite_buildsOnly u ..) (.refl u)) _ _
  clear_value t lit spared trained
  have hlast : BuildsOnly sized t := hspared.trans (hlit.trans hports)
  have hstore : t.store = sized.store := hlast.store
  have hkeys : t.keys = trained.keys := hlast.keys
  refine ⟨(BootSame.of_builds htrained).trans (.trans (t := sized)
    ⟨rfl, rfl, rfl, rfl, rfl, rfl, rfl, rfl, rfl, rfl⟩ (.of_builds hlast)), ?_, ?_⟩
  · rw [hkeys, htrained.keys]
  · rw [hstore]
    rfl

end

/-! ### Calibration and power class (R453, R459, R461) -/

section
variable {s : State} {src : RegSrc} {v : W64}

/-- A new copy of the user area has begun: its entries, under the next generation. -/
def CopyStarts (s t : State) (es : List W64) : Prop :=
  t.lamp.newCopy = some ⟨true, (userCopy s).generation + 1, es⟩

/-- The entries of the current copy but for those of index 0 of an item. -/
def otherEntries (s : State) (item : Nat) : List W64 :=
  (userCopy s).entries.filter (fun x => !(entItem x == item && entIndex x == 0))

theorem exec_calCmd_byPf (hpf : ByPf s src pLMP) (hup : s.lamp.gaveUp = false) (hrun : s.lamp.restarting = false) :
    exec (.calCmd src v) s = .next (calWrite s src v) := by
  rw [Laws.exec_calCmd, execCalCmd, calCmd, pfOnly_byPf _ (by decide) (by decide) hpf, hpf.1]
  simp only [holdWrite, hup, hrun]
  rfl

theorem calWrite_busy (hgo : v.getLsbD 32 = true) (h : s.lamp.newCopy ≠ none) :
    calWrite s src v = lastDone s lcCal (srcBank src) stBusy := by
  have hbit : bit v.toNat 32 = true := hgo
  simp [calWrite, hbit, Option.isSome_iff_ne_none, h]

/-- With no copy being written, CAL_CMD reads one from the Reservoir. -/
theorem calWrite_reads (hgo : v.getLsbD 32 = true) (h : s.lamp.newCopy = none) : calWrite s src v =
    match readCopy s (64 * (v.toNat / 64 % 2 ^ 21)) with
    | .error st => lastDone s lcCal (srcBank src) st
    | .ok es => lastDone (startCopy s es) lcCal (srcBank src) 0 := by
  have hbit : bit v.toNat 32 = true := hgo
  unfold calWrite
  rw [hbit, h]
  rfl

/-- The copy written takes the place of the one not in use, and is the one in use. -/
theorem exec_calWritten_of_new {x : UserCopy} (h : s.lamp.newCopy = some x) : ∃ t, exec .calWritten s = .next t ∧
    userCopy t = x ∧ t.lamp.newCopy = none ∧ (t.lamp.userA = s.lamp.userA ∨ t.lamp.userB = s.lamp.userB) := by
  refine ⟨_, by rw [Laws.exec_calWritten, execCalWritten, h], ?_⟩
  simp only [userCopy, (logEvt_logsOnly ..).lamp, setLamp_lamp]
  cases !s.lamp.noCopy && !s.lamp.useB <;> simp

/-- One entry of the current copy is replaced. -/
theorem changeEntry_starts {item value : Nat} (h : s.lamp.newCopy = none) (hlen : (otherEntries s item).length < 8184)
    (hv : value < 2 ^ 32) : ∃ t, changeEntry s item 0 value = some t ∧
      CopyStarts s t (otherEntries s item ++ [BitVec.ofNat 64 (item + 2 ^ 32 * value)]) := by
  refine ⟨startCopy s (otherEntries s item ++ [BitVec.ofNat 64 (item + 2 ^ 32 * value)]), ?_, by unfold CopyStarts; rfl⟩
  have hroom : ¬ (s.lamp.newCopy.isSome ∨ 8184 ≤ (otherEntries s item).length) := by simp [h, hlen]
  unfold changeEntry
  exact (if_neg hroom).trans (by rw [Nat.mod_eq_of_lt hv]; rfl)

theorem exec_classReq_starts (hpf : ByPf s src pPWR) (hv : v.toNat % 4 ≠ 0) (h : s.lamp.newCopy = none)
    (hlen : (otherEntries s 1).length < 8184) : ∃ t, exec (.classReq src v) s = .next t ∧
      CopyStarts s t (otherEntries s 1 ++ [BitVec.ofNat 64 (1 + 2 ^ 32 * (v.toNat % 4))]) := by
  obtain ⟨t, ht, hstarts⟩ := changeEntry_starts (value := v.toNat % 4) h hlen (by omega)
  have hbits : bits v.toNat 0 2 = v.toNat % 4 := bits_zero ..
  refine ⟨t, ?_, hstarts⟩
  rw [Laws.exec_classReq, execClassReq, classWrite, pfOnly_byPf _ (by decide) (by decide) hpf, hpf.1, hbits,
    if_neg hv, ht]
  rfl

theorem exec_poolCfg_starts (hpf : ByPf s src pPLC) (hstk : v.toNat % 256 ≤ 96) (hshadow : v.toNat / 256 % 256 ≤ 32)
    (h : s.lamp.newCopy = none) (hlen : (otherEntries s 2).length < 8184) : ∃ t, exec (.poolCfg src v) s = .next t ∧
      CopyStarts s t (otherEntries s 2 ++ [BitVec.ofNat 64 (2 + 2 ^ 32 * (v.toNat % 65536))]) ∧
      regGet t (rk pPLC 0x108) = BitVec.ofNat 64 (v.toNat % 65536) := by
  obtain ⟨t, ht, hstarts⟩ := changeEntry_starts (value := v.toNat % 65536) h hlen (by omega)
  have hbits : bits v.toNat 0 16 = v.toNat % 65536 := bits_zero ..
  refine ⟨t.setReg (rk pPLC 0x108) (BitVec.ofNat 64 (v.toNat % 65536)), ?_, hstarts, (regGet_setReg ..).trans (if_pos rfl)⟩
  rw [Laws.exec_poolCfg, execPoolCfg, poolWrite, pfOnly_byPf _ (by decide) (by decide) hpf, hpf.1, hbits]
  dsimp only
  rw [if_neg (by omega), ht]
  rfl

end

/-! ### Ember dumps (18 R510, R514) -/

section
variable {s u : State} {d : Dump}

/-- Nothing that the dump held back waits. -/
theorem releaseHeld_nil (h : s.power.heldCmds = []) :
    releaseHeld s = s.setPower (fun p => { p with heldCmds := [] }) := by
  rw [releaseHeld, h]
  rfl

theorem writeEmber_power (s : State) (d : Dump) : (writeEmber s d true).power = s.power := by
  unfold writeEmber
  split <;> rfl

/-- A dump that has been written asks for a power cycle. -/
theorem exec_emberDump_written (h : s.lamp.dump = some d) (hheld : s.power.heldCmds = []) :
    ∃ t, exec (.emberDump true) s = .next t ∧ t.lamp = { (writeEmber s d true).lamp with dump := none } ∧
      t.power.cycleReq = true ∧ t.power.alert.getLsbD 4 = true := by
  refine ⟨_, by rw [Laws.exec_emberDump, execEmberDump, h], ?_⟩
  dsimp only
  have hnone (u : State) (hu : u.power = s.power) : (requestCycle u).power.heldCmds = [] := by
    rw [requestCycle, raiseAlert_eq, setPower_power, hu]
    exact hheld
  rw [releaseHeld_nil (hnone ((writeEmber s d true).setLamp _) (writeEmber_power s d))]
  obtain ⟨hreq, halert, hlamp⟩ := requestCycle_spec ((writeEmber s d true).setLamp (fun l => { l with dump := none }))
  exact ⟨hlamp, hreq, halert⟩

/-- The dump is the newest, and a valid older one is kept. -/
theorem writeEmber_slots (hearly : d.early = false) : let t := writeEmber s d true
    emberSlot t false = emberOf s d ∧ (s.lamp.emberA.valid = true → emberSlot t true = emberSlot s false) := by
  simp only [writeEmber, hearly, emberSlot]
  cases s.lamp.newestB <;> cases s.lamp.emberA.valid <;> simp

theorem emberBytes_length (s : State) (e : Ember) (off n : Nat) : (emberBytes s e off n).length = n := by
  unfold emberBytes
  split <;> simp

variable {q : Nat} {e : W512} {c : Cmd} {hc : HostCpl}
  (hstart : Starts s q e [(128, 8), (192, 64), (256, 32), (288, 32)] .work c u) (hop : fld e 0 1 = 0x0E)
include hstart hop

/-- The form of an EMBER_READ: its slot, its length and its destination. -/
def EmberForm (e : W512) : Prop := fld e 16 1 ≤ 1 ∧ 1 ≤ fld e 36 4 ∧ fld e 36 4 ≤ 262144 ∧
  (bits (fld e 24 8) 60 4 = 3 ∨ spaceOk (fld e 24 8) = true)

theorem exec_emberRead_of_form (hform : EmberForm e) {t : State} (ht :
    (if !(emberSlot u (fld e 16 1 == 1)).valid then some (failCmd u c stLost)
      else if 2 ^ 32 < 4096 * (fld e 32 4 + fld e 36 4) then some (failCmd u c stFormat)
      else engCmd c (do
        emberWrite c hc (fld e 24 8) (emberBytes u (emberSlot u (fld e 16 1 == 1)) (4096 * fld e 32 4) (4096 * fld e 36 4))
        return (emberSlot u (fld e 16 1 == 1)).generation) u) = some t) :
    exec (.emberRead q e hc) s = .next (settle t) := by
  obtain ⟨hslot, hlow, hhigh, hdst⟩ := hform
  obtain ⟨-, hraw, -⟩ := Starts_cmd hstart
  rw [Laws.exec_emberRead, execEmberRead]
  refine cmdRow_of_starts hstart (by simp [opcodeOf, hop]) ?_
  simp only [Cmd.f, hraw]
  rw [if_neg (by rcases hdst with h | h <;> simp [h] <;> omega)]
  exact ht

/-- The bytes of a valid dump go to the host's memory, and the result is its generation. -/
theorem emberRead_toHost (hform : EmberForm e) (hvalid : (emberSlot u (fld e 16 1 == 1)).valid = true)
    (hlen : fld e 32 4 + fld e 36 4 ≤ 2 ^ 20) (hdst : bits (fld e 24 8) 60 4 = 3)
    (hin : inAperture u c.ctx (fld e 24 8 % 2 ^ 60) (4096 * fld e 36 4) = true) :
    ∃ v, Ends (.emberRead q e .ok) s c v 0 (emberSlot u (fld e 16 1 == 1)).generation ∧
      cellRead v.host.mem (fld e 24 8 % 2 ^ 60) (4096 * fld e 36 4) =
        emberBytes u (emberSlot u (fld e 16 1 == 1)) (4096 * fld e 32 4) (4096 * fld e 36 4) ∧
      v.reservoir = u.reservoir := by
  have hspace : bits (fld e 24 8) 0 60 = fld e 24 8 % 2 ^ 60 := bits_zero ..
  have hd := emberBytes_length u (emberSlot u (fld e 16 1 == 1)) (4096 * fld e 32 4) (4096 * fld e 36 4)
  generalize hbytes : emberBytes u (emberSlot u (fld e 16 1 == 1)) (4096 * fld e 32 4) (4096 * fld e 36 4) = d at hd ⊢
  obtain ⟨x, hx⟩ := runEng_writeHost c.who (fld e 24 8 % 2 ^ 60) d u (hd ▸ hin)
  refine ⟨emit { u with xlt := x, host := { u.host with mem := cellWrite u.host.mem (fld e 24 8 % 2 ^ 60) d } }
    (.hostWrite (fld e 24 8 % 2 ^ 60) d), exec_emberRead_of_form hstart hop hform ?_, ?_, rfl⟩
  · rw [hvalid, if_neg (by decide), if_neg (by omega), hbytes]
    refine engCmd_ok ?_
    rw [emberWrite, if_pos hdst, hspace, runEng_bind_ok hx, runEng_pure]
  · rw [← hd]
    exact cellRead_cellWrite ..

end

/-- Settles O55: the boot clears what it finds and halts or waits at its last step; a new copy of the user area begins and
becomes current; a dump's slot and EMBER_READ. -/
theorem bootCalibrationEmber : Obligations.BootCalibrationEmber := by
  intro s u scan src v q e c hc
  refine ⟨fun hdue => ?boot, fun hup hboot hstep hhalt => ?ready, fun hpf hup hrun hgo => ?cal,
    fun x hx => exec_calWritten_of_new hx, exec_classReq_starts, exec_poolCfg_starts, fun d hd hheld => ?dump,
    fun hstart hop hslot hlow hhigh hdst => ?read⟩
  case boot =>
    have hexec : exec (.coldBoot scan) s = .next (coldBoot s scan) := by
      rw [Laws.exec_coldBoot, execColdBoot, if_pos hdue]
    obtain ⟨-, hfactory, -⟩ := keeps_of_exec hexec
    by_cases hhalts : (¬ imageUsable s.lamp scan true ∧ ¬ imageUsable s.lamp scan false) ∨ scan.blobOk = false ∨
        scan.capOk = false ∨ scan.flashBad ≠ 0
    · obtain ⟨w, image, code, n, hw, heq⟩ := coldBoot_halts hhalts
      obtain ⟨hsame, hhalted, halert⟩ := haltBoot_spec hw image code n
      rw [← heq] at hsame hhalted halert
      obtain ⟨h₁, h₂, h₃, h₄, h₅, h₆, h₇, h₈⟩ := hsame.clear
      refine ⟨_, hexec, h₁, h₂, h₃, h₄, h₅, h₆, h₇, h₈, hfactory, fun _ => ⟨hhalted, hsame.booting, halert⟩,
        fun himage hblob hcap hflash => ?_⟩
      rcases hhalts with ⟨ht, hf⟩ | h | h | h
      · exact absurd himage (not_or.mpr ⟨ht, hf⟩)
      · simp [h] at hblob
      · simp [h] at hcap
      · exact absurd hflash h
    · have himage : imageUsable s.lamp scan true ∨ imageUsable s.lamp scan false := by
        by_contra h
        exact hhalts (.inl (not_or.mp h))
      obtain ⟨hblob, hcap, hflash⟩ : scan.blobOk = true ∧ scan.capOk = true ∧ scan.flashBad = 0 := by
        simpa using (not_or.mp hhalts).2
      obtain ⟨image, heq⟩ := coldBoot_builds himage hblob hcap hflash
      obtain ⟨hbuilt, hkeys, hlen⟩ := bootBuild_spec (bootConfig (heldRecords (wipeMain s))) scan
      have hsame := (bootStart_spec s).1.trans ((bootConfig_bootSame _).trans hbuilt)
      have hkey := (congrArg (fun keys => (tget KeySlot.empty keys 0).valid) hkeys).trans (bootConfig_key _)
      obtain ⟨h₁, h₂, h₃, h₄, h₅, h₆, h₇, h₈⟩ := hsame.clear
      refine ⟨_, hexec, ?_⟩
      rw [heq] at hfactory ⊢
      exact ⟨h₁, h₂, h₃, h₄, h₅, h₆, h₇, h₈, hfactory, fun h => absurd h hhalts, fun _ _ _ _ =>
        ⟨hsame.halted, hsame.booting, rfl, hkey, hlen⟩⟩
  case ready =>
    rw [Laws.exec_coldBootReady, execColdBootReady, hup, hboot, hstep, hhalt]
    rfl
  case cal =>
    rw [exec_calCmd_byPf hpf hup hrun]
    refine ⟨fun h => by rw [calWrite_busy hgo h], fun st h hr => by rw [calWrite_reads hgo h, hr],
      fun es h hr => ⟨_, by rw [calWrite_reads hgo h, hr], rfl, lastCmd_lastDone ..⟩⟩
  case dump =>
    obtain ⟨t, ht, hlamp, hreq, halert⟩ := exec_emberDump_written hd hheld
    refine ⟨t, ht, by rw [hlamp], hreq, halert, fun hearly => ?_⟩
    have hslot (older : Bool) : emberSlot t older = emberSlot (writeEmber s d true) older := by
      simp only [emberSlot, hlamp]
    rw [hslot, hslot]
    exact writeEmber_slots hearly
  case read =>
    have hform : EmberForm e := ⟨hslot, hlow, hhigh, hdst⟩
    refine ⟨fun hvalid => exec_emberRead_of_form hstart hop hform ?_,
      fun hvalid hlen => exec_emberRead_of_form hstart hop hform ?_,
      fun hvalid hlen hhost hin => emberRead_toHost hstart hop hform hvalid hlen hhost hin⟩
    · simp [hvalid]
    · rw [hvalid, if_neg (by decide), if_pos (by omega)]

end Sys2Proof.Proofs
end

section
/-! PROOFS. The Lerter monitor: command lines and what the commands answer (18 R501 to R507, R515; log entry 71). -/
namespace Sys2Proof.Proofs
open Sys2Proof Machine Safety Laws

/-! ### Sessions -/

@[simp] theorem session_setSession (s : State) (k j : Nat) (f : Session → Session) :
    session (setSession s k f) j = if j = k then f (session s k) else session s j := tget_tmod ..

theorem LogsOnly.mon {s t : State} (h : LogsOnly s t) : t.mon = s.mon := by rw [h]

theorem LogsOnly.session {s t : State} (h : LogsOnly s t) (k : Nat) : session t k = session s k := by
  simp only [Machine.session, h.mon]

/-! ### A command line (R502, R503, R507) -/

/-- The state in which a session's command line is taken: a line on the serial port ends a break. -/
def lineTaken (s : State) (k : Nat) : State := if k = 0 then s.setMon (fun m => { m with breakHeld := false }) else s

/-- The session is open. -/
def lineOpened (s : State) (k : Nat) : State := setSession s k (fun z => { z with open_ := true })

/-- A command that is executed is counted. -/
def lineCounted (s : State) (k : Nat) : State := (lineOpened s k).setMon (fun m =>
  { m with commands := if m.commands = 0xFFFF then m.commands else m.commands + 1 })

/-- The monitor takes a line of this session. -/
def LineServed (s : State) (ss : MonSess) : Prop :=
  ss.ok = true ∧ monServes s = true ∧ (sessionKey ss = 0 ∨ (session s (sessionKey ss)).open_ = true)

section
variable {s : State} {ss : MonSess} {k : Nat} {c : MonCmd}

theorem lineTaken_session (s : State) (k j : Nat) : session (lineTaken s k) j = session s j := by
  unfold lineTaken
  split <;> rfl

theorem lineTaken_lamp (s : State) (k : Nat) : (lineTaken s k).lamp = s.lamp := by
  unfold lineTaken
  split <;> rfl

theorem monLine_of_served (h : LineServed s ss) (f : State → Reply) :
    monLine ss f s = let r := f (lineTaken s (sessionKey ss)); .next (answerTo r.after ss r.body r.final) := by
  obtain ⟨hok, hserves, hopen⟩ := h
  unfold monLine lineTaken
  rw [hok, hserves]
  by_cases hk : sessionKey ss = 0
  · simp [hk, onOk]
  · simp [hk, onOk, hopen.resolve_left hk]

theorem lineOpened_level (s : State) (k : Nat) : (session (lineOpened s k) k).level = (session s k).level := by
  rw [lineOpened, session_setSession, if_pos rfl]

theorem monCommand_runs (hlevel : levelOf c ≤ (session s k).level.toNat)
    (hrom : s.lamp.halted = true → romAccepts c = true) : monCommand s k c = runMon (lineCounted s k) k c := by
  have hnot : ¬ ((session (lineOpened s k) k).level.toNat < levelOf c ∨ (s.lamp.halted ∧ !romAccepts c)) := by
    rw [lineOpened_level, not_or, Nat.not_lt]
    exact ⟨hlevel, by simpa using hrom⟩
  exact if_neg hnot

theorem monCommand_refused (h : (session s k).level.toNat < levelOf c ∨ (s.lamp.halted = true ∧ romAccepts c = false)) :
    monCommand s k c = bad (lineOpened s k) stPerm := by
  have hit : (session (lineOpened s k) k).level.toNat < levelOf c ∨ (s.lamp.halted ∧ !romAccepts c) := by
    rw [lineOpened_level]
    simpa using h
  exact if_pos hit

/-- The rows of the commands, each with the command that it spells. -/
def monRows (ss : MonSess) (off n : Nat) (v : W64) (seq : W32) (h : W512) : List (Instr × MonCmd) :=
  [(.help ss 4 false, .help), (.stat ss, .stat), (.rd ss off n, .rd off n),
    (.wr ss off v, .wr off v), (.ering ss seq n, .ering seq n), (.fblob ss, .fblob), (.reset ss off n, .reset off n),
    (.emberList ss, .emberList), (.monEmberRead ss off n 1, .emberRead off n 1), (.emberErase ss off, .emberErase off),
    (.spird ss off n, .spird off n), (.sard ss v n, .sard v n), (.chal ss n, .chal n), (.ans ss n h, .ans n h),
    (.lock ss, .lock)]

theorem exec_monRows {i : Instr} {off n : Nat} {v : W64} {seq : W32} {h : W512}
    (hi : (i, c) ∈ monRows ss off n v seq h) : exec i s = monRow ss c s := by
  simp only [monRows, List.mem_cons, Prod.mk.injEq, List.not_mem_nil, or_false] at hi
  rcases hi with ⟨rfl, rfl⟩ | ⟨rfl, rfl⟩ | ⟨rfl, rfl⟩ | ⟨rfl, rfl⟩ | ⟨rfl, rfl⟩ | ⟨rfl, rfl⟩ | ⟨rfl, rfl⟩ | ⟨rfl, rfl⟩ |
    ⟨rfl, rfl⟩ | ⟨rfl, rfl⟩ | ⟨rfl, rfl⟩ | ⟨rfl, rfl⟩ | ⟨rfl, rfl⟩ | ⟨rfl, rfl⟩ | ⟨rfl, rfl⟩ <;> rfl

theorem monRow_runs (h : LineServed s ss) (hlevel : levelOf c ≤ (session s (sessionKey ss)).level.toNat)
    (hrom : s.lamp.halted = true → romAccepts c = true) :
    let r := runMon (lineCounted (lineTaken s (sessionKey ss)) (sessionKey ss)) (sessionKey ss) c
    monRow ss c s = .next (answerTo r.after ss r.body r.final) := by
  rw [monRow, monLine_of_served h, monCommand_runs (by rwa [lineTaken_session]) (by rwa [lineTaken_lamp])]

theorem monRow_refused (h : LineServed s ss) (hno : (session s (sessionKey ss)).level.toNat < levelOf c ∨
    (s.lamp.halted = true ∧ romAccepts c = false)) : monRow ss c s =
      .next (answerTo (lineOpened (lineTaken s (sessionKey ss)) (sessionKey ss)) ss [] stPerm) := by
  rw [monRow, monLine_of_served h, monCommand_refused (by rwa [lineTaken_session, lineTaken_lamp])]
  rfl

/-- A line too long, or one that lost characters, is answered FORMAT_ERROR. -/
theorem exec_help_discarded (h : LineServed s ss) {len : Nat} {lost : Bool} (hlong : 255 < len ∨ lost = true) :
    exec (.help ss len lost) s = .next (answerTo (lineTaken s (sessionKey ss)) ss [] stFormat) := by
  rw [Laws.exec_help, execHelp, monLine_of_served h]
  dsimp only
  rw [if_pos hlong]
  rfl

end

/-! ### Reads and writes of registers, records and memories -/

section
variable (s : State) (k off n : Nat) (v : W64) (seq : W32)

theorem rdCmd_good (h0 : 0 < n) (h1 : n ≤ 64) (hoff : off % 8 = 0) (hlen : off + 8 * n ≤ 2 ^ 26) :
    rdCmd s k off n = ⟨(readAll s (sessionSrc k) off n).1, 0, (readAll s (sessionSrc k) off n).2⟩ := by
  rw [rdCmd, if_neg (by omega), if_neg (by omega)]
  rfl

theorem wrCmd_good (hoff : off < 2 ^ 26) :
    wrCmd s k off v = ⟨[], 0, settle (barWrite s (sessionSrc k) off 8 v)⟩ := if_neg (by omega)

theorem eringCmd_good (h0 : 0 < n) (h1 : n ≤ 64) : ∃ body, eringCmd s seq n = ⟨body, 0, s⟩ ∧ ∀ j < n, ∀ e,
    s.errs.ring.find? (fun e => e.2.seq == seq + BitVec.ofNat 32 j) = some e → AnsVal.bytes (recordBytes e.2) ∈ body := by
  refine ⟨_, if_neg (by omega), fun j hj e he => ?_⟩
  exact List.mem_filterMap.mpr ⟨j, List.mem_range.mpr hj, by dsimp only; rw [he]; rfl⟩

theorem resetMon_good (hlevel : off < 8) (htarget : n < 2 ^ 20) : resetMon s k off n =
    ⟨[], 0, settle (resetWrite s (sessionSrc k) (word [(0, off), (32, n)]))⟩ := if_neg (by omega)

theorem emberReadCmd_good (hslot : off ≤ 1) (hvalid : (emberSlot s (off == 1)).valid = true)
    (hlen : 64 * n + 64 ≤ 2 ^ 32) : emberReadCmd s off (64 * n) 1 =
      ⟨[.bytes (emberBytes s (emberSlot s (off == 1)) (64 * n) 64)], 0, s⟩ := by
  unfold emberReadCmd
  dsimp only
  rw [if_neg (by omega), hvalid]
  rfl

/-- The slot erased is afterwards the older one, and the other the newest. -/
theorem eraseEmber_slots (older : Bool) : emberSlot (eraseEmber s older) false = emberSlot s (!older) ∧
    (emberSlot (eraseEmber s older) true).valid = false := by
  unfold eraseEmber emberSlot
  cases hb : s.lamp.newestB <;> cases older <;> simp [hb]

theorem emberEraseCmd_good (hslot : off ≤ 1) (hfree : emberReading s (off == 1) = false) :
    emberEraseCmd s off = ⟨[], 0, eraseEmber s (off == 1)⟩ := by
  unfold emberEraseCmd
  rw [if_neg (by omega), hfree]
  rfl

theorem spirdCmd_good (h0 : 0 < n) (h1 : n ≤ 4096) : spirdCmd s off n = ⟨[.bytes (cellRead s.lamp.spi off n)], 0, s⟩ :=
  if_neg (by omega)

/-- The lines of a read of ciphertext that the store holds as written. -/
theorem cipherLines_written {ls : List Nat} (h : ∀ l ∈ ls, l ∈ s.store.written) (d : List Byte) :
    ls.foldl (fun (a : List Byte × State) l => (a.1 ++ (cipherLine a.2 l).1, (cipherLine a.2 l).2)) (d, s) =
      (d ++ (ls.map (fun l => bytesOf (lineStored s l))).flatten, s) := by
  induction ls generalizing d with
  | nil => simp
  | cons l ls ih =>
    have hline : cipherLine s l = (bytesOf (lineStored s l), s) := by
      unfold cipherLine
      exact if_pos (List.contains_iff_mem.mpr (h l (List.mem_cons_self ..)))
    rw [List.foldl_cons, hline, ih fun l hl => h l (List.mem_cons_of_mem _ hl), List.map_cons, List.flatten_cons,
      List.append_assoc]

theorem sardCmd_good (h0 : 0 < n) (h1 : n ≤ 4096) (hhome : v.toNat / 2 ^ 50 = s.store.homeId.toNat)
    (hlen : v.toNat % 2 ^ 50 + n ≤ s.store.homeLen) (halign : v.toNat % 2 ^ 50 % 64 = 0)
    (hlines : ∀ l ∈ (List.range ((n + 63) / 64)).map (v.toNat % 2 ^ 50 / 64 + ·),
      l ∈ s.store.written ∧ lineBad s l = false ∧ (blockGet s (l / 1024)).lost = false) :
    sardCmd s v n = ⟨[.bytes ((((List.range ((n + 63) / 64)).map (v.toNat % 2 ^ 50 / 64 + ·)).map
      (fun l => bytesOf (lineStored s l))).flatten.take n)], 0, s⟩ := by
  unfold sardCmd
  dsimp only
  rw [if_neg (by omega), if_neg (by omega)]
  generalize (List.range ((n + 63) / 64)).map (v.toNat % 2 ^ 50 / 64 + ·) = ls at hlines ⊢
  rw [if_neg (by simpa using fun l hl => (hlines l hl).2.1), if_neg (by simpa using fun l hl => (hlines l hl).2.2),
    cipherLines_written s (fun l hl => (hlines l hl).1)]
  rfl

end

end Sys2Proof.Proofs
end

section
/-! PROOFS. The monitor's unlock exchange, sessions of stations, events, and the operator key (18 R505 to R509, R515; 19 R527;
log entry 71). -/
namespace Sys2Proof.Proofs
open Sys2Proof Machine Safety Laws

/-! ### The unlock exchange (R505) -/

section
variable {s : State} {k : Nat}

theorem chalCmd_locked {level : Nat} (hlevel : level = 1 ∨ level = 2) (h : s.lamp.moduleTime < (session s k).lockUntil) :
    chalCmd s k level = ⟨[], stBusy, s⟩ := by
  rw [chalCmd, if_neg (by omega), if_pos h]
  rfl

/-- A challenge gives a new nonce for the level that it names. -/
theorem chalCmd_challenges {level : Nat} (hlevel : level = 1 ∨ level = 2)
    (h : ¬ s.lamp.moduleTime < (session s k).lockUntil) (hkey : level = 1 → s.mon.opkey ≠ none) :
    ∃ t, chalCmd s k level = ⟨[.bytes (leBytes 16 (Config.entropyNonce s.free).toNat)], 0, t⟩ ∧
      (session t k).nonce = some (Config.entropyNonce s.free) ∧ (session t k).want.toNat = level := by
  have hperm : ¬ (level = 1 ∧ s.mon.opkey.isNone) := by simpa using hkey
  refine ⟨setSession { s with free := s.free + 1 } k (fun z => { z with
    nonce := some (Config.entropyNonce s.free), want := BitVec.ofNat 2 level, parts := [] }), ?_, ?_, ?_⟩
  · rw [chalCmd, if_neg (by omega), if_neg h, if_neg hperm]
    rfl
  · rw [session_setSession, if_pos rfl]
  · rw [session_setSession, if_pos rfl]
    rcases hlevel with rfl | rfl <;> rfl

theorem ansCmd_stored {n : Nat} (h : W512) (hn : n < 7) :
    ansCmd s k n h = ⟨[], 0, setSession s k (fun z => { z with parts := tput z.parts n h })⟩ := by
  rw [ansCmd, if_neg (by omega), if_pos (by omega)]
  rfl

theorem mem_tput_of_ne {α : Type} {m : NatMap α} {i j : Nat} {x v : α} (h : (i, x) ∈ m) (hne : i ≠ j) :
    (i, x) ∈ tput m j v := by
  induction m with
  | nil => simp at h
  | cons e r ih =>
    obtain ⟨a, u⟩ := e
    rw [tput_cons]
    rcases List.mem_cons.mp h with heq | hr
    · obtain ⟨rfl, rfl⟩ := Prod.mk.inj heq
      split_ifs with h1 h2
      · simp
      · exact absurd h2.symm hne
      · simp
    · split_ifs
      · simp [hr]
      · simp [hr]
      · exact List.mem_cons_of_mem _ (ih hr)

theorem self_mem_tput {α : Type} (m : NatMap α) (j : Nat) (v : α) : (j, v) ∈ tput m j v := by
  induction m with
  | nil => simp [tput]
  | cons e r ih =>
    obtain ⟨a, u⟩ := e
    rw [tput_cons]
    split_ifs
    · simp
    · simp
    · exact List.mem_cons_of_mem _ ih

/-- The signature that the eighth part completes. -/
theorem signature_complete {z : Session} (h : W512) (hparts : ∀ i < 7, ∃ x, (i, x) ∈ z.parts) :
    signature { z with parts := tput z.parts 7 h } =
      some (((List.range 7).map (fun i => (bytesOf (tget 0 z.parts i)).reverse)).flatten ++ (bytesOf h).reverse) := by
  have hall : (List.range 8).all (fun i => (tput z.parts 7 h).any (fun e => e.1 == i)) = true := by
    rw [List.all_eq_true]
    intro i hi
    rw [List.any_eq_true]
    rcases Nat.lt_or_ge i 7 with hlt | hge
    · obtain ⟨x, hx⟩ := hparts i hlt
      exact ⟨_, mem_tput_of_ne hx (by omega), beq_self_eq_true i⟩
    · obtain rfl : i = 7 := by simp at hi; omega
      exact ⟨_, self_mem_tput .., rfl⟩
  rw [signature, if_pos hall, List.range_succ (n := 7), List.map_append, List.flatten_append]
  congr 2
  · refine congrArg List.flatten (List.map_congr_left fun i hi => ?_)
    rw [tget_tput, if_neg (by simp at hi; omega)]
  · simp

/-- The key of the level verifies the signature of the message. -/
def verifies (s : State) (z : Session) (nonce : BitVec 128) (sig : List Byte) : Bool :=
  if z.want = 2 then Config.rsaVerify Config.serviceKey (unlockMessage s nonce z.want) sig
  else (s.mon.opkey.map (fun key => Config.rsaVerify key (unlockMessage s nonce z.want) sig)).getD false

theorem unlocks_of_complete {z : Session} {nonce : BitVec 128} {sig : List Byte} (hnonce : z.nonce = some nonce)
    (hsig : signature z = some sig) : unlocks s z = verifies s z nonce sig := by
  rw [unlocks, hnonce, hsig, verifies]
  dsimp only
  split
  · rfl
  · cases s.mon.opkey <;> rfl

/-- The challenge ends with its eighth part, whatever the outcome. -/
def challengeEnded (s : State) (k : Nat) (h : W512) : State :=
  setSession (setSession s k (fun z => { z with parts := tput z.parts 7 h })) k (fun z => { z with nonce := none, parts := [] })

theorem session_challengeEnded (h : W512) :
    session (challengeEnded s k h) k = { session s k with nonce := none, parts := [] } := by
  rw [challengeEnded, session_setSession, if_pos rfl, session_setSession, if_pos rfl]

theorem ansCmd_last {nonce : BitVec 128} (h : W512) (hnonce : (session s k).nonce = some nonce)
    (hparts : ∀ i < 7, ∃ x, (i, x) ∈ (session s k).parts) :
    ansCmd s k 7 h = if verifies s (session s k) nonce (((List.range 7).map (fun i =>
        (bytesOf (tget 0 (session s k).parts i)).reverse)).flatten ++ (bytesOf h).reverse)
      then ⟨[], 0, setSession (challengeEnded s k h) k (fun z => { z with level := z.want, fails := 0 })⟩
      else ⟨[], stPerm, unlockFailed (challengeEnded s k h) k⟩ := by
  have hz : session (setSession s k (fun z => { z with parts := tput z.parts 7 h })) k =
      { session s k with parts := tput (session s k).parts 7 h } := (session_setSession ..).trans (if_pos rfl)
  have hunlocks := unlocks_of_complete (s := challengeEnded s k h) (z := { session s k with
    parts := tput (session s k).parts 7 h }) hnonce (signature_complete h hparts)
  unfold ansCmd
  rw [if_neg (by decide)]
  dsimp only
  rw [if_neg (by decide), hz]
  exact if_congr (iff_of_eq (congrArg (· = true) hunlocks)) rfl rfl

theorem unlockFailed_session (s : State) (k : Nat) : session (unlockFailed s k) k = { session s k with
    fails := if 3 ≤ (session s k).fails + 1 then 0 else (session s k).fails + 1
    lockUntil := if 3 ≤ (session s k).fails + 1 then s.lamp.moduleTime + lockTime else (session s k).lockUntil } := by
  unfold unlockFailed
  rw [(logErr_logsOnly ..).session, session_setSession, if_pos rfl]
  simp

end

/-! ### Sessions of stations (19 R527) -/

section
variable {s : State} {p i : Nat} {mac : BitVec 48} {sq : W16} {c : MonCmd}

theorem exec_monReq_of_open (hp : p < 2) (hserves : monServes s = true)
    (h : findSlot s p (fun z => z.open_ && z.mac == mac) = some i) :
    exec (.monReq p mac sq c) s = .next (monRequest s p i sq c) := by
  rw [Laws.exec_monReq, execMonReq, decide_eq_true hp, hserves, h]
  rfl

theorem exec_monReq_full (hp : p < 2) (hserves : monServes s = true)
    (h : findSlot s p (fun z => z.open_ && z.mac == mac) = none) (hfull : findSlot s p (fun z => !z.open_) = none) :
    exec (.monReq p mac sq c) s = .next (emit s (.frame 4 p (some mac) sq [.num 0x10])) := by
  rw [Laws.exec_monReq, execMonReq, decide_eq_true hp, hserves, h, hfull]
  rfl

end

/-! ### Events, LOCK and the operator key -/

section
variable {s : State} {src : RegSrc} {v : W64}

theorem exec_breakReset_of_released (hserves : monServes s = true) (h : s.mon.breakHeld = false) :
    ∃ t, exec .breakReset s = .next t ∧ (session t 0).nonce = none ∧ (session t 0).parts = [] ∧ t.mon.breakHeld = true := by
  let ended : State := (setSession s 0 (fun z => { z with nonce := none, parts := [] })).setMon
    (fun m => { m with breakHeld := true })
  have hlog : LogsOnly ended (logEvt (bump ended (rk pMON 0x120) 16 1) pMON 0) :=
    (bump_logsOnly ..).trans (logEvt_logsOnly ..)
  have hsession : session ended 0 = { session s 0 with nonce := none, parts := [] } :=
    (session_setSession s 0 0 (fun z => { z with nonce := none, parts := [] })).trans (if_pos rfl)
  refine ⟨logEvt (bump ended (rk pMON 0x120) 16 1) pMON 0, ?_, ?_⟩
  · rw [Laws.exec_breakReset, execBreakReset, hserves, h]
    rfl
  rw [hlog.session, hlog.mon, hsession]
  exact ⟨rfl, rfl, rfl⟩

theorem exec_monCmdLock_byPf (hpf : ByPf s src pMON) (hup : s.lamp.gaveUp = false) (hrun : s.lamp.restarting = false)
    (hgo : v.getLsbD 0 = true) : exec (.monCmdLock src v) s = .next (setSession s 0 endSession) := by
  have hbit : bit v.toNat 0 = true := hgo
  rw [Laws.exec_monCmdLock, execMonCmdLock, lockWrite, pfOnly_byPf _ (by decide) (by decide) hpf, hpf.1]
  simp only [holdWrite, hup, hrun, hbit]
  rfl

theorem exec_opkeyCmd_byPf (hpf : ByPf s src pMON) (hup : s.lamp.gaveUp = false) (hrun : s.lamp.restarting = false)
    (hgo : v.getLsbD 32 = true) (hnew : s.mon.newKey = none) (hlen : 64 * (v.toNat / 64 % 2 ^ 21) + 512 ≤ 0x8000000)
    (hgood : reservoirBad s (64 * (v.toNat / 64 % 2 ^ 21)) 512 = false) : exec (.opkeyCmd src v) s =
      .next ((lastDone s lcOpkey (srcBank src) 0).setMon (fun m =>
        { m with newKey := some (reservoirRead s (64 * (v.toNat / 64 % 2 ^ 21)) 512) })) := by
  have hbit : bit v.toNat 32 = true := hgo
  have hbits : bits v.toNat 6 21 = v.toNat / 64 % 2 ^ 21 := rfl
  rw [Laws.exec_opkeyCmd, execOpkeyCmd, opkeyWrite, pfOnly_byPf _ (by decide) (by decide) hpf, hpf.1]
  simp only [holdWrite, hup, hrun, hbit, hbits, hnew, hgood]
  generalize 64 * (v.toNat / 64 % 2 ^ 21) = a at hlen ⊢
  have hroom : ¬ a + 512 > Config.reservoirBytes := Nat.not_lt.mpr hlen
  simp [hroom, onOk]

/-- A stored key ends the sessions that an operator key unlocked. -/
theorem exec_opkeyStored_of_new {key : List Byte} (h : s.mon.newKey = some key) : ∃ t, exec .opkeyStored s = .next t ∧
    t.mon.opkey = some key ∧ t.mon.newKey = none ∧ ∀ e ∈ t.mon.sessions, e.2.level ≠ 1 := by
  refine ⟨_, by rw [Laws.exec_opkeyStored, execOpkeyStored, h], rfl, rfl, fun e he => ?_⟩
  obtain ⟨e', -, rfl⟩ := List.mem_map.mp he
  split
  · exact (by decide : (0 : BitVec 2) ≠ 1)
  next hne => exact hne

end

/-! ### The statement -/

/-- Settles O56: what a command line is answered, what each command answers, the unlock exchange, and the events. That the
boot ROM refuses with PERM_FAULT, and that a lockout is judged before the key, are log entry 71. -/
theorem monitor : Obligations.Monitor := by
  intro s ss src off n v seq h mac sq
  refine ⟨fun hserves i c hi => ⟨fun hlevel hrom => ?_, fun hno => ?_⟩, fun hserves len lost hlong =>
    exec_help_discarded hserves hlong, rdCmd_good s _ off n, wrCmd_good s _ off v, eringCmd_good s n seq, rfl,
    resetMon_good s _ off n, emberReadCmd_good s off n, fun hslot hfree => ?erase, spirdCmd_good s off n, sardCmd_good s n v,
    fun hn => ⟨chalCmd_locked hn, chalCmd_challenges hn⟩, fun hn => ?part, fun nonce hnonce hparts => ?answer, ?lock,
    fun p i c hp _ hserves hfind => ?request, fun p c => exec_monReq_full, fun hserves => ⟨exec_breakReset_of_released hserves, ?_⟩,
    fun hok => ⟨?_, ?_⟩, fun hpf hup hrun => ⟨fun hgo => ?_, fun hgo hnew hlen hgood => ?_⟩,
    fun key => exec_opkeyStored_of_new⟩
  · rw [exec_monRows hi, monRow_runs hserves hlevel hrom]
    rfl
  · rw [exec_monRows hi, monRow_refused hserves hno]
    rfl
  case erase =>
    refine ⟨_, emberEraseCmd_good s off hslot hfree, ?_, ?_⟩ <;> rintro rfl <;> exact eraseEmber_slots s _
  case part =>
    refine ⟨_, ansCmd_stored h hn, ?_, ?_⟩
    · rw [session_setSession, if_pos rfl, tget_tput, if_pos rfl]
    · rw [session_setSession, if_pos rfl]
  case answer =>
    intro good
    have hlast := ansCmd_last h hnonce hparts
    refine ⟨fun hgood => ⟨_, hlast.trans (if_pos hgood), ?_⟩, fun hbad =>
      ⟨_, hlast.trans (if_neg (Bool.not_eq_true _ ▸ hbad)), ?_⟩⟩
    · rw [session_setSession, if_pos rfl, session_challengeEnded]
      exact ⟨rfl, rfl, rfl⟩
    · rw [unlockFailed_session, session_challengeEnded]
      exact ⟨rfl, rfl, fun hfew => if_neg (by dsimp only; omega), fun hmany => if_pos (by dsimp only; omega)⟩
  case lock => exact ⟨_, rfl, by rw [session_setSession, if_pos rfl]⟩
  case request =>
    rw [exec_monReq_of_open hp hserves hfind]
    exact ⟨fun hseq => congrArg _ (if_pos hseq), fun hseq => congrArg _ (if_neg hseq)⟩
  · rw [Laws.exec_framingError, execFramingError, if_pos hserves]
  · rw [Laws.exec_nonceExpiry, execNonceExpiry, hok]
    rfl
  · rw [Laws.exec_sessionTimeout, execSessionTimeout, hok]
    rfl
  · refine ⟨_, exec_monCmdLock_byPf hpf hup hrun hgo, ?_⟩
    rw [session_setSession, if_pos rfl]
    exact ⟨rfl, rfl⟩
  · exact ⟨_, exec_opkeyCmd_byPf hpf hup hrun hgo hnew hlen hgood, rfl, rfl⟩

end Sys2Proof.Proofs
end

section
/-! PROOFS. Power, pins, alerts and sensors (17 R489, R490; 19 R519 to R525, R528, R531; log entries 73 and 95). -/
namespace Sys2Proof.Proofs
open Sys2Proof Machine Safety Laws

/-! ### The main rails (R521 to R523) -/

/-- The main rails have gone off for a cause: every memory of the main domain is clear, and the factory's data are kept. -/
def RailsOff (s t : State) (cause : Byte) : Prop := t.power.mainOn = false ∧ t.power.pwrgd = false ∧
  t.power.offWait = true ∧ t.power.startCause = cause ∧ t.scratch = [] ∧ t.imem = [] ∧ t.reservoir = [] ∧
  t.store.cells = [] ∧ t.wicks = [] ∧ factoryData t = factoryData s

section
variable {s u : State} {cause : Byte}

theorem cutDump_power (s : State) : (cutDump s).power = s.power := by
  unfold cutDump
  split
  · rfl
  · split_ifs <;> rfl

theorem powerDown_off (h : factoryData u = factoryData s) : RailsOff s (powerDown u cause) cause :=
  ⟨rfl, rfl, rfl, rfl, rfl, rfl, rfl, rfl, rfl, (Keeping.powerDown_keeps (Keeping.Keeps.refl u)).2.1.trans h⟩

/-- The standing of POWER_CMD, what is due, and the pins are as before. -/
theorem powerDown_power (s : State) (cause : Byte) : let p := (powerDown s cause).power
    p.cmdOff = s.power.cmdOff ∧ p.powerDue = s.power.powerDue ∧ p.pwrEn = s.power.pwrEn := by
  have h := cutDump_power s
  exact ⟨(congrArg Power.cmdOff h :), (congrArg Power.powerDue h :), (congrArg Power.pwrEn h :)⟩

theorem whenDumped_none {f : State → State} {cmd : Byte} (h : s.lamp.dump = none) : whenDumped s cmd f = f s := by
  simp [whenDumped, h]

theorem whenDumped_some {f : State → State} {cmd : Byte} (h : s.lamp.dump ≠ none) :
    whenDumped s cmd f = s.setPower (fun p => { p with heldCmds := p.heldCmds ++ [cmd] }) := by
  simp [whenDumped, Option.isSome_iff_ne_none, h]

/-! ### POWER_CMD (R522, R525) -/

section
variable (hfeed : s.power.feed = true)
include hfeed

theorem exec_powerOn_of_feed : exec .powerOn s = .next (s.setPower (fun p =>
    { p with cmdOff := false, powerDue := p.powerDue || (p.pwrEn && !p.mainOn) })) := by
  rw [Laws.exec_powerOn, execPowerOn, hfeed]
  rfl

theorem exec_powerOff_of_feed : exec .powerOff s = .next (whenDumped s 2 turnOff) := by
  rw [Laws.exec_powerOff, execPowerOff, hfeed]
  rfl

theorem exec_cycle_of_feed (h : s.power.cycling = false) : exec .cycle s = .next (whenDumped s 3 turnCycle) := by
  rw [Laws.exec_cycle, execCycle, hfeed, h]
  rfl

theorem exec_coldReset_of_feed : exec .coldReset s = .next (whenDumped s 4 (turnReset · 7)) := by
  rw [Laws.exec_coldReset, execColdReset, hfeed]
  rfl

theorem exec_dynamicAddress_of_feed (addr : BitVec 7) :
    exec (.dynamicAddress addr) s = .next (s.setPower (fun p => { p with i3cAddr := some addr })) := by
  rw [Laws.exec_dynamicAddress, execDynamicAddress, if_pos hfeed]

end

section
variable (hon : s.power.mainOn = true)
include hon

theorem turnOff_off : RailsOff s (turnOff s) 2 ∧ (turnOff s).power.cmdOff = true ∧ (turnOff s).power.powerDue = false := by
  obtain ⟨hcmd, hdue, -⟩ := powerDown_power (s.setPower (fun p =>
    { p with cmdOff := true, cycling := false, powerDue := false })) 2
  rw [turnOff, if_pos (by exact hon)]
  exact ⟨powerDown_off rfl, hcmd, hdue⟩

theorem turnCycle_off : RailsOff s (turnCycle s) 3 ∧ (turnCycle s).power.powerDue = s.power.pwrEn := by
  obtain ⟨-, hdue, -⟩ := powerDown_power (s.setPower (fun p =>
    { p with cmdOff := false, cycling := true, powerDue := p.pwrEn })) 3
  rw [turnCycle, if_pos (by exact hon)]
  exact ⟨powerDown_off rfl, hdue⟩

theorem turnReset_on : turnReset s cause = moduleReset s cause := if_pos hon

theorem exec_pwrEnLow_off : ∃ t, exec .pwrEnLow s = .next t ∧ RailsOff s t 1 ∧ t.power.pwrEn = false ∧
    t.power.powerDue = false := by
  let low : State := s.setPower (fun p => { p with pwrEn := false, powerDue := false, cycling := false })
  obtain ⟨-, hdue, hen⟩ := powerDown_power low 1
  refine ⟨powerDown low 1, ?_, powerDown_off rfl, hen, hdue⟩
  rw [Laws.exec_pwrEnLow, execPwrEnLow]
  exact congrArg _ (if_pos (c := low.power.mainOn = true) hon)

end

/-- A held request waits for the end of the dump (R522). -/
theorem exec_power_held (hfeed : s.power.feed = true) (hdump : s.lamp.dump ≠ none) (hcycle : s.power.cycling = false)
    {i : Instr} {c : Byte} (hi : (i, c) ∈ [((.powerOff : Instr), (2 : Byte)), (.cycle, 3), (.coldReset, 4)]) :
    exec i s = .next (s.setPower (fun p => { p with heldCmds := p.heldCmds ++ [c] })) := by
  simp only [List.mem_cons, Prod.mk.injEq, List.not_mem_nil, or_false] at hi
  rcases hi with ⟨rfl, rfl⟩ | ⟨rfl, rfl⟩ | ⟨rfl, rfl⟩
  · rw [exec_powerOff_of_feed hfeed, whenDumped_some hdump]
  · rw [exec_cycle_of_feed hfeed hcycle, whenDumped_some hdump]
  · rw [exec_coldReset_of_feed hfeed, whenDumped_some hdump]

theorem exec_powerUp_of_due (hdue : s.power.powerDue = true) (hwait : s.power.offWait = false)
    (hfeed : s.power.feed = true) (htrip : s.power.tripped = false) (hoff : s.power.mainOn = false)
    (hen : s.power.pwrEn = true) : exec .powerUp s = .next (s.setPower (fun p =>
      { p with mainOn := true, pwrgd := true, powerDue := false, cycling := false })) := by
  have hready : (s.power.powerDue && !s.power.offWait && s.power.feed && !s.power.tripped && !s.power.mainOn &&
      s.power.pwrEn) = true := by rw [hdue, hwait, hfeed, htrip, hoff, hen]; rfl
  exact (Laws.exec_powerUp ..).trans (congrArg _ (if_pos hready))

/-! ### Trips (R519) -/

theorem trip_off (s : State) (cause : Byte) : RailsOff s (trip s cause) cause ∧ (trip s cause).power.tripped = true := by
  obtain ⟨hon, hgood, hwait, hcause, hmem⟩ := powerDown_off (u := s) (cause := cause) rfl
  exact ⟨⟨hon, hgood, hwait, hcause, hmem⟩, rfl⟩

/-- An alert leaves the main rails off. -/
theorem RailsOff.raiseAlert (h : RailsOff s u cause) (b : Nat) : RailsOff s (raiseAlert u b) cause := by
  rw [raiseAlert_eq]
  exact h

/-! ### Alerts and pins (R524, R528) -/

theorem getLsbD_cleared (a v held : W16) (b : Nat) :
    (a &&& ~~~(v &&& ~~~held)).getLsbD b = (a.getLsbD b && !(v.getLsbD b && !held.getLsbD b)) := by
  rcases Nat.lt_or_ge b 16 with hb | hb
  · simp [hb]
  · simp [BitVec.getLsbD_of_ge, hb]

theorem exec_alertRepeat_of_first {b : Nat} (hb : b < 16) (h : s.power.alert.getLsbD b = true)
    (hfirst : ∀ c < b, s.power.alert.getLsbD c = false) : exec .alertRepeat s = .next (emit s (.ibi b)) := by
  have hfind : (List.range 16).find? (fun i => s.power.alert.getLsbD i) = some b :=
    List.find?_range_eq_some.mpr ⟨h, List.mem_range.mpr hb, fun c hc => by simp [hfirst c hc]⟩
  rw [Laws.exec_alertRepeat, execAlertRepeat, hfind]

theorem exec_resetHeld_of_held {perst : Bool} (hpin : (if perst then s.power.perstN else s.power.sysResetN) = false)
    (hnew : s.power.heldNow.getLsbD (b2n perst) = false) : ∃ t, exec (.resetHeld perst) s = .next t ∧
      t.power.heldNow.getLsbD (b2n perst) = true ∧ t.power.alert.getLsbD 6 = true := by
  let held : State := s.setPower (fun p => { p with
    heldNow := p.heldNow ||| BitVec.ofNat 2 (2 ^ b2n perst), sysHeld := p.sysHeld || !perst,
    perstHeld := p.perstHeld || perst })
  have hheld : held.power.heldNow.getLsbD (b2n perst) = true := by
    cases perst <;> simp [held, b2n]
  have hnow : (raiseAlert held alHeld).power.heldNow = held.power.heldNow := by rw [raiseAlert_eq]
  have halert : (raiseAlert held alHeld).power.alert.getLsbD 6 = true := raiseAlert_bit _ (by decide)
  refine ⟨_, by rw [Laws.exec_resetHeld, execResetHeld, if_neg (by rw [hpin, hnew]; decide)], ?_⟩
  show (ite _ _ _ : State).power.heldNow.getLsbD _ = true ∧ (ite _ _ _ : State).power.alert.getLsbD 6 = true
  split
  · rw [(logErr_logsOnly ..).power]
    exact ⟨by rw [hnow]; exact hheld, halert⟩
  · exact ⟨by rw [setPower_power, hnow]; exact hheld, halert⟩

theorem exec_coolantFault_spec (s : State) : ∃ t, exec .coolantFault s = .next t ∧ t.power.coolantN = false ∧
    (coolantOn s = true → t.power.alert.getLsbD 9 = true) ∧ (coolantOn s = false → t = { s with power := t.power }) := by
  let low : State := s.setPower (fun p => { p with coolantN := false })
  have hlogged : (if low.power.mainOn then logEvt low pPWR 0 else low).power = low.power := by
    split
    · exact (logEvt_logsOnly ..).power
    · rfl
  refine ⟨if coolantOn s then raiseAlert (if low.power.mainOn then logEvt low pPWR 0 else low) alCoolant else low, rfl, ?_⟩
  cases hc : coolantOn s
  · exact ⟨rfl, nofun, fun _ => rfl⟩
  · refine ⟨?_, fun _ => raiseAlert_bit _ (by decide), nofun⟩
    rw [if_pos rfl, raiseAlert_eq]
    exact congrArg Power.coolantN hlogged

theorem exec_inputMasked_spec {n : Nat} (hc : coolantOn s = true) (hn : 1000 < n) : ∃ t,
    exec (.inputMasked n) s = .next t ∧ t.power.masked = true ∧ t.power.alert.getLsbD 5 = true := by
  let masked : State := s.setPower (fun p => { p with masked := true })
  have hlogged : (if masked.power.mainOn then logRecord (logEvt masked pPWR 1) pPWR { status := stFormat }
      else masked).power = masked.power := by
    split
    · exact ((logEvt_logsOnly ..).trans (logRecord_logsOnly ..)).power
    · rfl
  refine ⟨raiseAlert (if masked.power.mainOn then logRecord (logEvt masked pPWR 1) pPWR { status := stFormat }
    else masked) alMasked, ?_, ?_, raiseAlert_bit _ (by decide)⟩
  · rw [Laws.exec_inputMasked, execInputMasked, hc, decide_eq_true hn]
    rfl
  · rw [raiseAlert_eq]
    exact congrArg Power.masked hlogged

theorem exec_i3cComputeReset_of_up (hup : mainUp s = true) (hboot : s.lamp.booting = false) (hrun : frozen s = false) :
    exec .i3cComputeReset s = .next (autoReset s 4 0 false) := by
  have hready : (mainUp s && !s.lamp.booting && !frozen s) = true := by rw [hup, hboot, hrun]; decide
  rw [Laws.exec_i3cComputeReset, execI3cComputeReset, if_pos hready]

theorem exec_pinUnmask_byPf {src : RegSrc} {v : W64} (hpf : ByPf s src pPWR) (hgo : v.getLsbD 0 = true) :
    exec (.pinUnmask src v) s = .next (s.setPower (fun p => { p with masked := false })) := by
  have hbit : bit v.toNat 0 = true := hgo
  rw [Laws.exec_pinUnmask, execPinUnmask, unmaskWrite, pfOnly_byPf _ (by decide) (by decide) hpf, hpf.1, if_pos hbit]
  rfl

end

end Sys2Proof.Proofs
end

section
/-! PROOFS. Temperature sensors, and the statement on power and pins (17 R489, R490; 19 R531; log entries 73 and 95). -/
namespace Sys2Proof.Proofs
open Sys2Proof Machine Safety Laws

/-! ### Samples (R489, R490) -/

section
variable {s : State} {n : Nat} {raw : W16} {r : Int}

theorem toInt_ofInt_of_fits (h : -32768 ≤ r ∧ r < 32768) : (BitVec.ofInt 16 r).toInt = r := by
  rw [BitVec.toInt_ofInt]
  exact Int.bmod_eq_of_le (by omega) (by omega)

/-- A calibrated reading that fits its 16 bits. -/
theorem calibrated_of_fits (hr : r = raw.toInt + (tget 0 s.power.tempOffset n).toInt) (h : -32768 ≤ r ∧ r < 32768) :
    calibrated s n raw = (BitVec.ofInt 16 r, s) := by
  have hoffset : sval 32 (tget 0 s.power.tempOffset n).toNat = (tget 0 s.power.tempOffset n).toInt := by
    rw [sval_eq_toInt (by decide), BitVec.ofNat_toNat, BitVec.setWidth_eq]
  have hfits : fitsSigned 16 r = true := decide_eq_true (by norm_num; omega)
  unfold calibrated
  rw [sval_toNat, hoffset, ← hr]
  exact if_pos hfits

/-- The samples above the limit, one after another, this one among them. -/
def overCount (s : State) (n : Nat) (reading : W16) : Nat :=
  if decide (stopLimitOf s n < sval 16 reading.toNat) then (tget Sensor.fresh s.power.sensors n).overCount + 1 else 0

/-- A sensor's sample once it is read. -/
def sampleStored (s : State) (n : Nat) (reading : W16) : State :=
  s.setPower (fun p => { p with sensors := tput p.sensors n { tget Sensor.fresh s.power.sensors n with
    reading := reading, overCount := overCount s n reading, near := nearLimit s n reading } })

/-- The highest reading so far is kept. -/
def sampleTaken (s : State) (n : Nat) (reading : W16) : State :=
  if n < 65 ∧ sval 16 (sampleStored s n reading).power.peakTemp.toNat < sval 16 reading.toNat then
    (sampleStored s n reading).setPower (fun p => { p with peakTemp := reading, peakSensor := BitVec.ofNat 7 n })
  else sampleStored s n reading

/-- A reading that has come near its limit is reported. -/
def sampleReported (s : State) (n : Nat) (reading : W16) : State :=
  if nearLimit s n reading && !(tget Sensor.fresh s.power.sensors n).near && (sampleTaken s n reading).power.mainOn then
    raiseAlert (logEvt (sampleTaken s n reading) pTHM 0) alNear
  else sampleTaken s n reading

/-- What a sample leaves as it was, and what it leaves of its sensor. -/
theorem sampleReported_spec (s : State) (n : Nat) (reading : W16) : let t := sampleReported s n reading
    t.lamp = s.lamp ∧ t.power.mainOn = s.power.mainOn ∧
      (tget Sensor.fresh t.power.sensors n).reading = reading ∧
      (tget Sensor.fresh t.power.sensors n).overCount = overCount s n reading := by
  have htaken : (sampleTaken s n reading).lamp = s.lamp ∧ (sampleTaken s n reading).power.mainOn = s.power.mainOn ∧
      (sampleTaken s n reading).power.sensors = (sampleStored s n reading).power.sensors := by
    unfold sampleTaken
    split <;> exact ⟨rfl, rfl, rfl⟩
  have hreported : (sampleReported s n reading).lamp = (sampleTaken s n reading).lamp ∧
      (sampleReported s n reading).power.mainOn = (sampleTaken s n reading).power.mainOn ∧
      (sampleReported s n reading).power.sensors = (sampleTaken s n reading).power.sensors := by
    unfold sampleReported
    split
    · rw [raiseAlert_eq, (logEvt_logsOnly ..).lamp, (logEvt_logsOnly ..).power]
      exact ⟨rfl, rfl, rfl⟩
    · exact ⟨rfl, rfl, rfl⟩
  obtain ⟨hlamp, hon, hsensors⟩ := htaken
  obtain ⟨hlamp', hon', hsensors'⟩ := hreported
  refine ⟨hlamp'.trans hlamp, hon'.trans hon, ?_⟩
  rw [hsensors', hsensors, sampleStored, setPower_power, tget_tput, if_pos rfl]
  exact ⟨rfl, rfl⟩

theorem sample_of_reading {reading : W16} (hworks : (tget Sensor.fresh s.power.sensors n).failed = false)
    (hcal : calibrated s n raw = (reading, s)) : sample s n raw =
      if 3 ≤ overCount s n reading ∧ (sampleReported s n reading).power.mainOn ∧ ¬ (sampleReported s n reading).lamp.fatal
        then fatalStop (sampleReported s n reading) 1 (BitVec.ofNat 8 n) reading else sampleReported s n reading := by
  have hread : (if (tget Sensor.fresh s.power.sensors n).failed = true then
      ((substitute s n).getD (tget Sensor.fresh s.power.sensors n).reading, s) else calibrated s n raw) = (reading, s) := by
    rw [if_neg (by rw [hworks]; decide), hcal]
  simp only [sample, hread]
  rfl

theorem exec_sensorSample_of_lt (hn : n < 66) : exec (.sensorSample n raw) s = .next (sample s n raw) := by
  have hok : sensorOk n = true := decide_eq_true hn
  rw [Laws.exec_sensorSample, execSensorSample, hok]
  rfl

/-- A failed self-check is recorded. -/
theorem exec_sensorFail_of_works (hn : n < 66) (hworks : (tget Sensor.fresh s.power.sensors n).failed = false) :
    ∃ t, exec (.sensorFail n) s = .next t ∧ (tget Sensor.fresh t.power.sensors n).failed = true ∧
      (regGet t (rk pTHM 0x20)).getLsbD 0 = true := by
  have hok : sensorOk n = true := decide_eq_true hn
  have hnot : ¬ failedSensor s n = true := by rw [failedSensor, hworks]; decide
  refine ⟨_, by rw [Laws.exec_sensorFail, execSensorFail, hok, if_neg hnot]; rfl, ?_, logErr_errStat _ _ _ (by decide)⟩
  rw [(logErr_logsOnly ..).power, setPower_power, tget_tmod, if_pos rfl]

theorem stopLimit_lt_iff (h : -32768 ≤ r ∧ r < 32768) :
    stopLimitOf s n < sval 16 (BitVec.ofInt 16 r).toNat ↔ stopLimitOf s n < r := by
  rw [sval_toNat, toInt_ofInt_of_fits h]

/-- A sample within its limit. -/
theorem sample_within (hworks : (tget Sensor.fresh s.power.sensors n).failed = false)
    (hr : r = raw.toInt + (tget 0 s.power.tempOffset n).toInt) (h : -32768 ≤ r ∧ r < 32768) (hlimit : r ≤ stopLimitOf s n) :
    let t := sample s n raw
    (tget Sensor.fresh t.power.sensors n).reading = BitVec.ofInt 16 r ∧
      (tget Sensor.fresh t.power.sensors n).overCount = 0 ∧ t.lamp.fatal = s.lamp.fatal := by
  have hcount : overCount s n (BitVec.ofInt 16 r) = 0 :=
    if_neg (by rw [decide_eq_true_eq, stopLimit_lt_iff h]; omega)
  obtain ⟨hlamp, -, hreading, hover⟩ := sampleReported_spec s n (BitVec.ofInt 16 r)
  rw [sample_of_reading hworks (calibrated_of_fits hr h), hcount, if_neg (by omega)]
  exact ⟨hreading, hover.trans hcount, congrArg Lamp.fatal hlamp⟩

/-- The third sample above the limit is a fatal stop. -/
theorem sample_above (hworks : (tget Sensor.fresh s.power.sensors n).failed = false)
    (hr : r = raw.toInt + (tget 0 s.power.tempOffset n).toInt) (h : -32768 ≤ r ∧ r < 32768) (hlimit : stopLimitOf s n < r)
    (hover : 2 ≤ (tget Sensor.fresh s.power.sensors n).overCount) (hon : s.power.mainOn = true) :
    let t := sample s n raw
    t.lamp.fatal = true ∧ (s.lamp.fatal = false → s.lamp.dump = none → t.host.stopped = true) := by
  have hcount : overCount s n (BitVec.ofInt 16 r) = (tget Sensor.fresh s.power.sensors n).overCount + 1 :=
    if_pos (by rw [decide_eq_true_eq, stopLimit_lt_iff h]; exact hlimit)
  obtain ⟨hlamp, hon', -⟩ := sampleReported_spec s n (BitVec.ofInt 16 r)
  rw [sample_of_reading hworks (calibrated_of_fits hr h), hcount, hon', hon, hlamp]
  cases hfatal : s.lamp.fatal
  · rw [if_pos ⟨by omega, rfl, by decide⟩]
    refine ⟨fatalStop_fatal .., fun _ hdump => ?_⟩
    obtain ⟨-, hhost, -⟩ := fatalStop_spec (s := sampleReported s n (BitVec.ofInt 16 r)) (by rw [hlamp, hdump]) 1
      (BitVec.ofNat 8 n) (BitVec.ofInt 16 r)
    exact hhost
  · rw [if_neg (by simp)]
    exact ⟨by rw [hlamp, hfatal], nofun⟩

end

/-- Settles O57: the rails, the pins, the alerts and the sensors. What MIN_OFF_TIME_END and FEED_CONNECT do, and when
memories are wiped, are log entry 73; the coolant input is read by its level (log entry 95, the model's choice). -/
theorem powerAndPins : Obligations.PowerAndPins := by
  intro s src v n raw al addr
  refine ⟨fun hfeed => ⟨⟨_, exec_powerOn_of_feed hfeed, rfl, rfl, rfl⟩, fun hdump hon => ⟨?_, fun hcycle => ?_, ?_⟩,
    fun hdump hcycle i c hi => exec_power_held hfeed hdump hcycle hi, exec_dynamicAddress_of_feed hfeed addr⟩, ?_,
    ⟨_, rfl, rfl, getLsbD_cleared _ _ _⟩, fun b hb => exec_alertRepeat_of_first hb, fun hlow => ?_, exec_pwrEnLow_off,
    exec_powerUp_of_due, rfl, ?_, fun hlow => ?_, fun perst => exec_resetHeld_of_held, exec_coolantFault_spec s,
    exec_inputMasked_spec, exec_pinUnmask_byPf, fun hfeed => ?_, fun hfeed htrip => ?_, fun hfeed hon => ?_, ?_⟩
  · rw [exec_powerOff_of_feed hfeed, whenDumped_none hdump]
    exact ⟨_, rfl, turnOff_off hon⟩
  · rw [exec_cycle_of_feed hfeed hcycle, whenDumped_none hdump]
    exact ⟨_, rfl, turnCycle_off hon⟩
  · rw [exec_coldReset_of_feed hfeed, whenDumped_none hdump, turnReset_on hon]
    exact ⟨_, rfl, hon, rfl, rfl, rfl, rfl, rfl⟩
  · exact exec_i3cComputeReset_of_up
  · rw [Laws.exec_pwrEnHigh, execPwrEnHigh, if_neg (by rw [hlow]; decide)]
    exact ⟨_, rfl, rfl, rfl, rfl⟩
  · intro hhigh hon hdump
    rw [Laws.exec_sysResetAssert, execSysResetAssert, hhigh, if_neg (by decide)]
    refine ⟨moduleReset (s.setPower (fun p => { p with sysResetN := false })) 6, ?_, rfl, rfl, rfl, rfl, rfl⟩
    rw [whenDumped_none (by exact hdump), turnReset_on (by exact hon)]
  · rw [Laws.exec_sysResetRelease, execSysResetRelease, if_neg (by rw [hlow]; decide)]
    exact ⟨_, rfl, rfl, rfl, by simp⟩
  · rw [Laws.exec_feedConnect, execFeedConnect, if_neg (by simp [hfeed])]
    exact ⟨_, rfl, rfl, rfl, rfl, rfl⟩
  · rw [Laws.exec_inputRangeTrip, execInputRangeTrip, hfeed, htrip]
    exact ⟨_, rfl, trip_off s 5⟩
  · rw [Laws.exec_overcurrentTrip, execOvercurrentTrip, hfeed, hon]
    obtain ⟨hoff, htripped⟩ := trip_off s 4
    exact ⟨_, rfl, hoff.raiseAlert _, by rw [raiseAlert_eq]; exact htripped, raiseAlert_bit _ (by decide)⟩
  · intro hn z r hworks
    refine ⟨fun hlow hhigh hlimit => ⟨_, exec_sensorSample_of_lt hn, sample_within hworks rfl ⟨hlow, hhigh⟩ hlimit⟩,
      fun hlow hhigh hlimit hover hon => ⟨_, exec_sensorSample_of_lt hn, ?_⟩, exec_sensorFail_of_works hn hworks⟩
    exact sample_above hworks rfl ⟨hlow, hhigh⟩ hlimit hover hon

end Sys2Proof.Proofs
end
